-- ==== Sys2Proof/Word.lean ====
section
/-! DEFINITION. The words of the machine (R4, R14, R15): 64-bit registers, bytes, the eight-lane
vector of a v register (R99), and the plainest arithmetic on them. -/

namespace Sys2Proof

/-- A 64-bit register or scalar token (R79, R99). -/
abbrev Word := BitVec 64

/-- One byte of memory (R5). -/
abbrev Byte := BitVec 8

/-- `x[hi:lo]` of R4, as a natural number: `len` bits from bit `lo`. -/
def field (w : Word) (lo len : Nat) : Nat := w.toNat / 2 ^ lo % 2 ^ len

/-- One bit of a word (R4). -/
def bitAt (w : Word) (n : Nat) : Bool := w.toNat / 2 ^ n % 2 == 1

/-- `sint` of an n-bit number (R15). -/
def sintN (n : Nat) (x : Nat) : Int :=
  if x % 2 ^ n < 2 ^ (n - 1) then (x % 2 ^ n : Nat) else (x % 2 ^ n : Nat) - (2 ^ n : Nat)

/-- An integer assigned to `bits(n)` keeps its low n bits (R14). -/
def toBits (n : Nat) (x : Int) : Nat := (x % (2 ^ n : Nat)).toNat

/-- An integer assigned to `bits(64)` (R14). -/
def wordOfInt (x : Int) : Word := BitVec.ofInt 64 x

/-- Eight 64-bit lanes, lane 0 lowest (R99). -/
structure Vec where
  l0 : Word
  l1 : Word
  l2 : Word
  l3 : Word
  l4 : Word
  l5 : Word
  l6 : Word
  l7 : Word
  deriving DecidableEq, Repr

/-- The vector whose lane i is `f i`. -/
def Vec.ofFn (f : Nat → Word) : Vec := ⟨f 0, f 1, f 2, f 3, f 4, f 5, f 6, f 7⟩

/-- Lane i of a vector; a vector has lanes 0 to 7 only. -/
def Vec.get (v : Vec) : Nat → Word
  | 0 => v.l0
  | 1 => v.l1
  | 2 => v.l2
  | 3 => v.l3
  | 4 => v.l4
  | 5 => v.l5
  | 6 => v.l6
  | _ => v.l7

/-- The vector with every lane `w` (R82, R258). -/
def Vec.splat (w : Word) : Vec := Vec.ofFn fun _ => w

/-- The zero vector. -/
def Vec.zero : Vec := Vec.splat 0

/-- The 8-bit mask whose bit i is `f i` (R79). -/
def mask8 (f : Nat → Bool) : BitVec 8 :=
  BitVec.ofNat 8 ((f 0).toNat + 2 * (f 1).toNat + 4 * (f 2).toNat + 8 * (f 3).toNat +
    16 * (f 4).toNat + 32 * (f 5).toNat + 64 * (f 6).toNat + 128 * (f 7).toNat)

/-- The lanes, in lane order. -/
def laneList : List Nat := [0, 1, 2, 3, 4, 5, 6, 7]

/-- Little-endian bytes of a number (R5): n bytes, the lowest first. -/
def leBytes : Nat → Nat → List Byte
  | 0, _ => []
  | n + 1, x => BitVec.ofNat 8 x :: leBytes n (x / 256)

/-- The number that little-endian bytes hold (R5). -/
def ofBytes : List Byte → Nat
  | [] => 0
  | b :: bs => b.toNat + 256 * ofBytes bs

end Sys2Proof
end

