-- ==== Sys2Proof/Machine/AMap.lean ====
section
/-! DEFINITION. Finite maps as plain data: lists of (key, value) pairs with strictly rising keys and no
entry equal to what an unlisted key reads as, so that equal maps are equal lists. Memory (R5, R131),
register files (R99) and every table of the machine are held in this form. -/

namespace Sys2Proof.Machine

/-- A map from keys to values: strictly rising keys. -/
abbrev AMap (β : Type) := List (Nat × β)

/-- The listed value of a key. -/
def AMap.find {β : Type} (k : Nat) : AMap β → Option β
  | [] => none
  | (j, x) :: m => if j = k then some x else AMap.find k m

/-- The value of a key; an unlisted key reads as `d`. -/
def AMap.get {β : Type} (d : β) (k : Nat) (m : AMap β) : β := (AMap.find k m).getD d

/-- Lists `x` at a key, in key order, replacing what was listed there. -/
def AMap.ins {β : Type} (k : Nat) (x : β) : AMap β → AMap β
  | [] => [(k, x)]
  | (j, y) :: m =>
    if k < j then (k, x) :: (j, y) :: m
    else if k = j then (k, x) :: m
    else (j, y) :: AMap.ins k x m

/-- Removes a key, wherever it is listed. -/
def AMap.del {β : Type} (k : Nat) : AMap β → AMap β
  | [] => []
  | (j, y) :: m => if k = j then AMap.del k m else (j, y) :: AMap.del k m

/-- Writes a key; the value an unlisted key reads as is not listed. -/
def AMap.put {β : Type} [DecidableEq β] (d : β) (k : Nat) (x : β) (m : AMap β) : AMap β :=
  if x = d then AMap.del k m else AMap.ins k x m

/-- Applies a function to the value of a key. -/
def AMap.upd {β : Type} [DecidableEq β] (d : β) (k : Nat) (f : β → β) (m : AMap β) : AMap β :=
  AMap.put d k (f (AMap.get d k m)) m

/-- Applies a function to a listed value; an unlisted key stays unlisted. -/
def AMap.modify {β : Type} (k : Nat) (f : β → β) : AMap β → AMap β
  | [] => []
  | (j, y) :: m => if j = k then (j, f y) :: m else (j, y) :: AMap.modify k f m

/-- The listed keys. -/
def AMap.keys {β : Type} (m : AMap β) : List Nat := m.map Prod.fst

/-- Every listed key is above `b`, and the keys rise. -/
def AMap.sortedAbove {β : Type} : Option Nat → AMap β → Bool
  | _, [] => true
  | b, (j, _) :: m => (match b with | none => true | some i => decide (i < j)) && AMap.sortedAbove (some j) m

/-- The canonical form: keys strictly rise and no entry equals the default. -/
def AMap.wf {β : Type} [DecidableEq β] (d : β) (m : AMap β) : Bool :=
  AMap.sortedAbove none m && m.all fun p => decide (p.2 ≠ d)

end Sys2Proof.Machine
end

