-- ==== Sys2Proof/Syntax.lean ====
section
/-! DEFINITION. The steps of the Fralith W2 as one inductive: one constructor for every row of
spec/opcode_table.json, the encoded instructions first (R192 to R205) and then the events that the
hardware, the firmware and the host bring about (95_what_each_step_holds.md). -/

namespace Sys2Proof

/-- A 10-bit target field (R194): bits [9:2] the index, bits [1:0] the slot, 0x3FF for none. -/
abbrev Target := BitVec 10

/-- The predication of an instruction (R195); PR = 11 is no instruction (R205). -/
inductive Pr where
  | always
  | onTrue
  | onFalse
  deriving DecidableEq, Repr

/-- The register that READ and WRITE name (R199): scalar, vector or operand extension. -/
inductive Reg where
  | s (n : BitVec 5)
  | v (n : BitVec 5)
  | ox (n : BitVec 2)
  deriving DecidableEq, Repr

/-- A request that comes from another module over Boder (R434, R435): origin module, context tag, operation (0 read,
1 write, 2 atomic with its minor, operand and comparison value), region-virtual address at this module, size,
data, of which an absent byte is a null lane's and is not written, and the thread set that posts it with its posting sequence,
by which the target orders what comes for one 64-byte line (R138). -/
structure RemoteReq where
  origin : Nat
  tag    : Nat
  op     : Nat
  addr   : Nat
  size   : Nat
  data   : List (Option Byte)
  minor  : Nat
  b      : Nat
  cmp    : Nat
  poster : Nat
  seq    : Nat
  deriving DecidableEq, Repr

/-- The body of a COLL message (R435, R436, R438). -/
inductive CollMsg where
  /-- Declares a collective: its number, the word's region-virtual address, the member count and the region. -/
  | declare (id addr members rgn : Nat)
  /-- Removes a collective. -/
  | remove (id : Nat)
  /-- Writes entry `ent` of the pairing table: origin module, context tag, local context. -/
  | pair (ent origin tag ctx : Nat)
  /-- A reserved code or a bad argument: an error, and nothing changes. -/
  | bad
  deriving DecidableEq, Repr

/-- What the header and signature of a firmware image show when they are checked (R441). -/
structure FwImage where
  svn     : Nat
  len     : Nat
  digest  : Nat
  chainOk : Bool
  sigOk   : Bool
  deriving DecidableEq, Repr

/-- The steps of the machine, one constructor per row of the opcode table. -/
inductive Instr where
  /-- READ (R220). Delivers the block-start value of a scalar, vector or ox register, or the next group of a bound input stream. -/
  | read (r : Reg) (t0 : Target)
  /-- WRITE (R221). Writes the received token to a register at commit, or appends to a bound output stream. -/
  | write (r : Reg)
  /-- MOV (R222). Passes its left token unchanged to up to two targets. -/
  | mov (pr : Pr) (v : Bool) (t0 t1 : Target)
  /-- MOVI (R222). Delivers the sign-extended 12-bit immediate as a scalar. -/
  | movi (pr : Pr) (imm : BitVec 12) (t0 : Target)
  /-- MOVHI (R222). Delivers the left operand shifted left 12 bits ORed with the zero-extended immediate. -/
  | movhi (pr : Pr) (imm : BitVec 12) (t0 : Target)
  /-- NULL (R222). Delivers null once its left operand has arrived. -/
  | null (pr : Pr) (v : Bool) (t0 t1 : Target)
  /-- SEL (R223). Selects left or right by a scalar, lane-mask or vector selector in the third slot. -/
  | sel (pr : Pr) (v : Bool) (t0 t1 : Target)
  /-- JOIN (R224). Merges two paths into one token, passing the non-null operand. -/
  | join (pr : Pr) (v : Bool) (t0 t1 : Target)
  /-- SETX (R225). Delivers block-start ox N with the masked field at POS replaced by the left value. -/
  | setx (pr : Pr) (n : BitVec 4) (pos : BitVec 6) (t0 : Target)
  /-- GETX (R226). Delivers block-start ox N shifted right by POS. -/
  | getx (pr : Pr) (n : BitVec 4) (pos : BitVec 6) (t0 : Target)
  /-- GETX_BLR (R226). Delivers BLR as it stood at block start. -/
  | getxBlr (pr : Pr) (t0 : Target)
  /-- STAT_COORD (R227). Delivers the region-virtual coordinate of the running tile. -/
  | statCoord (pr : Pr) (t0 : Target)
  /-- STAT_TSID (R227). Delivers the thread set number. -/
  | statTsid (pr : Pr) (t0 : Target)
  /-- STAT_STAGE (R227). Delivers H0.STAGE of the current packet. -/
  | statStage (pr : Pr) (t0 : Target)
  /-- STAT_SEQ (R227). Delivers H0.SEQ of the current packet. -/
  | statSeq (pr : Pr) (t0 : Target)
  /-- STAT_CYCLE (R227). Delivers the tile's cycle count, sampled when the instruction fires. -/
  | statCycle (pr : Pr) (t0 : Target)
  /-- STAT_TLCCE (R227). Delivers the copy timeline counter without acquire semantics. -/
  | statTlcce (pr : Pr) (t0 : Target)
  /-- STAT_TLCME (R227). Delivers the matrix timeline counter without acquire semantics. -/
  | statTlcme (pr : Pr) (t0 : Target)
  /-- STAT_FLAGS (R227). Delivers FLAGS as at block start. -/
  | statFlags (pr : Pr) (t0 : Target)
  /-- STAT_MEXC (R227). Delivers MEXC zero-extended, as at block start. -/
  | statMexc (pr : Pr) (t0 : Target)
  /-- STAT_ENERGY (R227). Delivers the context's energy meter on this tile and its saturation flag. -/
  | statEnergy (pr : Pr) (t0 : Target)
  /-- STATW (R228). At commit clears sticky flags and MEXC and sets the default rounding mode and saturate flag. -/
  | statw (pr : Pr) (cf cm sd : Bool) (drm : BitVec 2) (dsat : Bool)
  /-- ADD (R231). Lane-wise addition modulo 2^64. -/
  | add (pr : Pr) (v : Bool) (t0 t1 : Target)
  /-- SUB (R231). Lane-wise subtraction modulo 2^64. -/
  | sub (pr : Pr) (v : Bool) (t0 t1 : Target)
  /-- ADDI (R231). Adds the sign-extended immediate to the left operand. -/
  | addi (pr : Pr) (imm : BitVec 12) (t0 : Target)
  /-- MUL_LO (R231). Delivers the low 64 bits of the product. -/
  | mulLo (pr : Pr) (t0 : Target)
  /-- MUL_HI (R231). Delivers the high 64 bits of the signed product. -/
  | mulHi (pr : Pr) (t0 : Target)
  /-- MUL_HIU (R231). Delivers the high 64 bits of the unsigned product. -/
  | mulHiu (pr : Pr) (t0 : Target)
  /-- DIV (R232). Signed division towards zero; division by zero delivers 0 and raises IDZ. -/
  | div (pr : Pr) (t0 : Target)
  /-- DIVU (R232). Unsigned division; division by zero delivers 0 and raises IDZ. -/
  | divu (pr : Pr) (t0 : Target)
  /-- REM (R232). Signed remainder with the dividend's sign; division by zero delivers the dividend and raises IDZ. -/
  | rem (pr : Pr) (t0 : Target)
  /-- REMU (R232). Unsigned remainder; division by zero delivers the dividend and raises IDZ. -/
  | remu (pr : Pr) (t0 : Target)
  /-- AND (R231). Lane-wise bitwise AND. -/
  | and (pr : Pr) (v : Bool) (t0 t1 : Target)
  /-- OR (R231). Lane-wise bitwise OR. -/
  | or (pr : Pr) (v : Bool) (t0 t1 : Target)
  /-- XOR (R231). Lane-wise bitwise XOR. -/
  | xor (pr : Pr) (v : Bool) (t0 t1 : Target)
  /-- ANDI (R231). Bitwise AND with the sign-extended immediate. -/
  | andi (pr : Pr) (imm : BitVec 12) (t0 : Target)
  /-- ORI (R231). Bitwise OR with the sign-extended immediate. -/
  | ori (pr : Pr) (imm : BitVec 12) (t0 : Target)
  /-- XORI (R231). Bitwise XOR with the sign-extended immediate. -/
  | xori (pr : Pr) (imm : BitVec 12) (t0 : Target)
  /-- SHL (R231). Logical shift left by the right operand's low six bits. -/
  | shl (pr : Pr) (t0 : Target)
  /-- SHR (R231). Logical shift right by the right operand's low six bits. -/
  | shr (pr : Pr) (t0 : Target)
  /-- SAR (R231). Arithmetic shift right by the right operand's low six bits. -/
  | sar (pr : Pr) (t0 : Target)
  /-- ROT (R231). Rotate left by the right operand's low six bits. -/
  | rot (pr : Pr) (t0 : Target)
  /-- SHLI (R231). Logical shift left by an immediate amount. -/
  | shli (pr : Pr) (n : BitVec 6) (t0 : Target)
  /-- SHRI (R231). Logical shift right by an immediate amount. -/
  | shri (pr : Pr) (n : BitVec 6) (t0 : Target)
  /-- SARI (R231). Arithmetic shift right by an immediate amount. -/
  | sari (pr : Pr) (n : BitVec 6) (t0 : Target)
  /-- ROTI (R231). Rotate left by an immediate amount. -/
  | roti (pr : Pr) (n : BitVec 6) (t0 : Target)
  /-- CLZ (R231). Counts leading zero bits. -/
  | clz (pr : Pr) (t0 : Target)
  /-- CTZ (R231). Counts trailing zero bits. -/
  | ctz (pr : Pr) (t0 : Target)
  /-- POPC (R231). Counts one bits. -/
  | popc (pr : Pr) (t0 : Target)
  /-- BREV (R231). Reverses the bit order. -/
  | brev (pr : Pr) (t0 : Target)
  /-- BSWAP (R231). Reverses the byte order. -/
  | bswap (pr : Pr) (t0 : Target)
  /-- MIN (R231). Signed minimum. -/
  | min (pr : Pr) (t0 : Target)
  /-- MAX (R231). Signed maximum. -/
  | max (pr : Pr) (t0 : Target)
  /-- MINU (R231). Unsigned minimum. -/
  | minu (pr : Pr) (t0 : Target)
  /-- MAXU (R231). Unsigned maximum. -/
  | maxu (pr : Pr) (t0 : Target)
  /-- CMPEQ (R233). Compares for equality, delivering a scalar 0/1 or a lane mask. -/
  | cmpeq (pr : Pr) (t0 : Target)
  /-- CMPNE (R233). Compares for inequality. -/
  | cmpne (pr : Pr) (t0 : Target)
  /-- CMPLT (R233). Signed less-than compare. -/
  | cmplt (pr : Pr) (t0 : Target)
  /-- CMPLE (R233). Signed less-or-equal compare. -/
  | cmple (pr : Pr) (t0 : Target)
  /-- CMPLTU (R233). Unsigned less-than compare. -/
  | cmpltu (pr : Pr) (t0 : Target)
  /-- CMPLEU (R233). Unsigned less-or-equal compare. -/
  | cmpleu (pr : Pr) (t0 : Target)
  /-- CMPEQI (R233). Compares the left operand for equality with the sign-extended immediate. -/
  | cmpeqi (pr : Pr) (imm : BitVec 12) (t0 : Target)
  /-- CMPLTI (R233). Signed less-than compare with the immediate. -/
  | cmplti (pr : Pr) (imm : BitVec 12) (t0 : Target)
  /-- CMPLTUI (R233). Unsigned less-than compare with the sign-extended immediate. -/
  | cmpltui (pr : Pr) (imm : BitVec 12) (t0 : Target)
  /-- SEXTB (R231). Sign-extends the low byte. -/
  | sextb (pr : Pr) (t0 : Target)
  /-- SEXTH (R231). Sign-extends the low 16 bits. -/
  | sexth (pr : Pr) (t0 : Target)
  /-- SEXTW (R231). Sign-extends the low 32 bits. -/
  | sextw (pr : Pr) (t0 : Target)
  /-- ZEXTB (R231). Zero-extends the low byte. -/
  | zextb (pr : Pr) (t0 : Target)
  /-- ZEXTH (R231). Zero-extends the low 16 bits. -/
  | zexth (pr : Pr) (t0 : Target)
  /-- ZEXTW (R231). Zero-extends the low 32 bits. -/
  | zextw (pr : Pr) (t0 : Target)
  /-- BFX (R234). Extracts a w-bit field at POS, zero-extended. -/
  | bfx (pr : Pr) (pos w : BitVec 6) (t0 : Target)
  /-- BFI (R234). Inserts the low w bits of left into right at POS. -/
  | bfi (pr : Pr) (pos w : BitVec 6) (t0 : Target)
  /-- LEA (R235). Delivers a plus b shifted left by sc, modulo 2^64. -/
  | lea (pr : Pr) (sc : BitVec 3) (t0 : Target)
  /-- CRDX (R236). Extracts x from a packed coordinate. -/
  | crdx (pr : Pr) (t0 : Target)
  /-- CRDY (R236). Extracts y from a packed coordinate. -/
  | crdy (pr : Pr) (t0 : Target)
  /-- CRDPK (R236). Packs x from left and y from right into a coordinate. -/
  | crdpk (pr : Pr) (t0 : Target)
  /-- RECT (R236). Builds a normalised rectangle operand from two packed corners. -/
  | rect (pr : Pr) (t0 : Target)
  /-- BR (R238). Exit that sets BPC to the block address plus the signed offset at commit. -/
  | br (pr : Pr) (off : BitVec 20)
  /-- CALL (R238). Exit that sets BLR to the next block and BPC to the offset destination at commit. -/
  | call (pr : Pr) (off : BitVec 20)
  /-- BRI (R239). Indirect exit to the address in its left operand, checked for space 3 and alignment. -/
  | bri (pr : Pr)
  /-- CALLI (R239). Indirect call: sets BLR to the next block and BPC to the left address. -/
  | calli (pr : Pr)
  /-- RET (R238). Exit that sets BPC to the block-start BLR. -/
  | ret (pr : Pr)
  /-- DONE (R240). Ends the task: releases the packet, emits completion tokens and holes, clears bindings and frees the thread set. -/
  | done (pr : Pr)
  /-- YIELD (R241). Ends the invocation, keeping the packet, which becomes eligible again after 1,024 tile cycles. -/
  | yield (pr : Pr)
  /-- TRAP (R242). Commits the block, sets BPC to the next block, stops the thread set and sends a trap fault token. -/
  | trap (pr : Pr) (imm : BitVec 12)
  /-- FADD (R246). WF64 addition rounded once to nearest even. -/
  | fadd (pr : Pr) (v : Bool) (t0 t1 : Target)
  /-- FSUB (R246). WF64 subtraction rounded once. -/
  | fsub (pr : Pr) (v : Bool) (t0 t1 : Target)
  /-- FMUL (R246). WF64 multiplication rounded once. -/
  | fmul (pr : Pr) (v : Bool) (t0 t1 : Target)
  /-- FMA (R247). Fused a × b + c rounded once. -/
  | fma (pr : Pr) (v : Bool) (t0 t1 : Target)
  /-- FNMA (R247). Fused c − a × b rounded once. -/
  | fnma (pr : Pr) (v : Bool) (t0 t1 : Target)
  /-- FMIN (R249). Delivers the smaller WF64 value, ignoring a single NaN. -/
  | fmin (pr : Pr) (t0 : Target)
  /-- FMAX (R249). Delivers the larger WF64 value, ignoring a single NaN. -/
  | fmax (pr : Pr) (t0 : Target)
  /-- FDIV (R248). WF64 division rounded once. -/
  | fdiv (pr : Pr) (v : Bool) (t0 t1 : Target)
  /-- FSQRT (R248). WF64 square root rounded once. -/
  | fsqrt (pr : Pr) (v : Bool) (t0 t1 : Target)
  /-- FABS (R250). Delivers the canonical absolute value. -/
  | fabs (pr : Pr) (t0 : Target)
  /-- FNEG (R250). Delivers the canonical negation. -/
  | fneg (pr : Pr) (t0 : Target)
  /-- FRCP (R251). Correctly rounded reciprocal. -/
  | frcp (pr : Pr) (t0 : Target)
  /-- FRSQ (R251). Correctly rounded reciprocal square root. -/
  | frsq (pr : Pr) (t0 : Target)
  /-- FEXP2 (R251). Correctly rounded 2^a. -/
  | fexp2 (pr : Pr) (t0 : Target)
  /-- FLOG2 (R251). Correctly rounded log2 a. -/
  | flog2 (pr : Pr) (t0 : Target)
  /-- FTANH (R251). Correctly rounded tanh a. -/
  | ftanh (pr : Pr) (t0 : Target)
  /-- FSIN (R251). Correctly rounded sin a in radians. -/
  | fsin (pr : Pr) (t0 : Target)
  /-- FCMPEQ (R252). WF64 equality compare by value. -/
  | fcmpeq (pr : Pr) (t0 : Target)
  /-- FCMPLT (R252). WF64 less-than compare. -/
  | fcmplt (pr : Pr) (t0 : Target)
  /-- FCMPLE (R252). WF64 less-or-equal compare. -/
  | fcmple (pr : Pr) (t0 : Target)
  /-- FCMPUN (R252). Holds when either operand is a NaN. -/
  | fcmpun (pr : Pr) (t0 : Target)
  /-- F2I (R253). Converts WF64 to INT64 with the encoded mode and saturate flag. -/
  | f2i (pr : Pr) (sat : Bool) (rm : BitVec 2) (t0 : Target)
  /-- F2N (R253). Converts WF64 to UINT64. -/
  | f2n (pr : Pr) (sat : Bool) (rm : BitVec 2) (t0 : Target)
  /-- I2F (R253). Converts INT64 to WF64. -/
  | i2f (pr : Pr) (sat : Bool) (rm : BitVec 2) (t0 : Target)
  /-- N2F (R253). Converts UINT64 to WF64. -/
  | n2f (pr : Pr) (sat : Bool) (rm : BitVec 2) (t0 : Target)
  /-- FCLASS (R254). Delivers a class mask describing the WF64 encoding. -/
  | fclass (pr : Pr) (t0 : Target)
  /-- FSCALE (R255). Delivers a × 2^n rounded once, n read as an integer. -/
  | fscale (pr : Pr) (v : Bool) (t0 t1 : Target)
  /-- FRND_RNE (R256). Rounds to an integral value, ties to even. -/
  | frndRne (pr : Pr) (t0 : Target)
  /-- FRND_RZ (R256). Rounds to an integral value towards zero. -/
  | frndRz (pr : Pr) (t0 : Target)
  /-- FRND_RU (R256). Rounds to an integral value upwards. -/
  | frndRu (pr : Pr) (t0 : Target)
  /-- FRND_RD (R256). Rounds to an integral value downwards. -/
  | frndRd (pr : Pr) (t0 : Target)
  /-- VBCAST (R258). Broadcasts a scalar to all eight lanes. -/
  | vbcast (pr : Pr) (v : Bool) (t0 t1 : Target)
  /-- VEXTR (R258). Extracts lane k of a vector as a scalar. -/
  | vextr (pr : Pr) (k : BitVec 3) (t0 : Target)
  /-- VINS (R258). Replaces lane k of a vector with a scalar. -/
  | vins (pr : Pr) (k : BitVec 3) (t0 : Target)
  /-- VSHUF (R259). Permutes lanes by an index vector or scalar. -/
  | vshuf (pr : Pr) (v : Bool) (t0 t1 : Target)
  /-- VRED_SUM (R262). Integer sum of present lanes in the fixed tree. -/
  | vredSum (pr : Pr) (t0 : Target)
  /-- VRED_FSUM (R262). WF64 sum of present lanes in the fixed tree. -/
  | vredFsum (pr : Pr) (t0 : Target)
  /-- VRED_MIN (R262). Signed minimum of present lanes. -/
  | vredMin (pr : Pr) (t0 : Target)
  /-- VRED_MAX (R262). Signed maximum of present lanes. -/
  | vredMax (pr : Pr) (t0 : Target)
  /-- VRED_FMIN (R262). WF64 minimum of present lanes. -/
  | vredFmin (pr : Pr) (t0 : Target)
  /-- VRED_FMAX (R262). WF64 maximum of present lanes. -/
  | vredFmax (pr : Pr) (t0 : Target)
  /-- VRED_AND (R262). Bitwise AND of present lanes. -/
  | vredAnd (pr : Pr) (t0 : Target)
  /-- VRED_OR (R262). Bitwise OR of present lanes. -/
  | vredOr (pr : Pr) (t0 : Target)
  /-- VRED_XOR (R262). Bitwise XOR of present lanes. -/
  | vredXor (pr : Pr) (t0 : Target)
  /-- VSCAN_SUM (R263). Inclusive integer prefix sum in lane order. -/
  | vscanSum (pr : Pr) (t0 : Target)
  /-- VSCAN_FSUM (R263). Inclusive WF64 prefix sum in lane order. -/
  | vscanFsum (pr : Pr) (t0 : Target)
  /-- MAND (R264). AND of two lane masks. -/
  | mand (pr : Pr) (t0 : Target)
  /-- MOR (R264). OR of two lane masks. -/
  | mor (pr : Pr) (t0 : Target)
  /-- MNOT (R264). Complement of a lane mask. -/
  | mnot (pr : Pr) (t0 : Target)
  /-- MPOPC (R264). Count of set bits of a lane mask. -/
  | mpopc (pr : Pr) (t0 : Target)
  /-- MFIRST (R264). Index of the lowest set bit of a lane mask, or 8. -/
  | mfirst (pr : Pr) (t0 : Target)
  /-- MFROMS (R264). Lane mask from the low eight bits of a scalar. -/
  | mfroms (pr : Pr) (t0 : Target)
  /-- MTOS (R264). Scalar holding a lane mask in its low eight bits. -/
  | mtos (pr : Pr) (t0 : Target)
  /-- VIDX (R265). Vector whose lane i is b + i × s. -/
  | vidx (pr : Pr) (imm : BitVec 12) (t0 : Target)
  /-- VSLIDE (R260). Slides lanes by k, continuing from the right operand. -/
  | vslide (pr : Pr) (imm : BitVec 12) (t0 : Target)
  /-- VCOMP (R261). Packs the mask-selected non-null lanes into the low lanes. -/
  | vcomp (pr : Pr) (v : Bool) (t0 t1 : Target)
  /-- LD_B (R270). Loads one byte from space 0, zero-extended. -/
  | ldB (pr : Pr) (lsid : BitVec 5) (t0 : Target)
  /-- LD_H (R270). Loads two bytes from space 0. -/
  | ldH (pr : Pr) (lsid : BitVec 5) (t0 : Target)
  /-- LD_W (R270). Loads four bytes from space 0. -/
  | ldW (pr : Pr) (lsid : BitVec 5) (t0 : Target)
  /-- LD_D (R270). Loads eight bytes from space 0. -/
  | ldD (pr : Pr) (lsid : BitVec 5) (t0 : Target)
  /-- LD_L (R270). Loads 64 bytes from space 0 as a vector. -/
  | ldL (pr : Pr) (lsid : BitVec 5) (t0 : Target)
  /-- ST_B (R270). Stores one byte to space 0 at commit. -/
  | stB (pr : Pr) (lsid : BitVec 5) (t0 : Target)
  /-- ST_H (R270). Stores two bytes to space 0 at commit. -/
  | stH (pr : Pr) (lsid : BitVec 5) (t0 : Target)
  /-- ST_W (R270). Stores four bytes to space 0 at commit. -/
  | stW (pr : Pr) (lsid : BitVec 5) (t0 : Target)
  /-- ST_D (R270). Stores eight bytes to space 0 at commit. -/
  | stD (pr : Pr) (lsid : BitVec 5) (t0 : Target)
  /-- ST_L (R270). Stores 64 bytes from a vector to space 0 at commit. -/
  | stL (pr : Pr) (lsid : BitVec 5) (t0 : Target)
  /-- LDR_B (R272). Remote or local load of one byte, waiting for its reply. -/
  | ldrB (pr : Pr) (lsid : BitVec 5) (t0 : Target)
  /-- LDR_H (R272). Remote load of two bytes. -/
  | ldrH (pr : Pr) (lsid : BitVec 5) (t0 : Target)
  /-- LDR_W (R272). Remote load of four bytes. -/
  | ldrW (pr : Pr) (lsid : BitVec 5) (t0 : Target)
  /-- LDR_D (R272). Remote load of eight bytes. -/
  | ldrD (pr : Pr) (lsid : BitVec 5) (t0 : Target)
  /-- LDR_Q (R272). Remote load of 16 bytes into lanes 0–1. -/
  | ldrQ (pr : Pr) (lsid : BitVec 5) (t0 : Target)
  /-- LDR_O (R272). Remote load of 32 bytes into lanes 0–3. -/
  | ldrO (pr : Pr) (lsid : BitVec 5) (t0 : Target)
  /-- LDR_L (R272). Remote load of 64 bytes as a vector. -/
  | ldrL (pr : Pr) (lsid : BitVec 5) (t0 : Target)
  /-- STR_B (R273). Remote store of one byte, posted to the journal at commit. -/
  | strB (pr : Pr) (lsid : BitVec 5) (t0 : Target)
  /-- STR_H (R273). Remote store of two bytes. -/
  | strH (pr : Pr) (lsid : BitVec 5) (t0 : Target)
  /-- STR_W (R273). Remote store of four bytes. -/
  | strW (pr : Pr) (lsid : BitVec 5) (t0 : Target)
  /-- STR_D (R273). Remote store of eight bytes. -/
  | strD (pr : Pr) (lsid : BitVec 5) (t0 : Target)
  /-- STR_Q (R273). Remote store of 16 bytes from lanes 0–1. -/
  | strQ (pr : Pr) (lsid : BitVec 5) (t0 : Target)
  /-- STR_O (R273). Remote store of 32 bytes from lanes 0–3. -/
  | strO (pr : Pr) (lsid : BitVec 5) (t0 : Target)
  /-- STR_L (R273). Remote store of 64 bytes. -/
  | strL (pr : Pr) (lsid : BitVec 5) (t0 : Target)
  /-- AMO_AADD (R274). Atomic add performed at commit, old value to a WRITE. -/
  | amoAadd (pr : Pr) (lsid : BitVec 5) (dbl : Bool) (ord : BitVec 2) (t0 : Target)
  /-- AMO_AAND (R274). Atomic AND. -/
  | amoAand (pr : Pr) (lsid : BitVec 5) (dbl : Bool) (ord : BitVec 2) (t0 : Target)
  /-- AMO_AOR (R274). Atomic OR. -/
  | amoAor (pr : Pr) (lsid : BitVec 5) (dbl : Bool) (ord : BitVec 2) (t0 : Target)
  /-- AMO_AXOR (R274). Atomic XOR. -/
  | amoAxor (pr : Pr) (lsid : BitVec 5) (dbl : Bool) (ord : BitVec 2) (t0 : Target)
  /-- AMO_AMIN (R274). Atomic signed minimum. -/
  | amoAmin (pr : Pr) (lsid : BitVec 5) (dbl : Bool) (ord : BitVec 2) (t0 : Target)
  /-- AMO_AMAX (R274). Atomic signed maximum. -/
  | amoAmax (pr : Pr) (lsid : BitVec 5) (dbl : Bool) (ord : BitVec 2) (t0 : Target)
  /-- AMO_AMINN (R274). Atomic unsigned minimum. -/
  | amoAminn (pr : Pr) (lsid : BitVec 5) (dbl : Bool) (ord : BitVec 2) (t0 : Target)
  /-- AMO_AMAXN (R274). Atomic unsigned maximum. -/
  | amoAmaxn (pr : Pr) (lsid : BitVec 5) (dbl : Bool) (ord : BitVec 2) (t0 : Target)
  /-- AMO_AXCHG (R274). Atomic exchange. -/
  | amoAxchg (pr : Pr) (lsid : BitVec 5) (dbl : Bool) (ord : BitVec 2) (t0 : Target)
  /-- AMO_ACAS (R274). Atomic compare-and-swap. -/
  | amoAcas (pr : Pr) (lsid : BitVec 5) (dbl : Bool) (ord : BitVec 2) (t0 : Target)
  /-- FENCE_LOCAL (R276). Resolves once the thread set's committed stream appends are written. -/
  | fenceLocal (pr : Pr) (lsid : BitVec 5) (t0 : Target)
  /-- FENCE_RECT (R276). Resolves once earlier journal entries to the rectangle and DRAM are acknowledged or refused. -/
  | fenceRect (pr : Pr) (lsid : BitVec 5) (t0 : Target)
  /-- FENCE_CLUSTER (R276). As FENCE.RECT over the issuing cluster. -/
  | fenceCluster (pr : Pr) (lsid : BitVec 5) (t0 : Target)
  /-- FENCE_REGION (R276). As FENCE.RECT over the region, including space-4 entries. -/
  | fenceRegion (pr : Pr) (lsid : BitVec 5) (t0 : Target)
  /-- ACQ (R278). Reads a synchronisation object with acquire semantics. -/
  | acq (pr : Pr) (lsid : BitVec 5) (t0 : Target)
  /-- REL (R279). Waits for bound stores to be acknowledged and posts an object increment at commit. -/
  | rel (pr : Pr) (lsid : BitVec 5) (t0 : Target)
  /-- BIND (R277). Adds a range-to-object binding at commit. -/
  | bind (pr : Pr) (t0 : Target)
  /-- UNBIND (R277). Removes a binding at commit. -/
  | unbind (pr : Pr) (t0 : Target)
  /-- LWAIT (R280). Waits until a landing word's generation passes g, then acquires. -/
  | lwait (pr : Pr) (t0 : Target)
  /-- LWARM (R280). Sets a landing word's TARGET and clears COUNT at commit. -/
  | lwarm (pr : Pr) (t0 : Target)
  /-- TCWAIT (R281). Waits until the copy or matrix timeline counter reaches n, then acquires. -/
  | tcwait (pr : Pr) (me : Bool) (t0 : Target)
  /-- CWAIT (R281). Waits until at most n sealed batches are unfinished. -/
  | cwait (pr : Pr) (t0 : Target)
  /-- SBIND (R283). Reads a stream descriptor and binds a stream slot at commit. -/
  | sbind (pr : Pr) (k : BitVec 3) (t0 : Target)
  /-- SUNBIND (R284). Writes pending appends and frees a stream slot at commit. -/
  | sunbind (pr : Pr) (k : BitVec 3) (t0 : Target)
  /-- SSKIP (R284). Advances a stream's position by n at commit. -/
  | sskip (pr : Pr) (k : BitVec 3) (t0 : Target)
  /-- SFLUSH (R284). Discards fetched groups of an input stream, or waits for appends of an output stream. -/
  | sflush (pr : Pr) (k : BitVec 3) (t0 : Target)
  /-- SSTAT (R284). Delivers a stream slot's status word. -/
  | sstat (pr : Pr) (k : BitVec 3) (t0 : Target)
  /-- COPY_LINEAR (R285). Accepts a linear copy into the open batch at commit. -/
  | copyLinear (pr : Pr) (t0 : Target)
  /-- COPY_PLANE (R285). Accepts a plane copy. -/
  | copyPlane (pr : Pr) (t0 : Target)
  /-- COPY_TENSOR (R285). Accepts a tensor copy. -/
  | copyTensor (pr : Pr) (t0 : Target)
  /-- COPY_GATHER (R285). Accepts a gather copy. -/
  | copyGather (pr : Pr) (t0 : Target)
  /-- CSEAL (R286). Seals the open copy batch at commit and delivers its number. -/
  | cseal (pr : Pr) (t0 : Target)
  /-- MLDB (R291). Appends a weight-load record at commit. -/
  | mldb (pr : Pr) (kph : BitVec 7) (t0 : Target)
  /-- MQ (R290). Appends a matrix op record at commit. -/
  | mq (pr : Pr) (dep : Bool) (acc : BitVec 4) (t0 : Target)
  /-- MDRAIN (R292). Appends a drain record at commit. -/
  | mdrain (pr : Pr) (dep : Bool) (acc : BitVec 4) (t0 : Target)
  /-- MZERO (R293). Appends a zero record that takes ownership of an accumulator tile. -/
  | mzero (pr : Pr) (acc : BitVec 4) (t0 : Target)
  /-- MFENCE (R293). Waits until earlier matrix records have retired and acquires their writes. -/
  | mfence (pr : Pr) (t0 : Target)
  /-- MSTAT (R293). Delivers the drain status as at block start. -/
  | mstat (pr : Pr) (t0 : Target)
  /-- SEND (R294). Waits for a credit on an output port's edge and emits a packet at commit. -/
  | send (pr : Pr) (oport : BitVec 4) (t0 : Target)
  /-- SPAWN (R296). Sends a task packet outside every edge once the destination grants room. -/
  | spawn (pr : Pr) (t0 : Target)
  /-- MBPOP (R298). Releases the current packet at commit. -/
  | mbpop (pr : Pr) (t0 : Target)
  /-- MBPEEK (R298). Delivers the H0 of the oldest undispatched packet of a port. -/
  | mbpeek (pr : Pr) (t0 : Target)
  /-- MBHW (R298). Delivers spill status and applies a spill configuration at commit. -/
  | mbhw (pr : Pr) (t0 : Target)
  /-- EOS (R299). Waits for a credit and emits an end-of-stream packet on an output port. -/
  | eos (pr : Pr) (oport : BitVec 4) (t0 : Target)
  /-- STEAL_SPLIT (R300). Gives the upper half of the replica's remaining slices as a steal reply at commit. -/
  | stealSplit (pr : Pr) (t0 : Target)
  /-- STEAL_RANGE (R300). Delivers a vector describing the replica's remaining slices. -/
  | stealRange (pr : Pr) (t0 : Target)
  /-- CSRR (R303). Reads a privileged register. -/
  | csrr (pr : Pr) (t0 : Target)
  /-- CSRW (R303). Writes a privileged register at commit. -/
  | csrw (pr : Pr) (t0 : Target)
  /-- RESUME (R304). Emits a repair packet to a named thread set at commit. -/
  | resume (pr : Pr) (t0 : Target)
  /-- RESUME_VAL (R304). Emits a repair packet carrying a value. -/
  | resumeVal (pr : Pr) (t0 : Target)
  /-- HALT (R305). Requests a stop of one thread set and resolves when it has stopped. -/
  | halt (pr : Pr) (t0 : Target)
  /-- HALT_REGION (R305). Requests a stop of every user thread set of the region. -/
  | haltRegion (pr : Pr) (t0 : Target)
  /-- WAKE (R305). Restarts a thread set stopped by HALT. -/
  | wake (pr : Pr) (t0 : Target)
  /-- CTXSV (R306). Starts the context save engines for a stopped context. -/
  | ctxsv (pr : Pr) (t0 : Target)
  /-- CTXRS (R306). Starts the restore of a context from a save area. -/
  | ctxrs (pr : Pr) (t0 : Target)
  /-- XLATI (R307). Invalidates DRAM translations at the region's entry ports and waits for earlier walks. -/
  | xlati (pr : Pr) (t0 : Target)
  /-- SLOTW (R307). Loads a tile's slot table, effective from the next pass. -/
  | slotw (pr : Pr) (t0 : Target)
  /-- PWRQ (R308). Delivers the context's current power grant. -/
  | pwrq (pr : Pr) (t0 : Target)
  /-- PWRQ_SET (R308). Requests a power word, clamped against grant and flux cap. -/
  | pwrqSet (pr : Pr) (t0 : Target)
  /-- BKPT (R309). Halts the cluster after the block when breakpoints are armed. -/
  | bkpt (pr : Pr) (code : BitVec 8) (t0 : Target)
  /-- PMARK (R309). Writes the marker register and a marker trace record. -/
  | pmark (pr : Pr) (t0 : Target)
  /-- TRC (R309). Writes a tagged trace record. -/
  | trc (pr : Pr) (tag : BitVec 8) (t0 : Target)
  /-- COMPACT_NOP (R201). Compact half that does nothing. -/
  | compactNop
  /-- COMPACT_MOV (R201). Compact MOV with one target. -/
  | compactMov (t0 : Target)
  /-- COMPACT_ADD (R201). Compact scalar ADD. -/
  | compactAdd (t0 : Target)
  /-- COMPACT_SUB (R201). Compact scalar SUB. -/
  | compactSub (t0 : Target)
  /-- COMPACT_AND (R201). Compact scalar AND. -/
  | compactAnd (t0 : Target)
  /-- COMPACT_OR (R201). Compact scalar OR. -/
  | compactOr (t0 : Target)
  /-- COMPACT_XOR (R201). Compact scalar XOR. -/
  | compactXor (t0 : Target)
  /-- COMPACT_SHL (R201). Compact scalar shift left. -/
  | compactShl (t0 : Target)
  /-- COMPACT_SHR (R201). Compact scalar logical shift right. -/
  | compactShr (t0 : Target)
  /-- NOT (R201). Compact-only bitwise complement. -/
  | not (t0 : Target)
  /-- NEG (R201). Compact-only two's-complement negation. -/
  | neg (t0 : Target)
  /-- COMPACT_FADD (R201). Compact scalar FADD. -/
  | compactFadd (t0 : Target)
  /-- COMPACT_FMUL (R201). Compact scalar FMUL. -/
  | compactFmul (t0 : Target)
  /-- COMPACT_JOIN (R201). Compact JOIN with one target. -/
  | compactJoin (t0 : Target)
  /-- COMPACT_NULL (R201). Compact NULL with one target. -/
  | compactNull (t0 : Target)
  /-- BLOCK_START (R78). A thread set fetches and decodes its next block after the previous one commits. -/
  | blockStart (ts : Nat)
  /-- BLOCK_COMMIT (R89). A settled block that meets the commit conditions applies its effects as one indivisible step. -/
  | blockCommit (ts : Nat)
  /-- PACKET_ARRIVAL (R47). A packet arriving at a tile is checked and placed in the mailbox or reorder port, or forwarded. -/
  | packetArrival (n : Nat)
  /-- TASK_DISPATCH (R52). A free thread set receives the next eligible packet by priority and arrival order and starts its handler. -/
  | taskDispatch (ts : Nat)
  /-- PACKET_AGEING (R53). A waiting packet's effective priority rises one level per 2^16 tile cycles. -/
  | packetAgeing (tile pos : Nat)
  /-- YIELD_REELIGIBLE (R241). A yielded packet becomes eligible again after 1,024 tile cycles. -/
  | yieldReeligible (tile pos : Nat)
  /-- COMPLETION_TOKEN (R46). After DONE, a completion token is emitted for a successor handle once it obtains its credit or admission. -/
  | completionToken (ts : Nat)
  /-- CREDIT_RETURN (R39). A credit returns to the sending output port, letting a waiting send resolve. -/
  | creditReturn (rgn n : Nat)
  /-- DISTRIBUTOR_DEAL (R56). A stateless stage's distributor deals an input packet to a replica, or consumes a hole and forwards holes. -/
  | distributorDeal (rgn stg rep : Nat)
  /-- STAGE_EOS (R60). A stateless stage emits eos on each output port once its input eos and all lower tasks have ended. -/
  | stageEos (rgn stg : Nat)
  /-- RANGE_TOKEN_TAKE (R61). A range stage takes its next range token and shares its slices among fields and replicas. -/
  | rangeTokenTake (rgn stg : Nat)
  /-- STEAL_REQUEST (R63). A replica that runs empty sends a steal request to its ring successor. -/
  | stealRequest (tile : Nat)
  /-- STEAL_SERVICE (R63). An owner serves a waiting steal request between slices, splitting its remaining slices. -/
  | stealService (tile : Nat)
  /-- CROSS_FIELD_SPLIT (R64). When a field is dry its field manager core has the richest replica send half its range to the dry field. -/
  | crossFieldSplit (rgn stg fld : Nat)
  /-- RANGE_STAGE_EOS (R64). A range stage emits eos once its input eos has arrived and every slice has ended. -/
  | rangeStageEos (rgn stg : Nat)
  /-- SPAWN_ADMISSION (R297). A tile admits a spawned packet to its mailbox, spills it to the ring, or withholds the grant. -/
  | spawnAdmission (tile : Nat)
  /-- REGION_COMPLETION (R67). Once every sink has reported, committed writes become visible and the launch id is stored to the completion word. -/
  | regionCompletion (rgn : Nat)
  /-- DORMANCY_ROUND (R69). Each RBCTL interval the Dormancy detector checks sent and received counts and engine activity. -/
  | dormancyRound (rgn : Nat)
  /-- REMOTE_STORE_PERFORM (R138). A journal entry's store or REL update arrives at its destination and is performed in posting order, or refused. -/
  | remoteStorePerform (ts ent : Nat)
  /-- REMOTE_ATOMIC_PERFORM (R135). A remote atomic is performed at its destination as one read-modify-write and replies. -/
  | remoteAtomicPerform (ts ent : Nat)
  /-- REMOTE_LOAD_SERVICE (R272). An LDR request is performed at its destination and a reply sent. -/
  | remoteLoadService (ts ix : Nat)
  /-- JOURNAL_ACK (R137). An acknowledgement frees a journal entry, possibly resolving waiting FENCE or REL. -/
  | journalAck (ts ent : Nat)
  /-- JOURNAL_REFUSAL (R140). A refusal marks a journal entry refused; the thread set stops at its next block boundary with a fault token. -/
  | journalRefusal (ts ent : Nat)
  /-- LDR_REPLY (R272). The reply to an LDR arrives and delivers the value or makes the block fault. -/
  | ldrReply (ts ix : Nat)
  /-- AMO_REPLY (R92). The reply to a remote AMO writes the pending register or clears its pending mark. -/
  | amoReply (ts ent : Nat)
  /-- REL_UPDATE_POST (R144). A REL's object update is posted once the bound entries below it are acknowledged. -/
  | relUpdatePost (ts ent : Nat)
  /-- RELEASE_AMO_POST (R147). A release AMO is posted once every earlier journal entry is acknowledged or refused. -/
  | releaseAmoPost (ts ent : Nat)
  /-- LANDING_ARRIVAL (R152). An arrival of n bytes updates a landing word indivisibly, advancing its generation and waking waiters. -/
  | landingArrival (n : Nat)
  /-- STREAM_FETCH (R161). The stream unit fetches and converts a group of eight elements ahead of use. -/
  | streamFetch (tile slot : Nat)
  /-- STREAM_APPEND_WRITE (R162). Committed appends of an output stream are converted and written to scratchpad. -/
  | streamAppendWrite (tile slot : Nat)
  /-- COPY_PIECE (R172). The copy engine reads, writes and posts one piece of a copy to its landing word. -/
  | copyPiece (ts cp pc : Nat)
  /-- DRAMREQ (R173). An entry port accepts a dramreq, translating it through its cache and forwarding it to the owning stack. -/
  | dramreq (n : Nat)
  /-- TRANSLATION_WALK (R340). A translation miss completes its four-level walk at the memory-edge tile. -/
  | translationWalk (n : Nat)
  /-- DRAM_REQUEST_PERFORM (R177). The owning stack performs a read, write or atomic and the entry port returns a dramrep in order. -/
  | dramRequestPerform (n : Nat)
  /-- DRAMREP (R175). A dramrep arrives at a tile and lands against a landing word or reaches its reply port. -/
  | dramrep (n : Nat)
  /-- MATRIX_OP (R186). The sequencer runs a ready op record in a slot, accumulating into a tile, and retires it. -/
  | matrixOp (tile : Nat)
  /-- WEIGHT_LOAD (R186). A weight record expands eight columns into the thread set's B latch and retires. -/
  | weightLoad (ts : Nat)
  /-- ZERO_RECORD (R126). A zero record clears an accumulator tile and retires. -/
  | zeroRecord (ts : Nat)
  /-- DRAIN_ROW (R188). A drain resolves, converts and stores or sends one accumulator row. -/
  | drainRow (ts : Nat)
  /-- EPILOGUE_DISPATCH (R188). A drain dispatches its epilogue handler for a row on the epilogue thread set. -/
  | epilogueDispatch (tile : Nat)
  /-- FAULT_TOKEN_DISPATCH (R369). A Potting shed tile receives a fault token and dispatches the supervisor handler at level 47. -/
  | faultTokenDispatch (ts : Nat)
  /-- REPAIR_RESUME (R373). A repair of resume restarts the fault-stopped thread set at BPC. -/
  | repairResume (ts : Nat)
  /-- REPAIR_RESUME_WITH_VALUE (R373). A repair writes a register and then resumes. -/
  | repairResumeWithValue (ts : Nat)
  /-- REPAIR_SKIP_BLOCK (R373). A repair sets BPC to the next block and restarts. -/
  | repairSkipBlock (ts : Nat)
  /-- REPAIR_KILL_TASK (R373). A repair releases the packet, sends holes and frees the thread set. -/
  | repairKillTask (ts : Nat)
  /-- REPAIR_MIGRATE (R373). A repair moves the tile's context to a spare tile and resumes there. -/
  | repairMigrate (ts : Nat)
  /-- REPAIR_HALT_REGION (R373). A repair stops every user thread set of the region and marks it ended. -/
  | repairHaltRegion (ts : Nat)
  /-- FRZCTL_CONVERT (R344). Converts a freeze into a region-bounds fault, discards held packets or resumes a host requester. -/
  | frzctlConvert (rgn serial : Nat)
  /-- FRZCTL_KILL (R344). Halts the region of a freeze record as halt region does. -/
  | frzctlKill (rgn serial : Nat)
  /-- SUBDATA_WRITE (R333). Writes a substitution entry into every router of the region. -/
  | subdataWrite (rgn : Nat) (val : Word)
  /-- CSR_WRITE (R303). Writes a privileged register that has no behaviour of its own. -/
  | csrWrite (tile num : Nat) (val : Word)
  /-- TILE_STOPPED (R378). A draining tile whose thread sets are between blocks flips colour and reports its counts. -/
  | tileStopped (tile : Nat)
  /-- CUT_CLOSE (R379). The cut closes when all tiles are stopped and old-colour sends equal receipts. -/
  | cutClose (rgn : Nat)
  /-- LIVE_MIGRATION (R380). Firmware moves a tile's context to a spare tile and installs a forwarding entry. -/
  | liveMigration (src dst : Nat)
  /-- FORWARDING_ENTRY_END (R381). A forwarding entry ends after 2^20 cycles and all edge acknowledgements. -/
  | forwardingEntryEnd (tile : Nat)
  /-- CONTEXT_SAVE (R384). The save engines hold traffic, write every tile section and the header, and post the landing arrival. -/
  | contextSave (rgn : Nat)
  /-- CONTEXT_RESTORE (R385). The restore writes sections back and reposts pending journal entries. -/
  | contextRestore (rgn : Nat)
  /-- WATCHDOG_EXPIRY (R386). No movement for TIMEOUT ms halts the region and optionally dumps it. -/
  | watchdogExpiry (rgn : Nat)
  /-- SAVE_DEADLINE_EXPIRY (R387). A save that overruns SAVEDL freezes the region and writes a non-resumable header. -/
  | saveDeadlineExpiry (rgn : Nat)
  /-- UNCORRECTABLE_ERROR (R375). An uncorrectable SRAM or frame error poisons the line or stops the thread set. -/
  | uncorrectableError (frame : Bool) (n : Nat)
  /-- CMD_CREATE (R350). Creates a region with the given geometry and priority. -/
  | cmdCreate (q : Nat)
  /-- CMD_LOADIMG (R347). Checks and loads a seed image into a region. -/
  | cmdLoadimg (q : Nat)
  /-- CMD_LAUNCH (R349). Runs the sequencing program with the requested power word. -/
  | cmdLaunch (q : Nat)
  /-- CMD_DELTA (R354). Applies a launch delta to a running region. -/
  | cmdDelta (q : Nat)
  /-- CMD_PREEMPT (R352). Takes a cut and saves the region to a save area. -/
  | cmdPreempt (q : Nat)
  /-- CMD_RESUME (R352). Restores a saved region or continues a HOLD. -/
  | cmdResume (q : Nat)
  /-- CMD_KILL (R352). Kills a region, aborting any delta. -/
  | cmdKill (q : Nat)
  /-- CMD_GRANT (R355). Sets the context's power grant. -/
  | cmdGrant (q : Nat)
  /-- CMD_QUERY (R350). Returns the region state and sequencing position. -/
  | cmdQuery (q : Nat)
  /-- CMD_DESTROY (R350). Destroys a region. -/
  | cmdDestroy (q : Nat)
  /-- DOORBELL_WRITE (R433). The host writes a queue's submission tail and completion head. -/
  | doorbellWrite (q : Nat) (val : Word)
  /-- QCFG_DISABLE (R351). Clearing QCFG.EN stops a queue and discards its unbegun commands. -/
  | qcfgDisable (q : Nat)
  /-- QCFG_ENABLE (R351). Setting QCFG.EN restarts a queue with head and tail at zero. -/
  | qcfgEnable (q : Nat) (val sqb cqb : Word)
  /-- SEQ_END (R349). Ends the sequencing program and completes the launch. -/
  | seqEnd (rgn : Nat)
  /-- SEQ_RUN (R353). Clears the earlier run if needed and starts a configuration as a launch. -/
  | seqRun (rgn : Nat)
  /-- SEQ_AWAIT (R349). Waits until the last RUN is complete, deadlocked or halted. -/
  | seqAwait (rgn : Nat)
  /-- SEQ_APPLY (R354). Applies a delta section. -/
  | seqApply (rgn : Nat)
  /-- SEQ_BRANCH (R349). Branches to a record when its condition holds. -/
  | seqBranch (rgn : Nat)
  /-- SEQ_HOLD (R349). Waits for a RESUME command naming the region. -/
  | seqHold (rgn : Nat)
  /-- TRANSPLANTER_INTERVAL (R359). At each interval end the Transplanter classifies stages and reassigns replicas. -/
  | transplanterInterval (rgn : Nat)
  /-- LEASE_RENEWAL (R365). The lead renews its lease to every field manager core every 2 ms. -/
  | leaseRenewal (reached : List Nat)
  /-- LEASE_LAPSE (R365). A core sees the lease lapse and the lowest current core takes over. -/
  | leaseLapse (core : Nat)
  /-- RAIL_STEP (R389). A field rail moves one code per 1 µs step towards its target. -/
  | railStep (fld : Nat)
  /-- SAFE_UPDATE (R393). Every 1 ms firmware sets SAFE and the rail code for each field. -/
  | safeUpdate (fld code : Nat)
  /-- UNDERVOLT_WINDOW (R394). After each 10 ms window firmware raises or lowers UVOFF by the error count. -/
  | undervoltWindow (fld : Nat)
  /-- TEMP_UPDATE (R400). A cluster's calibrated temperature updates every 64 µs. -/
  | tempUpdate (clu : Nat) (temp : BitVec 16)
  /-- THERMAL_GATE (R398). A cluster reading 125 °C gates its field's cores and engines. -/
  | thermalGate (fld : Nat)
  /-- THERMAL_RELEASE (R398). The field ungates when every cluster reads below 105 °C. -/
  | thermalRelease (fld : Nat)
  /-- COOLANT_INLET_LIMIT (R400). An inlet above 55 °C makes firmware lower every CAP of the module. -/
  | coolantInletLimit (inlet : Nat)
  /-- SLACK_INTERVAL (R399). At each slack interval end firmware lowers or raises CAP by the measured slack. -/
  | slackInterval (rgn : Nat)
  /-- ENERGY_HARVEST (R408). Firmware harvests a context's meters into ENTOT every ENCTL interval and at the end. -/
  | energyHarvest (rgn : Nat)
  /-- BILLBACK_HARVEST (R409). Every 1 ms the serving module sends bill-back totals to origin modules. -/
  | billbackHarvest
  /-- BILLBACK_RECEIVE (R409). The origin adds a received bill-back total to ENTOT and ENREM. -/
  | billbackReceive (ctx nj : Nat)
  /-- TRLCTL_HALT (R411). A write of HALT requests a Trellis halt of the cluster. -/
  | trlctlHalt (clu : Nat)
  /-- TRLCTL_RESUME (R414). A write of RESUME releases the cluster and its held traffic. -/
  | trlctlResume (clu : Nat)
  /-- CROSS_TRIGGER (R411). A cross-trigger from another cluster of the group halts this cluster. -/
  | crossTrigger (clu : Nat)
  /-- TRELLIS_HALTED (R413). The Trellis sets the halted bits once appends and the op in execution have finished. -/
  | trellisHalted (clu : Nat)
  /-- STEP_GO (R418). Releases one thread set of a halted cluster to commit exactly one block. -/
  | stepGo (clu : Nat) (val : Word)
  /-- STEP_DONE (R418). A step is reported once the block's asynchronous operations have drained. -/
  | stepDone (clu : Nat)
  /-- TRACE_SESSION_OPEN (R419). Setting TRCTL.EN opens a trace session with head and tail at zero. -/
  | traceSessionOpen (rgn : Nat) (val : Word)
  /-- TRACE_SESSION_END (R423). Firmware flushes records, writes the end record and clears EN. -/
  | traceSessionEnd (rgn reason : Nat)
  /-- ROOT_TRACER_GO (R425). Starts the Root tracer walk from a port and records its steps. -/
  | rootTracerGo (rgn : Nat) (val : Word)
  /-- REPLAY_TICKET_WAIT (R428). In replay a ticketed event proceeds when the order counter reaches its logged ticket. -/
  | replayTicketWait (ts kind : Nat)
  /-- ROUND_CLOSE (R429). In deterministic mode a round closes, performing posts, packets and arrivals in fixed order. -/
  | roundClose (rgn : Nat)
  /-- CXL_MEM_READ (R432). A host CXL.mem read of host-visible DRAM, or poison outside the grant. -/
  | cxlMemRead (port addr len : Nat)
  /-- CXL_MEM_WRITE (R433). A host CXL.mem write performed at the owning stack. -/
  | cxlMemWrite (port addr : Nat) (data : List Byte)
  /-- CXL_PORT_DOWN (R430). One CXL port goes down and service continues on the other. -/
  | cxlPortDown (port : Nat)
  /-- BODER_FLIT_RECEIVE (R434). A Boder flit is received and a CRC error requests replay. -/
  | boderFlitReceive (port seq : Nat) (crcOk : Bool) (req : Option RemoteReq)
  /-- BODER_REMOTE_REQUEST (R435). A target module translates and serves a remote-page request through its pairing table. -/
  | boderRemoteRequest (n : Nat)
  /-- BODER_PORT_FAILURE (R435). A failed Boder port moves its traffic to another port or fails requests with CAUSE 5. -/
  | boderPortFailure (port : Nat)
  /-- TELEM (R438). Returns rail currents, temperatures and coolant data. -/
  | telem
  /-- BOOTREC (R438). Returns the boot record. -/
  | bootrec
  /-- RECHAR (R438). Re-characterises one field and clears UVDIS. -/
  | rechar (fld : Nat)
  /-- COLL (R438). Declares or removes a collective, or writes a pairing entry. -/
  | coll (msg : CollMsg)
  /-- FWUPD (R441). Verifies and stages a signed firmware image. -/
  | fwupd (img : FwImage)
  /-- RESET (R438). Resets the module, optionally clearing the failed-start count. -/
  | reset (clear : Bool)
  /-- GET_VERSION (R442). SPDM version request. -/
  | getVersion (port : Nat)
  /-- GET_CAPABILITIES (R442). SPDM capabilities request. -/
  | getCapabilities (port : Nat)
  /-- NEGOTIATE_ALGORITHMS (R442). SPDM algorithm negotiation. -/
  | negotiateAlgorithms (port : Nat)
  /-- GET_DIGESTS (R442). SPDM certificate digest request. -/
  | getDigests (port : Nat)
  /-- GET_CERTIFICATE (R442). SPDM certificate request for slot 0. -/
  | getCertificate (port slot : Nat)
  /-- CHALLENGE (R442). SPDM challenge. -/
  | challenge (port slot : Nat)
  /-- GET_MEASUREMENTS (R442). Returns the ROM, firmware, tile map and start-state measurements. -/
  | getMeasurements (port index : Nat)
  /-- KEY_EXCHANGE (R442). SPDM key exchange opening a session. -/
  | keyExchange (port : Nat)
  /-- FINISH (R442). SPDM finish completing a session. -/
  | finish (port : Nat)
  /-- POWER_ON_RESET (R439). At power-on or reset the field manager cores run the bring-up sequence. -/
  | powerOnReset
  /-- BRINGUP_STEP_TIMEOUT (R439). A bring-up step overrunning its time fails the start. -/
  | bringupStepTimeout (stp : Nat)
  /-- START_TIMEOUT (R439). The whole start exceeding 30 s fails with reason 0x0B. -/
  | startTimeout
  /-- TILE_CYCLE (R405). On each tile cycle of a tile that is not gated, the tile charges static energy to the owning context and advances its CYCLE and queue counters. -/
  | tileCycle (tile : Nat)
  /-- CORRECTABLE_ERROR (R394). SRAM or HBM ECC corrects a single error and the field's correctable-error count in ECCCNT rises. -/
  | correctableError (fld : Nat)
  /-- LEAD_STOPS_ACTING (R365). The lead stops acting once 9.9 ms have passed by its own timer since its last renewal that reached at least two cores. -/
  | leadStopsActing
  deriving DecidableEq, Repr

end Sys2Proof
end

