-- ==== Sys2Proof/Machine/State.lean ====
section
/-! DEFINITION. The state of the module as plain data: memory, thread sets, blocks in flight, tiles,
clusters, fields, regions, network, DRAM entry ports, host queues, links and bring-up. Every piece of
state that the spec names is here; INVENTORY.md lists each one with its rule and its reset value. -/

namespace Sys2Proof.Machine

/-- Why the machine stops. Plain instructions never raise one: the faults of the spec (R367) are taken
as the spec describes them and lead to a next state. -/
inductive Fault where
  /-- Raised by `step` when no event is delivered and nothing in the module can act; safe, since only
  the outside world can then bring about the next event. -/
  | quiescent
  deriving DecidableEq, Repr

/-- Why an instruction or event is not carried out. -/
inductive Refusal where
  /-- Raised by an arm of `exec` whose instruction has no meaning yet; safe. -/
  | notModelled (mnemonic : String)
  /-- Raised by the meaning of an event in a state in which that event cannot come about (there is no
  such packet, record, entry or request); safe: the event is not one of that state. -/
  | notEnabled (event : String)
  /-- Raised by the meaning of an encoded instruction when no block in flight awaits its firing; safe:
  an instruction fires only inside a block (R81). -/
  | noBlock
  deriving DecidableEq, Repr

/-- The fault causes of R367. -/
inductive Cause where
  | blockFetch | malformed | operandType | streamDirection | branchTarget | exit | multipleExit
  | incomplete | address | alignment | privilege | poolProtection | remoteAccess | dramAccess
  | atomicOrdering | scope | binding | landing | timeline | streamDescriptor | streamBounds
  | streamSlot | copyDescriptor | copyBatch | matrixFormat | matrixRecord | matrixOwnership
  | matrixContext | epilogue | stageOutput | send | mailbox | range | csr | regionBounds | dataError
  | trap | storeRefused | appendRefused | copyFault | matrixData | packetFormat | lateEos | deadlock
  | landingOverrun | dramReply | staleRepair | repairRefused | landingRefused
  deriving DecidableEq, Repr

/-- A token inside a block (R79). -/
inductive Token where
  | scalar (w : Word)
  | vector (v : Vec) (nulls : BitVec 8)
  | mask (m : BitVec 8)
  | completion
  | null
  deriving DecidableEq, Repr

/-- What has become of an instruction of a block in flight (R81, R87). -/
inductive IStat where
  | idle
  | waiting
  | fired
  | nulled
  | dead
  | faulted
  deriving DecidableEq, Repr

/-- A fault as it is recorded for its token (R368). -/
structure FaultInfo where
  cause : Cause
  index : Nat
  sub   : Nat
  fw2   : Word
  fw3   : Word
  fw4   : Word
  deriving DecidableEq, Repr

/-- The bytes of a store; an absent byte is a null lane's and is not written (R85). -/
abbrev Bytes := List (Option Byte)

/-- An AMO as it travels (R274): minor, double-word, ordering, operand and comparison value. -/
structure AmoOp where
  op  : Nat
  dbl : Bool
  ord : Nat
  b   : Nat
  cmp : Nat
  deriving DecidableEq, Repr

/-- A stream descriptor as the stream unit keeps it (R156 to R158), with the converter choice that R229
captures and AHEAD (R160). -/
structure StreamDesc where
  kind    : Nat
  out     : Bool
  fmt     : Nat
  isInt   : Bool
  sat     : Bool
  rm      : Nat
  ndim    : Nat
  base    : Word
  counts  : List Nat
  strides : List Int
  kspec   : Nat
  raw     : List Byte
  ahead   : Nat
  deriving DecidableEq, Repr

/-- A copy descriptor as the engine keeps it (R166 to R168). -/
structure CopyDesc where
  kind  : Nat
  esz   : Nat
  fill  : Nat
  lw    : Option Word
  dst   : Word
  src   : Word
  kspec : Nat
  deriving DecidableEq, Repr

/-- The body of a matrix record (R180, R181). -/
inductive RecBody where
  | op (idx : List (Option Nat)) (bfmt afmt acc astride abase : Nat)
  | weight (kph bfmt zstride zbase sstride sbase bcs bbase : Nat)
  | drain (daddr : Word) (dstride : Int) (cse : Bool) (csbase drm : Nat) (dsat down epe : Bool) (epih : Nat) (dsend : Bool) (dfmt acc : Nat)
  | zero (acc : Nat)
  deriving DecidableEq, Repr

/-- A matrix record in the queue (R180), with the converter choice that R229 captures for a drain, the
next row of a started drain, and its wait for an epilogue. -/
structure MRec where
  num   : Nat
  depk  : Nat
  deplw : Nat
  depv  : Nat
  body  : RecBody
  csat  : Bool
  crm   : Nat
  row   : Nat
  epi   : Option Vec
  epiOn : Bool
  flt   : Bool
  tally : List Nat
  deriving DecidableEq, Repr

/-- How an exit leaves the block (R238 to R242). -/
inductive ExitKind where
  | goto
  | call
  | done
  | yield
  | trap (code : Nat)
  deriving DecidableEq, Repr

/-- What a fired instruction does at commit (R89). -/
inductive Effect where
  | wr (r : Reg) (t : Token)
  | store (lsid off : Nat) (bytes : Bytes)
  | rstore (lsid : Nat) (addr : Word) (size : Nat) (bytes : Bytes)
  | amoLocal (lsid off : Nat) (o : AmoOp) (reg : Option Reg)
  | amoRemote (lsid : Nat) (addr : Word) (o : AmoOp) (reg : Option Reg)
  | fence (lsid kind : Nat) (rect : Word)
  | relUpd (lsid : Nat) (addr : Word)
  | send (oport : Nat) (h0 addr : Word)
  | spawn (h0 h1 addr : Word)
  | eos (oport : Nat)
  | steal (count : Nat)
  | mbpop
  | mbhw (cfg : Word)
  | bindE (obj base : Word) (len : Nat)
  | unbindE (obj base : Word)
  | lwarm (off : Nat) (target : Word)
  | sbind (k : Nat) (d : StreamDesc)
  | sunbind (k : Nat)
  | sskip (k : Nat) (n : Nat)
  | sflush (k : Nat)
  | popped (k groups : Nat)
  | copy (d : CopyDesc)
  | cseal
  | mrec (r : MRec)
  | statw (cf cm sd : Bool) (drm : Nat) (dsat : Bool)
  | exit (kind : ExitKind) (dest : Word) (link : Word)
  | csrw (num : Nat) (val : Word)
  | resume (ident word : Word) (val : Option Word)
  | wake (ts : Nat)
  | ctx (save : Bool) (ctx : Nat) (area : Word) (lw : Word)
  | slotw (coord table : Word)
  | pwrset (w : Word)
  | bkpt (code : Nat)
  | pmark (val : Word)
  | trc (tag : Nat) (val : Word)
  | acquire
  deriving DecidableEq, Repr

/-- A reply to a remote load that a block has asked for (R272). -/
inductive Reply where
  | asked
  | data (bytes : List Byte)
  | refused (sub : Nat) (tableMark : Bool)
  deriving DecidableEq, Repr

/-- Whether a reply is a refusal. -/
def Reply.isRefused : Reply → Bool
  | .refused _ _ => true
  | _ => false

/-- A request that an LDR or ACQ of a block in flight has outstanding (R272, R278). A `missed` request shares a walk that has
failed and that has been reported (R340); `dram` says that this module's DRAM has served it (R402), and `ahead` counts the
requests that its entry port has served before it while it waited (R363). -/
structure LoadReq where
  addr  : Word
  size  : Nat
  reply : Reply
  here  : Bool
  missed : Bool
  dram  : Bool
  ahead : Nat
  deriving DecidableEq, Repr

/-- What a block samples at its start (R86, R107, R229, R281, R286, R289, R293, R298, R300). -/
structure Snapshot where
  ox      : AMap Word
  ce      : Nat
  me      : Nat
  flags   : Word
  mexc    : Word
  energy  : Word
  sealed  : Nat
  issued  : Nat
  drain   : Word
  spill   : Word
  sstat   : List Word
  remain  : List Nat
  solo    : Bool
  range   : Option Vec
  binds   : List (Word × Word × Nat)
  deriving DecidableEq, Repr

/-- A block in flight on a thread set (R73, R79 to R98). `late` holds the slices that have reached its replica since a
block with a STEAL.SPLIT began (R300). `seen` holds the bytes that stood where each of `loads` read (R94, R150), `nulls` the
instructions that an earlier attempt at the block found nulled (R289). -/
structure Flight where
  base   : Word
  header : Word
  body   : List (BitVec 32)
  order  : List (Nat × List Nat)
  named  : List Nat
  stat   : AMap IStat
  toks   : AMap Token
  effs   : AMap Effect
  faults : AMap FaultInfo
  freeze : Option (Nat × Nat)
  raised : BitVec 7
  loads  : List (Nat × Nat)
  seen   : List (List Byte)
  reqs   : AMap LoadReq
  counts : AMap Nat
  pops   : AMap Nat
  snap   : Snapshot
  split  : Bool
  late   : List Nat
  nulls  : List Nat
  deriving DecidableEq, Repr

/-- The state of a journal entry (R137, R383). A refusal that has come while the region is stopped is marked as
reported (R378); the request of a `lost` entry was discarded by a save, and only a restore posts it again
(R384, R385). -/
inductive JState where
  | held
  | pending
  | done
  | acked
  | refused (sub : Nat) (reported : Bool)
  | withheld
  | lost
  deriving DecidableEq, Repr

/-- What a journal entry carries (R383). -/
inductive JKind where
  | store
  | atomic (o : AmoOp) (reg : Option Reg)
  | rel
  | csr
  deriving DecidableEq, Repr

/-- A journal entry (R137). `after` lists the posting sequences that must be settled before it is
posted (R144, R147, R276); `objs` the objects that its bytes are bound to (R143). `said` is its address as the program wrote
it, which the binding table compares and its fault token names (R140, R143, R155). A `missed` entry shares a walk that has
failed and that has been reported (R340); `dram` says that this module's DRAM has performed it (R402), and `ahead` counts the
requests that its entry port has served before it while it waited (R363). -/
structure JEntry where
  num   : Nat
  seq   : Nat
  addr  : Word
  size  : Nat
  bytes : Bytes
  kind  : JKind
  state : JState
  after : List Nat
  objs  : List Word
  old   : Nat
  said  : Word
  missed : Bool
  dram  : Bool
  ahead : Nat
  deriving DecidableEq, Repr

/-- A copy accepted by the engine (R170): its batch (none while the batch is open), the tile that issued it, whose
cluster its space-1 addresses name (R134, R171), the pieces done, how many landing arrivals are still to be
applied, and what the engine has read as the index of each gather row that it has begun: true and the index, or false, the
refusal cause and its table mark (R167). `missed` holds the DRAM pages whose failed walk its pieces share with a request that has
been reported (R340); `ahead` counts the requests that its entry port has served while the copy had pieces to do (R363). -/
structure Copy where
  id     : Nat
  batch  : Option Nat
  home   : Nat
  desc   : CopyDesc
  finished : List Nat
  landing : Nat
  index  : AMap (Bool × Nat × Bool)
  missed : List Nat
  ahead  : Nat
  deriving DecidableEq, Repr

/-- What a packet in a mailbox or spill ring is. -/
inductive MailKind where
  | edge
  | spawned
  | plain
  | fault
  | repair
  | steal
  deriving DecidableEq, Repr

/-- The task that a thread set runs (R50, R51). -/
structure Task where
  h0      : Word
  h1      : Word
  port    : Nat
  pos     : Nat
  addr    : Nat
  size    : Nat
  succ    : List Word
  held    : Bool
  sent    : List Nat
  slice   : Option Nat
  fwd     : Bool
  edge    : Option Nat
  kind    : MailKind
  epi     : Option (Nat × Nat × Nat)
  deriving DecidableEq, Repr

/-- Why a thread set does not run (R305, R342, R366, R371, R378, R411). -/
structure Stops where
  fault  : Option (Nat × FaultInfo)
  frozen : Option Nat
  halted : Bool
  cut    : Bool
  trellis : Bool
  pendingFaults : List FaultInfo
  deriving DecidableEq, Repr

/-- A token that a finished task has still to emit (R46), or a packet that waits for a REL (R146): a send, a repair packet
(R304), or a steal packet with its slices (R300). -/
structure OutTok where
  port  : Nat
  dst   : Nat
  h0    : Word
  body  : List Byte
  edge  : Option Nat
  spawn : Bool
  send  : Bool
  keep  : Bool
  slices : List Nat
  deriving DecidableEq, Repr

/-- The general registers and exception counters of a thread set (R99, R103, R104). -/
structure Regs where
  s     : AMap Word
  v     : AMap Vec
  ox    : AMap Word
  bpc   : Word
  blr   : Word
  flags : Word
  mexc  : Word
  deriving DecidableEq, Repr

/-- One value of the matrix arithmetic (R125): sig × 2^exp, an infinity or a NaN (with the invalid
condition of R125). -/
inductive MVal where
  | fin (sig exp : Int)
  | inf (neg : Bool)
  | nan (inv : Bool)
  deriving DecidableEq, Repr

/-- A thread set's engine state (R105, R137, R143, R154, R170, R179, R186, R189). `hollow` holds the sealed
batches that had no copy and have not completed (R286), `fed` says that the open batch has had one; `relLost` says that a REL update was refused, so that no
packet may follow it (R146). -/
structure Engines where
  ce      : Nat
  me      : Nat
  sealed  : Nat
  hollow  : List Nat
  copyIds : Nat
  copies  : List Copy
  recs    : List MRec
  issued  : Nat
  drain   : Word
  latch   : List MVal
  bfmt    : Option Nat
  journal : List JEntry
  post    : Nat
  binds   : List (Word × Word × Nat)
  pend    : AMap Nat
  fed     : Bool
  relLost : Bool
  deriving DecidableEq, Repr

/-- A thread set (R31, R99). `commits` counts its blocks for sampled trace records (R420); `roundDone` says
that it has committed in the current round (R429). -/
structure ThreadSet where
  task   : Option Task
  kindOk : Nat
  stops  : Stops
  regs   : Regs
  eng    : Engines
  outs   : List OutTok
  ending : Bool
  commits : Nat
  roundDone : Bool
  deriving DecidableEq, Repr

/-- A stream slot in use (R156, R161 to R165, R283): its owner, POS, the flags END, XOVR and FLT, the
groups fetched ahead (lanes, null lanes, flags, and lane count + 16 × defect + 64 × address), the pixels
that the delay line of a window stream holds, and the appends not yet written. -/
structure Slot where
  ts     : Nat
  desc   : StreamDesc
  pos    : Nat
  ended  : Bool
  xovr   : Bool
  flt    : Bool
  ready  : List (Vec × BitVec 8 × BitVec 7 × Nat)
  line   : AMap (Word × BitVec 7)
  toWrite : List (Nat × List Byte)
  deriving DecidableEq, Repr

/-- One element of an accumulator tile (R126): the four flags, the anchor, the magnitude word, and the bits of its
carry half CS, which are none until an image of the element shows how the hardware has split the word. -/
structure AccElem where
  nan : Bool
  sat : Bool
  ovf : Bool
  inv : Bool
  e   : Int
  m   : Int
  cs  : Option Nat
  deriving DecidableEq, Repr

/-- An input port of a tile (R37, R58, R66, R444): the edge that feeds it, the handler declared for it,
the next SEQ it releases, and a sink's expected and counted eos packets. -/
structure Port where
  edge    : Option Nat
  handler : Nat
  next    : Nat
  sink    : Option Nat
  counted : Nat
  reported : Bool
  deriving DecidableEq, Repr

/-- A packet placed at a tile (R49, R52, R297). `age` counts the levels that PACKET_AGEING has shown (R53),
`yieldAt` is the clock at the packet's last YIELD (R241). It and `since` are moments by the clock of the tile that holds
the packet; after a move to a tile whose clock is behind they may lie before its start. -/
structure Mail where
  kind   : MailKind
  port   : Nat
  addr   : Nat
  h0     : Word
  h1     : Word
  body   : List Byte
  pos    : Nat
  since  : Int
  fwd    : Bool
  hole   : Bool
  taken  : Bool
  edge   : Option Nat
  begun  : Bool
  wait   : Bool
  gone   : Bool
  age    : Nat
  sent   : List Nat
  slice  : Option Nat
  yieldAt : Int
  deriving DecidableEq, Repr

/-- The kinds of actor (R37). -/
inductive ActorKind where
  | stateful
  | stateless
  | range
  deriving DecidableEq, Repr

/-- A tile's configuration (R108, R346): the actor, its stage, handlers, epilogue handlers, ox launch
defaults, input ports, and output ports with their edges. -/
structure TileConf where
  coord    : Nat
  part     : Word
  actor    : Option ActorKind
  stage    : Nat
  handlers : AMap Word
  epilogues : AMap Word
  ox       : List Word
  ports    : AMap Port
  outs     : AMap Nat
  deriving DecidableEq, Repr

/-- A forwarding entry (R380, R381). -/
structure Forward where
  ctx   : Nat
  dst   : Nat
  expiry : Nat
  deriving DecidableEq, Repr

/-- An energy meter in sixteenths of a pJ, and its saturation flag (R401, R406). -/
structure Meter where
  units : Nat
  sat   : Bool
  deriving DecidableEq, Repr

/-- A spawn, or a send or completion token on a port no edge feeds, that waits at its destination for
a grant (R297): its arrival position, and whether a forwarding entry led it here (R71). -/
structure Waiting where
  pos : Nat
  fwd : Bool
  pkt : Word × Word × List Byte
  deriving DecidableEq, Repr

/-- A tile's mailbox and spill ring (R49, R297, R298). `spilt` holds, for each packet of the ring, where it starts in the ring and
the bytes that the scratchpad shows of it. -/
structure Mailbox where
  mails   : List Mail
  head    : Nat
  tail    : Nat
  arrivals : Nat
  hwm     : Nat
  spBase  : Nat
  spSize  : Nat
  ring    : List Mail
  spills  : Nat
  grants  : List Waiting
  spilt   : List (Nat × List Byte)
  deriving DecidableEq, Repr

/-- A tile's matrix unit (R126, R182, R185). `slotAt` is the entry that the sequencer comes to next, none while no op is
ready and it passes entry after entry; `lastOp` lies 12 cycles after the start of the last op, 0 before any (R396). -/
structure MatrixUnit where
  accs   : AMap (List AccElem)
  owner  : AMap Nat
  table  : Word
  newTable : Option Word
  slotAt : Option Nat
  rr     : Nat
  lastOp : Nat
  deriving DecidableEq, Repr

/-- A compute tile or a field manager core. `qmark` and `cycMark` are the queue counters and the cycle count at
the last Transplanter interval boundary (R425), `lastTs` is the thread set that last committed on it (R427). `tokens` holds the
fault tokens whose cause has arisen while the tile is stopped for a cut (destination coordinate, or none for a manager core, H0, H1, body, thread set): they
are sent after the resume (R378). `cap` is the tile's own CAP, none while the module's holds (R392, R400), `entry` the entry that
the last change of ratio has given, which needs no rail step (R391). -/
structure Tile where
  rgn     : Option Nat
  coord   : Nat
  conf    : TileConf
  mbox    : Mailbox
  mx      : MatrixUnit
  slots   : AMap Slot
  cycle   : Nat
  colour  : Bool
  sent    : Nat × Nat
  recv    : Nat × Nat
  stopping : Bool
  stopped : Bool
  live    : Bool
  meters  : AMap Meter
  csr     : AMap Word
  fwds    : List Forward
  qcnt    : AMap (Nat × Nat × Nat)
  qmark   : AMap (Nat × Nat × Nat)
  cycMark : Nat
  moved   : List Nat
  lastTs  : Option Nat
  tokens  : List (Option Nat × Word × Word × List Byte × Nat)
  cap     : Option Nat
  entry   : Nat
  deriving DecidableEq, Repr

/-- A cluster: its CSRs, its Trellis and the traffic held at its boundary (R21, R411 to R418). Of a step in progress `mark`
holds the copies, records and posts that the thread set had made before it, `lands` the landing places (destination
offset, landing word) of the DRAM requests that its block has sent (R418). -/
structure Cluster where
  csr     : AMap Word
  halting : Option Nat
  halted  : Bool
  reason  : Nat
  code    : Nat
  letIn   : Bool
  step    : Option Nat
  stepped : Bool
  mark    : Nat × Nat × Nat
  lands   : List (Nat × Nat)
  deriving DecidableEq, Repr

/-- What firmware keeps of a report that a field manager core receives: the token of a fault whose subject is a Potting
shed thread set (R370), a freeze record (R343), or the tile sections of a save area that were complete when the deadline
of the save passed (R387). -/
inductive FwRecord where
  | token (rgn : Nat) (h0 h1 : Word) (body : List Byte)
  | freeze (rgn : Nat) (record : Word)
  | save (rgn area : Nat) (sections : List Nat)
  deriving DecidableEq, Repr

/-- A field: its CSRs, rail, gating, error windows, and its manager core's lease and records, the latter in the order in
which the core serves them (R343, R363, R364, R370, R387, R389 to R398). `missed` says that the last renewal of the lease has not
reached the core (R365). -/
structure Field where
  csr     : AMap Word
  errs    : Nat
  noRise  : Nat
  gated   : Bool
  moving  : Option Nat
  alive   : Bool
  current : Bool
  records : List FwRecord
  missed  : Bool
  deriving DecidableEq, Repr

/-- Where an edge leads (R37, R318). -/
inductive EdgeDst where
  | tile (coord : Nat) (port : Nat)
  | stage (n : Nat)
  | dram
  deriving DecidableEq, Repr

/-- A bounded edge (R39, R55). `holes` are holes that wait for a credit: of ended tasks, with their tile (R57), or
of a stage, with its number (R59). `returning` holds the SEQs whose credits are on their way back, `low` the lowest
SEQ whose credit has not come back and `above` the higher ones that have: with them no SEQ `depth` or more above
`low` is sent (R55). `eosLeft` says that an eos has left (R444). -/
structure Edge where
  dst     : EdgeDst
  port    : Nat
  depth   : Nat
  initial : Nat
  len     : Nat
  credits : Nat
  next    : Nat
  closed  : Bool
  withheld : Bool
  frozen  : Option Nat
  waiting : List (Nat × (Word × Word × List Byte))
  holes   : List (Bool × Nat × Word)
  returning : List Nat
  low     : Nat
  above   : List Nat
  eosLeft : Bool
  src     : Option Nat
  oport   : Nat
  deriving DecidableEq, Repr

/-- A range token that a range stage is working through (R61). -/
structure RangeTok where
  lo    : Nat
  hi    : Nat
  base  : Nat
  count : Nat
  tail  : List Byte
  h0    : Word
  h1    : Word
  succ  : List Word
  left  : Nat
  deriving DecidableEq, Repr

/-- A stage of a pipeline (R37, R56 to R65, R358). `asks` are the steal requests that wait at a replica (requester,
owner), `asking` the replicas whose request has no answer yet (R63). -/
structure Stage where
  kind     : ActorKind
  pipe     : Nat
  minR     : Nat
  maxR     : Nat
  slice    : Nat
  conf     : TileConf
  replicas : List Nat
  inEdge   : Nat
  outs     : AMap Nat
  inbox    : AMap (Word × Word × List Byte)
  nextIn   : Nat
  openSeqs : List Nat
  eosIn    : Option (Word × Nat)
  eosOut   : Bool
  total    : Nat
  tok      : Option RangeTok
  rem      : AMap (List Nat)
  busy     : AMap Nat
  asks     : List (Nat × Nat)
  asking   : List Nat
  dry      : AMap Nat
  moves    : AMap Nat
  joining  : List Nat
  occ      : Nat
  cls      : Nat
  prevCls  : Nat
  occSum   : Nat
  occTime  : Nat
  roData   : List (Nat × List Byte)
  deriving DecidableEq, Repr

/-- The states of a region (R352). -/
inductive RState where
  | empty
  | loaded
  | running
  | saved
  | ended
  deriving DecidableEq, Repr

/-- The outcome of the last RUN (R353). -/
inductive Outc where
  | pending
  | completed
  | failed
  deriving DecidableEq, Repr

/-- An edge as a configuration gives it (R346). -/
structure EdgeConf where
  dst   : EdgeDst
  port  : Nat
  depth : Nat
  initial : Nat
  len   : Nat
  src   : Option Nat
  oport : Nat
  deriving DecidableEq, Repr

/-- A configuration section as the front end reads it (R346). The edges are numbered from 0; tiles and
stages name them by number. -/
structure ConfImage where
  tiles  : List TileConf
  edges  : List EdgeConf
  stages : AMap Stage
  lid    : Word
  cmpl   : Word
  deriving DecidableEq, Repr

/-- Where a data image goes (R323, R346): the context's DRAM, a tile's scratchpad, or that of every replica of a
stage. -/
inductive DataDst where
  | dram (addr : Nat)
  | tile (coord off : Nat)
  | stage (n off : Nat)
  deriving DecidableEq, Repr

/-- The sections of a seed image that passed R347; `bound` are the output ports that its port-binding table binds, by the sending
tile (R318, R348). -/
structure Image where
  confs  : AMap ConfImage
  ports  : List Nat
  bound  : List (Nat × Nat)
  progs  : AMap (List (Nat × Nat × Nat))
  deltas : AMap (List TileConf × AMap EdgeConf)
  datas  : List (DataDst × List Byte)
  deriving DecidableEq, Repr

/-- The consistent cut of a region (R377 to R379). -/
structure Cut where
  phase : Nat
  why   : Nat
  sent  : Nat
  recv  : Nat
  deriving DecidableEq, Repr

/-- A save or restore that the engines have accepted (R306, R382 to R388), with the landing word of a CTXSV or
CTXRS, or the queue and CTAG of the host command that asked for it. -/
structure SaveWork where
  save : Bool
  area : Nat
  lw   : Option (Nat × Nat)
  dump : Bool
  wdx  : Bool
  host : Option (Nat × Nat)
  deriving DecidableEq, Repr

/-- A launch delta in progress (R354). Until `begun` it waits for the moves of its tiles that had begun before it. -/
structure Delta where
  tiles : List TileConf
  edges : AMap EdgeConf
  queue : Option (Nat × Nat)
  begun : Bool
  deriving DecidableEq, Repr

/-- What the Dormancy detector reports of an actor (by coordinate) or a stage (by number) of a deadlocked region
(R69): the packets at each input port and the thread sets in a wait. -/
structure Stuck where
  stage : Bool
  wher  : Nat
  ports : AMap Nat
  waits : List Nat
  deriving DecidableEq, Repr

/-- A freeze record (R343). -/
structure Freeze where
  serial : Nat
  kind   : Nat
  wher   : Nat
  ts     : Nat
  oport  : Nat
  target : Nat
  deriving DecidableEq, Repr

/-- A resident region (R23, R327, R352), its graph and its firmware records. `portSent` and `portRecv` count, by colour,
the packets of its entry ports (R377) and of tiles that a substitution has taken out of the region (R335, R379). `saveNext`
holds the work that the save engines have accepted and not yet begun (R306), `walkAt` the RTCTL value of a Root walk in
progress (R425), `intv` the interval in effect (R357), `modeOn` the replay mode in effect (R426), and `calm` says that no cut
has been open since the interval started (R360). `endings` are LAUNCH commands whose program has been ended while it had stores to be
performed: queue, CTAG, RESULT and STATUS of the completion entry (R433). -/
structure Region where
  ctx      : Nat
  geom     : Word
  subst    : AMap Word
  st       : RState
  csr      : AMap Word
  image    : Option Image
  progIx   : Nat
  seqPos   : Nat
  seqOn    : Bool
  hold     : Bool
  outcome  : Outc
  ran      : Bool
  launchBy : Option (Nat × Nat × Word × Nat)
  edges    : AMap Edge
  stages   : AMap Stage
  serial   : Nat
  reports  : Nat
  frzSerial : Nat
  freezes  : List Freeze
  colour   : Bool
  cut      : Cut
  dorm     : Nat × Nat × Nat
  dead     : Bool
  saving   : Option SaveWork
  saveNext : List SaveWork
  walkAt   : Option Word
  delta    : Option Delta
  request  : Word
  granted  : Word
  interval : Nat
  intv     : Nat
  calm     : Bool
  modeOn   : Nat
  energyAt : Nat
  lowered  : AMap Nat
  order    : Nat
  chunk    : AMap Nat
  round    : Nat
  closing  : Bool
  shedDef  : Bool
  shedStop : Bool
  portSent : Nat × Nat
  portRecv : Nat × Nat
  stuck    : List Stuck
  endings  : List (Nat × Nat × Word × Nat)
  deriving DecidableEq, Repr

/-- A packet in the network (R25 to R27). `slices` are the slices that a steal packet carries (R63). -/
structure Flying where
  src  : Nat
  dst  : Nat
  vc   : Nat
  h0   : Word
  h1   : Word
  body : List Byte
  stage : Option (Nat × Nat)
  edge : Option (Nat × Nat)
  fwd  : Bool
  slices : List Nat
  deriving DecidableEq, Repr

/-- An arrival on its way to a landing word (R152, R171, R175). -/
structure Landing where
  tile : Nat
  off  : Nat
  n    : Nat
  flt  : Bool
  oob  : Bool
  copy : Option (Nat × Nat)
  deriving DecidableEq, Repr

/-- What the walk of a request has given (R338, R340): nothing yet, a physical address, or a refusal
cause with the table-error mark. -/
inductive Phys where
  | unwalked
  | at (a : Nat)
  | failed (cause : Nat) (tableMark : Bool)
  deriving DecidableEq, Repr

/-- A dramreq at an entry port (R174 to R177). `ahead` counts the requests that the port has served before it while it
waited (R363), `lines` are the 64-byte lines that reads pending together with
this one have brought (R177). A `missed` request shares a walk that has failed and that has been reported (R340). -/
structure DramReq where
  port  : Nat
  tile  : Nat
  rgn   : Nat
  h0    : Word
  h1    : Word
  body  : List Byte
  colour : Bool
  phys  : Phys
  prio  : Nat
  ahead : Nat
  lines : AMap (List Byte)
  missed : Bool
  deriving DecidableEq, Repr

/-- A dramrep on its way (R175). `lines` counts the 64-byte units of this module's DRAM that its request has used (R402). -/
structure DramRep where
  tile  : Nat
  rgn   : Nat
  addr  : Word
  op    : Nat
  cause : Nat
  len   : Nat
  data  : List Byte
  ctl   : Word
  colour : Bool
  prio  : Nat
  lines : Nat
  deriving DecidableEq, Repr

/-- A leaf that an entry port caches (R340): context, page base, log2 of the page size, and the entry. -/
structure Tlb where
  port : Nat
  ctx  : Nat
  page : Nat
  bits : Nat
  leaf : Word
  deriving DecidableEq, Repr

/-- A host command queue (R350). -/
structure HostQueue where
  sqbase : Word
  cqbase : Word
  qcfg   : Word
  head   : Nat
  ctail  : Nat
  tail   : Nat
  chead  : Nat
  phase  : Bool
  busy   : Bool
  frozen : Bool
  deriving DecidableEq, Repr

/-- A CXL port with the host physical range of its HDM decoder (R430, R432), and its SPDM responder (R442). -/
structure HostPort where
  up     : Bool
  frozen : Bool
  hdmBase : Nat
  hdmSize : Nat
  spdm   : Nat
  algs   : Bool
  session : Bool
  deriving DecidableEq, Repr

/-- A Boder port (R434, R435): the sequence numbers that it expects and that it sends next. -/
structure BoderPort where
  up     : Bool
  peer   : Nat
  expect : Nat
  next   : Nat
  replay : Bool
  deriving DecidableEq, Repr

/-- What this module sends to another (R434, R435): port, sequence number, target and origin module, context tag, operation
(0 read, 1 write, 2 atomic with its minor and comparison value, 3 a bill, 4 an answer with its CAUSE), address, size, and the
bytes, of which an absent one is not written. -/
structure BoderOut where
  port   : Nat
  seq    : Nat
  target : Nat
  origin : Nat
  tag    : Nat
  op     : Nat
  addr   : Nat
  size   : Nat
  data   : Bytes
  minor  : Nat
  cmp    : Nat
  cause  : Nat
  deriving DecidableEq, Repr

/-- The bring-up sequence, the boot record and module NVM (R439 to R441): `image` is the resident firmware image, `kept` the
queues as the front end of minimal mode has last stored them with the number of the update (R440). -/
structure Boot where
  step    : Nat
  mode    : Nat
  fails   : Nat
  nextEnt : Nat
  starts  : Nat
  entries : AMap (Nat × Nat × Nat × Nat × Nat)
  minimal : Bool
  nvmSvn  : Nat
  image   : FwImage
  staged  : Option FwImage
  kept    : Nat × AMap HostQueue
  meas    : List Nat
  deriving DecidableEq, Repr

/-- The lead lease (R364, R365). -/
structure Lease where
  lead   : Option Nat
  update : Nat
  acting : Bool
  deriving DecidableEq, Repr

/-- A declared collective (R436): the periods that have ended, when the last one ended, the additions of the period in
progress (whether the member's own, and when), and of each period since the last slack interval the member's wait and the
period's length (R399). The moments are by the clock of the tile of the entry port that owns the word's line. -/
structure Coll where
  id      : Nat
  addr    : Nat
  members : Nat
  rgn     : Nat
  period  : Nat
  start   : Nat
  adds    : List (Bool × Nat)
  waits   : List (Nat × Nat)
  deriving DecidableEq, Repr

/-- A tile as a save keeps it (R382): coordinate, tile state and its four thread sets. The byte
layout that R382 gives is written to DRAM as well; what R382 leaves without a layout is kept here. -/
structure SavedTile where
  coord : Nat
  tile  : Tile
  tss   : List ThreadSet
  deriving DecidableEq, Repr

/-- A save area's context (R382 to R385). `away` says that the host has pre-empted it: it is not resident (R327, R352). -/
structure Saved where
  away   : Bool
  region : Region
  tiles  : List SavedTile
  deriving DecidableEq, Repr

/-- A packet that a host or DRAM Source has for an edge of a context (R37): H0 and what follows H1. -/
structure SourcePkt where
  ctx  : Nat
  edge : Nat
  h0   : Word
  body : List Byte
  deriving DecidableEq, Repr

/-- A host's access to the BAR of a CXL port (R350, R431): a read of n bytes at an offset, or a write of 8. -/
inductive BarAccess where
  | read (port off n : Nat)
  | write (port off : Nat) (val : Word)
  deriving DecidableEq, Repr

/-- What the module presents to the world outside the wafer: links, management and bring-up. `sources` are the packets
that Sources have yet to put on their edges, oldest first (R37), and `bar` the accesses to the BAR that hosts have yet to
make: inputs of the machine. `cap` is the CAP of every tile that has none of its own (R400). -/
structure Links where
  sources : List SourcePkt
  bar     : List BarAccess
  queues  : AMap HostQueue
  turn    : Nat
  ports   : List HostPort
  mgmt    : HostPort
  boder   : AMap BoderPort
  remotes : List RemoteReq
  outbox  : List BoderOut
  pairing : AMap (Nat × Nat × Nat)
  bills   : AMap Nat
  colls   : List Coll
  hdm     : AMap Bool
  answers : List (List Byte)
  boderId : Nat
  serialNo : Nat
  boot    : Boot
  lease   : Lease
  inlet   : Nat
  outlet  : Nat
  flow    : Nat
  cap     : Nat
  deriving DecidableEq, Repr

/-- The module's tile map and characterisation data (R2, R22, R29, R390): dead tiles, marginal tiles with their
limit entries at the low, mid and high ratio, dead entry ports. -/
structure TileMap where
  dead     : List Nat
  limits   : AMap (Nat × Nat × Nat)
  deadPorts : List Nat
  deriving DecidableEq, Repr

/-- An event that has been started and that is the next to come about: a freeze resolution by firmware (R344), or a halt
that another cluster's Trellis has triggered (R411). -/
inductive Trigger where
  | frzConvert (rgn serial : Nat)
  | frzKill (rgn serial : Nat)
  | crossTrigger (clu : Nat)
  deriving DecidableEq, Repr

/-- The whole machine. -/
structure State where
  /-- Events that the world and the schedule deliver, oldest first: the input of the machine. -/
  agenda  : List Instr
  /-- Events that register writes have started. -/
  started : List Trigger
  /-- Which comes next: 0 for the agenda, n + 1 for move n of those that the machine can make by itself. It is an input
  of the machine: the spec leaves the order to timing. When it is empty the agenda comes first. -/
  schedule : List Nat
  /-- Choices that the spec leaves to timing, read from the front: the input of the machine. -/
  choices : List Nat
  /-- The model's own counter for free values: the spec gives no such state. -/
  fresh   : Nat
  /-- The thread set whose block fires next: the model's own schedule, the spec gives no such state. -/
  focus   : Nat
  /-- Pools, DRAM and host memory (R131, R336). -/
  mem     : AMap Byte
  /-- Poisoned 64-byte lines (R375, R437). -/
  poison  : List Nat
  /-- Poisoned lines whose error came while the field was undervolted (R395). -/
  margin  : List Nat
  /-- Blocks in flight, by thread set (R97). -/
  flights : AMap Flight
  tss     : AMap ThreadSet
  tiles   : AMap Tile
  clusters : AMap Cluster
  fields  : AMap Field
  regions : AMap Region
  /-- Owners of 64 KiB physical frames (R338). -/
  owners  : AMap Nat
  net     : List Flying
  landings : List Landing
  dreqs   : List DramReq
  dreps   : List DramRep
  tlb     : List Tlb
  /-- Contexts in save areas, by physical address of the area (R382). -/
  saves   : AMap Saved
  map     : TileMap
  links   : Links
  deriving DecidableEq, Repr

/-- The reset value of a CSR (R329, R356, R357, R376, R392, R403, R416, R417, R420): zero but for these. -/
def csrReset : Nat → Word
  | 0x040 => 0x1000032
  | 0x041 => 0xA020
  | 0x106 => 0x10064
  | 0x107 => 20
  | 0x201 => 1
  | 0x202 => 0xF00
  | 0x208 => 81
  | 0x210 => 1000
  | 0x220 => 2
  | 0x221 => 3
  | 0x222 => 12
  | 0x223 => 6
  | 0x224 => 20
  | 0x225 => 24
  | 0x226 => 4
  | 0x227 => 2
  | 0x228 => 1
  | 0x229 => 368
  | 0x22A => 340
  | 0x22B => 180
  | 0x22C => 30
  | 0x22D => 400
  | 0x230 => 0x330D08
  | 0x300 => 4
  | 0x310 => 0xA0
  | 0x312 => 7
  | 0x332 => 10
  | _ => 0

/-- The registers of a thread set after reset: all zero (no rule gives another value). -/
def Regs.zero : Regs := ⟨[], [], [], 0, 0, 0, 0⟩

/-- A thread set that nothing stops. -/
def Stops.none : Stops := ⟨.none, .none, false, false, false, []⟩

/-- The engine state of a thread set at launch (R105, R137, R179). -/
def Engines.zero : Engines := ⟨0, 0, 0, [], 0, [], [], 0, 0, [], none, [], 0, [], [], false, false⟩

/-- A free thread set (R50). -/
def ThreadSet.init : ThreadSet := ⟨none, 1, Stops.none, Regs.zero, Engines.zero, [], false, 0, false⟩

/-- A tile without a configuration. -/
def TileConf.none : TileConf := ⟨0, 0, .none, 0, [], [], [], [], []⟩

/-- An empty mailbox (R297: no mark, no ring). -/
def Mailbox.init : Mailbox := ⟨[], 0, 0, 0, 0, 0, 0, [], 0, [], []⟩

/-- The matrix unit at launch: every tile empty, no owner (R126, R182), the table all zero (R362). -/
def MatrixUnit.init : MatrixUnit := ⟨[], [], 0, none, some 0, 3, 0⟩

/-- A tile that belongs to no region. -/
def Tile.init : Tile :=
  ⟨none, 0, TileConf.none, Mailbox.init, MatrixUnit.init, [], 0, false, (0, 0), (0, 0), false, false, false,
   [], [], [], [], [], 0, [], none, [], none, 0⟩

/-- A cluster after reset (R416, R417). -/
def Cluster.init : Cluster := ⟨[], none, false, 0, 0, false, none, false, (0, 0, 0), []⟩

/-- A field after reset (R392). -/
def Field.init : Field := ⟨[], 0, 0, false, none, true, true, [], false⟩

/-- A host queue after reset: disabled (R350). -/
def HostQueue.init : HostQueue := ⟨0, 0, 0, 0, 0, 0, 0, true, false, false⟩

/-- A port of the module that is not yet up (R439). -/
def HostPort.init : HostPort := ⟨false, false, 0, 0, 0, false, false⟩

/-- A Boder port that is not yet up. -/
def BoderPort.init : BoderPort := ⟨false, 0, 0, 0, false⟩

/-- A cut that has not begun (R376). -/
def Cut.none : Cut := ⟨0, 0, 0, 0⟩

/-- An empty element of an accumulator tile (R126). -/
def AccElem.zero : AccElem := ⟨false, false, false, false, -2048, 0, some 0⟩

/-- A region that CREATE has just made (R352); its other fields are set by the command. -/
def Region.init : Region :=
  { ctx := 0, geom := 0, subst := [], st := .empty, csr := [], image := none, progIx := 0, seqPos := 0,
    seqOn := false, hold := false, outcome := .pending, ran := false, launchBy := none, edges := [],
    stages := [], serial := 0, reports := 0, frzSerial := 0, freezes := [], colour := false,
    cut := Cut.none, dorm := (0, 0, 0), dead := false, saving := none, saveNext := [], walkAt := none, delta := none, request := 0, granted := 0,
    interval := 0, intv := 50, calm := true, modeOn := 0, energyAt := 0, lowered := [], order := 0, chunk := [], round := 0, closing := false,
    shedDef := true, shedStop := false, portSent := (0, 0), portRecv := (0, 0), stuck := [], endings := [] }

/-- A stage without replicas. -/
def Stage.init : Stage :=
  { kind := .stateless, pipe := 0, minR := 1, maxR := 1, slice := 1, conf := TileConf.none, replicas := [],
    inEdge := 0, outs := [], inbox := [], nextIn := 0, openSeqs := [], eosIn := none, eosOut := false,
    total := 0, tok := none, rem := [], busy := [], asks := [], asking := [], dry := [], moves := [], joining := [], occ := 0, cls := 0,
    prevCls := 0, occSum := 0, occTime := 0, roData := [] }

/-- The edge table's value of an unlisted edge. -/
def Edge.init : Edge :=
  { dst := .dram, port := 0, depth := 1, initial := 0, len := 1, credits := 0, next := 0, closed := false,
    withheld := false, frozen := none, waiting := [], holes := [], returning := [], low := 0, above := [], eosLeft := false,
    src := none, oport := 0 }

/-- A port of a tile. -/
def Port.init : Port := ⟨none, 0, 0, none, 0, false⟩

/-- Module NVM and the boot record before the first start (R440). -/
def Boot.init : Boot :=
  { step := 0, mode := 2, fails := 0, nextEnt := 0, starts := 0, entries := [], minimal := false,
    nvmSvn := 0, image := ⟨0, 0, 0, true, true⟩, staged := none, kept := (0, []), meas := [] }

/-- The links before bring-up. -/
def Links.init : Links :=
  { sources := [], bar := [], queues := [], turn := 63, ports := [HostPort.init, HostPort.init], mgmt := HostPort.init, boder := [],
    remotes := [], outbox := [], pairing := [], bills := [], colls := [], hdm := [],
    answers := [], boderId := 0, serialNo := 0, boot := Boot.init,
    lease := ⟨none, 0, false⟩, inlet := 0, outlet := 0, flow := 0, cap := 15 }

/-- The machine right after reset: no region, empty memory, bring-up not yet begun (R439), every
register at the value the spec gives for reset and zero where it gives none (assumptions 1 and 2). DESIGN CHOICE
(assumption 64): the spec leaves the tile map to each module's NVM (R2, R22, R29); the module of this state has
no dead or marginal tile and no dead entry port. -/
def State.reset : State :=
  { agenda := [], started := [], schedule := [], choices := [], fresh := 0, focus := 0, mem := [], poison := [], margin := [], flights := [], tss := [],
    tiles := [], clusters := [], fields := [], regions := [], owners := [], net := [], landings := [],
    dreqs := [], dreps := [], tlb := [], saves := [], map := ⟨[], [], []⟩, links := Links.init }

end Sys2Proof.Machine
end

