-- ==== Sys2Proof/Config.lean ====
section
/-! DEFINITION. What the spec leaves open: constants without a body, of which no proof can see a value.
Assumptions 5 and 6 name them. -/

namespace Sys2Proof.Config

open Sys2Proof.Machine

/-- A value that the spec leaves unpredictable; the argument is a fresh number each time. -/
opaque freeValue : Nat → Word

/-- On which side of a rounding boundary a transcendental result lies that the evaluation could not separate from it:
function number and operand (R251 asks for correct rounding). -/
opaque freeFun : Nat → Word → Word

/-- The configuration section's byte layout, which R346 names by content only. -/
opaque decodeConf : List Byte → Option ConfImage

/-- The launch delta section's byte layout (R346, R354). -/
opaque decodeDelta : List Byte → Option (List TileConf × AMap EdgeConf)

/-- A data image's destination and bytes (R346). -/
opaque decodeData : List Byte → Option (DataDst × List Byte)

/-- The carry half that a save writes for a magnitude word (R126: any split). -/
opaque accSplit : Nat → Int

/-- The event-kind code of a chunk-log entry (R427 gives its place, not its codes). -/
opaque eventKind : Nat → Nat

/-- Flits of a memory request or reply that R402 charges; the spec gives packet sizes only for packets. -/
opaque requestFlits : Nat → Nat

/-- A wire answer of the management port or an SPDM responder whose byte layout the spec leaves to
other standards (R438, R442): message code, port and the facts it reports. -/
opaque wireAnswer : Nat → Nat → List Nat → List Byte

/-- The step in MHz from the entry below to an entry of a tile's characterised table (from 0 to entry 0): tile, ratio code,
entry (R2, R390). The table ascends. -/
opaque frequencyStep : Nat → Nat → Nat → Nat

/-- The lowest rail code at which a tile's cluster meets the characterised margin of an entry: tile, ratio code, entry, and
the cluster's temperature in 1/16 °C as its register gives it (R390, R393). -/
opaque entryCode : Nat → Nat → Nat → Nat → Nat

/-- The current of a field's rail as the module reports it (R400, R438): field and rail code, a fresh number each time. -/
opaque railCurrent : Nat → Nat → Nat → Nat

/-- The state of a tile frame that an uncorrectable error has hit is unpredictable (R375). -/
opaque freeWord : Nat → Nat → Word

/-- The SHA-384 digest of the ROM (R442), as a number: fixed in the chip, not stated by the spec. -/
opaque romDigest : Nat

/-- The SHA-384 digest of a tile map (R439, R442), as a number. -/
opaque mapDigest : TileMap → Nat

/-- How far a Boder port lies from an entry port (R435 asks for the nearest; the spec places no Boder port). -/
opaque boderDistance : Nat → Nat → Nat

/-- The CRC of a Boder flit (R434 gives its size, not its polynomial). -/
opaque boderCrc : BoderOut → BitVec 64

end Sys2Proof.Config
end

