-- ==== Sys2Proof/Machine/Ops.lean ====
section
/-! DEFINITION. The named operations over the state: places and coordinates, memory, translation,
faults (taking one is `State.takeFault`, returning from one `State.releaseFault`), freezes, packets,
energy and trace. -/

namespace Sys2Proof.Machine

open Sys2Proof

/-! ## Accessors -/

/-- The thread set of a number: four for each tile (R31). -/
def State.ts (s : State) (k : Nat) : ThreadSet := AMap.get ThreadSet.init k s.tss
/-- Stores a thread set. -/
def State.setTs (s : State) (k : Nat) (t : ThreadSet) : State := { s with tss := AMap.put ThreadSet.init k t s.tss }
/-- Changes a thread set. -/
def State.updTs (s : State) (k : Nat) (f : ThreadSet → ThreadSet) : State := s.setTs k (f (s.ts k))
/-- The tile of a number. -/
def State.tile (s : State) (t : Nat) : Tile := AMap.get Tile.init t s.tiles
/-- Stores a tile. -/
def State.setTile (s : State) (t : Nat) (x : Tile) : State := { s with tiles := AMap.put Tile.init t x s.tiles }
/-- Changes a tile. -/
def State.updTile (s : State) (t : Nat) (f : Tile → Tile) : State := s.setTile t (f (s.tile t))
/-- The cluster of a number. -/
def State.cluster (s : State) (c : Nat) : Cluster := AMap.get Cluster.init c s.clusters
/-- Changes a cluster. -/
def State.updCluster (s : State) (c : Nat) (f : Cluster → Cluster) : State :=
  { s with clusters := AMap.put Cluster.init c (f (s.cluster c)) s.clusters }
/-- The field of a number. -/
def State.fieldRec (s : State) (f : Nat) : Field := AMap.get Field.init f s.fields
/-- Changes a field. -/
def State.updField (s : State) (n : Nat) (f : Field → Field) : State :=
  { s with fields := AMap.put Field.init n (f (s.fieldRec n)) s.fields }
/-- The resident region of a number. -/
def State.region (s : State) (r : Nat) : Region := AMap.get Region.init r s.regions
/-- Whether a region number is in use. -/
def State.hasRegion (s : State) (r : Nat) : Bool := (AMap.find r s.regions).isSome
/-- Changes a resident region. -/
def State.updRegion (s : State) (r : Nat) (f : Region → Region) : State :=
  { s with regions := AMap.modify r f s.regions }
/-- The block in flight on a thread set. -/
def State.flight (s : State) (k : Nat) : Option Flight := AMap.find k s.flights
/-- Stores the block in flight of a thread set. -/
def State.setFlight (s : State) (k : Nat) (f : Flight) : State := { s with flights := AMap.ins k f s.flights }
/-- Changes the block in flight of a thread set. -/
def State.updFlight (s : State) (k : Nat) (g : Flight → Flight) : State := { s with flights := AMap.modify k g s.flights }
/-- Drops the block in flight of a thread set. -/
def State.dropFlight (s : State) (k : Nat) : State := { s with flights := AMap.del k s.flights }
/-- The host queue of a number. -/
def State.queue (s : State) (q : Nat) : HostQueue := AMap.get HostQueue.init q s.links.queues
/-- Changes a host queue. -/
def State.updQueue (s : State) (q : Nat) (f : HostQueue → HostQueue) : State :=
  { s with links := { s.links with queues := AMap.put HostQueue.init q (f (s.queue q)) s.links.queues } }
/-- Changes the links. -/
def State.updLinks (s : State) (f : Links → Links) : State := { s with links := f s.links }
/-- A CSR value held in a map (the reset value when unlisted). -/
def csrOf (m : AMap Word) (n : Nat) : Word := AMap.get (csrReset n) n m
/-- Writes a CSR value into a map. -/
def csrPut (m : AMap Word) (n : Nat) (w : Word) : AMap Word := AMap.put (csrReset n) n w m

/-- Takes the next choice of the schedule; 0 when none is given. -/
def State.choose (s : State) : Nat × State :=
  match s.choices with
  | [] => (0, s)
  | c :: cs => (c, { s with choices := cs })

/-- A fresh unpredictable value (R12, R38, R51). -/
def State.free (s : State) : Word × State := (Config.freeValue s.fresh, { s with fresh := s.fresh + 1 })

/-! ## Words built from fields -/

/-- A field value at a place in a word; the value keeps `len` bits (R4, R14). -/
def at_ (lo len v : Nat) : Nat := v % 2 ^ len * 2 ^ lo
/-- A 64-bit word from a number. -/
def word (n : Nat) : Word := BitVec.ofNat 64 n
/-- Replaces the bits [lo+len-1:lo] of a word. -/
def setField (w : Word) (lo len v : Nat) : Word :=
  word (w.toNat - field w lo len * 2 ^ lo + at_ lo len v)

/-! ## Places (R18 to R20, R28, R106) -/

/-- Tile number of a physical coordinate. -/
def tileAt (x y : Nat) : Nat := y * 720 + x
/-- Physical x of a tile number. -/
def tileX (t : Nat) : Nat := t % 720
/-- Physical y of a tile number. -/
def tileY (t : Nat) : Nat := t / 720
/-- The number of the first field manager core among the tile numbers; core f is `coreBase + f`. -/
def coreBase : Nat := 518400
/-- Whether a tile number names a field manager core (R326). -/
def isCore (t : Nat) : Bool := decide (coreBase ≤ t)
/-- Whether a field position is present (R18). -/
def fieldPresent (fx fy : Nat) : Bool :=
  decide (fx < 10) && decide (fy < 10) && (decide (2 ≤ fx ∧ fx ≤ 7) || decide (2 ≤ fy ∧ fy ≤ 7))
/-- Whether a physical coordinate names a compute tile (R18). -/
def tilePresent (x y : Nat) : Bool := decide (x < 720) && decide (y < 720) && fieldPresent (x / 72) (y / 72)
/-- The field number of a field position (R19); an absent position has none, and 84 stands for it. -/
def fieldNum (fx fy : Nat) : Nat :=
  if !fieldPresent fx fy then 84
  else if fy < 2 then 6 * fy + fx - 2 else if fy < 8 then 12 + 10 * (fy - 2) + fx else 72 + 6 * (fy - 8) + fx - 2
/-- Whether a tile number names a compute tile (R18) or a field manager core (R326). -/
def isTile (t : Nat) : Bool := if isCore t then decide (t < coreBase + 84) else tilePresent (tileX t) (tileY t)
/-- The field number of a tile; a manager core belongs to its own field. -/
def fieldOf (t : Nat) : Nat :=
  if isCore t then t - coreBase else fieldNum (tileX t / 72) (tileY t / 72)
/-- The cluster number of a tile: 180 clusters to a row (R20). -/
def clusterOf (t : Nat) : Nat := if isCore t then 32400 + (t - coreBase) else tileY t / 4 * 180 + tileX t / 4
/-- Whether a cluster number names a cluster: the wafer holds 27,216, all in present fields (R20). The manager
cores, whose registers of cluster scope the model keeps under the numbers from 32400, belong to none. -/
def clusterOk (c : Nat) : Bool := decide (c < 32400) && fieldPresent (c % 180 / 18) (c / 180 / 18)
/-- Sibling index of a tile (R20). -/
def siblingOf (t : Nat) : Nat := 4 * (tileY t % 4) + tileX t % 4
/-- The sibling of a tile by its index. -/
def siblingTile (t i : Nat) : Nat := tileAt (tileX t / 4 * 4 + i % 4) (tileY t / 4 * 4 + i / 4)
/-- The tiles of a cluster, in sibling order. -/
def clusterTiles (c : Nat) : List Nat :=
  if c < 32400 then (List.range 16).map fun i => tileAt (c % 180 * 4 + i % 4) (c / 180 * 4 + i / 4)
  else [coreBase + (c - 32400)]
/-- Region-virtual coordinate word: x in [9:0], y in [19:10] (R106). -/
def packXY (x y : Nat) : Nat := x % 1024 + y % 1024 * 1024
/-- x of a packed coordinate. -/
def cx (c : Nat) : Nat := c % 1024
/-- y of a packed coordinate. -/
def cy (c : Nat) : Nat := c / 1024 % 1024
/-- Difference of two numbers, whichever is the larger. -/
def dist (a b : Nat) : Nat := (a - b) + (b - a)
/-- Hops between two tiles (R25). -/
def hops (a b : Nat) : Nat := dist (tileX a) (tileX b) + dist (tileY a) (tileY b)
/-- The attachment tile of an entry port (R28). -/
def portTile (p : Nat) : Nat :=
  let d := 54 * (p / 16 % 8) + 3 + 3 * (p % 16)
  if p / 16 < 8 then tileAt (144 + d) 0
  else if p / 16 < 16 then tileAt 719 (144 + d)
  else if p / 16 < 24 then tileAt (575 - d) 719
  else tileAt 0 (575 - d)

/-- The tile of a thread set. -/
def tileOf (k : Nat) : Nat := k / 4
/-- The number of a thread set on its tile (R9). -/
def tsNum (k : Nat) : Nat := k % 4

/-- Width of a region in clusters (R330). -/
def Region.cw (r : Region) : Nat := field r.geom 16 8
/-- Height of a region in clusters. -/
def Region.ch (r : Region) : Nat := field r.geom 24 8
/-- Physical tile of a region-virtual coordinate before substitution (R328). -/
def Region.physOf (r : Region) (c : Nat) : Nat := tileAt (4 * field r.geom 0 8 + cx c) (4 * field r.geom 8 8 + cy c)
/-- Whether a coordinate lies in the region's Potting shed (R328). -/
def inShed (c : Nat) : Bool := decide (cx c < 4) && decide (cy c < 4)
/-- Region-virtual coordinates of a region in row-major order. -/
def Region.coords (r : Region) : List Nat :=
  (List.range (4 * r.ch)).flatMap fun y => (List.range (4 * r.cw)).map fun x => packXY x y

/-- Where a coordinate leads (R333). -/
inductive Trans where
  | outside
  | withdrawn
  | at (tile : Nat)
  deriving DecidableEq, Repr

/-- The valid substitution entry of a coordinate (R332). -/
def Region.substOf (r : Region) (c : Nat) : Option Word :=
  (r.subst.find? fun p => p.1 / 64 == cy c / 4 && bitAt p.2 63 && field p.2 0 10 == cx c && field p.2 10 10 == cy c).map Prod.snd

/-- `translate_tile` of R333. -/
def Region.translate (r : Region) (c : Nat) (user : Bool) : Trans :=
  if 4 * r.cw ≤ cx c ∨ 4 * r.ch ≤ cy c then .outside
  else if user && inShed c then .outside
  else match r.substOf c with
    | some e => if field e 61 2 = 2 then .withdrawn else .at (tileAt (field e 20 10) (field e 30 10))
    | none => .at (r.physOf c)

/-- The tile of a region-virtual coordinate; a coordinate outside or withdrawn has none. -/
def Region.tileAt? (r : Region) (c : Nat) : Option Nat :=
  match r.translate c false with | .at t => some t | _ => none

/-- The physical tiles of a region, in row-major order of region-virtual coordinate; a withdrawn
coordinate has none. -/
def Region.tilesOf (r : Region) : List Nat :=
  r.coords.filterMap r.tileAt?

/-- The privilege levels of R326. -/
inductive Level where
  | user
  | supervisor
  | device
  deriving DecidableEq, Repr

/-- The level of a tile, fixed by where it is (R326). -/
def State.level (s : State) (t : Nat) : Level :=
  if isCore t then .device else if inShed (s.tile t).coord then .supervisor else .user

/-- The region number of a tile; the manager cores' registers of region scope are kept under 256. -/
def State.rgnOf (s : State) (t : Nat) : Nat := ((s.tile t).rgn).getD 256
/-- The context of a tile; 0 is firmware (R327). -/
def State.ctxOf (s : State) (t : Nat) : Nat :=
  match (s.tile t).rgn with | some r => (s.region r).ctx | none => 0

/-- The lowest-numbered field of a region (R69). -/
def Region.firstField (r : Region) : Nat := fieldOf (r.physOf 0)

/-! ## The pool (R108, R109, R112) -/

/-- Thread sets of a partition word (R108). -/
def partTs (p : Word) : Nat := match field p 0 2 with | 0 => 1 | 1 => 2 | _ => 4
/-- Base of the lowest frame (R109). -/
def framesBase (p : Word) : Nat := 0x20000 - 2368 * partTs p
/-- Base of accumulator tile 0. -/
def accBase (p : Word) : Nat := framesBase p - 1024 * field p 8 5
/-- Records in the matrix queue (R179). -/
def queueDepth (p : Word) : Nat := (field p 21 3 + 1) * 8
/-- Base of the matrix queue. -/
def queueBase (p : Word) : Nat := accBase p - 32 * queueDepth p
/-- Size of the mailbox. -/
def mboxSize (p : Word) : Nat := 1024 * (field p 16 5 + 1)
/-- Base of the mailbox, and the end of the scratchpad range (R112). -/
def mboxBase (p : Word) : Nat := queueBase p - mboxSize p
/-- The epilogue thread set, when the partition word reserves one (R108). -/
def epiTs (p : Word) : Option Nat := if bitAt p 2 && decide (1 < partTs p) then some (partTs p - 1) else none
/-- Whether a partition word is legal (R108). -/
def partLegal (p : Word) : Bool :=
  field p 24 40 == 0 && field p 13 3 == 0 && field p 3 5 == 0 && decide (field p 8 5 ≤ 16) &&
    decide (field p 0 2 ≠ 3) && !(bitAt p 2 && field p 0 2 == 0)
/-- Whether n bytes at an offset lie wholly in a tile's scratchpad range (R112). -/
def State.inPad (s : State) (t off n : Nat) : Bool := decide (off + n ≤ mboxBase (s.tile t).conf.part)
/-- The scratchpad range or the mailbox, which loads may read (R112, R294). -/
def State.inPadOrMbox (s : State) (t off n : Nat) : Bool :=
  decide (off + n ≤ queueBase (s.tile t).conf.part) && (decide (off + n ≤ mboxBase (s.tile t).conf.part) ||
    decide (mboxBase (s.tile t).conf.part ≤ off))

/-! ## Memory -/

/-- Key of a pool byte: the pools lie above every physical DRAM address (R131, R336). -/
def poolKey (t off : Nat) : Nat := 2 ^ 60 + t * 2 ^ 17 + off
/-- Key of a byte of host memory (R67, R350). -/
def hostKey (a : Nat) : Nat := 2 ^ 61 + a
/-- One byte of memory; a byte that nothing has written reads 0 (assumption 1). -/
def State.byte (s : State) (a : Nat) : Byte := AMap.get 0 a s.mem
/-- Writes one byte. -/
def State.putByte (s : State) (a : Nat) (b : Byte) : State := { s with mem := AMap.put 0 a b s.mem }
/-- Reads n bytes. -/
def State.bytes (s : State) (a n : Nat) : List Byte := (List.range n).map fun i => s.byte (a + i)
/-- Writes bytes; an absent byte is left alone (R85). -/
def State.putBytes (s : State) : Nat → Bytes → State
  | _, [] => s
  | a, none :: bs => s.putBytes (a + 1) bs
  | a, some b :: bs => (s.putByte a b).putBytes (a + 1) bs
/-- A little-endian number of n bytes (R5). -/
def State.num (s : State) (a n : Nat) : Nat := ofBytes (s.bytes a n)
/-- Writes a little-endian number of n bytes. -/
def State.putNum (s : State) (a n v : Nat) : State := s.putBytes a ((leBytes n v).map some)
/-- Writes a whole list of bytes. -/
def State.putAll (s : State) (a : Nat) (bs : List Byte) : State := s.putBytes a (bs.map some)
/-- Whether any line of n bytes at a key is poisoned (R375). -/
def State.poisoned (s : State) (a n : Nat) : Bool :=
  s.poison.any fun l => decide (l * 64 < a + n) && decide (a < l * 64 + 64)

/-- Whether a poisoned line of n bytes at a key was hit while its field was undervolted (R395). -/
def State.marginAt (s : State) (a n : Nat) : Bool :=
  s.margin.any fun l => decide (l * 64 < a + n) && decide (a < l * 64 + 64)
/-- FW4 of a refusal (R368): MARGIN for a poisoned line, TABLE for a failed walk. -/
def markWord (cause : Nat) (m : Bool) : Word := BitVec.ofNat 64 (if cause = 3 then m.toNat else 2 * m.toNat)

/-! ## DRAM translation (R336 to R340) -/

/-- Whether a physical DRAM byte address lies in a stack (R336): 36 GB each. -/
def physOk (a n : Nat) : Bool := decide (a < 2 ^ 41) && decide (a % 2 ^ 36 + n ≤ 36 * 10 ^ 9)

/-- A level of the walk (R336): index place, index width, table size, page bits, and whether a leaf is
illegal or required here. -/
structure WalkLevel where
  lo   : Nat
  len  : Nat
  leafNo  : Bool
  leafYes : Bool
  nextBits : Nat
  deriving DecidableEq, Repr

/-- The levels from the root down (R336). -/
def walkLevels : List WalkLevel :=
  [⟨39, 9, true, false, 12⟩, ⟨30, 9, false, false, 12⟩, ⟨21, 9, false, false, 8⟩, ⟨16, 5, false, true, 8⟩]

/-- The result of a walk: a leaf with its page bits, or the failing cause with the table-error mark. -/
inductive WalkRes where
  | leaf (e : Word) (bits : Nat)
  | bad (cause : Nat) (tableMark : Bool)
  deriving DecidableEq, Repr

/-- Whether the reserved bits of a table entry are zero (R337). -/
def entryClear (e : Word) : Bool := field e 46 18 == 0 && field e 5 3 == 0
/-- Whether PA of a table entry may be used: aligned, and inside a stack, or, for a leaf, on another module
(R337, R435). -/
def entryOk (e : Word) (bits : Nat) (leaf : Bool) : Bool :=
  decide (field e 8 38 * 256 % 2 ^ bits = 0) && ((leaf && bitAt e 45) || physOk (field e 8 38 * 256) 1)

/-- The owner of a 64 KiB physical frame (R338). -/
def State.owner (s : State) (a : Nat) : Nat := AMap.get 0 (a / 65536) s.owners

/-- Walks the levels from a table (R336 to R338). -/
def State.walkFrom (s : State) (ctx a : Nat) : List WalkLevel → Nat → WalkRes
  | [], _ => .bad 1 true
  | l :: ls, table =>
    if s.owner table ≠ ctx then .bad 1 true
    else
      let at_ := table + 8 * (a / 2 ^ l.lo % 2 ^ l.len)
      let e := word (s.num at_ 8)
      if s.poisoned at_ 8 then .bad 3 false
      else if !entryClear e then .bad 1 true
      else if bitAt e 0 = false then .bad 1 false
      else if bitAt e 4 then
        if l.leafNo || !entryOk e l.lo true then .bad 1 true
        else .leaf e l.lo
      else if l.leafYes || !entryOk e l.nextBits false then .bad 1 true
      else s.walkFrom ctx a ls (field e 8 38 * 256)

/-- Whether a region-virtual address can have a translation: EN of XROOT is 1, and A[56:48] is zero (R336, R339). -/
def Region.translates (r : Region) (a : Nat) : Bool := bitAt (csrOf r.csr 0x004) 0 && decide (a < 2 ^ 48)
/-- The walk of a region-virtual address of a context (R336, R339). -/
def State.walk (s : State) (rgn a : Nat) : WalkRes :=
  let r := s.region rgn
  if r.translates a then s.walkFrom r.ctx a walkLevels (field (csrOf r.csr 0x004) 12 34 * 4096) else .bad 1 false

/-- What an access wants of a page (R337). -/
inductive Want where
  | read
  | write
  | both
  | fetch
  deriving DecidableEq, Repr

/-- Whether a leaf allows an access (R337). -/
def leafAllows (e : Word) : Want → Bool
  | .read => bitAt e 1
  | .write => bitAt e 2
  | .both => bitAt e 1 && bitAt e 2
  | .fetch => bitAt e 3

/-- A space-3 access at its entry port: the physical address, or the refusal cause (R338, R340). A
remote page of R435 gives its target address in the range from 2^59. A leaf that the port caches serves only
while EN is 1 (R339); a byte of the page that lies in a hole is of no frame that the context owns. -/
def State.dramAddr (s : State) (rgn port a : Nat) (w : Want) : Phys × State :=
  let r := s.region rgn
  let done (e : Word) (bits : Nat) (s : State) : Phys × State :=
    let p := field e 8 38 * 256 + a % 2 ^ bits
    if !leafAllows e w then (.failed 2 false, s)
    else if bitAt e 45 then (.at (2 ^ 59 + (field e 37 8) * 2 ^ 40 + p % 2 ^ 37), s)
    else if s.owner p ≠ r.ctx ∨ !physOk p 1 then (.failed 2 false, s)
    else (.at p, s)
  if !r.translates a then (.failed 1 false, s)
  else match s.tlb.find? fun t => t.port == port && t.ctx == r.ctx && t.page == a / 2 ^ t.bits with
  | some t => done t.leaf t.bits s
  | none =>
    match s.walk rgn a with
    | .bad c m => (.failed c m, s)
    | .leaf e bits =>
      match done e bits s with
      | (.at p, s) => (.at p, { s with tlb := ⟨port, r.ctx, a / 2 ^ bits, bits, e⟩ :: s.tlb })
      | q => q

/-- The bound entry port nearest a tile, the lowest number on a tie (R173). -/
def nearestPort (ports : List Nat) (t : Nat) : Option Nat :=
  ports.foldl (fun best p => match best with
    | none => some p
    | some b => if hops (portTile p) t < hops (portTile b) t ∨
        (hops (portTile p) t = hops (portTile b) t ∧ p < b) then some p else some b) none

/-- The entry port that serves a tile of a region (R173). A manager core, which reaches every memory-edge tile
(R326), is served by the live port nearest the north-west tile of its field (assumption 63). -/
def State.portFor (s : State) (rgn t : Nat) : Option Nat :=
  if isCore t then
    match (List.range 100).find? fun p => fieldOf t = fieldNum (p % 10) (p / 10) with
    | some p => nearestPort ((List.range 512).filter fun q => !s.map.deadPorts.contains q) (tileAt (72 * (p % 10)) (72 * (p / 10)))
    | none => none
  else match (s.region rgn).image with | some i => nearestPort i.ports t | none => none

/-! ## Addresses as written (R131 to R134) -/

/-- Address space of an address. -/
def space (a : Word) : Nat := field a 60 4
/-- Whether the must-be-zero bits of R131 are clear and the space is not reserved. -/
def addrFormOk (a : Word) : Bool :=
  match space a with
  | 0 => field a 17 43 == 0
  | 1 => field a 22 38 == 0 && !bitAt a 17
  | 2 => field a 17 23 == 0
  | 3 => field a 57 3 == 0
  | 4 => field a 15 24 == 0 && field a 0 3 == 0
  | _ => false
/-- The space-0 offset of an address that names the tile itself (R134), given the tile's own names. -/
def localOff (t coord : Nat) (a : Word) : Option Nat :=
  match space a with
  | 0 => some (field a 0 17)
  | 1 => if field a 18 4 = siblingOf t then some (field a 0 17) else none
  | 2 => if field a 50 10 = cx coord ∧ field a 40 10 = cy coord then some (field a 0 17) else none
  | _ => none

/-! ## Energy (R401 to R406) -/

/-- Ratio factor F of R404. -/
def ratioF : Nat → Nat
  | 0 => 11
  | 1 => 16
  | _ => 25
/-- Largest meter in sixteenths of a pJ (R406). -/
def meterMax : Nat := (2 ^ 48 - 1) * 16 + 15
/-- Adds to a meter; past its maximum it saturates (R406). -/
def Meter.add (m : Meter) (n : Nat) : Meter :=
  if m.sat then m else if meterMax < m.units + n then ⟨meterMax, true⟩ else ⟨m.units + n, false⟩
/-- The meter word of R401. -/
def Meter.word (m : Meter) : Word :=
  BitVec.ofNat 64 (at_ 0 48 (m.units / 16) + at_ 48 4 (m.units % 16) + at_ 63 1 m.sat.toNat)
/-- The weight of a class on a tile's field (R392, R403); classes 14 and 15 weigh nothing. -/
def State.weight (s : State) (t cls : Nat) : Nat :=
  if 14 ≤ cls then 0 else field (csrOf (s.fieldRec (fieldOf t)).csr (0x220 + cls)) 0 16
/-- Adds an amount, in pJ at the mid ratio, to a context's meter on a tile (R404). -/
def State.chargeRaw (s : State) (t ctx pj : Nat) : State :=
  let f := ratioF (field (csrOf (s.cluster (clusterOf t)).csr 0x201) 0 2)
  s.updTile t fun x => { x with meters := AMap.upd ⟨0, false⟩ ctx (fun m => m.add (pj * f)) x.meters }
/-- Charges units of a class (R402). -/
def State.charge (s : State) (t ctx cls units : Nat) : State := s.chargeRaw t ctx (s.weight t cls * units)
/-- Units of class 7 for n pool bytes (R402). -/
def units8 (n : Nat) : Nat := (n + 7) / 8

/-! ## Trace records (R419 to R422) -/

/-- Word 0 of a record (R421). -/
def traceHead (kind ts coord cyc : Nat) (trunc : Bool) : Nat :=
  at_ 59 5 kind + at_ 58 1 trunc.toNat + at_ 56 2 ts + at_ 46 10 (cy coord) + at_ 36 10 (cx coord) + at_ 0 36 cyc
/-- Writes one record into a region's ring; `force` uses the slot kept for the end record (R422). -/
def State.putRecord (s : State) (r : Nat) (w0 w1 w2 w3 : Nat) (force : Bool) : State :=
  let g := s.region r
  let lg := field (csrOf g.csr 0x312) 0 5
  let head := field (csrOf g.csr 0x313) 0 32
  let tail := field (csrOf g.csr 0x314) 0 32
  let used := (head + 2 ^ 32 - tail) % 2 ^ 32
  if used < 2 ^ lg - 1 ∨ force then
    let a := (csrOf g.csr 0x311).toNat + 32 * (head % 2 ^ lg)
    let s := (((s.putNum a 8 w0).putNum (a + 8) 8 w1).putNum (a + 16) 8 w2).putNum (a + 24) 8 w3
    s.updRegion r fun g => { g with csr := csrPut g.csr 0x313 (word ((head + 1) % 2 ^ 32)) }
  else s.updRegion r fun g => { g with csr := csrPut g.csr 0x315 (word (min (2 ^ 32 - 1) (field (csrOf g.csr 0x315) 0 32 + 1))) }
/-- Writes a record of a kind when the region's session is open and the kind enabled (R420). -/
def State.trace (s : State) (r kind ts coord cyc : Nat) (w1 w2 w3 : Nat) : State :=
  let c := csrOf (s.region r).csr 0x310
  if bitAt c 0 && bitAt c (16 + kind) then s.putRecord r (traceHead kind ts coord cyc false) w1 w2 w3 false else s
/-- A record of an event on a tile. -/
def State.traceTile (s : State) (t kind ts w1 w2 w3 : Nat) : State :=
  s.trace (s.rgnOf t) kind ts (s.tile t).coord (s.tile t).cycle w1 w2 w3
/-- A record that firmware writes: X, Y, TS and CYC zero (R421). -/
def State.traceFw (s : State) (r kind coord w1 w2 w3 : Nat) : State := s.trace r kind 0 coord 0 w1 w2 w3
/-- A power record of a field, in the trace of each region that has tiles there (R421). -/
def State.tracePower (s : State) (f code value : Nat) : State :=
  s.regions.foldl (fun s p => if p.2.tilesOf.any fun t => fieldOf t == f then s.traceFw p.1 6 0 code value f else s) s

/-! ## Packets (R40 to R45) -/

/-- KIND of H0. -/
def h0Kind (h : Word) : Nat := field h 60 4
/-- PRIO of H0. -/
def h0Prio (h : Word) : Nat := field h 54 6
/-- HANDLER of H0. -/
def h0Handler (h : Word) : Nat := field h 48 6
/-- LENGTH of H0. -/
def h0Len (h : Word) : Nat := field h 44 4
/-- NSUCC of H0. -/
def h0Nsucc (h : Word) : Nat := field h 40 4
/-- COLOUR of H0. -/
def h0Colour (h : Word) : Bool := bitAt h 39
/-- STAGE of H0. -/
def h0Stage (h : Word) : Nat := field h 32 7
/-- SEQ of H0. -/
def h0Seq (h : Word) : Nat := field h 0 32
/-- Builds H0 (R41). -/
def mkH0 (kind prio handler len nsucc : Nat) (colour : Bool) (stage seq : Nat) : Word :=
  word (at_ 60 4 kind + at_ 54 6 prio + at_ 48 6 handler + at_ 44 4 len + at_ 40 4 nsucc +
    at_ 39 1 colour.toNat + at_ 32 7 stage + at_ 0 32 seq)
/-- Destination coordinate of H1. -/
def h1Dst (h : Word) : Nat := packXY (field h 54 10) (field h 44 10)
/-- Source coordinate of H1. -/
def h1Src (h : Word) : Nat := packXY (field h 34 10) (field h 24 10)
/-- PORT of H1. -/
def h1Port (h : Word) : Nat := field h 0 12
/-- Builds H1 (R43). -/
def mkH1 (dst src ctx port : Nat) : Word :=
  word (at_ 54 10 (cx dst) + at_ 44 10 (cy dst) + at_ 34 10 (cx src) + at_ 24 10 (cy src) + at_ 12 12 ctx + at_ 0 12 port)
/-- Destination coordinate of a successor handle (R45). -/
def handleDst (h : Word) : Nat := packXY (field h 54 10) (field h 44 10)
/-- A packet's bytes after the header: payload and successor list (R40). -/
def bodyLen (h0 : Word) : Nat := (h0Len h0 + 1) * 16 - 16
/-- The successor handles at the end of a packet (R40). -/
def succOf (h0 : Word) (body : List Byte) : List Word :=
  if 8 < h0Nsucc h0 then []
  else (List.range (h0Nsucc h0)).map fun i =>
    word (ofBytes ((body.drop (bodyLen h0 - 8 * h0Nsucc h0 + 8 * i)).take 8))
/-- Payload length in bytes (R40). -/
def payloadLen (h0 : Word) : Nat := bodyLen h0 - (if 8 < h0Nsucc h0 then 0 else 8 * h0Nsucc h0)
/-- The virtual channel of a KIND (R26). -/
def vcOf (kind : Nat) : Nat := if kind = 3 then 1 else if kind = 4 then 2 else if kind = 5 ∨ kind = 6 then 3 else 0

/-- Adds one to a tile's count of packets sent, by colour (R377). -/
def countPair (p : Nat × Nat) (c : Bool) : Nat × Nat := if c then (p.1, p.2 + 1) else (p.1 + 1, p.2)

/-- Packets of one colour that a region has sent and received, entry ports included (R377, R379). -/
def State.colourSums (s : State) (r : Nat) (c : Bool) : Nat × Nat :=
  let pick (p : Nat × Nat) : Nat := if c then p.2 else p.1
  (s.region r).tilesOf.foldl (fun a t => (a.1 + pick (s.tile t).sent, a.2 + pick (s.tile t).recv))
    (pick (s.region r).portSent, pick (s.region r).portRecv)

/-- Puts a packet into the network: the colour bit, the counts of R377, energy (R402) and the trace
record (R421). -/
def State.emit (s : State) (src dst : Nat) (h0 h1 : Word) (body : List Byte)
    (stage edge : Option (Nat × Nat)) (slices : List Nat := []) (ts : Nat := 0) : State :=
  let t := s.tile src
  let h0 := setField h0 39 1 t.colour.toNat
  let s := s.updTile src fun x => { x with sent := countPair x.sent t.colour }
  let s := s.charge src (s.ctxOf src) 8 ((h0Len h0 + 1) * hops src dst)
  let s := s.traceTile src 2 ts h0.toNat h1.toNat 0
  { s with net := s.net ++ [⟨src, dst, vcOf (h0Kind h0), h0, h1, body, stage, edge, false, slices⟩] }

/-! ## Faults (R366 to R371) -/

/-- Cause codes of R367. -/
def Cause.code : Cause → Nat
  | .blockFetch => 0x01 | .malformed => 0x02 | .operandType => 0x03 | .streamDirection => 0x04
  | .branchTarget => 0x05 | .exit => 0x06 | .multipleExit => 0x07 | .incomplete => 0x08 | .address => 0x09
  | .alignment => 0x0A | .privilege => 0x0B | .poolProtection => 0x0C | .remoteAccess => 0x0D
  | .dramAccess => 0x0E | .atomicOrdering => 0x0F | .scope => 0x10 | .binding => 0x11 | .landing => 0x12
  | .timeline => 0x13 | .streamDescriptor => 0x14 | .streamBounds => 0x15 | .streamSlot => 0x16
  | .copyDescriptor => 0x17 | .copyBatch => 0x18 | .matrixFormat => 0x19 | .matrixRecord => 0x1A
  | .matrixOwnership => 0x1B | .matrixContext => 0x1C | .epilogue => 0x1D | .stageOutput => 0x1E
  | .send => 0x1F | .mailbox => 0x20 | .range => 0x21 | .csr => 0x22 | .regionBounds => 0x23
  | .dataError => 0x24 | .trap => 0x30 | .storeRefused => 0x40 | .appendRefused => 0x41
  | .copyFault => 0x42 | .matrixData => 0x43 | .packetFormat => 0x50 | .lateEos => 0x51
  | .deadlock => 0x52 | .landingOverrun => 0x53 | .dramReply => 0x54 | .staleRepair => 0x55
  | .repairRefused => 0x56 | .landingRefused => 0x57
/-- Classes of R366 and R367: 0 precise, 1 asynchronous, 2 report. -/
def Cause.cls (c : Cause) : Nat := if c.code < 0x40 then 0 else if c.code < 0x50 then 1 else 2

/-- A fault without address, value or marks. -/
def FaultInfo.plain (c : Cause) (index : Nat) : FaultInfo := ⟨c, index, 0, 0, 0, 0⟩

/-- Who a fault token is about (R368). -/
structure Subject where
  rgn   : Nat
  coord : Nat
  ts    : Nat
  bpc   : Word
  cur   : Word
  thread : Bool
  deriving DecidableEq, Repr

/-- FW0 of a fault token (R368). -/
def faultWord0 (u : Subject) (f : FaultInfo) (cls serial : Nat) : Nat :=
  at_ 56 8 f.cause.code + at_ 48 8 f.index + at_ 46 2 cls + at_ 44 2 u.ts + at_ 34 10 (cy u.coord) +
    at_ 24 10 (cx u.coord) + at_ 16 8 f.sub + at_ 0 16 serial

/-- Charges a block's firings (R402, R403): the entry of an index holds the class of its firing plus one,
the entry 512 above it the pool bytes that it read, in units of class 7. -/
def State.chargeFlight (s : State) (k : Nat) (f : Flight) : State :=
  f.counts.foldl (fun s p =>
    if p.1 < 512 then s.charge (tileOf k) (s.ctxOf (tileOf k)) (p.2 - 1) 1
    else s.charge (tileOf k) (s.ctxOf (tileOf k)) 7 p.2) s

/-- Discards the block in flight: nothing of it stays but its energy charges (R91, R402). -/
def State.discard (s : State) (k : Nat) : State :=
  match s.flight k with
  | some f => (s.chargeFlight k f).dropFlight k
  | none => s

/-- Discards the groups that a thread set's streams have fetched ahead (R165). -/
def State.dropGroups (s : State) (k : Nat) : State :=
  s.updTile (tileOf k) fun x => { x with slots := x.slots.map fun p =>
    (p.1, if p.2.ts = k ∧ p.2.desc.out = false then { p.2 with ready := [] } else p.2) }

/-- Stops every thread set of a region outside the Potting shed, as HALT with RG = 1 does (R305). A
block in flight is discarded; each thread set keeps its BPC. -/
def State.haltTs (s : State) (k : Nat) : State :=
  ((s.discard k).dropGroups k).updTs k fun t =>
    if t.stops.fault.isSome then t else { t with stops := { t.stops with halted := true } }

/-- The thread sets of a region's user tiles. -/
def State.userTss (s : State) (r : Nat) : List Nat :=
  ((s.region r).tilesOf.filter fun t => !inShed (s.tile t).coord).flatMap fun t =>
    (List.range (partTs (s.tile t).conf.part)).map fun k => 4 * t + k

/-- Writes the end record of a region's trace session and closes it (R423). -/
def State.endTrace (s : State) (r reason : Nat) : State :=
  let g := s.region r
  let c := csrOf g.csr 0x310
  if bitAt c 0 then
    let s := s.putRecord r (traceHead 9 0 0 0 (reason ≠ 0)) reason (field (csrOf g.csr 0x315) 0 32)
      (field (csrOf g.csr 0x313) 0 32) true
    s.updRegion r fun g => { g with csr := csrPut g.csr 0x310 (setField (csrOf g.csr 0x310) 0 1 0) }
  else s

/-- Whether a change of the front end can commit: two other field manager cores can store it, or in minimal mode the one
core that runs (R364). -/
def State.quorum (s : State) : Bool :=
  s.links.boot.minimal || decide (2 ≤ (List.range 84).countP fun f => (s.fieldRec f).alive && !(s.fieldRec f).missed && s.links.lease.lead != some f)
/-- Whether the front end acts: bring-up is over, or the module is in minimal mode, and a lead acts whose changes can
commit (R364, R365, R439, R440). -/
def State.frontEnd (s : State) : Bool := decide (s.links.boot.step = 9) && s.links.lease.acting && s.quorum
/-- One numbered update of the front-end state (R364): the live cores that the lead reaches store it, and the copy of any other
core misses it; in minimal mode it goes to the one core's copy and to module NVM (R440). -/
def State.commitUpdate (s : State) : State :=
  let s := s.updLinks fun l => { l with lease := { l.lease with update := l.lease.update + 1 } }
  let s : State := { s with fields := s.fields.map fun p => (p.1, if p.2.alive && !p.2.missed then p.2 else { p.2 with current := false }) }
  if s.links.boot.minimal then s.updLinks fun l => { l with boot := { l.boot with kept := (l.lease.update, l.queues) } } else s
/-- Halt region (R373): stops the user thread sets, ends the trace session, and records the halt as the
outcome of the current RUN, or the state ENDED when no program runs (R352, R353), by one update of the front end (R364). Recorded faults of the thread sets are
still to be taken (`State.haltRegion`). -/
def State.haltTiles (s : State) (r reason : Nat) : State :=
  let s := (s.userTss r).foldl State.haltTs s
  let s := s.endTrace r reason
  (s.updRegion r fun g =>
    if g.seqOn then { g with outcome := .failed } else { g with st := .ended, outcome := .failed }).commitUpdate

/-- Whether the errors of a field count for its undervolting: UVEN is 1 and UVDIS 0 (R394). -/
def Field.counting (x : Field) : Bool := bitAt (csrOf x.csr 0x207) 0 && !bitAt (csrOf x.csr 0x207) 1
/-- RGNPRIO of a region (R363). -/
def Region.rank (g : Region) : Nat := field (csrOf g.csr 0x047) 0 3
/-- RPLCTL.MODE (R426). -/
def Region.rplMode (g : Region) : Nat := field (csrOf g.csr 0x330) 0 2
/-- The region of a record. -/
def FwRecord.region : FwRecord → Nat
  | .token r _ _ _ => r
  | .freeze r _ => r
  | .save r _ _ => r
/-- A report reaches the manager core of a field (R343, R370, R387), behind the others that the core serves before it: those of
regions with no lower RGNPRIO (R363). -/
def State.fwRecord (s : State) (f : Nat) (x : FwRecord) : State :=
  let first (y : FwRecord) : Bool := decide ((s.region x.region).rank ≤ (s.region y.region).rank)
  s.updField f fun z => { z with records := z.records.takeWhile first ++ x :: z.records.dropWhile first }

/-- A fault token leaves a tile (R369, R370) for a tile of the Potting shed. One about a Potting shed thread set has no such
destination: it goes to the manager core of the region's lowest-numbered field, and firmware halts the region for CLASS 0 and 1. -/
def State.passToken (s : State) (r src : Nat) (dst : Option Nat) (h0 h1 : Word) (body : List Byte) (ts : Nat) : State :=
  match dst with
  | none =>
    let s := s.fwRecord (s.region r).firstField (.token r h0 h1 body)
    if field h0 48 6 = 2 then s
    else (s.haltTiles r 3).updRegion r fun g => { g with shedStop := true }
  | some c => match (s.region r).tileAt? c with
    | some d => s.emit src d h0 h1 body none none [] ts
    | none => s
/-- Sends a fault token (R368 to R370) of a class. A tile that is stopped for a cut sends nothing: the token leaves after the
resume (R378). What an entry port reports is the port's own. -/
def State.sendToken (s : State) (u : Subject) (f : FaultInfo) (cls : Nat) (port : Bool := false) : State :=
  let g := s.region u.rgn
  let serial := (g.serial + 1) % 65536
  let dst := packXY (cx u.coord % 4) (cy u.coord % 4)
  let h0 := mkH0 5 47 cls 3 0 g.colour 0 serial
  let h1 := mkH1 dst u.coord g.ctx (field (csrOf g.csr 0x100) 0 12)
  let w0 := faultWord0 u f cls serial
  let body := leBytes 8 w0 ++ leBytes 8 u.bpc.toNat ++ leBytes 8 f.fw2.toNat ++ leBytes 8 f.fw3.toNat ++
    leBytes 8 f.fw4.toNat ++ leBytes 8 u.cur.toNat
  let s := s.updRegion u.rgn fun g =>
    { g with serial := serial, reports := if cls = 2 then min (2 ^ 32 - 1) (g.reports + 1) else g.reports }
  let src := (g.tileAt? u.coord).getD (g.physOf u.coord)
  let s := s.trace u.rgn 5 u.ts u.coord (s.tile src).cycle w0 u.bpc.toNat f.fw2.toNat
  let core := if inShed u.coord && u.thread then none else some dst
  if (s.tile src).stopped && !port then s.updTile src fun x => { x with tokens := x.tokens ++ [(core, h0, h1, body, u.ts)] }
  else s.passToken u.rgn src core h0 h1 body u.ts
/-- The tokens that a tile has held while it was stopped leave (R378). -/
def State.sendTokens (s : State) (t : Nat) : State :=
  (s.tile t).tokens.foldl (fun s k => s.passToken (s.rgnOf t) t k.1 k.2.1 k.2.2.1 k.2.2.2.1 k.2.2.2.2)
    (s.updTile t fun x => { x with tokens := [] })

/-- The subject of a thread set's faults. -/
def State.subjectOf (s : State) (k : Nat) : Subject :=
  let t := s.ts k
  { rgn := s.rgnOf (tileOf k), coord := (s.tile (tileOf k)).coord, ts := tsNum k, bpc := t.regs.bpc,
    cur := (match t.task with | some a => if a.epi.isSome then 0 else a.h0 | none => 0), thread := true }

/-- A report from a tile (CLASS 2): no thread set stops (R366). -/
def State.report (s : State) (t : Nat) (f : FaultInfo) : State :=
  s.sendToken { rgn := s.rgnOf t, coord := (s.tile t).coord, ts := 0, bpc := 0, cur := 0, thread := false } f 2

/-- A report from an entry port, named as (0, 0) (R368, R369). -/
def State.reportPort (s : State) (rgn : Nat) (f : FaultInfo) : State :=
  s.sendToken { rgn := rgn, coord := 0, ts := 0, bpc := 0, cur := 0, thread := false } f 2 true

/-- One fault is taken (R91, R366 to R371). The block in flight is discarded, the thread set stops with BPC
as it stands, and its token goes to the Potting shed. A thread set already stopped by a fault or frozen
only reports, with FW4.STOPPED. -/
def State.takeOne (s : State) (k : Nat) (f : FaultInfo) : State :=
  let t := s.ts k
  if t.stops.fault.isSome ∨ t.stops.frozen.isSome then
    s.sendToken (s.subjectOf k) { f with fw4 := f.fw4 ||| (if t.stops.fault.isSome then 8 else 0) } 2
  else
    let s := (s.discard k).dropGroups k
    let serial := ((s.region (s.rgnOf (tileOf k))).serial + 1) % 65536
    let s := s.updTs k fun t => { t with stops := { t.stops with fault := some (serial, f), halted := false } }
    s.sendToken (s.subjectOf k) f f.cause.cls

/-- The recorded asynchronous faults of one thread set are taken in order (R140, R371); the journal entries
whose refusals are so reported are free. -/
def State.takeRecorded (s : State) (k : Nat) : State :=
  let fs := (s.ts k).stops.pendingFaults
  let s := s.updTs k fun t => { t with
    stops := { t.stops with pendingFaults := [] },
    eng := { t.eng with journal := t.eng.journal.filter fun e => match e.state with | .refused _ r => !r | _ => true } }
  fs.foldl (fun s f => s.takeOne k f) s
/-- The same, unless a cut or a Trellis halt still records its faults (R378, R413). -/
def State.settleOne (s : State) (k : Nat) : State :=
  if (s.ts k).stops.cut ∨ (s.ts k).stops.trellis then s else s.takeRecorded k
/-- Halt region (R305, R373): the user thread sets stop, each at a block boundary, at which the faults recorded for
it are taken (R371). -/
def State.haltRegion (s : State) (r reason : Nat) : State :=
  ((s.haltTiles r reason).userTss r).foldl State.settleOne (s.haltTiles r reason)
/-- At a block boundary the recorded asynchronous faults are taken (R140, R366, R371). One of a Potting shed thread
set halts its region (R370), whose user thread sets come to a boundary too. -/
def State.boundary (s : State) (k : Nat) : State :=
  let u := s.takeRecorded k
  if inShed (s.tile (tileOf k)).coord then (u.userTss (s.rgnOf (tileOf k))).foldl State.settleOne u else u
/-- A block boundary of a thread set: while a cut or a Trellis halt is open its faults stay recorded (R378, R413). -/
def State.settle (s : State) (k : Nat) : State :=
  if (s.ts k).stops.cut ∨ (s.ts k).stops.trellis then s else s.boundary k
/-- HALT of a thread set (R305, R371): it stops at a block boundary. -/
def State.halt (s : State) (k : Nat) : State := (s.haltTs k).settle k

/-- TAKING A FAULT (R91, R366 to R371): the thread set stops, and it is at a block boundary then, at which the
faults recorded for it report. -/
def State.takeFault (s : State) (k : Nat) (f : FaultInfo) : State := (s.takeOne k f).settle k

/-- An asynchronous fault (CLASS 1, R366): at the next block boundary. Between blocks it is taken at
once; while the region is stopped by a cut or the cluster by its Trellis it is recorded (R378, R413). -/
def State.asyncFault (s : State) (k : Nat) (f : FaultInfo) : State :=
  let s := s.updTs k fun t => { t with stops := { t.stops with pendingFaults := t.stops.pendingFaults ++ [f] } }
  if (s.flight k).isSome then s else s.settle k

/-- RETURNING FROM A FAULT: the open stop ends and the thread set runs again from its BPC (R373). -/
def State.releaseFault (s : State) (k : Nat) : State :=
  s.updTs k fun t => { t with stops := { t.stops with fault := none } }

/-- The freeze record of R343. -/
def Freeze.word (f : Freeze) : Word :=
  BitVec.ofNat 64 (at_ 62 2 f.kind + at_ 42 20 f.wher + at_ 40 2 f.ts + at_ 36 4 f.oport + at_ 16 20 f.target + at_ 0 16 f.serial)
/-- The field whose manager core receives the freeze record of a host requester (R343): that of the region's first tile, and for a
requester that names no region the lead's (assumption 115). -/
def State.masterField (s : State) (r : Nat) : Nat := if r < 256 ∧ s.hasRegion r then (s.region r).firstField else s.links.lease.lead.getD 0
/-- Makes a freeze record of a region (R343), which the manager core of the master's field receives too, and gives its
number. -/
def State.freezeRecord (s : State) (r fld kind wher ts oport target : Nat) : Nat × State :=
  let f : Freeze := ⟨((s.region r).frzSerial + 1) % 65536, kind, wher, ts, oport, target⟩
  (f.serial, (s.updRegion r fun g => { g with frzSerial := f.serial, freezes := g.freezes ++ [f] }).fwRecord fld (.freeze r f.word))
/-- Freezes a thread set (R342, R343): its block is discarded, the record is made, no token is sent. A
thread set already stopped by a fault reports instead (R371); a frozen one makes no second record. -/
def State.freezeTs (s : State) (k target : Nat) : State :=
  let t := s.ts k
  let r := s.rgnOf (tileOf k)
  if t.stops.frozen.isSome then s
  else if t.stops.fault.isSome then
    s.sendToken (s.subjectOf k) { FaultInfo.plain .regionBounds 255 with fw4 := 8 } 2
  else
    let s := (s.discard k).dropGroups k
    let (n, s) := s.freezeRecord r (fieldOf (tileOf k)) 0 (s.tile (tileOf k)).coord (tsNum k) 0 target
    (s.updTs k fun t => { t with stops := { t.stops with frozen := some n } }).settle k


/-- Whether the cores and engines of a tile's field are gated (R398). -/
def State.gatedAt (s : State) (t : Nat) : Bool := (s.fieldRec (fieldOf t)).gated
/-- Whether a thread set may run: nothing stops it, its field is not gated (R398), and its region's
tiles are released. -/
def State.runnable (s : State) (k : Nat) : Bool :=
  let t := s.ts k
  t.stops.fault.isNone && t.stops.frozen.isNone && !t.stops.halted && !t.stops.cut && !t.stops.trellis &&
    !(s.fieldRec (fieldOf (tileOf k))).gated && !t.ending

/-- Whether a thread set is between blocks, stopped by a fault or frozen (R378). -/
def State.betweenBlocks (s : State) (k : Nat) : Bool := (s.flight k).isNone && (s.ts k).eng.pend.isEmpty

/-- The waiting instructions of a block fire again, since what they wait for may have come about. -/
def Flight.wake (f : Flight) : Flight :=
  { f with stat := f.stat.filter fun p => decide (p.2 ≠ .waiting) }
/-- The replay mode of a region, as its last RUN or RESUME has found RPLCTL (R426); while a round closes, what it holds back comes about (R429). -/
def State.mode (s : State) (r : Nat) : Nat := if (s.region r).closing then 0 else (s.region r).modeOn
/-- Wakes the waiting instructions of the blocks in flight; in deterministic mode waits resolve only when a
round closes (R429). -/
def State.wakeAll (s : State) : State :=
  { s with flights := s.flights.map fun p => (p.1, if s.mode (s.rgnOf (tileOf p.1)) = 3 then p.2 else p.2.wake) }

/-! ## Outcomes -/

/-- The outcome of a step or of an instruction. -/
abbrev Res := Host.Outcome State Fault Refusal

/-- An event that comes about only when its condition holds. -/
@[inline] def whenEnabled (name : String) (c : Bool) (t : State) : Res :=
  if c then .next t else .refused (.notEnabled name)

end Sys2Proof.Machine
end

