-- ==== Sys2Proof/Machine/Tickets.lean ====
section
/-! DEFINITION. The tickets of the replay modes (R426 to R429). The event kinds are: 0 a performance at a
destination, 1 a reply to a remote load or atomic, 2 a landing arrival, 3 a packet dispatch, 4 a commit by another
thread set than the last on the tile, 5 an engine completion, 6 an atomic or an ACQ of a commit. -/

namespace Sys2Proof.Machine

open Sys2Proof

/-- The chunk-log entry of a ticket: bytes 8 to 15 (R427). -/
def chunkWord (coord ts kind len : Nat) : Nat :=
  at_ 0 10 (cx coord) + at_ 10 10 (cy coord) + at_ 20 2 ts + at_ 22 4 (Config.eventKind kind) + at_ 26 32 len

/-- Address of log entry i. -/
def State.logAddr (s : State) (r i : Nat) : Nat :=
  (csrOf (s.region r).csr 0x331).toNat + 16 * (i % 2 ^ field (csrOf (s.region r).csr 0x332) 0 5)

/-- Whether a ticketed event may come about now: with recording, the log has room; with replay, the entry
of the next ticket names the event (R427, R428). -/
def State.ticketFree (s : State) (r t ts kind : Nat) : Bool :=
  let g := s.region r
  match s.mode r with
  | 1 => decide ((field (csrOf g.csr 0x333) 0 32 + 2 ^ 32 - field (csrOf g.csr 0x334) 0 32) % 2 ^ 32 < 2 ^ field (csrOf g.csr 0x332) 0 5)
  | 2 => decide (s.num (s.logAddr r g.order) 8 = g.order) &&
      decide (s.num (s.logAddr r g.order + 8) 8 % 2 ^ 26 = chunkWord (s.tile t).coord ts kind 0 % 2 ^ 26)
  | _ => true

/-- The log entry of a ticket (R427). -/
def State.logged (s : State) (r i : Nat) : Nat := s.num (s.logAddr r i + 8) 8
/-- Whether events of a kind are interaction points, at which a chunk ends; the performance of a store, a landing arrival and an
engine completion take tickets in the middle of one (R427). -/
def endsChunk (kind : Nat) : Bool := kind == 1 || kind == 3 || kind == 4 || kind == 6
/-- Whether a log entry is that of an interaction point. -/
def chunkEntry (w : Nat) : Bool := (List.range 7).any fun kind => endsChunk kind && decide (w / 2 ^ 22 % 16 = Config.eventKind kind % 16)
/-- The logged length of a thread set's chunk in progress: that of its next interaction point from ticket i on. The fuel is the
number of entries. -/
def State.chunkLimit (s : State) (k i : Nat) : Nat → Option Nat
  | 0 => none
  | n + 1 =>
    let r := s.rgnOf (tileOf k)
    if s.num (s.logAddr r i) 8 ≠ i then none
    else if chunkEntry (s.logged r i) ∧ s.logged r i % 2 ^ 22 = chunkWord (s.tile (tileOf k)).coord (tsNum k) 0 0 % 2 ^ 22 then some (s.logged r i / 2 ^ 26 % 2 ^ 32)
    else s.chunkLimit k (i + 1) n
/-- Whether a thread set's chunk is longer than the log has it (R428). -/
def State.chunkOver (s : State) (k : Nat) : Bool :=
  let r := s.rgnOf (tileOf k)
  decide (s.mode r = 2) && (match s.chunkLimit k (s.region r).order (2 ^ field (csrOf (s.region r).csr 0x332) 0 5) with
    | some n => decide (n < AMap.get 0 k (s.region r).chunk)
    | none => false)
/-- A replay differs from its log (R428): DIVERGE holds the ticket, the trace session ends with reason 5, and the region is
halted. -/
def State.diverge (s : State) (r : Nat) : State :=
  ((s.updRegion r fun g => { g with csr := csrPut g.csr 0x335 (word g.order) }).endTrace r 5).haltRegion r 5

/-- The same for an event that in deterministic mode comes about only when a round closes (R429). -/
def State.ticketOk (s : State) (r t ts kind : Nat) : Bool := decide (s.mode r ≠ 3) && s.ticketFree r t ts kind

/-- Takes the next ticket: recording writes the log entry, with the blocks that the chunk of its thread set has so far; an
interaction point ends the chunk (R427). -/
def State.ticket (s : State) (r t ts kind : Nat) : State :=
  let g := s.region r
  let k := 4 * t + ts
  match s.mode r with
  | 1 =>
    let a := s.logAddr r (field (csrOf g.csr 0x333) 0 32)
    let s := (s.putNum a 8 g.order).putNum (a + 8) 8 (chunkWord (s.tile t).coord ts kind (AMap.get 0 k g.chunk))
    s.updRegion r fun g => { g with order := g.order + 1, chunk := if endsChunk kind then AMap.put 0 k 0 g.chunk else g.chunk, csr := csrPut g.csr 0x333 (word ((field (csrOf g.csr 0x333) 0 32 + 1) % 2 ^ 32)) }
  | 2 => s.updRegion r fun g => { g with order := g.order + 1, chunk := if endsChunk kind then AMap.put 0 k 0 g.chunk else g.chunk }
  | _ => s

/-- Whether the tickets of events that come about together may be taken one after the other: tile, thread set and kind of
each. -/
def State.ticketsFree (s : State) (r : Nat) : List (Nat × Nat × Nat) → Bool
  | [] => true
  | e :: es => s.ticketFree r e.1 e.2.1 e.2.2 && (s.ticket r e.1 e.2.1 e.2.2).ticketsFree r es

end Sys2Proof.Machine
end

