-- ==== Sys2Proof/Machine/Access.lean ====
section
/-! DEFINITION. Accesses at their destinations (R132 to R140, R331 to R342): where an address leads,
reading, writing and the atomics there, and the landing-word arrival of R152. -/

namespace Sys2Proof.Machine

open Sys2Proof

/-- Where an access is performed, or why it cannot be. -/
inductive Dest where
  /-- Offset of a tile's pool. -/
  | pool (tile off : Nat)
  /-- Region-virtual DRAM address, through an entry port. -/
  | dram (port a : Nat)
  /-- No entry port serves the region (R30). -/
  | noPath
  /-- A CSR of a tile (R331). -/
  | csr (tile num : Nat)
  /-- A withdrawn coordinate (R334). -/
  | withdrawn
  /-- A coordinate outside the region: the master is frozen (R342). -/
  | outside (coord : Nat)
  deriving DecidableEq, Repr

/-- Follows a context's forwarding entries from a tile, one after another. The fuel is the number of tiles. -/
def State.followFrom (s : State) (ctx t : Nat) : Nat → Nat
  | 0 => t
  | n + 1 => match (s.tile t).fwds.find? fun f => f.ctx == ctx with | some f => s.followFrom ctx f.dst n | none => t
/-- Follows the forwarding entries that lead from a tile for a context (R381). -/
def State.follow (s : State) (ctx t : Nat) : Nat := s.followFrom ctx t s.tiles.length

/-- Where a legal address of a tile leads (R131, R134, R173, R331, R333). A physical coordinate that names no tile
(R18) leads to none, as a withdrawn one does (assumption 66). -/
def State.destOf (s : State) (t : Nat) (a : Word) : Dest :=
  let x := s.tile t
  let r := s.rgnOf t
  let g := s.region r
  let ctx := s.ctxOf t
  let user := decide (s.level t = .user)
  match space a with
  | 0 => .pool t (field a 0 17)
  | 1 =>
    let d := siblingTile t (field a 18 4)
    .pool (if d = t then t else s.follow ctx d) (field a 0 17)
  | 2 =>
    let c := packXY (field a 50 10) (field a 40 10)
    if c = x.coord then .pool t (field a 0 17)
    else match g.translate c user with
      | .outside => .outside c
      | .withdrawn => .withdrawn
      | .at d => .pool (s.follow ctx d) (field a 0 17)
  | 3 => match s.portFor r t with
    | some p => .dram p (field a 0 57)
    | none => .noPath
  | _ =>
    let c := packXY (field a 50 10) (field a 40 10)
    if bitAt a 39 then (if tilePresent (cx c) (cy c) then .csr (tileAt (cx c) (cy c)) (field a 3 12) else .withdrawn)
    else match g.translate c user with
      | .outside => .outside c
      | .withdrawn => .withdrawn
      | .at d => .csr d (field a 3 12)

/-- Whether a tile's cluster is halted by its Trellis, or comes to a halt (R411, R412). -/
def State.trellised (s : State) (t : Nat) : Bool := (s.cluster (clusterOf t)).halted || (s.cluster (clusterOf t)).halting.isSome
/-- Whether a halt keeps a tile's bytes as they are: its cluster is halted and no cut has its boundary admit traffic (R413,
R415). -/
def State.shut (s : State) (t : Nat) : Bool := s.trellised t && !(s.cluster (clusterOf t)).letIn
/-- Whether a thread set is the one that a step has released (R418). -/
def State.stepping (s : State) (k : Nat) : Bool := (s.cluster (clusterOf (tileOf k))).step == some k
/-- Whether a copy is one of the stepped block's own (R418). -/
def State.ownCopy (s : State) (k id : Nat) : Bool := s.stepping k && decide ((s.cluster (clusterOf (tileOf k))).mark.1 ≤ id)
/-- Whether a matrix record is one of the stepped block's own. -/
def State.ownRec (s : State) (k num : Nat) : Bool := s.stepping k && decide ((s.cluster (clusterOf (tileOf k))).mark.2.1 < num)
/-- Whether a journal entry is one of the stepped block's own. -/
def State.ownPost (s : State) (k seq : Nat) : Bool :=
  s.stepping k && decide ((seq + 2 ^ 32 - (s.cluster (clusterOf (tileOf k))).mark.2.2) % 2 ^ 32 < 2 ^ 31)
/-- Whether the hold of a halted cluster is lifted for a landed reply or an arrival of a landing word: a request of the
stepped block asked for it (R418). -/
def State.ownLanding (s : State) (t lw : Nat) : Bool :=
  let c := s.cluster (clusterOf t)
  (c.step.map tileOf == some t) && c.lands.any fun p => p.2 == lw

/-- Whether a Trellis halt stills what a thread set's engines do: they act on for the thread set that a step has
released (R412, R418). -/
def State.stilled (s : State) (k : Nat) : Bool := s.trellised (tileOf k) && !s.stepping k
/-- Whether a Trellis halt stills a copy: its issuer's cluster is halted, and the copy is not of the stepped block (R412,
R418). -/
def State.stilledCopy (s : State) (k id : Nat) : Bool := s.trellised (tileOf k) && !s.ownCopy k id
/-- Whether a Trellis halt stills the matrix records of a thread set. Those of a stepped block retire behind the older
ones of their queue, which go before them (R418, DEDUCED from R184; assumption 103). -/
def State.stilledRecs (s : State) (k : Nat) : Bool :=
  s.trellised (tileOf k) && !((s.ts k).eng.recs.any fun r => s.ownRec k r.num)

/-- Whether the Trellis boundary holds traffic from one tile to another (R412, R415). -/
def State.heldAt (s : State) (src dst : Nat) : Bool := s.shut dst && decide (clusterOf src ≠ clusterOf dst)
/-- Whether the boundary of a tile's cluster holds an access to a destination. -/
def State.heldTo (s : State) (t : Nat) : Dest → Bool
  | .pool d _ | .csr d _ => s.heldAt t d
  | _ => false

/-- Physical key of DRAM for an access, its refusal (`walked` when its translation has failed), or a remote page (R335 to R340,
R435). -/
inductive DramKey where
  | key (a : Nat)
  | remote (target a : Nat)
  | refused (cause : Nat) (tableMark walked : Bool)
  deriving DecidableEq, Repr

/-- A Boder port. -/
def State.boderPort (s : State) (p : Nat) : BoderPort := AMap.get BoderPort.init p s.links.boder
/-- Changes a Boder port. -/
def State.updBoder (s : State) (p : Nat) (f : BoderPort → BoderPort) : State :=
  s.updLinks fun l => { l with boder := AMap.put BoderPort.init p (f (AMap.get BoderPort.init p l.boder)) l.boder }
/-- The working Boder ports that reach a module (R435). -/
def State.boderPorts (s : State) (target : Nat) : List Nat :=
  (List.range 128).filter fun p => (s.boderPort p).up && (s.boderPort p).peer == target
/-- A working Boder port that reaches a module, for what leaves by no entry port. -/
def State.boderTo (s : State) (target : Nat) : Option Nat := (s.boderPorts target).head?
/-- The working Boder port nearest an entry port that reaches a module (R435). How far they lie apart the spec does not say
(assumption 107). -/
def State.boderVia (s : State) (entry target : Nat) : Option Nat :=
  (s.boderPorts target).foldl (fun best p => match best with
    | none => some p
    | some q => if Config.boderDistance entry p < Config.boderDistance entry q then some p else some q) none
/-- What leaves through a Boder port: with this module's id and the port's next sequence number (R434). -/
def State.boderSend (s : State) (p : Nat) (o : BoderOut) : State :=
  let seq := (s.boderPort p).next
  (s.updBoder p fun b => { b with next := (b.next + 1) % 65536 }).updLinks fun l =>
    { l with outbox := l.outbox ++ [{ o with port := p, seq := seq, origin := l.boderId }] }
/-- The CRC of the flit that carries what is sent (R434). -/
def BoderOut.crc (o : BoderOut) : BitVec 64 := Config.boderCrc o
/-- A request of a context to a remote page. The fields that the port gives are filled in as it leaves. -/
def remoteAsk (target tag op addr size : Nat) (data : Bytes) : BoderOut := ⟨0, 0, target, 0, tag, op, addr, size, data, 0, 0, 0⟩
/-- Sends a request to a remote page by the Boder port nearest its entry port, and takes the CAUSE of the reply: the next
choice stands for the target (R435, assumption 107). -/
def State.boderAsk (s : State) (entry : Nat) (o : BoderOut) : Nat × State :=
  match s.boderVia entry o.target with
  | none => (5, s)
  | some p =>
    let (c, s) := (s.boderSend p o).choose
    (if c = 2 ∨ c = 3 ∨ c = 5 then c else 0, s)
/-- n unpredictable bytes. -/
def State.freeBytes (s : State) (n : Nat) : List Byte × State :=
  (List.range n).foldl (fun (p : List Byte × State) _ => let (w, s) := p.2.free; (p.1 ++ [BitVec.ofNat 8 w.toNat], s)) ([], s)

/-- Translates and checks a DRAM access of n bytes (R338, R375, R435). -/
def State.dramKey (s : State) (rgn port a n : Nat) (w : Want) : DramKey × State :=
  match s.dramAddr rgn port a w with
  | (.at p, s) =>
    if 2 ^ 59 ≤ p then
      let target := (p - 2 ^ 59) / 2 ^ 40
      match s.boderTo target with
      | some _ => (.remote target (p % 2 ^ 40), s)
      | none => (.refused 5 false false, s)
    else if s.poisoned p n then (.refused 3 false false, s)
    else (.key p, s)
  | (.failed c m, s) => (.refused c m true, s)
  | (.unwalked, s) => (.refused 1 false true, s)

/-- What an access gives at its destination. -/
inductive Got where
  | bytes (bs : List Byte)
  | refused (cause : Nat) (tableMark : Bool)
  deriving DecidableEq, Repr

/-- The requests of a region that wait at an entry port for a page of 64 KiB share a walk that fails now: posted journal
entries, loads, the pieces of copies and dramreqs (R340). Which requests have reached the port by then the spec leaves to
timing (assumption 116). -/
def State.shareMiss (s : State) (rgn port page : Nat) : State :=
  let mine (k : Nat) : Bool := decide (s.rgnOf (tileOf k) = rgn) && s.portFor rgn (tileOf k) == some port
  let here (a : Word) : Bool := decide (space a = 3) && decide (field a 0 57 / 65536 = page)
  { s with
    tss := s.tss.map fun p => if mine p.1 then (p.1, { p.2 with eng := { p.2.eng with
        journal := p.2.eng.journal.map fun e => if e.state = .pending ∧ here e.addr then { e with missed := true } else e,
        copies := p.2.eng.copies.map fun c => { c with missed := page :: c.missed } } }) else p,
    flights := s.flights.map fun p => if mine p.1 then (p.1, { p.2 with
        reqs := p.2.reqs.map fun q => if q.2.reply = .asked ∧ here q.2.addr then (q.1, { q.2 with missed := true }) else q }) else p,
    dreqs := s.dreqs.map fun d => if d.rgn = rgn ∧ d.port = port ∧ d.phys = .unwalked ∧ here (word (ofBytes (d.body.take 8))) then
        { d with missed := true } else d }
/-- Reports a failed DRAM access from its entry port (R176). When it is a walk that has failed, one token serves all the
requests that missed together on its page (R340): none is sent for a request that has been `told` so. A leaf that the port
caches takes no walk, and what it denies is reported each time. -/
def State.dramRefused (s : State) (told walked : Bool) (rgn port cause : Nat) (m : Bool) (a : Nat) : State :=
  if told && walked then s
  else
    let cached := s.tlb.any fun t => t.port == port && t.ctx == (s.region rgn).ctx && t.page == a / 2 ^ t.bits
    let s := if walked && !cached then s.shareMiss rgn port (a / 65536) else s
    s.reportPort rgn ⟨.dramReply, 255, cause, word (3 * 2 ^ 60 + a), 0, markWord cause m⟩

/-- The physical address that a region-virtual DRAM address has at an entry port, whatever its page permits, a remote page as
`State.dramAddr` gives it; none while it has no translation. -/
def State.frameOf (s : State) (rgn port a : Nat) : Option Nat :=
  let r := s.region rgn
  let out (e : Word) (bits : Nat) : Nat :=
    let p := field e 8 38 * 256 + a % 2 ^ bits
    if bitAt e 45 then 2 ^ 59 + field e 37 8 * 2 ^ 40 + p % 2 ^ 37 else p
  if !r.translates a then none
  else match s.tlb.find? fun t => t.port == port && t.ctx == r.ctx && t.page == a / 2 ^ t.bits with
  | some t => some (out t.leaf t.bits)
  | none => match s.walk rgn a with
    | .leaf e bits => some (out e bits)
    | .bad _ _ => none
/-- Whether a destination is DRAM of this module: its energy is the requester's, that of a remote page is billed by its target
(R402, R409). -/
def State.inDram (s : State) (t : Nat) : Dest → Bool
  | .dram p a => match s.frameOf (s.rgnOf t) p a with | some q => decide (q < 2 ^ 59) | none => false
  | _ => false
/-- Charges a DRAM access of n bytes that has been performed to the tile that has asked for it (R402). -/
def State.chargeDram (s : State) (t : Nat) (d : Dest) (n : Nat) : State :=
  if s.inDram t d then s.charge t (s.ctxOf t) 13 ((n + 63) / 64) else s

/-- Reads n bytes at a destination for a tile (R135, R140, R338); `told` says that its walk has failed already (R340). -/
def State.readAt (s : State) (t : Nat) (d : Dest) (n : Nat) (told : Bool := false) : Got × State :=
  match d with
  | .pool p off =>
    if !s.inPad p off n then (.refused 6 false, s)
    else if s.poisoned (poolKey p off) n then (.refused 3 (s.marginAt (poolKey p off) n), s)
    else
      let s := s.charge p (s.ctxOf t) 7 (units8 n)
      (.bytes (s.bytes (poolKey p off) n), s)
  | .dram port a =>
    match s.dramKey (s.rgnOf t) port a n .read with
    | (.key p, s) => (.bytes (s.bytes p n), s)
    | (.remote g b, s) => match s.boderAsk port (remoteAsk g (s.ctxOf t) 0 b n []) with
      | (0, s) => let (bs, s) := s.freeBytes n; (.bytes bs, s)
      | (c, s) => (.refused c false, s.dramRefused told false (s.rgnOf t) port c false a)
    | (.refused c m w, s) => (.refused c m, s.dramRefused told w (s.rgnOf t) port c m a)
  | .noPath => (.refused 5 false, s)
  | .withdrawn => (.refused 7 false, s)
  | .csr _ _ => (.refused 8 false, s)
  | .outside _ => (.refused 7 false, s)

/-- Writes bytes at a destination for a tile; nothing is written when it is refused (R140). All of them are written at
once, in spaces other than 0 too, where the spec lets an access above 8 bytes tear (R135; assumption 81). -/
def State.writeAt (s : State) (t : Nat) (d : Dest) (bs : Bytes) (told : Bool := false) : Got × State :=
  match d with
  | .pool p off =>
    if !s.inPad p off bs.length then (.refused 6 false, s)
    else if s.poisoned (poolKey p off) bs.length then (.refused 3 (s.marginAt (poolKey p off) bs.length), s)
    else (.bytes [], (s.charge p (s.ctxOf t) 7 (units8 bs.length)).putBytes (poolKey p off) bs)
  | .dram port a =>
    match s.dramKey (s.rgnOf t) port a bs.length .write with
    | (.key p, s) => (.bytes [], s.putBytes p bs)
    | (.remote g b, s) => match s.boderAsk port (remoteAsk g (s.ctxOf t) 1 b bs.length bs) with
      | (0, s) => (.bytes [], s)
      | (c, s) => (.refused c false, s.dramRefused told false (s.rgnOf t) port c false a)
    | (.refused c m w, s) => (.refused c m, s.dramRefused told w (s.rgnOf t) port c m a)
  | .noPath => (.refused 5 false, s)
  | .withdrawn => (.refused 7 false, s)
  | .csr _ _ => (.refused 8 false, s)
  | .outside _ => (.refused 7 false, s)

/-- `amo_new` of R274 on n-bit values. -/
def amoNew (n op old b cmp : Nat) : Nat :=
  match op with
  | 0 => (old + b) % 2 ^ n
  | 1 => old &&& b
  | 2 => old ||| b
  | 3 => old ^^^ b
  | 4 => if sintN n b < sintN n old then b else old
  | 5 => if sintN n old < sintN n b then b else old
  | 6 => if b < old then b else old
  | 7 => if old < b then b else old
  | 8 => b
  | _ => if old = cmp then b else old

/-- Bytes that an AMO reads and writes (R274). -/
def AmoOp.bytes (o : AmoOp) : Nat := if o.dbl then 8 else 4

/-- An AMO at a destination as one read-modify-write (R135, R274): the old value's bytes. -/
def State.amoAt (s : State) (t : Nat) (d : Dest) (o : AmoOp) (told : Bool := false) : Got × State :=
  let n := o.bytes
  let new (bs : List Byte) : Bytes := (leBytes n (amoNew (8 * n) o.op (ofBytes bs) o.b o.cmp)).map some
  match d with
  | .dram port a =>
    match s.dramKey (s.rgnOf t) port a n .both with
    | (.key p, s) =>
      let bs := s.bytes p n
      (.bytes bs, s.putBytes p (new bs))
    | (.remote g b, s) =>
      match s.boderAsk port { remoteAsk g (s.ctxOf t) 2 b n ((leBytes n o.b).map some) with minor := o.op, cmp := o.cmp } with
      | (0, s) => let (bs, s) := s.freeBytes n; (.bytes bs, s)
      | (c, s) => (.refused c false, s.dramRefused told false (s.rgnOf t) port c false a)
    | (.refused c m w, s) => (.refused c m, s.dramRefused told w (s.rgnOf t) port c m a)
  | _ =>
    match s.readAt t d n with
    | (.bytes bs, s) =>
      match s.writeAt t d (new bs) with
      | (.bytes _, s) => (.bytes bs, s)
      | r => r
    | r => r

/-! ## Landing words (R151, R152) -/

/-- Sends the overrun report of R152. -/
def State.overrun (s : State) (t off : Nat) : State :=
  s.report t { FaultInfo.plain .landingOverrun 255 with fw2 := word off }

/-- `landing_arrival` of R152 at offset `off` of a tile. -/
def State.landingArrival (s : State) (t off n : Nat) (flt oob : Bool) : State :=
  let k := poolKey t off
  let target := s.num k 8
  let count := s.num (k + 8) 8
  let top := s.num (k + 16) 8
  let flags := top ||| (if flt then 2 ^ 33 else 0) ||| (if oob then 2 ^ 34 else 0)
  let tooFar := decide (target = 0) || decide (target < count + n)
  let flags := flags ||| (if tooFar then 2 ^ 32 else 0)
  let fin := decide (target ≠ 0) && decide (target ≤ count + n)
  let top := if fin then flags / 2 ^ 32 * 2 ^ 32 + (flags + 1) % 2 ^ 32 else flags
  let count := if fin then 0 else if target = 0 then count else count + n
  let s := (s.putNum (k + 8) 8 count).putNum (k + 16) 8 top
  let s := if tooFar then s.overrun t off else s
  s.wakeAll

/-- Whether a landing word's 24 bytes lie in a tile's scratchpad range, 8-byte aligned (R151, R445). -/
def State.landingOk (s : State) (t off : Nat) : Bool := decide (off % 8 = 0) && s.inPad t off 24

/-- GEN of a landing word. -/
def State.landingGen (s : State) (t off : Nat) : Nat := s.num (poolKey t (off + 16)) 4
/-- TARGET of a landing word. -/
def State.landingTarget (s : State) (t off : Nat) : Nat := s.num (poolKey t off) 8
/-- Whether a generation after g has been reached (R153). -/
def genReached (gen g : Nat) : Bool :=
  let d := (gen + 2 ^ 32 - g) % 2 ^ 32
  decide (1 ≤ d) && decide (d ≤ 2 ^ 31 - 1)

end Sys2Proof.Machine
end

