-- ==== Sys2Proof/Machine/Packets.lean ====
section
/-! DEFINITION. Packets, mailboxes and dispatch (R39 to R60, R297, R311, R312, R316, R369, R444): sending
on an edge, arrival and its checks, admission of spawned packets, the dispatcher's choice and the setting
up of a thread set, and the release of a packet. -/

namespace Sys2Proof.Machine

open Sys2Proof

/-! ## Edges -/

/-- An edge of a region. -/
def Region.edge (r : Region) (e : Nat) : Edge := AMap.get Edge.init e r.edges
/-- Changes an edge of a region. -/
def State.updEdge (s : State) (r e : Nat) (f : Edge → Edge) : State :=
  s.updRegion r fun g => { g with edges := AMap.modify e f g.edges }
/-- A stage of a region. -/
def Region.stage (r : Region) (n : Nat) : Stage := AMap.get Stage.init n r.stages
/-- Changes a stage of a region. -/
def State.updStage (s : State) (r n : Nat) (f : Stage → Stage) : State :=
  s.updRegion r fun g => { g with stages := AMap.modify n f g.stages }
/-- The lead replica of a stage: the first in row-major order (R443). -/
def Stage.lead (g : Stage) : Nat := match g.replicas with | c :: _ => c | [] => 0
/-- The tile of a stage's lead replica (R443). -/
def Region.leadTile (g : Region) (n : Nat) : Nat := (g.tileAt? (g.stage n).lead).getD 0

/-- The credit of a SEQ starts on its way back to an edge (R39). -/
def State.returnCredit (s : State) (r : Nat) (e : Option Nat) (seq : Nat) : State :=
  match e with
  | some e => s.updEdge r e fun d => { d with returning := d.returning ++ [seq] }
  | none => s
/-- Moves `low` past the SEQs whose credits have come back (R55). The fuel is the number of those. -/
def Edge.settle (d : Edge) : Nat → Edge
  | 0 => d
  | n + 1 => if d.above.contains d.low then Edge.settle { d with low := (d.low + 1) % 2 ^ 32, above := d.above.erase d.low } n else d
/-- The credit of a SEQ is back at the edge's source (R39, R55). -/
def Edge.credited (d : Edge) (seq : Nat) : Edge :=
  Edge.settle { d with credits := d.credits + 1, above := seq :: d.above } (d.above.length + 1)
/-- Whether a SEQ may be in flight on an edge: the span of the SEQs in flight stays within its depth (R55). -/
def Edge.inSpan (d : Edge) (q : Nat) : Bool := decide ((q + 2 ^ 32 - d.low) % 2 ^ 32 < d.depth)

/-- Sends a packet on an edge from a tile (R39, R55, R294): it takes one credit and the edge's next SEQ. With
`keep` the SEQ is the packet's own (a replica's output, R55, or what a stage sends, R59, R60, R64), counted from the
first after the edge's initial tokens (R311). An edge that leads outside the region freezes its output port, which
holds this packet and all that follow until its record is resolved (R342); one that leads to a withdrawn coordinate rejects it and returns the credit (R47, R334).
After an eos the edge carries nothing (R444): such a packet takes no credit and is dropped (assumption 67). -/
def State.sendEdge (s : State) (src r e : Nat) (h0 : Word) (body : List Byte) (keep : Bool) (ts : Nat := 0) : State :=
  let g := s.region r
  let d := g.edge e
  if d.eosLeft then s
  else
  let seq := if keep then (h0Seq h0 + d.initial) % 2 ^ 32 else d.next
  let h0 := setField h0 0 32 seq
  let s := s.updEdge r e fun d => { d with credits := d.credits - 1, next := (d.next + 1) % 2 ^ 32,
                                           closed := d.closed || decide (h0Kind h0 = 2), eosLeft := decide (h0Kind h0 = 2) }
  let coord := (s.tile src).coord
  let h1 (dst : Nat) : Word := mkH1 dst coord g.ctx d.port
  let hold (s : State) (n dst : Nat) : State := s.updEdge r e fun d => { d with frozen := some n, waiting := d.waiting ++ [(src, h0, h1 dst, body)] }
  match d.frozen with
  | some n => hold s n (match d.dst with | .tile c _ => c | .stage m => (g.stage m).lead | .dram => 0)
  | none =>
  match d.dst with
  | .tile c _ =>
    match g.translate c true with
    | .at t => s.emit src t h0 (h1 c) body none (some (r, e)) [] ts
    | .withdrawn =>
      (s.report src { FaultInfo.plain .packetFormat 255 with fw2 := h1 c, fw3 := h0 }).returnCredit r (some e) seq
    | .outside =>
      let (n, s) := s.freezeRecord r (fieldOf src) 1 coord 0 d.oport c
      hold s n c
  | .stage n =>
    let lead := ((g.stage n).lead)
    match g.tileAt? lead with
    | some t => s.emit src t h0 (h1 lead) body (some (r, n)) (some (r, e)) [] ts
    | none => (s.report src { FaultInfo.plain .packetFormat 255 with fw2 := h1 lead, fw3 := h0 }).returnCredit r (some e) seq
  | .dram =>
    match s.portFor r src with
    | some p => s.emit src (portTile p) h0 (h1 0) body none (some (r, e)) [] ts
    | none => s.returnCredit r (some e) seq

/-- The edge of an output port of a tile (R37): a replica sends on its stage's edges. -/
def State.outEdge (s : State) (t oport : Nat) : Option Nat :=
  let x := s.tile t
  if x.conf.actor = some .stateless ∨ x.conf.actor = some .range then
    AMap.find oport ((s.region (s.rgnOf t)).stage x.conf.stage).outs
  else AMap.find oport x.conf.outs
/-- The output port on which an effect sends. -/
def Effect.oport? : Effect → Option Nat
  | .send o _ _ => some o
  | .eos o => some o
  | _ => none
/-- Credits of an edge that sends of blocks in flight, or sends that wait for a REL, hold (R146, R294). -/
def State.heldCredits (s : State) (r e : Nat) : Nat :=
  s.flights.foldl (fun n p =>
    if s.rgnOf (tileOf p.1) = r then
      n + p.2.effs.countP fun q => match q.2.oport? with | some o => s.outEdge (tileOf p.1) o == some e | none => false
    else n)
    (s.tss.foldl (fun n p => if s.rgnOf (tileOf p.1) = r then n + p.2.outs.countP fun o => o.send && o.edge == some e else n) 0)
/-- Whether an edge has a credit that nothing holds, and the SEQ q may be in flight on it (R39, R55). -/
def State.creditFor (s : State) (r e q : Nat) : Bool :=
  let d := (s.region r).edge e
  decide (s.heldCredits r e < d.credits) && !d.withheld && d.inSpan q
/-- Whether an edge has a credit for the next packet that its port numbers, after those that hold one (R55). -/
def State.creditFree (s : State) (r e : Nat) : Bool :=
  s.creditFor r e ((((s.region r).edge e).next + s.heldCredits r e) % 2 ^ 32)
/-- Whether an edge has a credit for a packet that keeps the SEQ q (R55, R311). -/
def State.creditKept (s : State) (r e q : Nat) : Bool := s.creditFor r e ((q + ((s.region r).edge e).initial) % 2 ^ 32)

/-- The 32-byte hole of R57. -/
def holeH0 (prio stage seq : Nat) : Word := mkH0 1 prio 0 1 15 false stage seq
/-- Sixteen zero bytes. -/
def zero16 : List Byte := leBytes 16 0
/-- The tile that a hole of an edge leaves from: that of an ended task, or the lead replica of a stage as it stands now
(R57, R443). -/
def Region.holeFrom (g : Region) (h : Bool × Nat × Word) : Nat := if h.1 then g.leadTile h.2.1 else h.2.1
/-- The holes of an edge that wait go out while there are credits for them (R57, R59); a stopped tile sends none (R378).
The fuel is the number of holes. -/
def State.flushHoles (s : State) (r e : Nat) : Nat → State
  | 0 => s
  | n + 1 =>
    match ((s.region r).edge e).holes.find? fun h => s.creditKept r e (h0Seq h.2.2) && !(s.tile ((s.region r).holeFrom h)).stopped with
    | none => s
    | some h =>
      ((s.updEdge r e fun d => { d with holes := d.holes.erase h }).sendEdge ((s.region r).holeFrom h) r e h.2.2 zero16 true).flushHoles r e n
/-- A hole joins those that wait for a credit of an edge. -/
def State.addHole (s : State) (r e : Nat) (h : Bool × Nat × Word) : State :=
  let s := s.updEdge r e fun d => { d with holes := d.holes ++ [h] }
  s.flushHoles r e ((s.region r).edge e).holes.length

/-! ## Sources (R37) -/

/-- The edge of a region that a Source feeds: one that starts at no tile and no stage (R37, R346). -/
def Region.isSource (g : Region) (e : Nat) : Bool :=
  (match AMap.find e g.edges with | some d => d.src.isNone | none => false) && g.stages.all fun p => p.2.outs.all fun o => o.2 ≠ e
/-- A Source's packet enters on its edge at the entry port nearest its destination (R37, R39, R55; assumption 63): it
takes a credit and the next SEQ, and the port's count (R377). One that leads to a withdrawn coordinate is rejected by that port
and returns its credit (R47, R334); one that leads outside the region gives its credit back. -/
def State.sendSource (s : State) (r e : Nat) (h0 : Word) (body : List Byte) : State :=
  let g := s.region r
  let d := g.edge e
  let h0 := setField (setField h0 0 32 d.next) 39 1 g.colour.toNat
  let s := s.updEdge r e fun d => { d with credits := d.credits - 1, next := (d.next + 1) % 2 ^ 32,
                                           closed := d.closed || decide (h0Kind h0 = 2), eosLeft := decide (h0Kind h0 = 2) }
  let go (c t : Nat) (stage : Option (Nat × Nat)) : State :=
    match s.portFor r t with
    | some p =>
      let s := s.updRegion r fun g => { g with portSent := countPair g.portSent g.colour }
      { s with net := s.net ++ [⟨portTile p, t, vcOf (h0Kind h0), h0, mkH1 c 0 g.ctx d.port, body, stage, some (r, e), false, []⟩] }
    | none => s.returnCredit r (some e) d.next
  match d.dst with
  | .tile c _ => match g.translate c true with
    | .at t => go c t none
    | .withdrawn => (s.reportPort r { FaultInfo.plain .packetFormat 255 with fw2 := mkH1 c 0 g.ctx d.port, fw3 := h0 }).returnCredit r (some e) d.next
    | .outside => s.returnCredit r (some e) d.next
  | .stage n => match g.tileAt? (g.stage n).lead with
    | some t => go (g.stage n).lead t (some (r, n))
    | none => (s.reportPort r { FaultInfo.plain .packetFormat 255 with fw2 := mkH1 (g.stage n).lead 0 g.ctx d.port, fw3 := h0 }).returnCredit r (some e) d.next
  | .dram => s.returnCredit r (some e) d.next
/-- A Source puts its packets on an edge while there are credits (R39), no cut is open (R378), and no eos has left
(R444). The fuel is the number of packets. -/
def State.feedSource (s : State) (r e : Nat) : Nat → State
  | 0 => s
  | n + 1 =>
    let g := s.region r
    match s.links.sources.find? fun q => q.ctx == g.ctx && q.edge == e with
    | some q =>
      if g.isSource e && decide (g.st = .running) && decide (g.cut.phase = 0) && !(g.edge e).eosLeft && s.creditFree r e then
        ((s.updLinks fun l => { l with sources := l.sources.erase q }).sendSource r e q.h0 q.body).feedSource r e n
      else s
    | none => s
/-- Every Source of a region puts what it can on its edge. -/
def State.feedSources (s : State) (r : Nat) : State :=
  (s.region r).edges.foldl (fun s p => s.feedSource r p.1 s.links.sources.length) s

/-! ## The mailbox (R49) -/

/-- Bytes of a packet (R40). -/
def packetLen (h0 : Word) : Nat := (h0Len h0 + 1) * 16
/-- Whether [a, a+n) overlaps a packet that the mailbox still holds. -/
def Mailbox.clash (b : Mailbox) (a n : Nat) : Bool :=
  b.mails.any fun m => !m.gone && !m.hole && decide (a < m.addr + packetLen m.h0) && decide (m.addr < a + n)
/-- The head of the mailbox: where the oldest packet held stands, or the tail when none is (R49). -/
def Mailbox.rehead (b : Mailbox) (lo : Nat) : Mailbox :=
  { b with head := match b.mails.find? fun m => !m.gone && !m.hole with | some m => m.addr - lo | none => b.tail }
/-- A place of n contiguous bytes in the mailbox [lo, hi): at the tail, at the start, or after a held
packet (R49). -/
def Mailbox.place (b : Mailbox) (lo hi n : Nat) : Option Nat :=
  ((lo + b.tail) :: lo :: b.mails.map fun m => m.addr + packetLen m.h0).find? fun a =>
    decide (lo ≤ a) && decide (a + n ≤ hi) && !b.clash a n

/-- Bytes of a tile's mailbox reserved for its edges (R39). -/
def State.reserved (s : State) (t : Nat) : Nat :=
  let g := s.region (s.rgnOf t)
  (s.tile t).conf.ports.foldl (fun n p => match p.2.edge with
    | some e => n + (g.edge e).depth * ((g.edge e).len + 1) * 16
    | none => n) 0

/-- The context that the handling of a packet is charged to: the energy tag of a fault or repair packet (R43), else
the tile's own. -/
def State.mailCtx (s : State) (t : Nat) (m : Mail) : Nat := if m.kind = .fault ∨ m.kind = .repair then h1Port m.h1 else s.ctxOf t
/-- Puts a packet into a tile's mailbox and writes its bytes to the pool, charged to a context (R49, R402). -/
def State.putMailFor (s : State) (ctx t : Nat) (m : Mail) : State :=
  let x := s.tile t
  let lo := mboxBase x.conf.part
  let n := packetLen m.h0
  let a := (x.mbox.place lo (queueBase x.conf.part) n).getD lo
  let s := s.putAll (poolKey t a) (leBytes 8 m.h0.toNat ++ leBytes 8 m.h1.toNat ++ m.body)
  let s := s.charge t ctx 7 (units8 n)
  s.updTile t fun x =>
    { x with mbox := Mailbox.rehead ({ x.mbox with mails := x.mbox.mails ++ [{ m with addr := a }], tail := a + n - lo }) lo,
             moved := if m.kind = .fault ∨ m.kind = .repair then x.moved else m.port :: x.moved }
/-- Puts a packet into a tile's mailbox (R49), at the cost of the context that its handling is charged to. -/
def State.putMail (s : State) (t : Nat) (m : Mail) : State := s.putMailFor (s.mailCtx t m) t m

/-- A packet as a mail at a position (R297: the arrival position is that of its first arrival). -/
def mkMail (kind : MailKind) (port : Nat) (h0 h1 : Word) (body : List Byte) (pos : Nat) (since : Int) (fwd : Bool)
    (edge : Option Nat) : Mail :=
  { kind := kind, port := port, addr := 0, h0 := h0, h1 := h1, body := body, pos := pos, since := since,
    fwd := fwd, hole := false, taken := false, edge := edge, begun := false, wait := false, gone := false, age := 0,
    sent := [], slice := none, yieldAt := 0 }

/-- The next arrival position of a tile. -/
def State.nextPos (s : State) (t : Nat) : Nat × State :=
  ((s.tile t).mbox.arrivals, s.updTile t fun x => { x with mbox := { x.mbox with arrivals := x.mbox.arrivals + 1 } })

/-- Whether a tile's actor is a replica of a stateless or range stage (R58). -/
def Tile.isReplica (x : Tile) : Bool := decide (x.conf.actor = some .stateless ∨ x.conf.actor = some .range)

/-- A reordering port consumes the holes that it has come to, returning their credits (R58). The fuel is
the number of packets held. -/
def State.eatHoles (s : State) (t port : Nat) : Nat → State
  | 0 => s
  | n + 1 =>
    let x := s.tile t
    let p := AMap.get Port.init port x.conf.ports
    match x.mbox.mails.find? fun m => m.hole && m.port == port && h0Seq m.h0 == p.next with
    | some m =>
      let s := s.returnCredit (s.rgnOf t) m.edge (h0Seq m.h0)
      let s := s.updTile t fun x => { x with
        mbox := { x.mbox with mails := x.mbox.mails.filter fun y => y.pos ≠ m.pos },
        conf := { x.conf with ports := AMap.modify port (fun p => { p with next := (p.next + 1) % 2 ^ 32 }) x.conf.ports } }
      s.eatHoles t port n
    | none => s

/-- Places a hole, or the mark that a rejected packet leaves (its credit is back already, so it has no edge), in a
reordering port (R47, R58). -/
def State.putHole (s : State) (t port : Nat) (h0 h1 : Word) (edge : Option Nat) : State :=
  let (pos, s) := s.nextPos t
  let m := { mkMail .edge port h0 h1 [] pos 0 false edge with hole := true }
  let s := s.updTile t fun x => { x with mbox := { x.mbox with mails := x.mbox.mails ++ [m] } }
  s.eatHoles t port ((s.tile t).mbox.mails.length)

/-! ## Arrival (R47) -/

/-- The checks of R47 that the packet alone decides. -/
def badPacket (h0 : Word) (body : List Byte) (hw : Bool) : Bool :=
  decide (8 ≤ h0Kind h0) || decide (h0Kind h0 = 3) || decide (h0Len h0 = 0) ||
  decide (9 ≤ h0Nsucc h0 ∧ h0Nsucc h0 ≤ 14) || (decide (h0Nsucc h0 = 15) && !hw) ||
  (decide (h0Nsucc h0 ≤ 8) && decide (packetLen h0 < 16 + 8 * h0Nsucc h0)) || decide (63 < h0Stage h0) ||
  (succOf h0 body).any fun w => decide (field w 36 2 ≠ 0)

/-- Whether a packet is a hole (R57). -/
def isHole (h0 : Word) : Bool := decide (h0Nsucc h0 = 15)

/-- Whether the hardware of the region makes the packets of an edge's holes: a Source feeds no edge that has a tile or a stage
behind it, and what it sends it has made itself (R37, R47). -/
def State.ownEdge (s : State) (r e : Nat) : Bool :=
  ((s.region r).edge e).src.isSome || (s.region r).stages.any fun p => p.2.outs.any fun o => o.2 == e
/-- All checks of R47 for a configuration: port, handler, declared LENGTH and, at a range stage, the
payload of 16 bytes; `hw` says whether the hardware may have generated the packet. -/
def rejects (c : TileConf) (maxLen : Option Nat) (rangeIn : Bool) (port : Nat) (h0 : Word) (body : List Byte) (hw : Bool := true) : Bool :=
  badPacket h0 body hw || (match maxLen with | some n => decide (n < h0Len h0) | none => false) ||
  (AMap.find port c.ports).isNone ||
  (!isHole h0 && (AMap.find (h0Handler h0) c.handlers).isNone) ||
  (rangeIn && !isHole h0 && decide (h0Kind h0 ≠ 2) && decide (payloadLen h0 < 16))

/-- The packet-format report (R47, R368). -/
def State.rejectReport (s : State) (t : Nat) (h0 h1 : Word) : State :=
  s.report t { FaultInfo.plain .packetFormat 255 with fw2 := h1, fw3 := h0 }

/-- Whether a substitution has taken a tile out of its region: its coordinate leads elsewhere or nowhere (R332). -/
def State.left (s : State) (t : Nat) : Bool :=
  match (s.region (s.rgnOf t)).translate (s.tile t).coord false with
  | .at d => d != t
  | .withdrawn => true
  | .outside => false
/-- Counts a packet received, by its colour (R377); at a tile that a substitution has taken out of its region the region
keeps the count (R379). -/
def State.countRecv (s : State) (t : Nat) (h0 : Word) : State :=
  if s.left t then s.updRegion (s.rgnOf t) fun g => { g with portRecv := countPair g.portRecv (h0Colour h0) }
  else s.updTile t fun x => { x with recv := countPair x.recv (h0Colour h0) }

/-- The clock by which a tile counts waits: its cycles, or the region's rounds in mode 3 (R429). -/
def State.clock (s : State) (t : Nat) : Nat :=
  let r := s.region (s.rgnOf t)
  if r.modeOn = 3 then r.round else (s.tile t).cycle

/-- Whether a packet that software must not have sent is lost: an unpredictable value (R12). -/
def State.breached (s : State) : Bool × State :=
  let (w, s) := s.free
  (bitAt w 0, s)

/-- A packet reaches a tile that holds no forwarding entry for it: fault and repair packets are placed
without checks (R369); the others are checked, rejected, or placed (R47, R58, R297). A packet that waits for admission
counts as received when it is placed (R377). DESIGN CHOICE (assumption 120): what R12 makes of a spawned packet that reaches a
port which an edge feeds is that it is placed or lost. -/
def State.arrive (s : State) (t : Nat) (f : Flying) : State :=
  let x := s.tile t
  let r := s.rgnOf t
  let port := h1Port f.h1
  let spawned := decide (h0Kind f.h0 < 3) && (match AMap.find port x.conf.ports with | some p => p.edge.isNone | none => false)
  let hw := match f.edge with | some q => s.ownEdge q.1 q.2 | none => true
  let s := if spawned && !rejects x.conf none false port f.h0 f.body hw then s else s.countRecv t f.h0
  let eid := f.edge.map Prod.snd
  let (pos, s) := s.nextPos t
  if h0Kind f.h0 = 5 ∨ h0Kind f.h0 = 6 then
    s.putMail t (mkMail (if h0Kind f.h0 = 5 then .fault else .repair) port f.h0 f.h1 f.body pos (s.clock t) f.fwd none)
  else
    let p := AMap.get Port.init port x.conf.ports
    let maxLen := p.edge.map fun e => ((s.region r).edge e).len
    if rejects x.conf maxLen false port f.h0 f.body hw then
      let s := (s.rejectReport t f.h0 f.h1).returnCredit r eid (h0Seq f.h0)
      if p.edge.isSome && !x.isReplica then s.putHole t port f.h0 f.h1 none else s
    else if p.edge.isNone then
      if h0Kind f.h0 = 4 then s.putMail t (mkMail .plain port f.h0 f.h1 f.body pos (s.clock t) f.fwd none)
      else s.updTile t fun x => { x with mbox := { x.mbox with grants := x.mbox.grants ++ [⟨pos, f.fwd, f.h0, f.h1, f.body⟩] } }
    else if isHole f.h0 then s.putHole t port f.h0 f.h1 eid
    else if f.edge.isNone && (s.breached).1 then s.breached.2
    else (if f.edge.isNone then s.breached.2 else s).putMail t (mkMail .edge port f.h0 f.h1 f.body pos (s.clock t) f.fwd eid)

/-! ## Steal packets (R42, R54, R63) -/

/-- Field number of a region-virtual coordinate. -/
def Region.fieldAt (g : Region) (c : Nat) : Nat := fieldOf (g.physOf c)

/-- The field numbers of a stage's replicas, ascending. -/
def Region.stageFields (g : Region) (x : Stage) : List Nat :=
  (List.range 84).filter fun f => x.replicas.any fun c => g.fieldAt c = f
/-- The replicas of a stage in one field, in row-major order: its ring (R63). -/
def Region.ring (g : Region) (x : Stage) (f : Nat) : List Nat := x.replicas.filter fun c => g.fieldAt c = f

/-- Inserts slice indices in ascending order. -/
def mergeSlices (a b : List Nat) : List Nat := (a ++ b).mergeSort (fun x y => decide (x ≤ y))

/-- The replica `d` places after one in its ring. -/
def ringNext (ring : List Nat) (c d : Nat) : Nat :=
  match ring.findIdx? (· == c) with | some i => ring.getD ((i + d) % ring.length) c | none => c

/-- The replica that takes over the slices of a replica that leaves its stage, or has left it (R361): the next of its
ring; for the only one of its field, the next in the order of R62. -/
def Region.heir (g : Region) (x : Stage) (c : Nat) : Option Nat :=
  let f := g.fieldAt c
  let ring := (g.ring x f).filter (· ≠ c)
  let others := (g.stageFields x).filter (· ≠ f)
  match ring with
  | d :: _ => some ((ring.find? fun e => decide (c < e)).getD d)
  | [] => ((others.filter fun h => decide (f < h)) ++ others).head?.bind fun h => (g.ring x h).head?

/-- The runs of consecutive slice indices in an ascending list, as [first, last]. -/
def sliceRuns : List Nat → List (Nat × Nat)
  | [] => []
  | i :: l => match sliceRuns l with
    | (a, b) :: r => if a = i + 1 then (i, b) :: r else (i, i) :: (a, b) :: r
    | [] => [(i, i)]
/-- The bounds of one slice of the range token in work (R61). -/
def Stage.sliceLo (x : Stage) (i : Nat) : Nat := match x.tok with | some k => k.lo + (i - k.base) * x.slice | none => 0
/-- The upper bound of one slice. -/
def Stage.sliceHi (x : Stage) (i : Nat) : Nat := match x.tok with | some k => min (x.sliceLo i + x.slice) k.hi | none => 0
/-- What a steal packet is for (assumption 68): a request, the answer to one, or slices given unasked. -/
inductive StealUse where
  | request
  | reply
  | given
  deriving DecidableEq, Repr
/-- Its code in HANDLER. -/
def StealUse.code : StealUse → Nat
  | .request => 0
  | .reply => 1
  | .given => 2
/-- The payload of a steal packet (assumption 68): lo and hi of each run, as many as fit; zeros for an empty range. -/
def Stage.stealBody (x : Stage) (slices : List Nat) : List Byte :=
  match (sliceRuns slices).take 15 with
  | [] => zero16
  | rs => rs.flatMap fun r => leBytes 8 (x.sliceLo r.1) ++ leBytes 8 (x.sliceHi r.2)
/-- H0 of a steal packet of stage n: KIND 7 at level 45 (R42, R54). -/
def stealH0 (n : Nat) (use : StealUse) (body : List Byte) : Word := mkH0 7 45 use.code (body.length / 16) 0 false n 0
/-- Sends a steal packet of stage n from one replica to another (R63). -/
def State.sendSteal (s : State) (r n src dst : Nat) (use : StealUse) (slices : List Nat) : State :=
  let g := s.region r
  match g.tileAt? src, g.tileAt? dst with
  | some t, some d =>
    let body := (g.stage n).stealBody slices
    s.emit t d (stealH0 n use body) (mkH1 dst src g.ctx 0) body none none slices
  | _, _ => s
/-- What steal packets have left at tiles that are no replicas of a stage (any more): a request is answered with an empty
range, slices go to the tile's heir (R361). Each from a tile that is not stopped (R378). -/
def State.stealLeft (s : State) (r n : Nat) : State :=
  let g := s.region r
  let x := g.stage n
  let idle (c : Nat) : Bool := !x.replicas.contains c && (match g.tileAt? c with | some t => !(s.tile t).stopped | none => true)
  let asks := x.asks.filter fun a => idle a.2
  let left := x.rem.filter fun p => idle p.1
  let s := s.updStage r n fun y => { y with asks := y.asks.filter fun a => !idle a.2, rem := y.rem.filter fun p => !idle p.1 }
  let s := asks.foldl (fun s a => s.sendSteal r n a.2 a.1 .reply []) s
  left.foldl (fun s p => match g.heir x p.1 with | some d => s.sendSteal r n p.1 d .given p.2 | none => s) s
/-- Slices that reach a replica while a block with a STEAL.SPLIT is in flight there join the others after it (R300). -/
def State.lateSlices (s : State) (t : Nat) (l : List Nat) : State :=
  { s with flights := s.flights.map fun p => if tileOf p.1 = t ∧ p.2.split then (p.1, { p.2 with late := p.2.late ++ l }) else p }
/-- A steal packet arrives (R63, R64, R361): a request waits for the owner; slices join those of the replica and its
ring may ask again; an empty answer counts once round the ring. A tile that is no replica any more passes slices to
its heir, and answers a request with an empty range, once it is not stopped (R378). -/
def State.stealArrival (s : State) (f : Flying) : State :=
  let s := s.countRecv f.dst f.h0
  let r := s.rgnOf f.dst
  let n := h0Stage f.h0
  let g := s.region r
  let x := g.stage n
  let c := (s.tile f.dst).coord
  let src := h1Src f.h1
  let mine := x.replicas.contains c
  let s := s.lateSlices f.dst f.slices
  if h0Handler f.h0 = 0 then (s.updStage r n fun y => { y with asks := y.asks ++ [(src, c)] }).stealLeft r n
  else
    let s := if h0Handler f.h0 = 1 then s.updStage r n fun y => { y with asking := y.asking.erase c } else s
    if f.slices.isEmpty then s.updStage r n fun y => { y with dry := AMap.upd 0 c (· + 1) y.dry }
    else
      ((s.updStage r n fun y => { y with
        rem := AMap.put [] c (mergeSlices (AMap.get [] c y.rem) f.slices) y.rem,
        dry := if mine then y.dry.filter fun p => !(g.ring x (g.fieldAt c)).contains p.1 else y.dry }).stealLeft r n).wakeAll

/-! ## Arrival from the network -/

/-- Whether a flight in the network is the oldest of its source, destination and channel (R27). -/
def State.oldestFlying (s : State) (n : Nat) (f : Flying) : Bool :=
  (s.net.take n).all fun g => !(g.src == f.src && g.dst == f.dst && g.vc == f.vc)

/-- Whether a packet in the network travels on an edge into the DRAM request port (R174, R318). -/
def State.toPort (s : State) (f : Flying) : Bool :=
  match f.edge with
  | some (r, e) => ((s.region r).edge e).dst == .dram
  | none => false
/-- Whether PACKET_ARRIVAL of flight n can come about: it is no dramreq, the oldest of its route, and no
Trellis boundary holds it (R27, R412); in deterministic mode packets are placed when a round closes (R429). -/
def State.canArrive (s : State) (n : Nat) : Bool :=
  match s.net[n]? with
  | some f => !s.toPort f && decide (s.mode (s.rgnOf f.dst) ≠ 3) && s.oldestFlying n f && !(decide (f.vc ≤ 1) && s.heldAt f.src f.dst)
  | none => false

/-- Charges a packet's last way to the tile that receives it (R402), by the energy tag of a fault or repair packet (R43). -/
def State.chargeRecv (s : State) (f : Flying) : State :=
  let ctx := if h0Kind f.h0 = 5 ∨ h0Kind f.h0 = 6 then h1Port f.h1 else field f.h1 12 12
  s.charge f.dst ctx 8 ((h0Len f.h0 + 1) * hops f.src f.dst)
/-- The forwarding entry of a tile that a packet meets (R381): that of its context; a repair packet that the device level has
sent carries CTXID 0 and follows the youngest (R44, R304). -/
def Tile.forwardOf (x : Tile) (h0 h1 : Word) : Option Forward :=
  (x.fwds.find? fun e => e.ctx == field h1 12 12).or (if h0Kind h0 = 6 ∧ field h1 12 12 = 0 then x.fwds.head? else none)
/-- PACKET_ARRIVAL (R47, R381): a tile with a forwarding entry passes the packet on, uncounted; a packet
on a stage's input edge reaches the stage's distributor, a steal packet the replica's range. -/
def State.packetArrival (s : State) (n : Nat) : State :=
  match s.net[n]? with
  | none => s
  | some f =>
    let s := { s with net := s.net.eraseIdx n }.chargeRecv f
    match (s.tile f.dst).forwardOf f.h0 f.h1 with
    | some e =>
      let s := s.charge f.dst e.ctx 8 ((h0Len f.h0 + 1) * hops f.dst e.dst)
      { s with net := s.net ++ [{ f with src := f.dst, dst := e.dst, fwd := true }] }
    | none =>
      match f.stage with
      | some (r, g) =>
        (s.countRecv f.dst f.h0).updStage r g fun x => { x with inbox := AMap.ins (h0Seq f.h0) (f.h0, f.h1, f.body) x.inbox }
      | none => if h0Kind f.h0 = 7 then s.stealArrival f else s.arrive f.dst f

/-- PACKET_ARRIVAL. -/
def execPacketArrival (n : Nat) (s : State) : Res :=
  whenEnabled "PACKET_ARRIVAL" (s.canArrive n) (s.packetArrival n)

/-! ## Spawned packets (R297, R298) -/

/-- Spawned packets that wait undispatched in a mailbox. -/
def Mailbox.spawnedWaiting (b : Mailbox) : Nat := (b.mails.filter fun m => m.kind = .spawned && !m.taken && !m.begun).length
/-- Bytes of spawned packets in a mailbox. -/
def Mailbox.spawnedBytes (b : Mailbox) : Nat :=
  (b.mails.filter fun m => m.kind = .spawned && !m.gone).foldl (fun n m => n + packetLen m.h0) 0
/-- Bytes in a spill ring. -/
def Mailbox.ringBytes (b : Mailbox) : Nat := b.ring.foldl (fun n m => n + packetLen m.h0) 0

/-- Rule 1 of R297 for a packet of n bytes, in the mailbox [lo, hi) of which `res` bytes are reserved for edges. -/
def Mailbox.admits (b : Mailbox) (res lo hi n : Nat) : Bool :=
  b.ring.isEmpty && decide (res + b.spawnedBytes + n ≤ hi - lo) && (b.place lo hi n).isSome &&
    (decide (b.hwm = 0) || decide (b.spawnedWaiting < b.hwm))
/-- Rule 2 of R297. -/
def Mailbox.spillsTo (b : Mailbox) (n : Nat) : Bool := decide (b.spSize ≠ 0) && decide (b.ringBytes + n ≤ 16 * b.spSize)
/-- A mailbox after a spawned packet of a length has been admitted or spilled to it, if either rule of R297 takes it. -/
def Mailbox.afterSpawn (b : Mailbox) (res lo hi : Nat) (h0 : Word) : Option Mailbox :=
  let n := packetLen h0
  let m := mkMail .spawned 0 h0 0 [] b.arrivals 0 false none
  if b.admits res lo hi n then
    let a := (b.place lo hi n).getD lo
    some { b with mails := b.mails ++ [{ m with addr := a }], tail := a + n - lo }
  else if b.spillsTo n then some { b with ring := b.ring ++ [m] }
  else none
/-- A mailbox after several spawned packets, in order. -/
def Mailbox.afterSpawns (b : Mailbox) (res lo hi : Nat) : List Word → Option Mailbox
  | [] => some b
  | h :: hs => (b.afterSpawn res lo hi h).bind fun c => c.afterSpawns res lo hi hs

/-- Bytes that steal requests which wait at a tile take in the remainder of its mailbox (R39, R63): 32 each. -/
def State.stealBytes (s : State) (t : Nat) : Nat :=
  let x := s.tile t
  32 * ((s.region (s.rgnOf t)).stages.foldl (fun n p => n + p.2.asks.countP fun a => a.2 == x.coord) 0)
/-- Bytes of a tile's mailbox that no spawned packet can have: the reservations of its edges and the steal traffic (R39). -/
def State.taken (s : State) (t : Nat) : Nat := s.reserved t + s.stealBytes t
/-- Rule 1 of R297 at a tile. -/
def State.admits (s : State) (t n : Nat) : Bool :=
  let p := (s.tile t).conf.part
  (s.tile t).mbox.admits (s.taken t) (mboxBase p) (queueBase p) n
/-- Rule 2 of R297 at a tile. -/
def State.spillsTo (s : State) (t n : Nat) : Bool := (s.tile t).mbox.spillsTo n
/-- Whether a packet in the network is on its way to a port of a tile that no edge feeds. -/
def State.unfed (s : State) (t : Nat) (f : Flying) : Bool :=
  f.dst == t && f.edge.isNone && decide (h0Kind f.h0 < 3) && (match AMap.find (h1Port f.h1) (s.tile t).conf.ports with
    | some p => p.edge.isNone
    | none => false)
/-- Whether a region-virtual coordinate leads a thread set's packet to a tile (R381). -/
def State.leads (s : State) (k c t : Nat) : Bool :=
  match (s.region (s.rgnOf (tileOf k))).tileAt? c with
  | some d => (match (s.tile d).fwds.find? fun f => f.ctx == s.ctxOf (tileOf k) with | some f => f.dst | none => d) == t
  | none => false
/-- The spawned packets that a tile has granted and not yet admitted, as their headers: those that wait, those in the
network, and those of blocks that have not committed or whose sends wait (R297, R301). -/
def State.promised (s : State) (t : Nat) : List Word :=
  ((s.tile t).mbox.grants.map fun g => g.pkt.1) ++
  ((s.net.filter fun f => s.unfed t f).map fun f => f.h0) ++
  (s.flights.flatMap fun p => p.2.effs.filterMap fun e => match e.2 with
    | .spawn h0 h1 _ => if s.leads p.1 (h1Dst h1) t then some h0 else none
    | _ => none) ++
  (s.tss.flatMap fun p => (p.2.outs.filter fun o => o.send && o.spawn && s.leads p.1 o.dst t).map fun o => o.h0)
/-- Whether a tile grants a spawned packet (R297): after those that it has granted already, it would admit or spill
this one. -/
def State.grants (s : State) (t : Nat) (h0 : Word) : Bool :=
  let p := (s.tile t).conf.part
  ((s.tile t).mbox.afterSpawns (s.taken t) (mboxBase p) (queueBase p) (s.promised t ++ [h0])).isSome

/-- Where in the spill ring the next packet starts: behind the youngest, the ring's end followed by its start. -/
def Mailbox.ringEnd (b : Mailbox) : Nat := match b.spilt.getLast? with | some p => (p.1 + p.2.length) % (16 * b.spSize) | none => 0
/-- The n bytes of a tile's spill ring from an offset on. -/
def State.ringAt (s : State) (t off n : Nat) : List Byte :=
  let b := (s.tile t).mbox
  (List.range n).map fun i => s.byte (poolKey t (b.spBase + (off + i) % (16 * b.spSize)))
/-- Writes bytes into a tile's spill ring from an offset on. -/
def State.putRing (s : State) (t off : Nat) (bs : List Byte) : State :=
  let b := (s.tile t).mbox
  let k := 16 * b.spSize - off
  (s.putAll (poolKey t (b.spBase + off)) (bs.take k)).putAll (poolKey t b.spBase) (bs.drop k)
/-- Writes a packet into the spill ring (R297). DESIGN CHOICE (assumption 119): software must not access the ring while it holds
packets, so what a program sees there is unpredictable (R12); the hardware has the packet all the same. -/
def State.spill (s : State) (t : Nat) (m : Mail) : State :=
  let off := (s.tile t).mbox.ringEnd
  let (bs, s) := s.freeBytes (packetLen m.h0)
  let s := (s.putRing t off bs).charge t (s.ctxOf t) 7 (units8 (packetLen m.h0))
  s.updTile t fun x => { x with mbox := { x.mbox with
    ring := x.mbox.ring ++ [m], spilt := x.mbox.spilt ++ [(off, bs)], spills := min (2 ^ 32 - 1) (x.mbox.spills + 1) } }

/-- Whether SPAWN_ADMISSION can come about at a tile; a halted cluster's mailboxes stay as they are (R413). -/
def State.canAdmit (s : State) (t : Nat) : Bool :=
  decide (s.mode (s.rgnOf t) ≠ 3) && !s.shut t &&
  match (s.tile t).mbox.grants with
  | g :: _ => s.admits t (packetLen g.pkt.1) || s.spillsTo t (packetLen g.pkt.1)
  | [] => false

/-- SPAWN_ADMISSION (R297): the oldest packet that waits is admitted or spilled. -/
def State.spawnAdmission (s : State) (t : Nat) : State :=
  match (s.tile t).mbox.grants with
  | [] => s
  | g :: rest =>
    let (h0, h1, body) := g.pkt
    let m := mkMail .spawned (h1Port h1) h0 h1 body g.pos (s.clock t) g.fwd none
    let adm := s.admits t (packetLen h0)
    let s := (s.countRecv t h0).updTile t fun x => { x with mbox := { x.mbox with grants := rest } }
    (if adm then s.putMail t m else s.spill t m).wakeAll

/-- SPAWN_ADMISSION. -/
def execSpawnAdmission (tile : Nat) (s : State) : Res :=
  whenEnabled "SPAWN_ADMISSION" (s.canAdmit tile) (s.spawnAdmission tile)

/-- The oldest spilled packet moves back into the mailbox when a spawned packet has left it (R297); the ring is read at the
tile's cost (R402). DESIGN CHOICE (assumption 119): what follows H1 in a packet whose bytes software has overwritten there is
unpredictable (R12). -/
def State.spillReturn (s : State) (t : Nat) : State :=
  let b := (s.tile t).mbox
  let p := (s.tile t).conf.part
  match b.ring with
  | m :: rest =>
    let o := b.spilt.headD (0, [])
    if decide (s.taken t + b.spawnedBytes + packetLen m.h0 ≤ mboxSize p) && (b.place (mboxBase p) (queueBase p) (packetLen m.h0)).isSome &&
        (decide (b.hwm = 0) || decide (b.spawnedWaiting < b.hwm)) then
      let (body, s) := if s.ringAt t o.1 o.2.length = o.2 then (m.body, s) else s.freeBytes m.body.length
      ((s.updTile t fun x => { x with mbox := { x.mbox with ring := rest, spilt := x.mbox.spilt.drop 1 } }).charge t (s.ctxOf t) 7
        (units8 (packetLen m.h0))).putMail t { m with body := body }
    else s
  | [] => s

/-! ## Release (R39, R51) -/

/-- Writes n bytes of unpredictable values from a key. -/
def State.putFree (s : State) (a n : Nat) : State :=
  (List.range ((n + 7) / 8)).foldl (fun s i =>
    let (w, s) := s.free
    s.putAll (a + 8 * i) (leBytes (min 8 (n - 8 * i)) w.toNat)) s
/-- A mailbox without a packet that has been released: it keeps its place in the order (R51, R241). -/
def Mailbox.release (b : Mailbox) (pos lo : Nat) : Mailbox :=
  Mailbox.rehead { b with mails := b.mails.map fun y => if y.pos = pos then { y with gone := true, edge := none } else y } lo
/-- Releases a packet of a tile's mailbox: its credit starts back, its bytes become unpredictable (R51), the head moves
on, and a spilled packet returns. -/
def State.releaseMail (s : State) (t pos : Nat) : State :=
  match (s.tile t).mbox.mails.find? fun m => m.pos == pos with
  | none => s
  | some m =>
    if m.gone then s
    else
      let s := (s.returnCredit (s.rgnOf t) m.edge (h0Seq m.h0)).putFree (poolKey t m.addr) (packetLen m.h0)
      let s := s.updTile t fun x => { x with mbox := x.mbox.release pos (mboxBase x.conf.part) }
      (s.spillReturn t).wakeAll
/-- Forgets a packet of a tile's mailbox. -/
def State.dropMail (s : State) (t pos : Nat) : State :=
  let s := s.releaseMail t pos
  s.updTile t fun x => { x with mbox := { x.mbox with mails := x.mbox.mails.filter fun y => y.pos ≠ pos } }

/-- Whether a credit of an edge is on its way back. -/
def State.canCredit (s : State) (r n : Nat) : Bool := s.hasRegion r && decide (s.mode r ≠ 3) && !((s.region r).edge n).returning.isEmpty
/-- CREDIT_RETURN (R39): a credit reaches the edge's source; holes that wait may go, and so may packets of a Source. -/
def State.creditReturn (s : State) (r n : Nat) : State :=
  match ((s.region r).edge n).returning with
  | [] => s
  | q :: rest =>
    let s := (s.updEdge r n fun d => Edge.credited ({ d with returning := rest }) q).flushHoles r n ((s.region r).edge n).holes.length
    (s.feedSource r n s.links.sources.length).wakeAll
/-- CREDIT_RETURN. -/
def execCreditReturn (rgn n : Nat) (s : State) : Res :=
  whenEnabled "CREDIT_RETURN" (s.canCredit rgn n) (s.creditReturn rgn n)

/-! ## Dispatch (R50, R52, R53) -/

/-- What a packet's wait is counted in: tile cycles, or rounds in deterministic mode (R53, R429). -/
def State.waitLevels (s : State) (t : Nat) (m : Mail) : Nat :=
  let r := s.region (s.rgnOf t)
  if r.modeOn = 3 then ((r.round : Int) - m.since).toNat / 1024 else (((s.tile t).cycle : Int) - m.since).toNat / 2 ^ 16

/-- Effective priority (R53): levels 40 to 47 do not age. -/
def State.effPrio (s : State) (t : Nat) (m : Mail) : Nat :=
  if 40 ≤ h0Prio m.h0 then h0Prio m.h0 else min 39 (h0Prio m.h0 + s.waitLevels t m)

/-- Whether one packet of a port precedes another: what a forwarding entry led here first, then by arrival (R71,
R316). -/
def precedes (fwd : Bool) (pos : Nat) (fwd' : Bool) (pos' : Nat) : Bool := if fwd = fwd' then decide (pos < pos') else fwd
/-- Whether a packet is the one its port offers (R52 rule 1, R58, R71): by SEQ at a reordering port, else the oldest
among those in the mailbox, forwarded ones first, and no older one of the port in the spill ring or among those that wait for
admission, which come in only after packets have left (R297, R316). Fault tokens wait in a
queue of their own, which no port names (R369). -/
def Tile.offered (x : Tile) (m : Mail) : Bool :=
  let p := AMap.get Port.init m.port x.conf.ports
  let first (fwd : Bool) (pos : Nat) : Bool := pos = m.pos || precedes m.fwd m.pos fwd pos
  if m.begun then !m.wait
  else if m.kind = .fault then x.mbox.mails.all fun y => y.kind ≠ .fault || y.taken || decide (m.pos ≤ y.pos)
  else if m.kind = .edge && p.edge.isSome && !x.isReplica then h0Seq m.h0 == p.next
  else (x.mbox.mails.all fun y => y.port ≠ m.port || y.taken || y.begun || y.hole || y.kind = .fault || y.kind = .repair || first y.fwd y.pos) &&
    (x.mbox.ring.all fun y => y.port ≠ m.port || decide (m.pos ≤ y.pos)) &&
    x.mbox.grants.all fun g => h1Port g.pkt.2.1 ≠ m.port || decide (m.pos ≤ g.pos)

/-- Whether R38 holds a stateful actor's packets back: a task of the tile has not ended. -/
def State.actorBusy (s : State) (t : Nat) (m : Mail) : Bool :=
  let x := s.tile t
  decide (x.conf.actor = some .stateful) &&
    (((List.range 4).any fun i => match (s.ts (4 * t + i)).task with
      | some a => a.epi.isNone
      | none => (s.ts (4 * t + i)).ending) ||
    x.mbox.mails.any fun y => y.begun && y.pos ≠ m.pos)

/-- The packets that may dispatch at a tile (R52 rule 1), fault tokens among them (R369). -/
def State.eligible (s : State) (t : Nat) : List Mail :=
  let x := s.tile t
  x.mbox.mails.filter fun m =>
    !m.taken && !m.hole && m.kind ≠ .repair && !(m.kind = .fault && (s.region (s.rgnOf t)).shedStop) && x.offered m && !s.actorBusy t m

/-- The dispatcher's choice among packets: highest effective priority, then earliest arrival (R52). -/
def State.choice (s : State) (t : Nat) : Option Mail :=
  (s.eligible t).foldl (fun best m => match best with
    | none => some m
    | some b => if s.effPrio t b < s.effPrio t m ∨ (s.effPrio t b = s.effPrio t m ∧ m.pos < b.pos) then some m else some b) none

/-- The start state of a task (R50). -/
def startRegs (old : Regs) (h0 h1 : Word) (addr len : Nat) (ox : List Word) (bpc : Word) : Regs :=
  { s := AMap.put 0 1 h0 (AMap.put 0 2 (word addr) (AMap.put 0 3 (word len) (AMap.put 0 4 h1 []))),
    v := [], ox := AMap.put 0 0 (ox.getD 0 0) (AMap.put 0 1 (ox.getD 1 0) (AMap.put 0 2 (ox.getD 2 0) (AMap.put 0 3 (ox.getD 3 0) []))),
    bpc := bpc, blr := 0, flags := 0, mexc := old.mexc }

/-- Writes a stage's read-only data into a replica's scratchpad (R38, R323). -/
def State.putRoData (s : State) (t : Nat) (ds : List (Nat × List Byte)) : State :=
  ds.foldl (fun s d => s.putAll (poolKey t d.1) d.2) s
/-- A replica's scratchpad when a task starts there: the read-only data of its stage, and nothing else that the spec
defines (R38). While another task runs on the tile its bytes stay (assumption 85). -/
def State.freshPad (s : State) (t : Nat) : State :=
  let x := s.tile t
  if x.isReplica && (List.range 4).all fun i => (s.ts (4 * t + i)).task.isNone then
    (s.putFree (poolKey t 0) (mboxBase x.conf.part)).putRoData t ((s.region (s.rgnOf t)).stage x.conf.stage).roData
  else s
/-- Starts a packet's handler on a thread set (R50). DESIGN CHOICE (assumption 130): a packet that MBPOP has released and that runs
again after its YIELD (R241) has the successor list with which it arrived (R46). -/
def State.startTask (s : State) (k : Nat) (m : Mail) : State :=
  let t := tileOf k
  let s := s.freshPad t
  let x := s.tile t
  let bpc := AMap.get 0 (h0Handler m.h0) x.conf.handlers
  let s := s.updTile t fun x => { x with
    mbox := { x.mbox with mails := x.mbox.mails.map fun y => if y.pos = m.pos then { y with taken := true, wait := false } else y },
    moved := if m.kind = .fault ∨ m.kind = .repair then x.moved else m.port :: x.moved }
  let s := s.updTs k fun a => { a with
    regs := startRegs a.regs m.h0 m.h1 (m.addr + 16) (payloadLen m.h0) x.conf.ox bpc,
    kindOk := 1,
    task := some { h0 := m.h0, h1 := m.h1, port := m.port, pos := m.pos, addr := m.addr, size := packetLen m.h0,
                   succ := succOf m.h0 m.body, held := !m.gone, sent := m.sent, slice := m.slice,
                   fwd := m.fwd, edge := m.edge, kind := m.kind, epi := none } }
  s.traceTile t 3 (tsNum k) m.h0.toNat m.h1.toNat 0

/-- A reordering port moves on past a packet that it has released (R58). -/
def State.advancePort (s : State) (t : Nat) (m : Mail) : State :=
  let x := s.tile t
  let p := AMap.get Port.init m.port x.conf.ports
  if m.kind = .edge && p.edge.isSome && !x.isReplica && !m.begun then
    let s := s.updTile t fun x => { x with
      conf := { x.conf with ports := AMap.modify m.port (fun p => { p with next := (p.next + 1) % 2 ^ 32 }) x.conf.ports } }
    s.eatHoles t m.port ((s.tile t).mbox.mails.length)
  else s

/-- Counts an eos at a sink (R66, R312): it starts no task; one past the report is a graph fault. -/
def State.countEos (s : State) (t : Nat) (m : Mail) (p : Port) : State :=
  let s := (s.advancePort t m).dropMail t m.pos
  if p.reported then s.report t (FaultInfo.plain .lateEos 255)
  else s.updTile t fun x => { x with conf := { x.conf with ports := AMap.modify m.port (fun p =>
    { p with counted := p.counted + 1, reported := decide (some (p.counted + 1) = p.sink) }) x.conf.ports } }

/-- Slices that join a replica's remaining slices only after a block in flight there (R300). -/
def State.lateAt (s : State) (t : Nat) : List Nat :=
  (List.range 4).flatMap fun i => match s.flight (4 * t + i) with | some f => f.late | none => []
/-- Slice indices that a replica of a range stage has not yet dispatched (R63). -/
def State.remaining (s : State) (t : Nat) : List Nat :=
  let x := s.tile t
  if x.conf.actor = some .range then
    (AMap.get [] x.coord ((s.region (s.rgnOf t)).stage x.conf.stage).rem).filter fun i => !(s.lateAt t).contains i
  else []

/-- The packet of slice i of a range stage (R61). DESIGN CHOICE (assumption 70): it carries the range token's successor
list, so that each slice's task ends with completion tokens of its own. -/
def Stage.slicePacket (g : Stage) (i : Nat) : Option (Word × Word × List Byte) :=
  g.tok.map fun k => (setField k.h0 0 32 i, k.h1, leBytes 8 (g.sliceLo i) ++ leBytes 8 (g.sliceHi i) ++ k.tail)

/-- Whether a STEAL.SPLIT in flight on a tile has counted slice i among those that it gives (R300). -/
def State.splitHolds (s : State) (t i : Nat) : Bool :=
  (List.range 4).any fun n => match s.flight (4 * t + n) with
    | some f => f.split && !f.snap.solo && (f.snap.remain.drop (f.snap.remain.length - f.snap.remain.length / 2)).contains i
    | none => false
/-- Whether a steal request waits at a tile (R54, R63). -/
def State.stealWaits (s : State) (t : Nat) : Bool :=
  let x := s.tile t
  decide (x.conf.actor = some .range) && ((s.region (s.rgnOf t)).stage x.conf.stage).asks.any fun a => a.2 == x.coord
/-- Whether the next slice of a replica may be dispatched: no split in flight gives it away (R300), no steal request
waits (R63), and no packet of equal or higher effective priority is there (R52, assumption 71). -/
def State.sliceNext (s : State) (t : Nat) : Bool :=
  match s.remaining t with
  | [] => false
  | i :: _ => !s.splitHolds t i && !s.stealWaits t && (match s.choice t, ((s.region (s.rgnOf t)).stage (s.tile t).conf.stage).tok with
    | some m, some k => decide (s.effPrio t m < h0Prio k.h0)
    | some _, none => false
    | none, _ => true)
/-- Whether the dispatcher must leave the thread sets free for a steal request that can be served now: it waits at
level 45 (R54). -/
def State.yieldsToSteal (s : State) (t : Nat) : Bool :=
  s.stealWaits t && decide (AMap.get 0 (s.tile t).coord ((s.region (s.rgnOf t)).stage (s.tile t).conf.stage).busy = 0) &&
    (match s.choice t with | some m => decide (s.effPrio t m < 45) | none => true)

/-- Whether a thread set is free for a dispatch (R52): it exists, holds no task, is not the epilogue
thread set, nothing stops it, and its tile has been released and is not stopping. -/
def State.freeFor (s : State) (k : Nat) : Bool :=
  let x := s.tile (tileOf k)
  let a := s.ts k
  a.task.isNone && !a.ending && s.runnable k && decide (tsNum k < partTs x.conf.part) && x.live && !x.stopping &&
    decide (epiTs x.conf.part ≠ some (tsNum k)) && (s.flight k).isNone

/-- Whether TASK_DISPATCH can come about on a thread set. -/
def State.canDispatch (s : State) (k : Nat) : Bool :=
  s.freeFor k && (s.sliceNext (tileOf k) || (match s.choice (tileOf k) with | some m => m.kind ≠ .fault | none => false)) &&
    !s.yieldsToSteal (tileOf k) && s.ticketOk (s.rgnOf (tileOf k)) (tileOf k) (tsNum k) 3

/-- The replica's next slice starts on a thread set (R61, R361). -/
def State.startSlice (s : State) (k : Nat) : State :=
  let t := tileOf k
  let x := s.tile t
  let r := s.rgnOf t
  match s.remaining t with
  | [] => s
  | i :: _ =>
    match ((s.region r).stage x.conf.stage).slicePacket i with
    | none => s
    | some (h0, h1, body) =>
      let (pos, s) := s.nextPos t
      let m := { mkMail .plain (h1Port h1) h0 h1 body pos (s.clock t) false none with slice := some i }
      let s := s.putMail t m
      let s := s.updStage r x.conf.stage fun g => { g with
        rem := AMap.put [] x.coord ((AMap.get [] x.coord g.rem).filter (· ≠ i)) g.rem, busy := AMap.upd 0 x.coord (· + 1) g.busy,
        tok := g.tok.map fun q => { q with left := q.left - 1 } }
      match (s.tile t).mbox.mails.find? fun y => y.pos == pos with
      | some m => s.startTask k m
      | none => s
/-- A packet starts its handler on a thread set; an eos at a sink is counted (R50, R312). -/
def State.startPacket (s : State) (k : Nat) (m : Mail) : State :=
  let t := tileOf k
  let p := AMap.get Port.init m.port (s.tile t).conf.ports
  if h0Kind m.h0 = 2 && p.sink.isSome then s.countEos t m p
  else
    let s := (s.startTask k m).advancePort t m
    if m.kind = .spawned then (s.spillReturn t).wakeAll else s
/-- TASK_DISPATCH (R50, R52, R61, R312): at a range stage the replica's next slice starts, when no packet comes before
it; else the chosen packet. -/
def State.taskDispatch (s : State) (k : Nat) : State :=
  let t := tileOf k
  let after := s.ticket (s.rgnOf t) t (tsNum k) 3
  if s.sliceNext t then after.startSlice k
  else match s.choice t with
    | some m => after.startPacket k m
    | none => after

/-- TASK_DISPATCH. -/
def execTaskDispatch (ts : Nat) (s : State) : Res :=
  whenEnabled "TASK_DISPATCH" (s.canDispatch ts) (s.taskDispatch ts)

/-- FAULT_TOKEN_DISPATCH (R369): the oldest fault token of a Potting shed tile, when the dispatcher's choice falls on it
(R38, R52, R54), starts handler CLASS at level 47; with the default handler, a CLASS 0 or 1 token halts the region and
a report is only counted. -/
def State.canFaultDispatch (s : State) (k : Nat) : Bool :=
  let t := tileOf k
  s.freeFor k && (match s.choice t with | some m => m.kind = .fault | none => false) && !s.sliceNext t && decide (s.mode (s.rgnOf t) ≠ 3) &&
    ((s.region (s.rgnOf t)).shedDef || s.ticketFree (s.rgnOf t) t (tsNum k) 3)
/-- The fault token is dispatched. -/
def State.faultDispatch (s : State) (k : Nat) : State :=
  let t := tileOf k
  let r := s.rgnOf t
  match s.choice t with
  | none => s
  | some m =>
    if (s.region r).shedDef then
      let s := s.dropMail t m.pos
      if h0Handler m.h0 < 2 then s.haltRegion r 3 else s
    else (s.ticket r t (tsNum k) 3).startTask k m
/-- FAULT_TOKEN_DISPATCH. -/
def execFaultTokenDispatch (ts : Nat) (s : State) : Res :=
  whenEnabled "FAULT_TOKEN_DISPATCH" (s.canFaultDispatch ts) (s.faultDispatch ts)

/-- PACKET_AGEING (R53): the wait of a packet below level 40 has passed another 2^16 cycles. -/
def State.canAge (s : State) (t pos : Nat) : Bool :=
  decide (s.mode (s.rgnOf t) ≠ 3) && (s.tile t).mbox.mails.any fun m => m.pos == pos && !m.taken && decide (h0Prio m.h0 < 40) && decide (m.age < s.waitLevels t m)
/-- The packet rises by one level. -/
def State.age (s : State) (t pos : Nat) : State :=
  s.updTile t fun x => { x with mbox := { x.mbox with mails := x.mbox.mails.map fun m => if m.pos = pos then { m with age := m.age + 1 } else m } }
/-- PACKET_AGEING. -/
def execPacketAgeing (tile pos : Nat) (s : State) : Res :=
  whenEnabled "PACKET_AGEING" (s.canAge tile pos) (s.age tile pos)

/-- YIELD_REELIGIBLE (R241, R429): the wait of a yielded packet has passed: 1,024 tile cycles, or one round in mode 3. -/
def State.canReelig (s : State) (t pos : Nat) : Bool :=
  let w := if (s.region (s.rgnOf t)).modeOn = 3 then 1 else 1024
  decide (s.mode (s.rgnOf t) ≠ 3) && (s.tile t).mbox.mails.any fun m => m.pos == pos && m.begun && m.wait && decide (m.yieldAt + w ≤ s.clock t)
/-- The packet may dispatch again. -/
def State.reelig (s : State) (t pos : Nat) : State :=
  s.updTile t fun x => { x with mbox := { x.mbox with mails := x.mbox.mails.map fun m => if m.pos = pos then { m with wait := false } else m } }
/-- YIELD_REELIGIBLE. -/
def execYieldReeligible (tile pos : Nat) (s : State) : Res :=
  whenEnabled "YIELD_REELIGIBLE" (s.canReelig tile pos) (s.reelig tile pos)

/-! ## Ends of tasks (R46, R57, R240) -/

/-- A packet to the port that a successor handle names (R45, R46), at the tile to which a forwarding entry leads (R381): with an edge it takes that edge's credit
and SEQ; without one it carries `seq`, and 0 where no such port is configured. -/
def State.handleTok (s : State) (k : Nat) (w : Word) (prio len stage seq : Nat) (body : List Byte) : OutTok :=
  let g := s.region (s.rgnOf (tileOf k))
  let dst := handleDst w
  let port := field w 24 12
  let confPort := match g.tileAt? dst with
    | some d => AMap.find port (s.tile (s.follow g.ctx d)).conf.ports
    | none => none
  let eid := match confPort with | some p => p.edge | none => none
  { port := port, dst := dst, h0 := mkH0 1 prio (field w 38 6) len 0 false stage (if confPort.isSome then seq else 0), body := body, edge := eid,
    spawn := confPort.isSome && eid.isNone, send := false, keep := false, slices := [] }

/-- The clamp of R48 for a packet that a program sends. -/
def clampPrio (lvl : Level) (h0 : Word) : Word :=
  let top := if lvl = .user then 39 else 47
  if top < h0Prio h0 then setField h0 54 6 top else h0
/-- Clamps the priority of a packet to send and counts the clamp (R48). -/
def State.clamp (s : State) (t : Nat) (h0 : Word) : Word × State :=
  let h := clampPrio (s.level t) h0
  (h, if h = h0 then s else s.updRegion (s.rgnOf t) fun g => { g with csr := csrPut g.csr 0x005 (word (min (2 ^ 32 - 1) (field (csrOf g.csr 0x005) 0 32 + 1))) })
/-- The completion tokens of a task (R46), in list order, with the priority clamped (R48). -/
def State.completionToks (s : State) (k : Nat) (a : Task) : List OutTok :=
  a.succ.map fun w => s.handleTok k w (h0Prio (clampPrio (s.level (tileOf k)) a.h0)) 1 (h0Stage a.h0) (h0Seq a.h0)
    (leBytes 8 (field w 0 24) ++ leBytes 8 a.h0.toNat)
/-- Counts the clamps of a task's completion tokens (R48). -/
def State.countClamps (s : State) (k : Nat) (a : Task) : State := a.succ.foldl (fun s _ => (s.clamp (tileOf k) a.h0).2) s

/-- Whether a replica's task counts for its stage: a packet of the stage's input edge or a slice started it. DEDUCED
(assumption 72): a spawned packet or a reply that runs on a replica's tile holds no SEQ of the stage. -/
def Task.ofStage (a : Task) : Bool := decide (a.kind = .edge) || a.slice.isSome
/-- The holes of a replica's task on the stage output ports on which it has not sent (R57). -/
def State.taskHoles (s : State) (k : Nat) (a : Task) : List OutTok :=
  let x := s.tile (tileOf k)
  if x.isReplica && a.ofStage then
    (((s.region (s.rgnOf (tileOf k))).stage x.conf.stage).outs.filter fun p => !a.sent.contains p.1).map fun p =>
      { port := 0, dst := 0, h0 := holeH0 (h0Prio a.h0) (h0Stage a.h0) (h0Seq a.h0), body := zero16, edge := some p.2,
        spawn := false, send := false, keep := true, slices := [] }
  else []
/-- Whether a waiting packet is a hole of an ended task. -/
def OutTok.isHole (o : OutTok) : Bool := o.keep && !o.send

/-- The stage's record that a replica's task has ended (R60, R61, R63). -/
def State.stageTaskEnd (s : State) (k : Nat) (a : Task) : State :=
  let t := tileOf k
  let x := s.tile t
  if x.isReplica && a.epi.isNone then
    s.updStage (s.rgnOf t) x.conf.stage fun g =>
      if a.slice.isSome then { g with busy := AMap.upd 0 x.coord (· - 1) g.busy }
      else if a.kind = .edge then { g with openSeqs := g.openSeqs.erase (h0Seq a.h0) }
      else g
  else s

/-- A thread set becomes free when it has ended its task, has no token left to emit and no pending reply
(R46, R92, R240). -/
def State.tryFree (s : State) (k : Nat) : State :=
  let a := s.ts k
  if a.ending && a.outs.isEmpty && a.eng.pend.isEmpty then
    let s := match a.task with | some q => s.stageTaskEnd k q | none => s
    s.updTs k fun a => { a with task := none, ending := false }
  else s

/-- A packet that a tile has just sent to itself without an edge is there at once (DEDUCED from R317, assumption 73):
it arrives and is admitted, unless an older packet of its route is under way, a forwarding entry leads on, or the
region runs in rounds. -/
def State.arriveHere (s : State) (t : Nat) : State :=
  let n := s.net.length - 1
  if s.canArrive n && (s.tile t).fwds.isEmpty then
    let s := s.packetArrival n
    if s.canAdmit t then s.spawnAdmission t else s
  else s
/-- The tile that a coordinate leads a system or steal packet of a tile to: a manager core names physical coordinates
(R326, assumption 17). -/
def State.systemTile (s : State) (t c : Nat) : Option Nat :=
  match s.level t with
  | .device => if tilePresent (cx c) (cy c) then some (tileAt (cx c) (cy c)) else none
  | _ => (s.region (s.rgnOf t)).tileAt? c
/-- Emits one waiting packet of a thread set: on its edge, or directly to its destination; a hole joins those of its
edge; a destination outside the region freezes the thread set (R342), a withdrawn one rejects the packet (R334). Repair
and steal packets go to the tile that they name (R63, R304). -/
def State.emitOut (s : State) (k : Nat) (o : OutTok) : State :=
  let t := tileOf k
  let r := s.rgnOf t
  let g := s.region r
  match o.edge with
  | some e => if o.isHole then s.addHole r e (false, t, o.h0) else s.sendEdge t r e o.h0 o.body o.keep (tsNum k)
  | none =>
    if 6 ≤ h0Kind o.h0 then
      match s.systemTile t o.dst with
      | some d => s.emit t d o.h0 (mkH1 o.dst (s.tile t).coord (s.ctxOf t) o.port) o.body none none o.slices (tsNum k)
      | none => s
    else
    match g.translate o.dst (decide (s.level t = Level.user)) with
    | .at d =>
      let s := s.emit t d o.h0 (mkH1 o.dst (s.tile t).coord g.ctx o.port) o.body none none [] (tsNum k)
      if d = t then s.arriveHere t else s
    | .withdrawn => s.rejectReport t o.h0 (mkH1 o.dst (s.tile t).coord g.ctx o.port)
    | .outside => s.freezeTs k o.dst

/-- Whether a packet can leave (R46): a credit on its edge, or a grant where no edge feeds its port; a send
that has committed holds its credit or grant already; a hole waits for its credit at its edge; after an eos the edge
takes what it drops. -/
def State.roomFor (s : State) (k : Nat) (o : OutTok) : Bool :=
  let r := s.rgnOf (tileOf k)
  o.send || (match o.edge with
    | some e => o.isHole || ((s.region r).edge e).eosLeft || s.creditFree r e
    | none => !o.spawn || (match (s.region r).tileAt? o.dst with
      | some d => s.grants (s.follow (s.ctxOf (tileOf k)) d) o.h0
      | none => true))
/-- Whether no REL update keeps a thread set's packets back (R146): none is left in its journal, and none was refused. -/
def State.relClear (s : State) (k : Nat) : Bool := !(s.ts k).eng.relLost && (s.ts k).eng.journal.all fun j => j.kind ≠ .rel
/-- Whether the next waiting packet of a thread set can leave: no REL update keeps it (R146), there is room, and its
tile is neither stopped (R378) nor gated (R398). -/
def State.canToken (s : State) (k : Nat) : Bool :=
  match (s.ts k).outs with
  | [] => false
  | o :: _ => s.relClear k && !(s.tile (tileOf k)).stopped && !s.gatedAt (tileOf k) && s.roomFor k o

/-- The holes that stand first among the waiting packets of a thread set go to their edges (R240 step 3). The fuel is
the number of packets. -/
def State.drainHoles (s : State) (k : Nat) : Nat → State
  | 0 => s
  | n + 1 => match (s.ts k).outs with
    | [] => s
    | o :: rest => if o.isHole && s.canToken k then ((s.updTs k fun a => { a with outs := rest }).emitOut k o).drainHoles k n else s
/-- COMPLETION_TOKEN (R46, R146): the next token of an ended task leaves, and the holes after it. A handle outside the
region freezes the thread set (R342). -/
def State.completionToken (s : State) (k : Nat) : State :=
  match (s.ts k).outs with
  | [] => s
  | o :: rest => (((s.updTs k fun a => { a with outs := rest }).emitOut k o).drainHoles k rest.length).tryFree k
/-- COMPLETION_TOKEN. -/
def execCompletionToken (ts : Nat) (s : State) : Res :=
  whenEnabled "COMPLETION_TOKEN" (s.canToken ts && decide (s.mode (s.rgnOf (tileOf ts)) ≠ 3)) (s.completionToken ts)

/-- Ends a task: releases the packet, queues the completion tokens and after them the holes, clears the binding table
and frees the thread set when nothing is left (R240). -/
def State.endTask (s : State) (k : Nat) (tokens : Bool) : State :=
  match (s.ts k).task with
  | none => s
  | some a =>
    let s := s.dropMail (tileOf k) a.pos
    let toks := (if tokens then s.completionToks k a else []) ++ s.taskHoles k a
    let s := if tokens then s.countClamps k a else s
    let s := s.updTs k fun x => { x with outs := x.outs ++ toks, ending := true, eng := { x.eng with binds := [] } }
    (s.drainHoles k (s.ts k).outs.length).tryFree k

/-- Ends an epilogue on its thread set (R188, R240): the binding table is cleared, and the thread set is free once no
reply is pending. -/
def State.endEpilogue (s : State) (k : Nat) : State :=
  ((s.updTs k fun a => { a with ending := true, eng := { a.eng with binds := [] } }).tryFree k).wakeAll

/-- YIELD at commit (R241): the packet keeps its place and waits. DESIGN CHOICE (assumption 74): a thread set with a
pending register is free only once the reply has come, as after DONE (R92 names only DONE). -/
def State.yieldTask (s : State) (k : Nat) : State :=
  match (s.ts k).task with
  | none => s
  | some a =>
    let now := s.clock (tileOf k)
    let s := s.updTile (tileOf k) fun x => { x with mbox := { x.mbox with mails := x.mbox.mails.map fun m =>
      if m.pos = a.pos then { m with taken := false, begun := true, wait := true, sent := a.sent, yieldAt := now } else m } }
    (s.updTs k fun x => { x with task := none, ending := true }).tryFree k

end Sys2Proof.Machine
end

