-- ==== Sys2Proof/Machine/Stages.lean ====
section
/-! DEFINITION. Stages, range sharing, completion and dormancy (R56 to R69, R361, R443, R444): the
distributor, the end of a stage, the slices of a range stage and their stealing, the Dormancy detector,
the completion of a region, and the harvest of its energy meters (R408). -/

namespace Sys2Proof.Machine

open Sys2Proof

/-! ## The distributor (R47, R56, R59, R443) -/

/-- The handler that an edge's destination port declares (R444). -/
def State.portHandler (s : State) (r e : Nat) : Nat :=
  let g := s.region r
  let d := g.edge e
  match d.dst with
  | .tile c p => match g.tileAt? c with
    | some t => (AMap.get Port.init p (s.tile t).conf.ports).handler
    | none => 0
  | .stage n => (AMap.get Port.init d.port (g.stage n).conf.ports).handler
  | .dram => 0

/-- Whether every output edge of a stage has a credit for a SEQ, after the holes that wait there. -/
def State.outsReady (s : State) (r n seq : Nat) : Bool :=
  ((s.region r).stage n).outs.all fun p => s.creditKept r p.2 seq && ((s.region r).edge p.2).holes.isEmpty

/-- A hole for a SEQ that no task will end goes on each output port of a stage, as soon as there is a credit (R47,
R59). -/
def State.passHole (s : State) (r n : Nat) (h0 : Word) : State :=
  ((s.region r).stage n).outs.foldl (fun s p => s.addHole r p.2 (true, n, holeH0 (h0Prio h0) (h0Stage h0) (h0Seq h0))) s

/-- Sends an eos on each output port of a stage (R60, R64, R443, R444). -/
def State.stageEosOut (s : State) (r n : Nat) (h0 : Word) (seq : Nat) : State :=
  let g := s.region r
  let s := (g.stage n).outs.foldl (fun s p =>
    s.sendEdge (g.leadTile n) r p.2 (mkH0 2 (h0Prio h0) (s.portHandler r p.2) 1 0 false (h0Stage h0) seq) zero16 true) s
  s.updStage r n fun x => { x with eosOut := true }

/-- The packet that a stage's distributor takes next: the lowest SEQ, or for a range stage the next in
SEQ order (R61). -/
def Stage.nextPkt (x : Stage) : Option (Word × Word × List Byte) :=
  match x.kind with
  | .range => AMap.find x.nextIn x.inbox
  | _ => x.inbox.head?.map Prod.snd

/-- Whether the distributor can deal to replica number `rep` of a stateless stage (R56): a halted cluster's mailboxes stay
as they are (R413). -/
def State.canDeal (s : State) (r n rep : Nat) : Bool :=
  let x := (s.region r).stage n
  match x.nextPkt with
  | some _ => decide (x.kind = .stateless) && decide (rep < x.replicas.length) &&
      (match (s.region r).tileAt? (x.replicas.getD rep 0) with | some t => !s.shut t | none => true)
  | none => false

/-- DISTRIBUTOR_DEAL (R47, R56, R59): a rejected packet or a hole passes on as holes, an eos is consumed,
every other packet goes to the chosen replica. -/
def State.deal (s : State) (r n rep : Nat) : State :=
  let g := s.region r
  let x := g.stage n
  match x.nextPkt with
  | none => s
  | some (h0, h1, body) =>
    let seq := h0Seq h0
    let s := s.updStage r n fun y => { y with inbox := AMap.del seq y.inbox }
    let seen (s : State) : State := s.updStage r n fun y => { y with nextIn := (y.nextIn + 1) % 2 ^ 32 }
    if isHole h0 && s.ownEdge r x.inEdge then (seen (s.returnCredit r (some x.inEdge) seq)).passHole r n h0
    else if rejects x.conf (some (g.edge x.inEdge).len) false (g.edge x.inEdge).port h0 body (s.ownEdge r x.inEdge) then
      let s := s.rejectReport (g.leadTile n) h0 h1
      (seen (s.returnCredit r (some x.inEdge) seq)).passHole r n h0
    else if h0Kind h0 = 2 then
      (s.returnCredit r (some x.inEdge) seq).updStage r n fun y => { y with eosIn := some (h0, seq) }
    else
      match g.tileAt? (x.replicas.getD rep 0) with
      | none => s
      | some t =>
        let (pos, s) := s.nextPos t
        let way := (h0Len h0 + 1) * hops (g.leadTile n) t
        let s := (s.charge (g.leadTile n) g.ctx 8 way).charge t g.ctx 8 way
        let s := s.putMail t (mkMail .edge (g.edge x.inEdge).port h0 h1 body pos (s.clock t) false (some x.inEdge))
        (seen s).updStage r n fun y => { y with openSeqs := seq :: y.openSeqs }
/-- DISTRIBUTOR_DEAL. -/
def execDistributorDeal (rgn stg rep : Nat) (s : State) : Res :=
  whenEnabled "DISTRIBUTOR_DEAL" (s.canDeal rgn stg rep && decide (s.mode rgn ≠ 3)) (s.deal rgn stg rep)

/-- Whether a stateless stage can emit its eos (R60): the input eos has come and every lower SEQ ended. -/
def State.canStageEos (s : State) (r n : Nat) : Bool :=
  let x := (s.region r).stage n
  match x.eosIn with
  | some (_, seq) => decide (x.kind = .stateless) && !x.eosOut && decide (x.nextIn = seq) && x.openSeqs.isEmpty && s.outsReady r n seq &&
      !(s.tile ((s.region r).leadTile n)).stopped
  | none => false
/-- The stage's eos leaves with the SEQ of the input eos (R60). -/
def State.stageEos (s : State) (r n : Nat) : State :=
  match ((s.region r).stage n).eosIn with
  | some (h0, seq) => s.stageEosOut r n h0 seq
  | none => s
/-- STAGE_EOS. -/
def execStageEos (rgn stg : Nat) (s : State) : Res :=
  whenEnabled "STAGE_EOS" (s.canStageEos rgn stg && decide (s.mode rgn ≠ 3)) (s.stageEos rgn stg)

/-! ## Range stages (R61 to R64) -/

/-- Shares slice numbers [lo, hi) among members in order: member i takes floor(N i / n) to
floor(N (i+1) / n) - 1 (R62). -/
def shareOut (base N n c : Nat) : List Nat → List (Nat × List Nat)
  | [] => []
  | m :: ms => (m, (List.range (N * (c + 1) / n - N * c / n)).map fun i => base + N * c / n + i) :: shareOut base N n (c + 1) ms

/-- The slices of each replica for a token of N slices (R62): first among fields, then within each. -/
def Region.shares (g : Region) (x : Stage) (base N : Nat) : List (Nat × List Nat) :=
  ((g.stageFields x).foldl (fun (acc : Nat × List (Nat × List Nat)) f =>
    let ring := g.ring x f
    let n := x.replicas.length
    let lo := N * acc.1 / n
    let hi := N * (acc.1 + ring.length) / n
    (acc.1 + ring.length, acc.2 ++ shareOut (base + lo) (hi - lo) ring.length 0 ring)) (0, [])).2

/-- Whether a range stage can take its next range token: the next SEQ is there and every slice of the
previous token has been dispatched (R61, R62). -/
def State.canTake (s : State) (r n : Nat) : Bool :=
  let x := (s.region r).stage n
  decide (x.kind = .range) && x.nextPkt.isSome && (match x.tok with | some k => decide (k.left = 0) | none => true)

/-- RANGE_TOKEN_TAKE (R47, R59, R61, R62). DESIGN CHOICE (assumption 69): the credit of a token starts back when the
stage takes it, whether or not it holds slices. -/
def State.takeToken (s : State) (r n : Nat) : State :=
  let g := s.region r
  let x := g.stage n
  match x.nextPkt with
  | none => s
  | some (h0, h1, body) =>
    let s := (s.returnCredit r (some x.inEdge) (h0Seq h0)).updStage r n fun y =>
      { y with inbox := AMap.del x.nextIn y.inbox, nextIn := if h0Kind h0 = 2 then y.nextIn else (y.nextIn + 1) % 2 ^ 32 }
    if isHole h0 && s.ownEdge r x.inEdge then s
    else if rejects x.conf (some (g.edge x.inEdge).len) true (g.edge x.inEdge).port h0 body (s.ownEdge r x.inEdge) then s.rejectReport (g.leadTile n) h0 h1
    else if h0Kind h0 = 2 then s.updStage r n fun y => { y with eosIn := some (h0, h0Seq h0) }
    else
      let lo := ofBytes (body.take 8)
      let hi := ofBytes ((body.drop 8).take 8)
      let N := (hi - lo + x.slice - 1) / x.slice
      s.updStage r n fun y => { y with
        total := y.total + N,
        tok := some { lo := lo, hi := hi, base := y.total, count := N, tail := body.drop 16, h0 := h0, h1 := h1, succ := succOf h0 body, left := N },
        dry := [],
        rem := (g.shares x y.total N).foldl (fun m p => AMap.put [] p.1 p.2 m) y.rem }
/-- RANGE_TOKEN_TAKE. -/
def execRangeTokenTake (rgn stg : Nat) (s : State) : Res :=
  whenEnabled "RANGE_TOKEN_TAKE" (s.canTake rgn stg && decide (s.mode rgn ≠ 3)) (s.takeToken rgn stg)

/-- Whether a block that holds a STEAL.SPLIT is in flight on a tile (R300). -/
def State.splitInFlight (s : State) (t : Nat) : Bool :=
  (List.range 4).any fun i => match s.flight (4 * t + i) with | some f => f.split | none => false

/-- Whether a replica runs empty and may ask its ring (R63). -/
def State.canAsk (s : State) (t : Nat) : Bool :=
  let x := s.tile t
  let g := s.region (s.rgnOf t)
  let st := g.stage x.conf.stage
  let ring := g.ring st (g.fieldAt x.coord)
  decide (x.conf.actor = some .range) && (AMap.get [] x.coord st.rem).isEmpty && decide (AMap.get 0 x.coord st.busy = 0) &&
    !x.stopped && !s.gatedAt t && !st.asking.contains x.coord && decide (AMap.get 0 x.coord st.dry + 1 < ring.length) && st.tok.isSome
/-- STEAL_REQUEST (R63): the request goes to the next replica of the ring that has not yet answered empty. -/
def State.ask (s : State) (t : Nat) : State :=
  let x := s.tile t
  let g := s.region (s.rgnOf t)
  let st := g.stage x.conf.stage
  let ring := g.ring st (g.fieldAt x.coord)
  (s.updStage (s.rgnOf t) x.conf.stage fun y => { y with asking := x.coord :: y.asking }).sendSteal (s.rgnOf t) x.conf.stage
    x.coord (ringNext ring x.coord (AMap.get 0 x.coord st.dry + 1)) .request []
/-- STEAL_REQUEST. -/
def execStealRequest (tile : Nat) (s : State) : Res :=
  whenEnabled "STEAL_REQUEST" (s.canAsk tile && decide (s.mode (s.rgnOf tile) ≠ 3)) (s.ask tile)

/-- The upper floor(n/2) of the n remaining slices of a replica (R63). -/
def Stage.upper (y : Stage) (owner : Nat) : List Nat :=
  let rem := AMap.get [] owner y.rem
  rem.drop ((rem.length + 1) / 2)
/-- Takes slices away from a replica. -/
def State.takeSlices (s : State) (r n owner : Nat) (l : List Nat) : State :=
  s.updStage r n fun y => { y with rem := AMap.put [] owner ((AMap.get [] owner y.rem).filter fun i => !l.contains i) y.rem }

/-- Whether a replica can serve a steal request: one waits, and no slice is executing there (R63, R300). -/
def State.canServe (s : State) (t : Nat) : Bool :=
  let x := s.tile t
  let st := (s.region (s.rgnOf t)).stage x.conf.stage
  decide (x.conf.actor = some .range) && st.asks.any (fun a => a.2 = x.coord) &&
    decide (AMap.get 0 x.coord st.busy = 0) && !s.splitInFlight t && !x.stopped && !s.gatedAt t
/-- STEAL_SERVICE (R63): with n ≥ 2 the upper half goes to the requester, otherwise an empty range. -/
def State.serve (s : State) (t : Nat) : State :=
  let x := s.tile t
  let r := s.rgnOf t
  let n := x.conf.stage
  let y := (s.region r).stage n
  match y.asks.find? fun a => a.2 == x.coord with
  | none => s
  | some a =>
    let up := y.upper x.coord
    (((s.updStage r n fun y => { y with asks := y.asks.erase a }).takeSlices r n x.coord up).sendSteal r n x.coord a.1 .reply up).wakeAll
/-- STEAL_SERVICE. -/
def execStealService (tile : Nat) (s : State) : Res :=
  whenEnabled "STEAL_SERVICE" (s.canServe tile && decide (s.mode (s.rgnOf tile) ≠ 3)) (s.serve tile)

/-- Remaining slices of a field (R64, R361). -/
def Region.fieldCount (g : Region) (x : Stage) (f : Nat) : Nat :=
  (g.ring x f).foldl (fun n c => n + (AMap.get [] c x.rem).length) 0
/-- Whether a field is dry (R63): a replica that has run empty has had empty replies once round the ring. -/
def Region.isDry (g : Region) (x : Stage) (f : Nat) : Bool :=
  let ring := g.ring x f
  ring.any fun c => (AMap.get [] c x.rem).isEmpty && decide (AMap.get 0 c x.busy = 0) && decide (ring.length ≤ AMap.get 0 c x.dry + 1)
/-- First element with the largest value. -/
def argmax (f : Nat → Nat) : List Nat → Option Nat
  | [] => none
  | a :: l => match argmax f l with
    | none => some a
    | some b => if f a < f b then some b else some a
/-- The replica that gives slices to a dry field: of the field with the largest count, the one with the
most (R64). -/
def Region.donor (g : Region) (x : Stage) (f : Nat) : Option Nat :=
  match argmax (g.fieldCount x) ((g.stageFields x).filter (· ≠ f)) with
  | some h => argmax (fun c => (AMap.get [] c x.rem).length) (g.ring x h)
  | none => none
/-- The first idle replica of a field in ring order. -/
def Region.idle (g : Region) (x : Stage) (f : Nat) : Option Nat :=
  (g.ring x f).find? fun c => (AMap.get [] c x.rem).isEmpty && AMap.get 0 c x.busy == 0
/-- Whether slices given unasked are on their way into a field (R361). -/
def State.crossing (s : State) (r n f : Nat) : Bool :=
  let g := s.region r
  s.net.any fun p => h0Kind p.h0 = 7 && h0Stage p.h0 = n && h0Handler p.h0 = 2 && s.rgnOf p.dst = r && g.fieldAt (h1Dst p.h1) = f &&
    decide (g.fieldAt (h1Src p.h1) ≠ f)
/-- Whether a cross-field split can come about (R64, R300, R361): the donor is between slices, as for a split of R63
(DEDUCED, assumption 75), and no earlier reply is on its way to the field. -/
def State.canCross (s : State) (r n f : Nat) : Bool :=
  let g := s.region r
  let x := g.stage n
  match g.donor x f, g.idle x f with
  | some c, some _ => decide (x.kind = .range) && g.isDry x f && decide (2 ≤ (AMap.get [] c x.rem).length) &&
      decide (AMap.get 0 c x.busy = 0) && !s.splitInFlight ((g.tileAt? c).getD 0) && !s.crossing r n f &&
      !(s.tile ((g.tileAt? c).getD 0)).stopped
  | _, _ => false
/-- CROSS_FIELD_SPLIT (R64, R361). -/
def State.cross (s : State) (r n f : Nat) : State :=
  let g := s.region r
  let x := g.stage n
  match g.donor x f, g.idle x f with
  | some c, some d =>
    let up := x.upper c
    (s.takeSlices r n c up).sendSteal r n c d .given up
  | _, _ => s
/-- CROSS_FIELD_SPLIT. -/
def execCrossFieldSplit (rgn stg fld : Nat) (s : State) : Res :=
  whenEnabled "CROSS_FIELD_SPLIT" (s.canCross rgn stg fld && decide (s.mode rgn ≠ 3)) (s.cross rgn stg fld)

/-- Whether a range stage can emit its eos (R64). -/
def State.canRangeEos (s : State) (r n : Nat) : Bool :=
  let x := (s.region r).stage n
  match x.eosIn with
  | some (_, seq) => decide (x.kind = .range) && !x.eosOut && decide (x.nextIn = seq) && x.rem.isEmpty && x.busy.isEmpty &&
      (match x.tok with | some k => decide (k.left = 0) | none => true) && s.outsReady r n (x.total % 2 ^ 32) &&
      !(s.tile ((s.region r).leadTile n)).stopped
  | none => false
/-- RANGE_STAGE_EOS (R64): its SEQ is the total number of slices. -/
def State.rangeEos (s : State) (r n : Nat) : State :=
  let x := (s.region r).stage n
  match x.eosIn with
  | some (h0, _) => s.stageEosOut r n h0 (x.total % 2 ^ 32)
  | none => s
/-- RANGE_STAGE_EOS. -/
def execRangeStageEos (rgn stg : Nat) (s : State) : Res :=
  whenEnabled "RANGE_STAGE_EOS" (s.canRangeEos rgn stg && decide (s.mode rgn ≠ 3)) (s.rangeEos rgn stg)

/-! ## Energy harvest (R408) -/

/-- One meter's harvest: nJ to add, whether it was saturated, and what is left. -/
def Meter.harvest (m : Meter) (final : Bool) : Nat × Nat × Meter :=
  if m.sat then (281474976710, 1, ⟨0, false⟩)
  else (m.units / 16 / 1000, 0, if final then ⟨0, false⟩ else ⟨m.units % 16000, false⟩)
/-- Saturating addition to a 64-bit register. -/
def satAdd64 (w : Word) (n : Nat) : Word := word (min (2 ^ 64 - 1) (w.toNat + n))
/-- Saturating addition to a 32-bit field. -/
def satAdd32 (w : Word) (n : Nat) : Word := word (min (2 ^ 32 - 1) (field w 0 32 + n))
/-- A harvest joins ENTOT and ENLOST (R408). -/
def Region.harvested (nj lost : Nat) (g : Region) : Region :=
  { g with csr := csrPut (csrPut g.csr 0x211 (satAdd64 (csrOf g.csr 0x211) nj)) 0x213 (satAdd32 (csrOf g.csr 0x213) lost) }
/-- The tiles that may hold meters of a region's context: those that the context has charged since, in the region still or not
(R401); those of context 0 lie on every tile (R402, R405). -/
def State.meterTiles (s : State) (r : Nat) : List Nat :=
  if r = 256 then s.tiles.map Prod.fst else (s.tiles.filter fun p => (AMap.find (s.region r).ctx p.2.meters).isSome).map Prod.fst
/-- Harvests a region's meters into ENTOT and ENLOST (R408). -/
def State.harvest (s : State) (r : Nat) (final : Bool) : State :=
  let g := s.region r
  (s.meterTiles r).foldl (fun s t =>
    let (nj, lost, m) := (AMap.get ⟨0, false⟩ g.ctx (s.tile t).meters).harvest final
    let s := s.updTile t fun x => { x with meters := AMap.put ⟨0, false⟩ g.ctx m x.meters }
    s.updRegion r (Region.harvested nj lost)) s

/-! ## Completion and dormancy (R66 to R69) -/

/-- The sink ports of a region. -/
def State.sinks (s : State) (r : Nat) : List Port :=
  (s.region r).tilesOf.flatMap fun t => ((s.tile t).conf.ports.map Prod.snd).filter fun p => p.sink.isSome
/-- Whether every configured sink has reported, and there is one (R67). -/
def State.allReported (s : State) (r : Nat) : Bool := !(s.sinks r).isEmpty && (s.sinks r).all fun p => p.reported

/-- The launch id goes to the completion word (R67, R430): through translation, or to host memory. -/
def State.storeCompletion (s : State) (r : Nat) : State :=
  let g := s.region r
  let a := csrOf g.csr 0x049
  let v := (csrOf g.csr 0x048).toNat
  if space a = 8 then s.putNum (hostKey (field a 0 52)) 8 v
  else match s.portFor r (g.physOf 0) with
    | some p => match s.dramKey r p (field a 0 57) 8 .write with
      | (.key k, s) => s.putNum k 8 v
      | (.remote d b, s) => match s.boderAsk p (remoteAsk d g.ctx 1 b 8 ((leBytes 8 v).map some)) with
        | (0, s) => s
        | (c, s) => s.dramRefused false false r p c false (field a 0 57)
      | (.refused c m w, s) => s.dramRefused false w r p c m (field a 0 57)
    | none => s

/-- ADDR of a request. -/
def DramReq.addr (d : DramReq) : Word := word (ofBytes (d.body.take 8))
/-- The control word of a request (R174). -/
def DramReq.ctl (d : DramReq) : Word := word (ofBytes ((d.body.drop 8).take 8))
/-- Whether every store that a region's program has made is performed: no entry is posted and unperformed, no copy unfinished,
and no write or atomic waits at an entry port (R67, R433). -/
def State.storesDone (s : State) (r : Nat) : Bool :=
  (s.dreqs.all fun d => d.rgn != r || field d.ctl 60 4 == 0) && (s.region r).tilesOf.all fun t => (List.range 4).all fun i =>
    let e := (s.ts (4 * t + i)).eng
    e.copies.isEmpty && e.journal.all fun j => j.state != .pending
/-- Whether a region's completion can come about: every sink has reported, every posted store is acknowledged, every copy and
DRAM request has ended and every append is written (R67). -/
def State.canComplete (s : State) (r : Nat) : Bool :=
  s.hasRegion r && decide ((s.region r).st = .running) && decide ((s.region r).outcome = .pending) && (s.region r).ran &&
    s.allReported r && s.storesDone r && (s.region r).tilesOf.all fun t => (s.tile t).slots.all (fun p => p.2.toWrite.isEmpty) &&
      (List.range 4).all fun i => (s.ts (4 * t + i)).eng.journal.isEmpty
/-- REGION_COMPLETION (R67, R353, R364, R408). -/
def State.complete (s : State) (r : Nat) : State :=
  let s := (s.storeCompletion r).harvest r true
  (s.updRegion r fun g => { g with outcome := .completed, st := if g.seqOn then g.st else .ended }).commitUpdate
/-- REGION_COMPLETION. -/
def execRegionCompletion (rgn : Nat) (s : State) : Res :=
  whenEnabled "REGION_COMPLETION" (s.canComplete rgn) (s.complete rgn)

/-- Packets sent and received by a region's tiles (R69). -/
def State.traffic (s : State) (r : Nat) : Nat × Nat :=
  (s.region r).tilesOf.foldl (fun p t => let x := s.tile t
    (p.1 + x.sent.1 + x.sent.2, p.2 + x.recv.1 + x.recv.2))
    ((s.region r).portSent.1 + (s.region r).portSent.2, (s.region r).portRecv.1 + (s.region r).portRecv.2)
/-- Whether an engine operation of a region is outstanding (R69). -/
def State.enginesBusy (s : State) (r : Nat) : Bool :=
  (s.dreqs.any fun d => d.rgn == r) || (s.dreps.any fun d => d.rgn == r) ||
  (s.landings.any fun l => s.rgnOf l.tile == r) ||
  (s.region r).tilesOf.any fun t => ((s.tile t).slots.any fun p => !p.2.toWrite.isEmpty) || (List.range 4).any fun i =>
    let e := (s.ts (4 * t + i)).eng
    !e.copies.isEmpty || !e.recs.isEmpty || !e.journal.isEmpty
/-- Whether a thread set is in a wait (R69): a stop, an instruction of its block that waits, or a packet that cannot
leave. -/
def State.inWait (s : State) (k : Nat) : Bool :=
  let a := s.ts k
  a.stops.frozen.isSome || a.stops.fault.isSome || !a.outs.isEmpty ||
    (match s.flight k with | some f => f.stat.any fun p => p.2 == .waiting | none => false)
/-- The packets at each non-empty input port of a tile. -/
def Tile.occupancies (x : Tile) : AMap Nat :=
  x.mbox.mails.foldl (fun m y => if y.gone then m else AMap.upd 0 y.port (· + 1) m)
    (x.mbox.grants.foldl (fun m g => AMap.upd 0 (h1Port g.pkt.2.1) (· + 1) m)
      (x.mbox.ring.foldl (fun m y => AMap.upd 0 y.port (· + 1) m) []))
/-- What the Dormancy detector reports of a deadlocked region (R69): each actor and each stage that has a non-empty
input port or a thread set in a wait, with its occupancies. A stage's record joins those of its replicas. -/
def State.stuckReport (s : State) (r : Nat) : List Stuck :=
  let g := s.region r
  let waits (t : Nat) : List Nat := ((List.range 4).map fun i => 4 * t + i).filter fun k => s.inWait k
  let actors := g.tilesOf.filterMap fun t =>
    if (s.tile t).conf.actor = some .stateful then some ⟨false, (s.tile t).coord, (s.tile t).occupancies, waits t⟩ else none
  let stages := g.stages.map fun p =>
    let ts := p.2.replicas.filterMap g.tileAt?
    let own : AMap Nat := AMap.put 0 (g.edge p.2.inEdge).port p.2.inbox.length []
    ⟨true, p.1, ts.foldl (fun m t => (s.tile t).occupancies.foldl (fun m q => AMap.upd 0 q.1 (· + q.2) m) m) own, ts.flatMap waits⟩
  (actors ++ stages).filter fun (x : Stuck) => !x.ports.isEmpty || !x.waits.isEmpty
/-- Whether a cluster of a region is Trellis-halted (R69, R414). -/
def State.anyTrellis (s : State) (r : Nat) : Bool := (s.region r).tilesOf.any s.trellised
/-- Whether a Dormancy round runs: the region is running, no cut is open, no cluster halted (R69). -/
def State.canDorm (s : State) (r : Nat) : Bool := s.hasRegion r && decide ((s.region r).st = .running) && (s.region r).ran
/-- DORMANCY_ROUND (R69, R354): a skipped round breaks the run; two equal rounds without engine work and
with sinks unreported are a deadlock, which is reported once, to firmware too, and aborts a delta that is draining. -/
def State.dormancy (s : State) (r : Nat) : State :=
  let g := s.region r
  let (snt, rcv) := s.traffic r
  if g.cut.phase = 1 ∨ s.anyTrellis r then s.updRegion r fun g => { g with dorm := (0, 0, 0) }
  else if snt ≠ rcv ∨ s.enginesBusy r then s.updRegion r fun g => { g with dorm := (snt, rcv, 0) }
  else if g.dorm.2.2 = 0 ∨ g.dorm.1 ≠ snt then s.updRegion r fun g => { g with dorm := (snt, rcv, 1) }
  else if s.allReported r || g.dead then s
  else
    let s := s.updRegion r fun g => { g with dead := true, stuck := s.stuckReport r, outcome := .failed, st := if g.seqOn then g.st else .ended, dorm := (snt, rcv, 2) }
    s.commitUpdate.sendToken { rgn := r, coord := 0, ts := 0, bpc := 0, cur := 0, thread := false } (FaultInfo.plain .deadlock 255) 2
/-- DORMANCY_ROUND. -/
def execDormancyRound (rgn : Nat) (s : State) : Res :=
  whenEnabled "DORMANCY_ROUND" (s.canDorm rgn) (s.dormancy rgn)

end Sys2Proof.Machine
end

