-- ==== Sys2Proof/Machine/Migrate.lean ====
section
/-! DEFINITION. Moving the context of a tile (R134, R155, R165, R171, R191, R335, R380, R381). -/

namespace Sys2Proof.Machine

open Sys2Proof

/-- Moves marks of lines in [a, a+n) to [b, b+n), all 64-byte aligned. -/
def moveLines (l : List Nat) (a b n : Nat) : List Nat :=
  (l.filter fun x => !(decide (b / 64 ≤ x) && decide (x < (b + n) / 64))) ++
    (l.filter fun x => decide (a / 64 ≤ x) && decide (x < (a + n) / 64)).map fun x => x - a / 64 + b / 64
/-- Copies the bytes [a, a+n) of memory to [b, b+n); a poisoned line arrives poisoned (R375). -/
def State.copyRange (s : State) (a b n : Nat) : State :=
  let src := s.mem.filter fun p => decide (a ≤ p.1) && decide (p.1 < a + n)
  let rest := s.mem.filter fun p => !(decide (b ≤ p.1) && decide (p.1 < b + n))
  { s with mem := src.foldl (fun m p => AMap.put 0 (p.1 - a + b) p.2 m) rest,
           poison := moveLines s.poison a b n, margin := moveLines s.margin a b n }
/-- Zeroes the bytes [a, a+n) of memory. -/
def State.zeroRange (s : State) (a n : Nat) : State :=
  { s with mem := s.mem.filter fun p => !(decide (a ≤ p.1) && decide (p.1 < a + n)) }
/-- Zeroes the pools of tiles. -/
def State.zeroPools (s : State) (ts : List Nat) : State :=
  let inPool (a : Nat) : Bool := ts.any fun t => decide (poolKey t 0 ≤ a) && decide (a < poolKey t 0 + 2 ^ 17)
  { s with mem := s.mem.filter fun p => !inPool p.1, poison := s.poison.filter fun l => !inPool (64 * l),
           margin := s.margin.filter fun l => !inPool (64 * l) }

/-- Renames a coordinate. -/
def rename (a b c : Nat) : Nat := if c = a then b else c
/-- Renames a coordinate in a list kept in row-major order. -/
def renameCoord (l : List Nat) (a b : Nat) : List Nat := (l.map (rename a b)).mergeSort (fun x y => decide (x ≤ y))
/-- Moves the value of one key to another. -/
def AMap.rekey {β : Type} (m : AMap β) (a b : Nat) : AMap β :=
  match AMap.find a m with | some x => AMap.ins b x (AMap.del a m) | none => m

/-- A space-1 address of a tile as the space-2 address of the same sibling, as a posted entry carries it: it still names that
sibling when its thread set runs in another cluster (R134, R155). -/
def State.asRegionTile (s : State) (t : Nat) (a : Word) : Word :=
  if space a = 1 then
    let c := (s.tile (siblingTile t (field a 18 4))).coord
    word (2 * 2 ^ 60 + at_ 50 10 (cx c) + at_ 40 10 (cy c) + field a 0 17)
  else a
/-- The journal as it moves: entries under way keep their sequences and their destinations; addresses and objects stay as the
program wrote them, as the operands of REL and the binding table do (R138, R143, R155, R279). -/
def State.movedJournal (s : State) (t : Nat) (j : List JEntry) : List JEntry :=
  j.map fun e => { e with addr := s.asRegionTile t e.addr }
/-- A thread set of tile `src` that has become one of tile `dst` (R191: the owner of an outstanding epilogue is
one of them too). -/
def onTile (src dst k : Nat) : Nat := if tileOf k = src then 4 * dst + tsNum k else k
/-- A thread set as it moves from one tile to another. -/
def State.movedSet (s : State) (src dst : Nat) (a : ThreadSet) : ThreadSet :=
  { a with
    task := a.task.map fun q => { q with epi := q.epi.map fun e => (onTile src dst e.1, e.2) },
    eng := { a.eng with journal := s.movedJournal src a.eng.journal } }
/-- A packet as it moves from a tile whose clock shows `old` to one whose clock shows `new`: its waiting times are kept
(R51, R53). -/
def Mail.reclocked (m : Mail) (old new : Nat) : Mail := { m with since := m.since - old + new, yieldAt := m.yieldAt - old + new }
/-- A mailbox as it moves between tiles whose clocks differ. -/
def Mailbox.reclocked (b : Mailbox) (old new : Nat) : Mailbox :=
  { b with mails := b.mails.map fun m => m.reclocked old new, ring := b.ring.map fun m => m.reclocked old new }
/-- A mailbox that migrates: the packets in it reached their ports before every packet that follows through the
forwarding entry, and go before those (R71, R316). -/
def Mailbox.moved (b : Mailbox) (old new : Nat) : Mailbox :=
  let b := b.reclocked old new
  { b with mails := b.mails.map fun m => { m with fwd := true }, ring := b.ring.map fun m => { m with fwd := true },
           grants := b.grants.map fun g => { g with fwd := true } }

/-- The records of a region that named a tile or its coordinate name the new ones (R381). -/
def Region.moved (g : Region) (src dst a b : Nat) : Region :=
  { g with
    delta := g.delta.map fun d => { d with
      tiles := d.tiles.map fun x => { x with coord := rename a b x.coord },
      edges := d.edges.map fun p => (p.1, { p.2 with
        dst := (match p.2.dst with | .tile c q => .tile (rename a b c) q | z => z), src := p.2.src.map (rename a b) }) },
    edges := g.edges.map fun p => (p.1, { p.2 with
      dst := (match p.2.dst with | .tile c q => .tile (rename a b c) q | d => d),
      src := p.2.src.map (rename a b),
      waiting := p.2.waiting.map fun w => (rename src dst w.1, w.2),
      holes := p.2.holes.map fun h => if h.1 then h else (false, rename src dst h.2.1, h.2.2) }),
    stages := g.stages.map fun p => (p.1, { p.2 with
      replicas := renameCoord p.2.replicas a b, rem := AMap.rekey p.2.rem a b, busy := AMap.rekey p.2.busy a b,
      dry := AMap.rekey p.2.dry a b, moves := AMap.rekey p.2.moves a b, asking := p.2.asking.map (rename a b),
      asks := p.2.asks.map fun q => (rename a b q.1, rename a b q.2) }) }

/-- Moves the whole context of a tile to another one, which bears coordinate c from then on (R380): pool, thread sets,
mailbox, streams, accumulators, meters; the slot table does not move; blocks in flight are discarded. A forwarding
entry stays behind, and nothing of the context (R320, assumption 77); the records that named the tile name the new
one, and arrivals at landing words and copies in flight follow (R155, R171, R381). The matrix unit is the tile's own, and with it the moment of its last op (R396). DESIGN CHOICE
(assumption 131): the stream costs context 0 what its bytes and its way cost, as a save does. -/
def State.moveContext (s : State) (src dst c : Nat) : State :=
  let ks := List.range 4
  let s := ks.foldl (fun s i => s.discard (4 * src + i)) s
  let x := s.tile src
  let y := s.tile dst
  let r := s.rgnOf src
  let ctx := s.ctxOf src
  let s := (s.copyRange (poolKey src 0) (poolKey dst 0) (2 ^ 17)).zeroPools [src]
  let way := Config.requestFlits (2 ^ 17) * hops src dst
  let s := (((s.charge src 0 7 (units8 (2 ^ 17))).charge dst 0 7 (units8 (2 ^ 17))).charge src 0 8 way).charge dst 0 8 way
  let s := ks.foldl (fun s i => (s.setTs (4 * dst + i) (s.movedSet src dst (s.ts (4 * src + i)))).setTs (4 * src + i) ThreadSet.init) s
  let mx := { x.mx with table := csrOf (s.region r).csr 0x046, newTable := none, slotAt := some 0, lastOp := y.mx.lastOp }
  let sx := AMap.get ⟨0, false⟩ ctx x.meters
  let s := s.setTile dst { y with
    rgn := some r, coord := c, conf := { x.conf with coord := c }, mbox := x.mbox.moved x.cycle y.cycle,
    mx := mx, slots := x.slots.map (fun p => (p.1, { p.2 with ts := 4 * dst + tsNum p.2.ts, ready := [] })), live := x.live,
    stopping := x.stopping, stopped := x.stopped, colour := x.colour, qcnt := [], qmark := [], cycMark := y.cycle, moved := [],
    tokens := y.tokens ++ x.tokens,
    meters := AMap.upd ⟨0, false⟩ ctx (fun m => if sx.sat then ⟨meterMax, true⟩ else m.add sx.units) y.meters }
  let s := s.updTile src fun x => { x with
    conf := { TileConf.none with coord := x.coord, part := 0 }, mbox := Mailbox.init, mx := { MatrixUnit.init with lastOp := x.mx.lastOp }, slots := [], live := false, tokens := [],
    meters := AMap.put ⟨0, false⟩ ctx ⟨0, false⟩ x.meters, fwds := ⟨ctx, dst, x.cycle + 2 ^ 20⟩ :: x.fwds }
  let s : State := { s with landings := s.landings.map fun l =>
    { l with tile := rename src dst l.tile, copy := l.copy.map fun q => (onTile src dst q.1, q.2) } }
  (ks.foldl (fun s i => s.settle (4 * dst + i)) (s.updRegion r fun g => g.moved src dst x.coord c)).wakeAll
/-- Moves the whole context of a tile to a spare tile of the region (R380). -/
def State.migrate (s : State) (src dst : Nat) : State := s.moveContext src dst (s.tile dst).coord

/-- A tile that a substitution has taken out of its region leaves its packet counts there (R377, R379). -/
def State.leaveRegion (s : State) (r t : Nat) : State :=
  if (s.region r).tilesOf.contains t then s
  else
    let x := s.tile t
    let plus (a b : Nat × Nat) : Nat × Nat := (a.1 + b.1, a.2 + b.2)
    (s.updRegion r fun g => { g with portSent := plus g.portSent x.sent, portRecv := plus g.portRecv x.recv }).updTile t fun x =>
      { x with sent := (0, 0), recv := (0, 0) }
/-- The tile of a region that a changed substitution list gives a coordinate (R332, R335): it belongs to the region
from then on, and a context that the old tile holds for the coordinate moves to it. A Potting shed tile's context
never moves (R360). -/
def State.resettle (s : State) (r c : Nat) (old new : Option Nat) : State :=
  if old = new then s
  else
    let s := match new with
      | none => s
      | some d =>
        let s := if (s.tile d).rgn.isSome then s
          else s.updTile d fun x => { x with rgn := some r, coord := c, conf := { TileConf.none with coord := c } }
        match old with
        | some t => if (s.tile t).conf.actor.isSome && !inShed c && decide ((s.tile t).coord = c) then s.moveContext t d c else s
        | none => s
    match old with
    | some t => s.leaveRegion r t
    | none => s

end Sys2Proof.Machine
end

