-- ==== Sys2Proof/Machine/Csr.lean ====
section
/-! DEFINITION. The privileged registers (R10, R11, R303, R329 to R333, R343, R344, R356, R357, R376, R392,
R416, R417, R420): which exist, who may reach them, what they read as and what a write does. A Trellis request, a step
and a trace session take effect with the write; a freeze resolution is firmware's next act. -/

namespace Sys2Proof.Machine

open Sys2Proof

/-- Whose value a register is (R329, R392). -/
inductive Scope where
  | tile
  | cluster
  | field
  | region
  deriving DecidableEq, Repr

/-- What a level may do with a register (R10, R329). -/
inductive Acc where
  | no
  | ro
  | rw
  | wo
  deriving DecidableEq, Repr

/-- The register map: scope, supervisor access, device access. -/
def csrInfo (n : Nat) : Option (Scope × Acc × Acc) :=
  match n with
  | 0x000 | 0x001 | 0x00C => some (.region, .ro, .ro)
  | 0x002 | 0x004 | 0x008 | 0x009 => some (.region, .ro, .rw)
  | 0x003 => some (.tile, .ro, .ro)
  | 0x005 => some (.region, .rw, .rw)
  | 0x00D => some (.region, .no, .wo)
  | 0x040 | 0x041 | 0x042 | 0x044 | 0x046 => some (.region, .rw, .rw)
  | 0x043 | 0x045 | 0x04A | 0x04B => some (.region, .ro, .ro)
  | 0x047 | 0x048 | 0x049 => some (.region, .ro, .rw)
  | 0x100 | 0x106 | 0x107 => some (.region, .rw, .rw)
  | 0x101 | 0x102 | 0x103 | 0x104 | 0x105 => some (.region, .ro, .ro)
  | 0x108 => some (.region, .ro, .rw)
  | 0x109 => some (.tile, .ro, .ro)
  | 0x200 => some (.field, .ro, .rw)
  | 0x201 => some (.cluster, .ro, .rw)
  | 0x202 => some (.tile, .ro, .rw)
  | 0x203 => some (.tile, .rw, .rw)
  | 0x204 => some (.tile, .ro, .ro)
  | 0x205 => some (.cluster, .ro, .ro)
  | 0x206 | 0x209 => some (.field, .ro, .ro)
  | 0x207 => some (.field, .no, .rw)
  | 0x208 | 0x214 => some (.field, .ro, .rw)
  | 0x210 | 0x230 => some (.region, .ro, .rw)
  | 0x211 | 0x212 | 0x213 | 0x231 => some (.region, .ro, .ro)
  | 0x300 | 0x302 => some (.cluster, .rw, .rw)
  | 0x301 => some (.cluster, .ro, .ro)
  | 0x303 => some (.cluster, .wo, .wo)
  | 0x304 | 0x305 | 0x306 | 0x307 | 0x308 => some (.tile, .ro, .ro)
  | 0x310 | 0x311 | 0x312 | 0x314 => some (.region, .rw, .rw)
  | 0x313 | 0x315 | 0x322 => some (.region, .ro, .ro)
  | 0x318 => some (.tile, .rw, .rw)
  | 0x319 | 0x31A | 0x31B => some (.tile, .ro, .ro)
  | 0x320 | 0x321 => some (.region, .rw, .rw)
  | 0x330 | 0x331 | 0x332 | 0x334 => some (.region, .ro, .rw)
  | 0x333 | 0x335 => some (.region, .ro, .ro)
  | _ => if 0x220 ≤ n ∧ n ≤ 0x22F then some (.field, .ro, .rw) else none

/-- The access that a level has to a register; user level has none (R302). -/
def csrAcc (lvl : Level) (n : Nat) : Option Acc :=
  match csrInfo n, lvl with
  | none, _ => none
  | some (_, a, _), .supervisor => some a
  | some (_, _, a), .device => some a
  | some _, .user => some .no

/-- Whether a level may read a register; a write-only register reads as zero (R10). -/
def csrReadOk (lvl : Level) (n : Nat) : Bool := csrAcc lvl n ≠ some .no && (csrAcc lvl n).isSome
/-- Whether a level may write a register (R329): a supervisor's write to a register marked RO for supervisors
is denied, a device's write to one marked RO is ignored (R10). -/
def csrWriteOk (lvl : Level) (n : Nat) : Bool :=
  csrAcc lvl n = some .rw || csrAcc lvl n = some .wo || (lvl == .device && csrAcc lvl n = some .ro)
/-- Whether a write of a level takes effect (R10). -/
def csrWrites (lvl : Level) (n : Nat) : Bool := csrAcc lvl n = some .rw || csrAcc lvl n = some .wo

/-- Thread sets of a region stopped by a fault (FLTOPEN, R376). -/
def State.openFaults (s : State) (r : Nat) : Nat :=
  ((s.region r).tilesOf.flatMap fun t => (List.range 4).map fun i => 4 * t + i).countP fun k => (s.ts k).stops.fault.isSome

/-- Halted tiles of a cluster by sibling index (R416). -/
def State.haltedMask (s : State) (c : Nat) : Nat := if (s.cluster c).halted then 0xFFFF else 0

/-- The limit entry of a tile at its cluster's ratio (R22, R390): 15 for a tile that is not marginal. -/
def State.limitOf (s : State) (t : Nat) : Nat :=
  match AMap.find t s.map.limits with
  | none => 15
  | some (low, mid, high) => match field (csrOf (s.cluster (clusterOf t)).csr 0x201) 0 2 with | 0 => low | 1 => mid | _ => high
/-- CAP of a tile (R392). -/
def State.capOf (s : State) (t : Nat) : Nat := (s.tile t).cap.getD s.links.cap
/-- The frequency entry that firmware has requested for a tile (R391): what its FIDX was last written with. -/
def Tile.wanted (x : Tile) : Nat := field (csrOf x.csr 0x202) 0 4
/-- The voltage ratio of a cluster (R389). -/
def Cluster.ratio (c : Cluster) : Nat := field (csrOf c.csr 0x201) 0 2
/-- The voltage ratio that a tile runs at. -/
def State.ratioOf (s : State) (t : Nat) : Nat := (s.cluster (clusterOf t)).ratio
/-- Entry i of a tile's frequency table for a ratio, in MHz: the table ascends (R390). -/
def frequencyAt (t ratio i : Nat) : Nat := (List.range (i + 1)).foldl (fun n j => n + Config.frequencyStep t ratio j) 0
/-- The entry that a tile is to run at: the lowest of the entry requested, the limit and the cap (R390, R391). -/
def State.entryDue (s : State) (t : Nat) : Nat := min (s.tile t).wanted (min (s.limitOf t) (s.capOf t))
/-- The lowest rail code that an entry of a tile needs at its cluster's ratio and temperature (R390, R393). -/
def State.codeFor (s : State) (t e : Nat) : Nat :=
  Config.entryCode t (s.ratioOf t) e (field (csrOf (s.cluster (clusterOf t)).csr 0x205) 0 16)
/-- The code up to which a field's rail holds entries (R390): where it is, or where it goes when that is lower, so that an entry
that needs more is lowered before the rail is; undervolting, which UVOFF counts, lowers none. -/
def Field.holds (f : Field) : Nat :=
  let w := csrOf f.csr 0x200
  min (field w 0 6) (f.moving.getD (field w 0 6)) + field w 16 6
/-- The current entry of a tile (R390, R391): it is lowered at once, and raised no further than the rail holds or the last change
of ratio has given. -/
def State.entryOf (s : State) (t : Nat) : Nat :=
  let f := s.fieldRec (fieldOf t)
  ((List.range (s.entryDue t + 1)).reverse.find? fun e => decide (s.codeFor t e ≤ f.holds) || decide (e ≤ (s.tile t).entry)).getD 0
/-- A tile whose request or CAP has changed runs no faster than it is to (R390). -/
def State.trim (s : State) (t : Nat) : State := s.updTile t fun x => { x with entry := min x.entry (s.entryDue t) }
/-- Field of a cluster number. -/
def fieldOfCluster (c : Nat) : Nat := if c < 32400 then fieldNum (c % 180 / 18) (c / 180 / 18) else c - 32400
/-- The tiles of a field: those of its clusters, and its manager core (R18, R326). -/
def fieldTiles (f : Nat) : List Nat := (((List.range 32400).filter fun c => fieldOfCluster c == f) ++ [32400 + f]).flatMap clusterTiles
/-- SAFE of a field (R393): the lowest code that holds the entry that each of its tiles is to run at. -/
def State.safeCode (s : State) (f : Nat) : Nat :=
  min 50 ((fieldTiles f).foldl (fun n t => max n (s.codeFor t (s.entryDue t))) 0)
/-- The clusters at the high ratio in a field, ascending. -/
def State.boosts (s : State) (f : Nat) : List Nat := (s.clusters.filter fun p => fieldOfCluster p.1 == f && p.2.ratio == 2).map Prod.fst
/-- UVOFF as it may stand with a UVCFG and a SAFE: 0 unless undervolting is on, and SAFE − UVOFF not below UVFLOOR (R392,
R393). -/
def uvoffFor (uvcfg : Word) (safe uvoff : Nat) : Nat :=
  if bitAt uvcfg 0 && !bitAt uvcfg 1 then min uvoff (safe - field uvcfg 8 6) else 0

/-- The value that a register of a tile reads as (R329, R356, R376, R392, R416). -/
def State.csrValue (s : State) (t n : Nat) : Word :=
  let x := s.tile t
  let r := s.rgnOf t
  let g := s.region r
  let f := s.fieldRec (fieldOf t)
  let c := s.cluster (clusterOf t)
  match n with
  | 0x000 => word g.ctx
  | 0x001 => word (r % 256)
  | 0x002 => g.geom
  | 0x003 => word (at_ 0 10 (tileX t) + at_ 10 10 (tileY t) + at_ 20 7 (fieldOf t) + at_ 27 1 (AMap.find t s.map.limits).isSome.toNat)
  | 0x009 => AMap.get 0 (field (csrOf g.csr 0x008) 6 8 * 64 + field (csrOf g.csr 0x008) 0 6) g.subst
  | 0x00C => match g.freezes with | z :: _ => z.word | [] => 0
  | 0x00D => 0
  | 0x045 =>
    let y := g.stage (field (csrOf g.csr 0x044) 0 6)
    if (AMap.find (field (csrOf g.csr 0x044) 0 6) g.stages).isNone then 0
    else word (at_ 0 13 y.minR + at_ 16 13 y.maxR + at_ 32 13 y.replicas.length + at_ 48 8 y.occ + at_ 56 2 y.cls)
  | 0x04B => word (at_ 0 16 g.seqPos)
  | 0x100 => setField (csrOf g.csr 0x100) 16 1 g.shedDef.toNat
  | 0x101 => word (at_ 0 16 g.serial)
  | 0x102 => word (at_ 0 32 (s.openFaults r) + at_ 32 32 g.reports)
  | 0x103 => word (at_ 0 2 g.cut.phase + at_ 2 1 g.colour.toNat)
  | 0x104 => word (at_ 0 48 (if g.cut.phase = 1 then (s.colourSums r g.colour).1 else g.cut.sent))
  | 0x105 => word (at_ 0 48 (if g.cut.phase = 1 then (s.colourSums r g.colour).2 else g.cut.recv))
  | 0x109 => word (at_ 0 16 x.fwds.length)
  | 0x202 => word (at_ 0 4 (s.entryOf t) + at_ 4 4 (s.limitOf t) + at_ 8 4 (s.capOf t))
  | 0x204 => word (at_ 0 12 (frequencyAt t (field (csrOf x.csr 0x203) 4 2) (field (csrOf x.csr 0x203) 0 4)))
  | 0x205 => setField (csrOf c.csr 0x205) 16 1 f.gated.toNat
  | 0x208 => setField (csrOf f.csr 0x208) 16 9 (s.boosts (fieldOf t)).length
  | 0x209 => setField (csrOf f.csr 0x209) 0 1 f.gated.toNat
  | 0x22E | 0x22F => 0
  | 0x301 => word (at_ 0 16 (s.haltedMask (clusterOf t)) + at_ 16 3 c.reason + at_ 19 8 c.code)
  | 0x303 => 0
  | 0x319 => word (at_ 0 48 (AMap.get (0, 0, 0) (field (csrOf x.csr 0x318) 0 12) x.qcnt).1)
  | 0x31A => word (at_ 0 48 (AMap.get (0, 0, 0) (field (csrOf x.csr 0x318) 0 12) x.qcnt).2.1)
  | 0x31B => word (at_ 0 48 (AMap.get (0, 0, 0) (field (csrOf x.csr 0x318) 0 12) x.qcnt).2.2)
  | _ => match csrInfo n with
    | some (.tile, _) => csrOf x.csr n
    | some (.cluster, _) => csrOf c.csr n
    | some (.field, _) => csrOf f.csr n
    | some (.region, _) => csrOf g.csr n
    | none => 0

/-- Whether an address is a completion-word address of R67. -/
def cmplOk (a : Word) : Bool :=
  decide (field a 0 3 = 0) && (decide (space a = 3) && decide (field a 57 3 = 0) || decide (space a = 8) && decide (field a 52 8 = 0))

/-- Whether a substitute is a usable tile: present, not dead, in no resident region and named by no other
valid entry (R332). -/
def State.substOk (s : State) (r ix : Nat) (e : Word) : Bool :=
  let t := tileAt (field e 20 10) (field e 30 10)
  tilePresent (field e 20 10) (field e 30 10) &&
    !s.map.dead.contains t && s.regions.all (fun p => !(p.2.coords.any fun c => p.2.physOf c == t)) &&
    s.regions.all fun p => p.2.subst.all fun q => !(bitAt q.2 63) || (p.1 == r && q.1 == ix) || field q.2 61 2 == 2 ||
      tileAt (field q.2 20 10) (field q.2 30 10) != t

/-- Whether a SUBDATA write is legal (R333). -/
def State.subdataOk (s : State) (r : Nat) (e : Word) : Bool :=
  let g := s.region r
  let ix := field (csrOf g.csr 0x008) 6 8 * 64 + field (csrOf g.csr 0x008) 0 6
  decide (field (csrOf g.csr 0x008) 6 8 < g.ch) && decide (field e 61 2 ≠ 3) && decide (field e 40 21 = 0) &&
    (!bitAt e 63 ||
      ((g.subst.all fun p => p.1 == ix || !bitAt p.2 63 || field p.2 0 20 != field e 0 20) &&
        (decide (field e 61 2 = 2) || s.substOk r ix e)))

/-- The writable bits of a register kept as a plain value. -/
def csrMask (n : Nat) : Nat :=
  match n with
  | 0x004 => 2 ^ 46 - 2 ^ 12 + 1
  | 0x005 => 2 ^ 32 - 1
  | 0x008 => 2 ^ 14 - 1
  | 0x040 => 2 ^ 25 - 1
  | 0x041 => 2 ^ 16 - 1
  | 0x042 => 2 ^ 12 - 1
  | 0x044 => 2 ^ 6 - 1
  | 0x046 => 2 ^ 48 - 1
  | 0x047 => 7
  | 0x100 => 2 ^ 12 - 1
  | 0x106 => 0x13FFF
  | 0x107 => 2 ^ 16 - 1
  | 0x203 => 0x3F
  | 0x210 => 0x3FFF
  | 0x214 => 2 ^ 32 - 1
  | 0x230 => 0x1FFFF3F
  | 0x302 => 0xFF
  | 0x310 => 0xFFFF00F1
  | 0x312 => 0x1F
  | 0x314 | 0x334 => 2 ^ 32 - 1
  | 0x318 => 2 ^ 12 - 1
  | 0x320 => 2 ^ 32 - 1
  | 0x330 => 3
  | 0x332 => 0x1F
  | _ => if 0x220 ≤ n ∧ n ≤ 0x22D then 0xFFFF else 2 ^ 64 - 1

/-- Whether a value may be written: outside its fields' ranges the write changes nothing and raises the
CSR fault (R333, R356, R357, R376, R392, R416). The level is the writer's. -/
def State.csrValueOk (s : State) (lvl : Level) (t n : Nat) (v : Word) : Bool :=
  let r := s.rgnOf t
  let f := s.fieldRec (fieldOf t)
  match n with
  | 0x002 => decide (2 ≤ field v 16 8 ∧ field v 16 8 ≤ 180) && decide (2 ≤ field v 24 8 ∧ field v 24 8 ≤ 180)
  | 0x009 => s.subdataOk r v
  | 0x040 => decide (10 ≤ field v 0 24 ∧ field v 0 24 ≤ 10000)
  | 0x044 => decide (lvl ≠ .supervisor ∨ field v 6 58 = 0)
  | 0x049 => cmplOk v
  | 0x106 => decide (1 ≤ field v 0 14 ∧ field v 0 14 ≤ 10000)
  | 0x107 => decide (1 ≤ field v 0 16 ∧ field v 0 16 ≤ 1000)
  | 0x108 | 0x311 | 0x331 => decide (field v 0 12 = 0)
  | 0x200 => decide (field v 0 6 ≤ 50) && decide (field v 8 6 ≤ 50) && decide (field v 16 6 + field (csrOf f.csr 0x207) 8 6 ≤ field v 8 6 ∨ field v 16 6 = 0)
  | 0x201 => decide (field v 0 2 ≠ 3)
  | 0x203 => decide (field v 4 2 ≠ 3)
  | 0x207 => decide (field v 8 6 ≤ 50)
  | 0x208 => decide (field v 0 9 ≤ 324)
  | 0x210 => decide (field v 0 14 ≤ 10000)
  | 0x230 => decide (4 ≤ field v 0 6)
  | 0x312 => decide (7 ≤ field v 0 5 ∧ field v 0 5 ≤ 26)
  | 0x321 => decide (field v 0 6 = 0)
  | 0x332 => decide (10 ≤ field v 0 5 ∧ field v 0 5 ≤ 30)
  | _ => true

/-- Starts a privileged event: it is the next to come about. -/
def State.push (s : State) (i : Trigger) : State := { s with started := s.started ++ [i] }

/-- Stores a plain value in the scope's map. -/
def State.csrStore (s : State) (t n : Nat) (v : Word) : State :=
  match csrInfo n with
  | some (.tile, _) => s.updTile t fun x => { x with csr := csrPut x.csr n v }
  | some (.cluster, _) => s.updCluster (clusterOf t) fun c => { c with csr := csrPut c.csr n v }
  | some (.field, _) => s.updField (fieldOf t) fun f => { f with csr := csrPut f.csr n v }
  | some (.region, _) => s.updRegion (s.rgnOf t) fun g => { g with csr := csrPut g.csr n v }
  | none => s

/-- Before firmware lowers a rail it has lowered every entry that needs the higher code (R390). -/
def State.untrimmed (s : State) (f code : Nat) : State :=
  if field (csrOf (s.fieldRec f).csr 0x200) 0 6 ≤ code then s
  else ((s.tiles.map Prod.fst).filter fun t => fieldOf t == f).foldl (fun s t => s.updTile t fun x => { x with entry := 0 }) s
/-- Requests a frequency entry for a tile (R391). -/
def State.setEntry (s : State) (t want : Nat) : State :=
  (s.updTile t fun x => { x with csr := csrPut x.csr 0x202 (setField (csrOf x.csr 0x202) 0 4 want) }).trim t
/-- Changes a cluster's ratio (R391): clocks gated, converter switched, each tile's entry set to the lowest of request, limit and
CAP, clocks released; a power record is written (R421). A field never has more than BOOSTMAX clusters at the high ratio (R396): a change
that would give it one more does not come about (assumption 105). -/
def State.setRatio (s : State) (c code : Nat) : State :=
  if code = 2 ∧ (s.cluster c).ratio ≠ 2 ∧ field (csrOf (s.fieldRec (fieldOfCluster c)).csr 0x208) 0 9 ≤ (s.boosts (fieldOfCluster c)).length then s
  else
  let s := s.updCluster c fun k => { k with csr := csrPut k.csr 0x201 (setField (csrOf k.csr 0x201) 0 3 (code % 4 + 4 * (if code = 2 then 1 else 0))) }
  let s := (clusterTiles c).foldl (fun s t => s.updTile t fun x => { x with entry := s.entryDue t }) s
  match (clusterTiles c).head? with
  | some t => s.traceFw (s.rgnOf t) 6 0 1 code (fieldOf t)
  | none => s

/-- SUBDATA_WRITE (R332, R333, R335): the entry that SUBIDX selects reaches every router of the region; the context of a
coordinate whose tile it changes moves to the new tile, behind a forwarding entry. DESIGN CHOICE (assumption 132): a write that
would move a context from or to a tile of a halted cluster, whose bytes stay as they are (R413), has no effect. -/
def State.subdataWrite (s : State) (r : Nat) (v : Word) : State :=
  if s.subdataOk r v then
    let g := s.region r
    let before := s
    let n := field (csrOf g.csr 0x008) 6 8 * 64 + field (csrOf g.csr 0x008) 0 6
    let old := AMap.get 0 n g.subst
    let s := s.updRegion r fun g => { g with subst := AMap.put 0 n (word (v.toNat - field v 40 21 * 2 ^ 40)) g.subst }
    let cs := [packXY (field v 0 10) (field v 10 10)] ++ (if bitAt old 63 then [packXY (field old 0 10) (field old 10 10)] else [])
    let stuck (c : Nat) : Bool := match g.tileAt? c, (s.region r).tileAt? c with
      | some t, some d => decide (t ≠ d) && (s.tile t).conf.actor.isSome && (s.shut t || s.shut d)
      | _, _ => false
    if cs.any stuck then before
    else cs.eraseDups.foldl (fun s c => s.resettle r c (g.tileAt? c) ((s.region r).tileAt? c)) s
  else s
/-! ## What a register write starts (R411 to R419, R425) -/

/-- The thread sets of a cluster. -/
def clusterTss (c : Nat) : List Nat := (clusterTiles c).flatMap fun t => (List.range 4).map fun i => 4 * t + i
/-- The clusters of a cross-trigger group (R411). -/
def State.haltGroup (s : State) (c : Nat) : List Nat :=
  let g := field (csrOf (s.cluster c).csr 0x302) 0 8
  if g = 0 then [] else (s.clusters.filter fun p => p.1 ≠ c && clusterOk p.1 && field (csrOf p.2.csr 0x302) 0 8 == g).map Prod.fst

/-- A Trellis halt starts (R411): dispatch stops, each block in flight is discarded (R98), and with XTOUT the
group is triggered. A cluster halted already ignores it. -/
def State.trlHalt (s : State) (c reason : Nat) : State :=
  if (s.cluster c).halted ∨ (s.cluster c).halting.isSome then s
  else
    let s := s.updCluster c fun k => { k with halting := some reason }
    let s := (clusterTss c).foldl (fun s k =>
      ((s.discard k).dropGroups k).updTs k fun a => { a with stops := { a.stops with trellis := true } }) s
    if bitAt (csrOf (s.cluster c).csr 0x300) 2 then (s.haltGroup c).foldl (fun s d => s.push (.crossTrigger d)) s else s

/-- TRLCTL_RESUME (R413, R414): the tiles run again, held traffic passes, recorded faults and repairs act. -/
def State.trlResume (s : State) (c : Nat) : State :=
  if (s.cluster c).halted then
    let s := s.updCluster c fun k => { k with halted := false, letIn := false, step := none, stepped := false, reason := 0 }
    ((clusterTss c).foldl (fun s k =>
      let s := s.updTs k fun a => { a with stops := { a.stops with trellis := false } }
      s.settle k) s).wakeAll
  else s
/-- The thread set that a STEPCTL word names. -/
def stepTs (c : Nat) (v : Word) : Nat := 4 * (clusterTiles c).getD (field v 0 4) 0 + field v 4 2
/-- STEP_GO (R418): the named thread set alone is released, unless it is stopped by a fault, frozen, or a step
is draining. -/
def State.stepGo (s : State) (c : Nat) (v : Word) : State :=
  let k := stepTs c v
  let t := s.ts k
  if !(s.cluster c).halted ∨ (s.cluster c).step.isSome ∨ t.stops.fault.isSome ∨ t.stops.frozen.isSome then s
  else
    (s.updCluster c fun x => { x with step := some k, stepped := false, mark := (t.eng.copyIds, t.eng.issued, t.eng.post), lands := [] }).updTs k
      fun a => { a with stops := { a.stops with trellis := false }, roundDone := false }
/-- TRACE_SESSION_OPEN (R419, R420): firmware sets TRHEAD and TRTAIL to 0 and hardware records from now on. -/
def State.traceOpen (s : State) (r : Nat) (v : Word) : State :=
  if bitAt (csrOf (s.region r).csr 0x310) 0 then s
  else s.updRegion r fun g => { g with
    csr := csrPut (csrPut (csrPut (csrPut g.csr 0x313 0) 0x314 0) 0x315 0) 0x310 (word ((v.toNat &&& csrMask 0x310) ||| 1)) }
/-- GO of RTCTL (R425): the Root tracer starts and BUSY rises; while BUSY is 1 it changes nothing. -/
def State.rootStart (s : State) (r : Nat) (v : Word) : State :=
  if (s.region r).walkAt.isSome then s
  else s.updRegion r fun g => { g with walkAt := some v, csr := csrPut g.csr 0x322 (setField (csrOf g.csr 0x322) 0 1 1) }

/-- A write of a legal value (R10, R11): reserved and read-only bits are ignored. -/
def State.csrWrite (s : State) (t n : Nat) (v : Word) : State :=
  let r := s.rgnOf t
  let g := s.region r
  match n with
  | 0x002 => s.updRegion r fun g => { g with geom := word (field v 0 32) }
  | 0x009 => s.subdataWrite r v
  | 0x00D =>
    if field v 16 2 = 0 then s.push (.frzConvert r (field v 0 16))
    else if field v 16 2 = 1 then s.push (.frzKill r (field v 0 16)) else s
  | 0x200 =>
    (s.untrimmed (fieldOf t) (field v 0 6)).updField (fieldOf t) fun f =>
      { f with moving := some (field v 0 6),
               csr := csrPut f.csr 0x200 (setField (setField (csrOf f.csr 0x200) 8 6 (field v 8 6)) 16 6
                 (uvoffFor (csrOf f.csr 0x207) (field v 8 6) (field v 16 6))) }
  | 0x201 => s.setRatio (clusterOf t) (field v 0 2)
  | 0x202 => s.setEntry t (field v 0 4)
  | 0x207 =>
    s.updField (fieldOf t) fun f =>
      let old := csrOf f.csr 0x207
      let dis := bitAt old 1 && !bitAt v 1
      let u := word (at_ 0 1 (field v 0 1) + at_ 1 1 dis.toNat + at_ 8 6 (field v 8 6) + at_ 16 16 (field v 16 16))
      let w := csrOf f.csr 0x200
      let off := uvoffFor u (field w 8 6) (field w 16 6)
      { f with csr := csrPut (csrPut f.csr 0x207 u) 0x200 (setField w 16 6 off), errs := if f.counting then f.errs else 0,
               moving := if off = field w 16 6 then f.moving else some (field w 8 6 - off) }
  | 0x208 =>
    let s := s.updField (fieldOf t) fun f => { f with csr := csrPut f.csr 0x208 (setField (csrOf f.csr 0x208) 0 9 (field v 0 9)) }
    ((s.boosts (fieldOf t)).drop (field v 0 9)).foldl (fun s c => s.setRatio c 1) s
  | 0x22E | 0x22F => s
  | 0x300 =>
    if bitAt v 0 && bitAt v 1 then s
    else
      let s := s.csrStore t n (word (at_ 2 2 (field v 2 2)))
      if !clusterOk (clusterOf t) then s
      else if bitAt v 0 then s.trlHalt (clusterOf t) 1
      else if bitAt v 1 then s.trlResume (clusterOf t) else s
  | 0x303 => if bitAt v 6 && clusterOk (clusterOf t) then s.stepGo (clusterOf t) v else s
  | 0x310 =>
    let old := csrOf g.csr 0x310
    if bitAt v 0 && !bitAt old 0 then s.traceOpen r v
    else if bitAt old 0 && !bitAt v 0 then
      (s.csrStore t n (word ((v.toNat &&& csrMask n) + 1))).endTrace r 0
    else s.csrStore t n (word (v.toNat &&& csrMask n))
  | 0x311 | 0x312 => if bitAt (csrOf g.csr 0x310) 0 then s else s.csrStore t n (word (v.toNat &&& csrMask n))
  | 0x320 =>
    if bitAt v 32 && g.walkAt.isSome then s
    else
    let s := s.csrStore t n (word (v.toNat &&& csrMask n))
    if bitAt v 32 then s.rootStart r v else s
  | 0x330 => if g.st = .running then s else s.csrStore t n (word (v.toNat &&& csrMask n))
  | _ => s.csrStore t n (word (v.toNat &&& csrMask n))

/-- CSR_WRITE (R10, R303): firmware writes a register of a tile. A write of a register that is RO is ignored; an
out-of-range value changes nothing. -/
def execCsrWrite (tile num : Nat) (val : Word) (s : State) : Res :=
  whenEnabled "CSR_WRITE" ((csrInfo num).isSome && isTile tile)
    (if csrWrites .device num && s.csrValueOk .device tile num val then s.csrWrite tile num val else s)

/-- SUBDATA_WRITE. -/
def execSubdataWrite (rgn : Nat) (val : Word) (s : State) : Res :=
  whenEnabled "SUBDATA_WRITE" (s.hasRegion rgn) (s.subdataWrite rgn val)

end Sys2Proof.Machine
end

