-- ==== Sys2Proof/WellFormed.lean ====
section
/-! DEFINITION. Which operands of an instruction have an encoding (R197 to R206). Every event is well
formed: its operands are numbers that the state decides about. -/

namespace Sys2Proof

/-- Whether the operands of an instruction fit its encoding: an ox register is 0 to 3 (R225, R226), a
scale of LEA 0 to 6 (R230), an ordering of an AMO relaxed, acquire or release (R274). The other operands
fit by their types. -/
def Instr.wellFormed : Instr → Bool
  | .setx _ n _ _ => decide (n.toNat < 4)
  | .getx _ n _ _ => decide (n.toNat < 4)
  | .lea _ sc _ => decide (sc ≠ 7)
  | .amoAadd _ _ _ o _ => decide (o ≠ 3)
  | .amoAand _ _ _ o _ => decide (o ≠ 3)
  | .amoAor _ _ _ o _ => decide (o ≠ 3)
  | .amoAxor _ _ _ o _ => decide (o ≠ 3)
  | .amoAmin _ _ _ o _ => decide (o ≠ 3)
  | .amoAmax _ _ _ o _ => decide (o ≠ 3)
  | .amoAminn _ _ _ o _ => decide (o ≠ 3)
  | .amoAmaxn _ _ _ o _ => decide (o ≠ 3)
  | .amoAxchg _ _ _ o _ => decide (o ≠ 3)
  | .amoAcas _ _ _ o _ => decide (o ≠ 3)
  | _ => true

end Sys2Proof
end

