-- ==== Sys2Proof/Decode.lean ====
section
/-! DEFINITION. From bits to instructions (R192 to R206): the decoder of a slot, total and rejecting by
name, and the encoder of a well-formed instruction. -/

namespace Sys2Proof

/-- Why a slot or half holds no instruction (R205). -/
inductive Reject where
  /-- Major 0x00 or a reserved major. -/
  | major
  /-- A minor that R204 does not list. -/
  | minor
  /-- PR = 11. -/
  | predicate
  /-- A reserved bit or a reserved subfield value. -/
  | reserved
  /-- CLS = 11, or an ox register above 3. -/
  | register
  /-- A target field that must be 0x3FF, or 0x000 of a WRITE, and is not. -/
  | target
  /-- A lower half with bit 15 = 0 (R193). -/
  | lowerHalf
  /-- COP 15. -/
  | cop
  /-- A width that is neither a slot nor a half. -/
  | width
  deriving DecidableEq, Repr

/-- What decoding gives. -/
abbrev Dec := Except Reject Instr

/-! ## Fields of a slot -/

/-- `len` bits of a slot from bit `lo`. -/
def bits (w lo len : Nat) : Nat := w / 2 ^ lo % 2 ^ len
/-- A field as a bit vector. -/
def bv (w lo len : Nat) : BitVec len := BitVec.ofNat len (w / 2 ^ lo)
/-- One bit of a slot. -/
def bit (w n : Nat) : Bool := decide (bits w n 1 = 1)
/-- A target field (R194). -/
def tgt (w lo : Nat) : Target := bv w lo 10
/-- The predication, with which the rest of a T2, TI, TM or TB instruction is read (R195). -/
def withPr (w : Nat) (f : Pr → Dec) : Dec :=
  match bits w 22 2 with
  | 0 => f .always
  | 1 => f .onTrue
  | 2 => f .onFalse
  | _ => .error .predicate
/-- Passes when a reserved field is zero. -/
def zero (ok : Nat) (r : Dec) : Dec := if ok = 0 then r else .error .reserved
/-- Passes when the target field at the bottom of a slot says no target. -/
def noTarget (w : Nat) (r : Dec) : Dec := if bits w 0 10 = 1023 then r else .error .target

/-! ## Formats (R196 to R200) -/

/-- Format T2. -/
def t2 (w : Nat) (f : Pr → Bool → Target → Target → Instr) : Dec :=
  withPr w fun p => zero (bits w 20 1) (.ok (f p (bit w 21) (tgt w 10) (tgt w 0)))
/-- Format TI with a 12-bit immediate. -/
def ti (w : Nat) (f : Pr → BitVec 12 → Target → Instr) : Dec :=
  withPr w fun p => .ok (f p (bv w 0 12) (tgt w 12))
/-- Format TI with POS and a width (R230). -/
def tiPW (w : Nat) (f : Pr → BitVec 6 → BitVec 6 → Target → Instr) : Dec :=
  withPr w fun p => .ok (f p (bv w 6 6) (bv w 0 6) (tgt w 12))
/-- Format TI with a lane (R258). -/
def tiK (w : Nat) (f : Pr → BitVec 3 → Target → Instr) : Dec :=
  withPr w fun p => zero (bits w 3 9) (.ok (f p (bv w 0 3) (tgt w 12)))
/-- Format TI without a target (R238). -/
def tiX (w : Nat) (f : Pr → BitVec 12 → Instr) : Dec :=
  withPr w fun p => if bits w 12 10 = 1023 then .ok (f p (bv w 0 12)) else .error .target
/-- Format TM with FIELD8 zero. -/
def tmZ (w : Nat) (f : Pr → Target → Instr) : Dec :=
  withPr w fun p => zero (bits w 10 8) (.ok (f p (tgt w 0)))
/-- Format TM with FIELD8 zero and no target. -/
def tmX (w : Nat) (f : Pr → Instr) : Dec :=
  withPr w fun p => zero (bits w 10 8) (noTarget w (.ok (f p)))
/-- Format TM with n low bits of FIELD8 in use. -/
def tmN (n : Nat) (w : Nat) (f : Pr → BitVec n → Target → Instr) : Dec :=
  withPr w fun p => zero (bits w (10 + n) (8 - n)) (.ok (f p (bv w 10 n) (tgt w 0)))
/-- Format TM with bit 0 of FIELD8 in use (R281). -/
def tmB (w : Nat) (f : Pr → Bool → Target → Instr) : Dec :=
  withPr w fun p => zero (bits w 11 7) (.ok (f p (bit w 10) (tgt w 0)))
/-- Format TM with FIELD8 1 in place of zero: the V, RG or W bit of R302. -/
def tmF (w : Nat) (f0 f1 : Pr → Target → Instr) : Dec :=
  withPr w fun p => zero (bits w 11 7) (.ok ((if bit w 10 then f1 else f0) p (tgt w 0)))
/-- Format TM with an LSID and F zero. -/
def tmL (w : Nat) (f : Pr → BitVec 5 → Target → Instr) : Dec :=
  withPr w fun p => zero (bits w 10 3) (.ok (f p (bv w 13 5) (tgt w 0)))
/-- An AMO (R274). -/
def tmAmo (w : Nat) (f : Pr → BitVec 5 → Bool → BitVec 2 → Target → Instr) : Dec :=
  withPr w fun p =>
    if bits w 10 2 = 3 then .error .reserved
    else .ok (f p (bv w 13 5) (bit w 12) (bv w 10 2) (tgt w 0))
/-- An FCVT (R253). -/
def tmCvt (w : Nat) (f : Pr → Bool → BitVec 2 → Target → Instr) : Dec :=
  withPr w fun p => zero (bits w 13 5) (.ok (f p (bit w 12) (bv w 10 2) (tgt w 0)))
/-- A matrix record with D and ACC (R290, R292). -/
def tmAcc (w : Nat) (f : Pr → Bool → BitVec 4 → Target → Instr) : Dec :=
  withPr w fun p => zero (bits w 15 3) (.ok (f p (bit w 14) (bv w 10 4) (tgt w 0)))
/-- Format TB (R200). -/
def tb (w : Nat) : Dec :=
  withPr w fun p =>
    match bits w 20 2 with
    | 0 => .ok (.br p (bv w 0 20))
    | 1 => .ok (.call p (bv w 0 20))
    | _ => .error .reserved
/-- The register of format TR (R199). -/
def trReg (w : Nat) : Option Reg :=
  match bits w 22 2 with
  | 0 => some (.s (bv w 17 5))
  | 1 => some (.v (bv w 17 5))
  | 2 => if bits w 17 5 < 4 then some (.ox (bv w 17 2)) else none
  | _ => none
/-- Format TR (R199). -/
def tr (w : Nat) (f : Reg → Dec) : Dec :=
  match trReg w with
  | some r => zero (bits w 10 7) (f r)
  | none => .error .register
/-- SETX (R225). -/
def decSetx (w : Nat) : Dec :=
  withPr w fun p => zero (bits w 16 2)
    (if bits w 18 4 < 4 then .ok (.setx p (bv w 18 4) (bv w 10 6) (tgt w 0)) else .error .minor)
/-- GETX (R226). -/
def decGetx (w : Nat) : Dec :=
  withPr w fun p => zero (bits w 16 1)
    (if bit w 17 then
      if bits w 18 4 = 0 ∧ bits w 10 6 = 0 then .ok (.getxBlr p (tgt w 0)) else .error .reserved
    else if bits w 18 4 < 4 then .ok (.getx p (bv w 18 4) (bv w 10 6) (tgt w 0)) else .error .minor)
/-- STATW (R228). -/
def decStatw (w : Nat) : Dec :=
  withPr w fun p => zero (bits w 10 2)
    (noTarget w (.ok (.statw p (bit w 17) (bit w 16) (bit w 15) (bv w 13 2) (bit w 12))))
/-- LEA (R230, R235). -/
def decLea (w : Nat) : Dec :=
  withPr w fun p => zero (bits w 13 5)
    (if bits w 10 3 = 7 then .error .reserved else .ok (.lea p (bv w 10 3) (tgt w 0)))

/-! ## The major opcode map (R204) -/

/-- The minors of major 0x0B (R204). -/
def decStat (w : Nat) : Dec :=
  match bits w 18 4 with
  | 0 => tmZ w .statCoord
  | 1 => tmZ w .statTsid
  | 2 => tmZ w .statStage
  | 3 => tmZ w .statSeq
  | 4 => tmZ w .statCycle
  | 5 => tmZ w .statTlcce
  | 6 => tmZ w .statTlcme
  | 7 => tmZ w .statFlags
  | 8 => tmZ w .statMexc
  | 9 => tmZ w .statEnergy
  | _ => .error .minor
/-- The minors of major 0x13 (R204). -/
def decMul (w : Nat) : Dec :=
  match bits w 18 4 with
  | 0 => tmZ w .mulLo
  | 1 => tmZ w .mulHi
  | 2 => tmZ w .mulHiu
  | _ => .error .minor
/-- The minors of major 0x14 (R204). -/
def decDiv (w : Nat) : Dec :=
  match bits w 18 4 with
  | 0 => tmZ w .div
  | 1 => tmZ w .divu
  | 2 => tmZ w .rem
  | 3 => tmZ w .remu
  | _ => .error .minor
/-- The minors of major 0x1B (R204). -/
def decShift (w : Nat) : Dec :=
  match bits w 18 4 with
  | 0 => tmZ w .shl
  | 1 => tmZ w .shr
  | 2 => tmZ w .sar
  | 3 => tmZ w .rot
  | _ => .error .minor
/-- The minors of major 0x1C (R204). -/
def decShifti (w : Nat) : Dec :=
  match bits w 18 4 with
  | 0 => tmN 6 w .shli
  | 1 => tmN 6 w .shri
  | 2 => tmN 6 w .sari
  | 3 => tmN 6 w .roti
  | _ => .error .minor
/-- The minors of major 0x1D (R204). -/
def decBits (w : Nat) : Dec :=
  match bits w 18 4 with
  | 0 => tmZ w .clz
  | 1 => tmZ w .ctz
  | 2 => tmZ w .popc
  | 3 => tmZ w .brev
  | 4 => tmZ w .bswap
  | _ => .error .minor
/-- The minors of major 0x1E (R204). -/
def decMinmax (w : Nat) : Dec :=
  match bits w 18 4 with
  | 0 => tmZ w .min
  | 1 => tmZ w .max
  | 2 => tmZ w .minu
  | 3 => tmZ w .maxu
  | _ => .error .minor
/-- The minors of major 0x1F (R204). -/
def decCmp (w : Nat) : Dec :=
  match bits w 18 4 with
  | 0 => tmZ w .cmpeq
  | 1 => tmZ w .cmpne
  | 2 => tmZ w .cmplt
  | 3 => tmZ w .cmple
  | 4 => tmZ w .cmpltu
  | 5 => tmZ w .cmpleu
  | _ => .error .minor
/-- The minors of major 0x23 (R204). -/
def decExt (w : Nat) : Dec :=
  match bits w 18 4 with
  | 0 => tmZ w .sextb
  | 1 => tmZ w .sexth
  | 2 => tmZ w .sextw
  | 4 => tmZ w .zextb
  | 5 => tmZ w .zexth
  | 6 => tmZ w .zextw
  | _ => .error .minor
/-- The minors of major 0x27 (R204). -/
def decCrd (w : Nat) : Dec :=
  match bits w 18 4 with
  | 0 => tmZ w .crdx
  | 1 => tmZ w .crdy
  | 2 => tmZ w .crdpk
  | 3 => tmZ w .rect
  | _ => .error .minor
/-- The minors of major 0x31 (R204). -/
def decBri (w : Nat) : Dec :=
  match bits w 18 4 with
  | 0 => tmX w .bri
  | 1 => tmX w .calli
  | _ => .error .minor
/-- The minors of major 0x33 (R204). -/
def decExit (w : Nat) : Dec :=
  match bits w 18 4 with
  | 0 => tmX w .done
  | 1 => tmX w .yield
  | _ => .error .minor
/-- The minors of major 0x3D (R204). -/
def decFminmax (w : Nat) : Dec :=
  match bits w 18 4 with
  | 0 => tmZ w .fmin
  | 1 => tmZ w .fmax
  | _ => .error .minor
/-- The minors of major 0x40 (R204). -/
def decFun (w : Nat) : Dec :=
  match bits w 18 4 with
  | 0 => tmZ w .fabs
  | 1 => tmZ w .fneg
  | 2 => tmZ w .frcp
  | 3 => tmZ w .frsq
  | 4 => tmZ w .fexp2
  | 5 => tmZ w .flog2
  | 6 => tmZ w .ftanh
  | 7 => tmZ w .fsin
  | _ => .error .minor
/-- The minors of major 0x41 (R204). -/
def decFcmp (w : Nat) : Dec :=
  match bits w 18 4 with
  | 0 => tmZ w .fcmpeq
  | 1 => tmZ w .fcmplt
  | 2 => tmZ w .fcmple
  | 3 => tmZ w .fcmpun
  | _ => .error .minor
/-- The minors of major 0x42 (R204). -/
def decFcvt (w : Nat) : Dec :=
  match bits w 18 4 with
  | 0 => tmCvt w .f2i
  | 1 => tmCvt w .f2n
  | 2 => tmCvt w .i2f
  | 3 => tmCvt w .n2f
  | _ => .error .minor
/-- The minors of major 0x45 (R204). -/
def decFrnd (w : Nat) : Dec :=
  match bits w 18 4 with
  | 0 => tmZ w .frndRne
  | 1 => tmZ w .frndRz
  | 2 => tmZ w .frndRu
  | 3 => tmZ w .frndRd
  | _ => .error .minor
/-- The minors of major 0x54 (R204). -/
def decVred (w : Nat) : Dec :=
  match bits w 18 4 with
  | 0 => tmZ w .vredSum
  | 1 => tmZ w .vredFsum
  | 2 => tmZ w .vredMin
  | 3 => tmZ w .vredMax
  | 4 => tmZ w .vredFmin
  | 5 => tmZ w .vredFmax
  | 6 => tmZ w .vredAnd
  | 7 => tmZ w .vredOr
  | 8 => tmZ w .vredXor
  | _ => .error .minor
/-- The minors of major 0x55 (R204). -/
def decVscan (w : Nat) : Dec :=
  match bits w 18 4 with
  | 0 => tmZ w .vscanSum
  | 1 => tmZ w .vscanFsum
  | _ => .error .minor
/-- The minors of major 0x56 (R204). -/
def decVmask (w : Nat) : Dec :=
  match bits w 18 4 with
  | 0 => tmZ w .mand
  | 1 => tmZ w .mor
  | 2 => tmZ w .mnot
  | 3 => tmZ w .mpopc
  | 4 => tmZ w .mfirst
  | 5 => tmZ w .mfroms
  | 6 => tmZ w .mtos
  | _ => .error .minor
/-- The minors of major 0x5C (R204). -/
def decLd (w : Nat) : Dec :=
  match bits w 18 4 with
  | 0 => tmL w .ldB
  | 1 => tmL w .ldH
  | 2 => tmL w .ldW
  | 3 => tmL w .ldD
  | 6 => tmL w .ldL
  | _ => .error .minor
/-- The minors of major 0x5D (R204). -/
def decSt (w : Nat) : Dec :=
  match bits w 18 4 with
  | 0 => tmL w .stB
  | 1 => tmL w .stH
  | 2 => tmL w .stW
  | 3 => tmL w .stD
  | 6 => tmL w .stL
  | _ => .error .minor
/-- The minors of major 0x5E (R204). -/
def decLdr (w : Nat) : Dec :=
  match bits w 18 4 with
  | 0 => tmL w .ldrB
  | 1 => tmL w .ldrH
  | 2 => tmL w .ldrW
  | 3 => tmL w .ldrD
  | 4 => tmL w .ldrQ
  | 5 => tmL w .ldrO
  | 6 => tmL w .ldrL
  | _ => .error .minor
/-- The minors of major 0x5F (R204). -/
def decStr (w : Nat) : Dec :=
  match bits w 18 4 with
  | 0 => tmL w .strB
  | 1 => tmL w .strH
  | 2 => tmL w .strW
  | 3 => tmL w .strD
  | 4 => tmL w .strQ
  | 5 => tmL w .strO
  | 6 => tmL w .strL
  | _ => .error .minor
/-- The minors of major 0x60 (R204). -/
def decAmo (w : Nat) : Dec :=
  match bits w 18 4 with
  | 0 => tmAmo w .amoAadd
  | 1 => tmAmo w .amoAand
  | 2 => tmAmo w .amoAor
  | 3 => tmAmo w .amoAxor
  | 4 => tmAmo w .amoAmin
  | 5 => tmAmo w .amoAmax
  | 6 => tmAmo w .amoAminn
  | 7 => tmAmo w .amoAmaxn
  | 8 => tmAmo w .amoAxchg
  | 9 => tmAmo w .amoAcas
  | _ => .error .minor
/-- The minors of major 0x62 (R204). -/
def decFence (w : Nat) : Dec :=
  match bits w 18 4 with
  | 0 => tmL w .fenceLocal
  | 1 => tmL w .fenceRect
  | 2 => tmL w .fenceCluster
  | 3 => tmL w .fenceRegion
  | _ => .error .minor
/-- The minors of major 0x65 (R204). -/
def decBind (w : Nat) : Dec :=
  match bits w 18 4 with
  | 0 => tmZ w .bind
  | 1 => tmZ w .unbind
  | _ => .error .minor
/-- The minors of major 0x66 (R204). -/
def decLwait (w : Nat) : Dec :=
  match bits w 18 4 with
  | 0 => tmZ w .lwait
  | 1 => tmZ w .lwarm
  | _ => .error .minor
/-- The minors of major 0x67 (R204). -/
def decTcwait (w : Nat) : Dec :=
  match bits w 18 4 with
  | 0 => tmB w .tcwait
  | 1 => tmZ w .cwait
  | _ => .error .minor
/-- The minors of major 0x69 (R204). -/
def decSctl (w : Nat) : Dec :=
  match bits w 18 4 with
  | 0 => tmN 3 w .sunbind
  | 1 => tmN 3 w .sskip
  | 2 => tmN 3 w .sflush
  | 3 => tmN 3 w .sstat
  | _ => .error .minor
/-- The minors of major 0x6C (R204). -/
def decCopy (w : Nat) : Dec :=
  match bits w 18 4 with
  | 0 => tmZ w .copyLinear
  | 1 => tmZ w .copyPlane
  | 2 => tmZ w .copyTensor
  | 3 => tmZ w .copyGather
  | _ => .error .minor
/-- The minors of major 0x73 (R204). -/
def decMctl (w : Nat) : Dec :=
  match bits w 18 4 with
  | 0 => tmN 4 w .mzero
  | 1 => tmZ w .mfence
  | 2 => tmZ w .mstat
  | _ => .error .minor
/-- The minors of major 0x76 (R204). -/
def decMbx (w : Nat) : Dec :=
  match bits w 18 4 with
  | 0 => tmZ w .mbpop
  | 1 => tmZ w .mbpeek
  | 2 => tmZ w .mbhw
  | _ => .error .minor
/-- The minors of major 0x78 (R204). -/
def decSteal (w : Nat) : Dec :=
  match bits w 18 4 with
  | 0 => tmZ w .stealSplit
  | 1 => tmZ w .stealRange
  | _ => .error .minor
/-- The minors of major 0x7A (R204). -/
def decSys (w : Nat) : Dec :=
  match bits w 18 4 with
  | 0 => tmZ w .csrr
  | 1 => tmZ w .csrw
  | 2 => tmF w .resume .resumeVal
  | 3 => tmF w .halt .haltRegion
  | 4 => tmZ w .wake
  | 5 => tmZ w .ctxsv
  | 6 => tmZ w .ctxrs
  | 7 => tmZ w .xlati
  | 8 => tmZ w .slotw
  | 9 => tmF w .pwrq .pwrqSet
  | _ => .error .minor
/-- The minors of major 0x7C (R204). -/
def decDbg (w : Nat) : Dec :=
  match bits w 18 4 with
  | 0 => tmN 8 w .bkpt
  | 1 => tmZ w .pmark
  | 2 => tmN 8 w .trc
  | _ => .error .minor

/-- A slot with bit 31 = 0: a 32-bit instruction (R192, R204). -/
def decode32 (w : Nat) : Dec :=
  if bit w 31 then .error .width
  else match bits w 24 7 with
    | 0x01 => tr w fun r => .ok (.read r (tgt w 0))
    | 0x02 => tr w fun r => if bits w 0 10 = 0 then .ok (.write r) else .error .target
    | 0x03 => t2 w .mov
    | 0x04 => ti w .movi
    | 0x05 => ti w .movhi
    | 0x06 => t2 w .null
    | 0x07 => t2 w .sel
    | 0x08 => t2 w .join
    | 0x09 => decSetx w
    | 0x0A => decGetx w
    | 0x0B => decStat w
    | 0x0C => if bits w 18 4 = 0 then decStatw w else .error .minor
    | 0x10 => t2 w .add
    | 0x11 => t2 w .sub
    | 0x12 => ti w .addi
    | 0x13 => decMul w
    | 0x14 => decDiv w
    | 0x15 => t2 w .and
    | 0x16 => t2 w .or
    | 0x17 => t2 w .xor
    | 0x18 => ti w .andi
    | 0x19 => ti w .ori
    | 0x1A => ti w .xori
    | 0x1B => decShift w
    | 0x1C => decShifti w
    | 0x1D => decBits w
    | 0x1E => decMinmax w
    | 0x1F => decCmp w
    | 0x20 => ti w .cmpeqi
    | 0x21 => ti w .cmplti
    | 0x22 => ti w .cmpltui
    | 0x23 => decExt w
    | 0x24 => tiPW w .bfx
    | 0x25 => tiPW w .bfi
    | 0x26 => if bits w 18 4 = 0 then decLea w else .error .minor
    | 0x27 => decCrd w
    | 0x30 => tb w
    | 0x31 => decBri w
    | 0x32 => if bits w 18 4 = 0 then tmX w .ret else .error .minor
    | 0x33 => decExit w
    | 0x34 => tiX w .trap
    | 0x38 => t2 w .fadd
    | 0x39 => t2 w .fsub
    | 0x3A => t2 w .fmul
    | 0x3B => t2 w .fma
    | 0x3C => t2 w .fnma
    | 0x3D => decFminmax w
    | 0x3E => t2 w .fdiv
    | 0x3F => t2 w .fsqrt
    | 0x40 => decFun w
    | 0x41 => decFcmp w
    | 0x42 => decFcvt w
    | 0x43 => if bits w 18 4 = 0 then tmZ w .fclass else .error .minor
    | 0x44 => t2 w .fscale
    | 0x45 => decFrnd w
    | 0x50 => t2 w .vbcast
    | 0x51 => tiK w .vextr
    | 0x52 => tiK w .vins
    | 0x53 => t2 w .vshuf
    | 0x54 => decVred w
    | 0x55 => decVscan w
    | 0x56 => decVmask w
    | 0x57 => ti w .vidx
    | 0x58 => ti w .vslide
    | 0x59 => t2 w .vcomp
    | 0x5C => decLd w
    | 0x5D => decSt w
    | 0x5E => decLdr w
    | 0x5F => decStr w
    | 0x60 => decAmo w
    | 0x62 => decFence w
    | 0x63 => if bits w 18 4 = 0 then tmL w .acq else .error .minor
    | 0x64 => if bits w 18 4 = 0 then tmL w .rel else .error .minor
    | 0x65 => decBind w
    | 0x66 => decLwait w
    | 0x67 => decTcwait w
    | 0x68 => if bits w 18 4 = 0 then tmN 3 w .sbind else .error .minor
    | 0x69 => decSctl w
    | 0x6C => decCopy w
    | 0x6D => if bits w 18 4 = 0 then tmZ w .cseal else .error .minor
    | 0x70 => if bits w 18 4 = 0 then tmN 7 w .mldb else .error .minor
    | 0x71 => if bits w 18 4 = 0 then tmAcc w .mq else .error .minor
    | 0x72 => if bits w 18 4 = 0 then tmAcc w .mdrain else .error .minor
    | 0x73 => decMctl w
    | 0x74 => if bits w 18 4 = 0 then tmN 4 w .send else .error .minor
    | 0x75 => if bits w 18 4 = 0 then tmZ w .spawn else .error .minor
    | 0x76 => decMbx w
    | 0x77 => if bits w 18 4 = 0 then tmN 4 w .eos else .error .minor
    | 0x78 => decSteal w
    | 0x7A => decSys w
    | 0x7C => decDbg w
    | _ => .error .major

/-- A compact half (R193, R201). -/
def decode16 (h : Nat) : Dec :=
  if bit h 15 then zero (bits h 10 1) (match bits h 11 4 with
    | 0 => if bits h 0 10 = 1023 then .ok .compactNop else .error .target
    | 1 => .ok (.compactMov (tgt h 0))
    | 2 => .ok (.compactAdd (tgt h 0))
    | 3 => .ok (.compactSub (tgt h 0))
    | 4 => .ok (.compactAnd (tgt h 0))
    | 5 => .ok (.compactOr (tgt h 0))
    | 6 => .ok (.compactXor (tgt h 0))
    | 7 => .ok (.compactShl (tgt h 0))
    | 8 => .ok (.compactShr (tgt h 0))
    | 9 => .ok (.not (tgt h 0))
    | 10 => .ok (.neg (tgt h 0))
    | 11 => .ok (.compactFadd (tgt h 0))
    | 12 => .ok (.compactFmul (tgt h 0))
    | 13 => .ok (.compactJoin (tgt h 0))
    | 14 => .ok (.compactNull (tgt h 0))
    | _ => .error .cop)
  else .error .lowerHalf

/-- What a slot holds (R192). -/
inductive SlotInstrs where
  | one (i : Instr)
  | pair (lower upper : Instr)
  deriving DecidableEq, Repr

/-- Decodes a slot (R192, R193); the first defect is that of the lower half (R206). -/
def decodeSlot (w : BitVec 32) : Except Reject SlotInstrs :=
  if w.toNat < 2 ^ 31 then
    match decode32 w.toNat with
    | .ok i => .ok (.one i)
    | .error e => .error e
  else
    match decode16 (w.toNat % 65536), decode16 (w.toNat / 65536) with
    | .ok i, .ok j => .ok (.pair i j)
    | .error e, _ => .error e
    | _, .error e => .error e

/-- A slot's value from its four bytes (R192). -/
def slotOfBytes (b : List Byte) : BitVec 32 := BitVec.ofNat 32 (ofBytes b)

/-- The instruction of a row of spec/opcode_table.json: 32-bit rows are a slot, 16-bit rows a half. -/
def decodeTableWord (nbits w : Nat) : Option Instr :=
  if nbits = 32 then
    match decodeSlot (BitVec.ofNat 32 w) with | .ok (.one i) => some i | _ => none
  else if nbits = 16 then
    match decode16 (w % 65536) with | .ok i => some i | .error _ => none
  else none

/-! ## The encoder -/

/-- The code of a predication (R195). -/
def Pr.code : Pr → Nat
  | .always => 0
  | .onTrue => 1
  | .onFalse => 2
/-- A slot of format T2 (R196). -/
def encT2 (maj : Nat) (p : Pr) (v : Bool) (t0 t1 : Target) : Nat :=
  maj * 2 ^ 24 + p.code * 2 ^ 22 + v.toNat * 2 ^ 21 + t0.toNat * 2 ^ 10 + t1.toNat
/-- A slot of format TI (R197). -/
def encTI (maj : Nat) (p : Pr) (t0 imm : Nat) : Nat :=
  maj * 2 ^ 24 + p.code * 2 ^ 22 + t0 * 2 ^ 12 + imm
/-- A slot of format TM (R198). -/
def encTM (maj : Nat) (p : Pr) (mn f8 t0 : Nat) : Nat :=
  maj * 2 ^ 24 + p.code * 2 ^ 22 + mn * 2 ^ 18 + f8 * 2 ^ 10 + t0
/-- A slot of format TR (R199). -/
def encTR (maj : Nat) (r : Reg) (t0 : Nat) : Nat :=
  maj * 2 ^ 24 + t0 + match r with
    | .s n => n.toNat * 2 ^ 17
    | .v n => 2 ^ 22 + n.toNat * 2 ^ 17
    | .ox n => 2 * 2 ^ 22 + n.toNat * 2 ^ 17
/-- A compact half (R193). -/
def enc16 (cop : Nat) (t : Target) : Nat := 2 ^ 15 + cop * 2 ^ 11 + t.toNat

/-- The width in bits and the value of an encoded instruction; an event has none. -/
def encode : Instr → Option (Nat × Nat)
  | .read r t0 => some (32, encTR 0x01 r t0.toNat)
  | .write r => some (32, encTR 0x02 r 0)
  | .mov pr v t0 t1 => some (32, encT2 0x03 pr v t0 t1)
  | .movi pr imm t0 => some (32, encTI 0x04 pr t0.toNat imm.toNat)
  | .movhi pr imm t0 => some (32, encTI 0x05 pr t0.toNat imm.toNat)
  | .null pr v t0 t1 => some (32, encT2 0x06 pr v t0 t1)
  | .sel pr v t0 t1 => some (32, encT2 0x07 pr v t0 t1)
  | .join pr v t0 t1 => some (32, encT2 0x08 pr v t0 t1)
  | .setx pr n pos t0 => some (32, encTM 0x09 pr n.toNat pos.toNat t0.toNat)
  | .getx pr n pos t0 => some (32, encTM 0x0A pr n.toNat pos.toNat t0.toNat)
  | .getxBlr pr t0 => some (32, encTM 0x0A pr 0 128 t0.toNat)
  | .statCoord pr t0 => some (32, encTM 0x0B pr 0 0 t0.toNat)
  | .statTsid pr t0 => some (32, encTM 0x0B pr 1 0 t0.toNat)
  | .statStage pr t0 => some (32, encTM 0x0B pr 2 0 t0.toNat)
  | .statSeq pr t0 => some (32, encTM 0x0B pr 3 0 t0.toNat)
  | .statCycle pr t0 => some (32, encTM 0x0B pr 4 0 t0.toNat)
  | .statTlcce pr t0 => some (32, encTM 0x0B pr 5 0 t0.toNat)
  | .statTlcme pr t0 => some (32, encTM 0x0B pr 6 0 t0.toNat)
  | .statFlags pr t0 => some (32, encTM 0x0B pr 7 0 t0.toNat)
  | .statMexc pr t0 => some (32, encTM 0x0B pr 8 0 t0.toNat)
  | .statEnergy pr t0 => some (32, encTM 0x0B pr 9 0 t0.toNat)
  | .statw pr cf cm sd drm dsat => some (32, encTM 0x0C pr 0 (cf.toNat * 128 + cm.toNat * 64 + sd.toNat * 32 + drm.toNat * 8 + dsat.toNat * 4) 1023)
  | .add pr v t0 t1 => some (32, encT2 0x10 pr v t0 t1)
  | .sub pr v t0 t1 => some (32, encT2 0x11 pr v t0 t1)
  | .addi pr imm t0 => some (32, encTI 0x12 pr t0.toNat imm.toNat)
  | .mulLo pr t0 => some (32, encTM 0x13 pr 0 0 t0.toNat)
  | .mulHi pr t0 => some (32, encTM 0x13 pr 1 0 t0.toNat)
  | .mulHiu pr t0 => some (32, encTM 0x13 pr 2 0 t0.toNat)
  | .div pr t0 => some (32, encTM 0x14 pr 0 0 t0.toNat)
  | .divu pr t0 => some (32, encTM 0x14 pr 1 0 t0.toNat)
  | .rem pr t0 => some (32, encTM 0x14 pr 2 0 t0.toNat)
  | .remu pr t0 => some (32, encTM 0x14 pr 3 0 t0.toNat)
  | .and pr v t0 t1 => some (32, encT2 0x15 pr v t0 t1)
  | .or pr v t0 t1 => some (32, encT2 0x16 pr v t0 t1)
  | .xor pr v t0 t1 => some (32, encT2 0x17 pr v t0 t1)
  | .andi pr imm t0 => some (32, encTI 0x18 pr t0.toNat imm.toNat)
  | .ori pr imm t0 => some (32, encTI 0x19 pr t0.toNat imm.toNat)
  | .xori pr imm t0 => some (32, encTI 0x1A pr t0.toNat imm.toNat)
  | .shl pr t0 => some (32, encTM 0x1B pr 0 0 t0.toNat)
  | .shr pr t0 => some (32, encTM 0x1B pr 1 0 t0.toNat)
  | .sar pr t0 => some (32, encTM 0x1B pr 2 0 t0.toNat)
  | .rot pr t0 => some (32, encTM 0x1B pr 3 0 t0.toNat)
  | .shli pr n t0 => some (32, encTM 0x1C pr 0 n.toNat t0.toNat)
  | .shri pr n t0 => some (32, encTM 0x1C pr 1 n.toNat t0.toNat)
  | .sari pr n t0 => some (32, encTM 0x1C pr 2 n.toNat t0.toNat)
  | .roti pr n t0 => some (32, encTM 0x1C pr 3 n.toNat t0.toNat)
  | .clz pr t0 => some (32, encTM 0x1D pr 0 0 t0.toNat)
  | .ctz pr t0 => some (32, encTM 0x1D pr 1 0 t0.toNat)
  | .popc pr t0 => some (32, encTM 0x1D pr 2 0 t0.toNat)
  | .brev pr t0 => some (32, encTM 0x1D pr 3 0 t0.toNat)
  | .bswap pr t0 => some (32, encTM 0x1D pr 4 0 t0.toNat)
  | .min pr t0 => some (32, encTM 0x1E pr 0 0 t0.toNat)
  | .max pr t0 => some (32, encTM 0x1E pr 1 0 t0.toNat)
  | .minu pr t0 => some (32, encTM 0x1E pr 2 0 t0.toNat)
  | .maxu pr t0 => some (32, encTM 0x1E pr 3 0 t0.toNat)
  | .cmpeq pr t0 => some (32, encTM 0x1F pr 0 0 t0.toNat)
  | .cmpne pr t0 => some (32, encTM 0x1F pr 1 0 t0.toNat)
  | .cmplt pr t0 => some (32, encTM 0x1F pr 2 0 t0.toNat)
  | .cmple pr t0 => some (32, encTM 0x1F pr 3 0 t0.toNat)
  | .cmpltu pr t0 => some (32, encTM 0x1F pr 4 0 t0.toNat)
  | .cmpleu pr t0 => some (32, encTM 0x1F pr 5 0 t0.toNat)
  | .cmpeqi pr imm t0 => some (32, encTI 0x20 pr t0.toNat imm.toNat)
  | .cmplti pr imm t0 => some (32, encTI 0x21 pr t0.toNat imm.toNat)
  | .cmpltui pr imm t0 => some (32, encTI 0x22 pr t0.toNat imm.toNat)
  | .sextb pr t0 => some (32, encTM 0x23 pr 0 0 t0.toNat)
  | .sexth pr t0 => some (32, encTM 0x23 pr 1 0 t0.toNat)
  | .sextw pr t0 => some (32, encTM 0x23 pr 2 0 t0.toNat)
  | .zextb pr t0 => some (32, encTM 0x23 pr 4 0 t0.toNat)
  | .zexth pr t0 => some (32, encTM 0x23 pr 5 0 t0.toNat)
  | .zextw pr t0 => some (32, encTM 0x23 pr 6 0 t0.toNat)
  | .bfx pr pos w t0 => some (32, encTI 0x24 pr t0.toNat (pos.toNat * 2 ^ 6 + w.toNat))
  | .bfi pr pos w t0 => some (32, encTI 0x25 pr t0.toNat (pos.toNat * 2 ^ 6 + w.toNat))
  | .lea pr sc t0 => some (32, encTM 0x26 pr 0 sc.toNat t0.toNat)
  | .crdx pr t0 => some (32, encTM 0x27 pr 0 0 t0.toNat)
  | .crdy pr t0 => some (32, encTM 0x27 pr 1 0 t0.toNat)
  | .crdpk pr t0 => some (32, encTM 0x27 pr 2 0 t0.toNat)
  | .rect pr t0 => some (32, encTM 0x27 pr 3 0 t0.toNat)
  | .br pr off => some (32, 0x30 * 2 ^ 24 + pr.code * 2 ^ 22 + 0 * 2 ^ 20 + off.toNat)
  | .call pr off => some (32, 0x30 * 2 ^ 24 + pr.code * 2 ^ 22 + 1 * 2 ^ 20 + off.toNat)
  | .bri pr => some (32, encTM 0x31 pr 0 0 1023)
  | .calli pr => some (32, encTM 0x31 pr 1 0 1023)
  | .ret pr => some (32, encTM 0x32 pr 0 0 1023)
  | .done pr => some (32, encTM 0x33 pr 0 0 1023)
  | .yield pr => some (32, encTM 0x33 pr 1 0 1023)
  | .trap pr imm => some (32, encTI 0x34 pr 1023 imm.toNat)
  | .fadd pr v t0 t1 => some (32, encT2 0x38 pr v t0 t1)
  | .fsub pr v t0 t1 => some (32, encT2 0x39 pr v t0 t1)
  | .fmul pr v t0 t1 => some (32, encT2 0x3A pr v t0 t1)
  | .fma pr v t0 t1 => some (32, encT2 0x3B pr v t0 t1)
  | .fnma pr v t0 t1 => some (32, encT2 0x3C pr v t0 t1)
  | .fmin pr t0 => some (32, encTM 0x3D pr 0 0 t0.toNat)
  | .fmax pr t0 => some (32, encTM 0x3D pr 1 0 t0.toNat)
  | .fdiv pr v t0 t1 => some (32, encT2 0x3E pr v t0 t1)
  | .fsqrt pr v t0 t1 => some (32, encT2 0x3F pr v t0 t1)
  | .fabs pr t0 => some (32, encTM 0x40 pr 0 0 t0.toNat)
  | .fneg pr t0 => some (32, encTM 0x40 pr 1 0 t0.toNat)
  | .frcp pr t0 => some (32, encTM 0x40 pr 2 0 t0.toNat)
  | .frsq pr t0 => some (32, encTM 0x40 pr 3 0 t0.toNat)
  | .fexp2 pr t0 => some (32, encTM 0x40 pr 4 0 t0.toNat)
  | .flog2 pr t0 => some (32, encTM 0x40 pr 5 0 t0.toNat)
  | .ftanh pr t0 => some (32, encTM 0x40 pr 6 0 t0.toNat)
  | .fsin pr t0 => some (32, encTM 0x40 pr 7 0 t0.toNat)
  | .fcmpeq pr t0 => some (32, encTM 0x41 pr 0 0 t0.toNat)
  | .fcmplt pr t0 => some (32, encTM 0x41 pr 1 0 t0.toNat)
  | .fcmple pr t0 => some (32, encTM 0x41 pr 2 0 t0.toNat)
  | .fcmpun pr t0 => some (32, encTM 0x41 pr 3 0 t0.toNat)
  | .f2i pr sat rm t0 => some (32, encTM 0x42 pr 0 (sat.toNat * 4 + rm.toNat) t0.toNat)
  | .f2n pr sat rm t0 => some (32, encTM 0x42 pr 1 (sat.toNat * 4 + rm.toNat) t0.toNat)
  | .i2f pr sat rm t0 => some (32, encTM 0x42 pr 2 (sat.toNat * 4 + rm.toNat) t0.toNat)
  | .n2f pr sat rm t0 => some (32, encTM 0x42 pr 3 (sat.toNat * 4 + rm.toNat) t0.toNat)
  | .fclass pr t0 => some (32, encTM 0x43 pr 0 0 t0.toNat)
  | .fscale pr v t0 t1 => some (32, encT2 0x44 pr v t0 t1)
  | .frndRne pr t0 => some (32, encTM 0x45 pr 0 0 t0.toNat)
  | .frndRz pr t0 => some (32, encTM 0x45 pr 1 0 t0.toNat)
  | .frndRu pr t0 => some (32, encTM 0x45 pr 2 0 t0.toNat)
  | .frndRd pr t0 => some (32, encTM 0x45 pr 3 0 t0.toNat)
  | .vbcast pr v t0 t1 => some (32, encT2 0x50 pr v t0 t1)
  | .vextr pr k t0 => some (32, encTI 0x51 pr t0.toNat k.toNat)
  | .vins pr k t0 => some (32, encTI 0x52 pr t0.toNat k.toNat)
  | .vshuf pr v t0 t1 => some (32, encT2 0x53 pr v t0 t1)
  | .vredSum pr t0 => some (32, encTM 0x54 pr 0 0 t0.toNat)
  | .vredFsum pr t0 => some (32, encTM 0x54 pr 1 0 t0.toNat)
  | .vredMin pr t0 => some (32, encTM 0x54 pr 2 0 t0.toNat)
  | .vredMax pr t0 => some (32, encTM 0x54 pr 3 0 t0.toNat)
  | .vredFmin pr t0 => some (32, encTM 0x54 pr 4 0 t0.toNat)
  | .vredFmax pr t0 => some (32, encTM 0x54 pr 5 0 t0.toNat)
  | .vredAnd pr t0 => some (32, encTM 0x54 pr 6 0 t0.toNat)
  | .vredOr pr t0 => some (32, encTM 0x54 pr 7 0 t0.toNat)
  | .vredXor pr t0 => some (32, encTM 0x54 pr 8 0 t0.toNat)
  | .vscanSum pr t0 => some (32, encTM 0x55 pr 0 0 t0.toNat)
  | .vscanFsum pr t0 => some (32, encTM 0x55 pr 1 0 t0.toNat)
  | .mand pr t0 => some (32, encTM 0x56 pr 0 0 t0.toNat)
  | .mor pr t0 => some (32, encTM 0x56 pr 1 0 t0.toNat)
  | .mnot pr t0 => some (32, encTM 0x56 pr 2 0 t0.toNat)
  | .mpopc pr t0 => some (32, encTM 0x56 pr 3 0 t0.toNat)
  | .mfirst pr t0 => some (32, encTM 0x56 pr 4 0 t0.toNat)
  | .mfroms pr t0 => some (32, encTM 0x56 pr 5 0 t0.toNat)
  | .mtos pr t0 => some (32, encTM 0x56 pr 6 0 t0.toNat)
  | .vidx pr imm t0 => some (32, encTI 0x57 pr t0.toNat imm.toNat)
  | .vslide pr imm t0 => some (32, encTI 0x58 pr t0.toNat imm.toNat)
  | .vcomp pr v t0 t1 => some (32, encT2 0x59 pr v t0 t1)
  | .ldB pr lsid t0 => some (32, encTM 0x5C pr 0 (lsid.toNat * 8) t0.toNat)
  | .ldH pr lsid t0 => some (32, encTM 0x5C pr 1 (lsid.toNat * 8) t0.toNat)
  | .ldW pr lsid t0 => some (32, encTM 0x5C pr 2 (lsid.toNat * 8) t0.toNat)
  | .ldD pr lsid t0 => some (32, encTM 0x5C pr 3 (lsid.toNat * 8) t0.toNat)
  | .ldL pr lsid t0 => some (32, encTM 0x5C pr 6 (lsid.toNat * 8) t0.toNat)
  | .stB pr lsid t0 => some (32, encTM 0x5D pr 0 (lsid.toNat * 8) t0.toNat)
  | .stH pr lsid t0 => some (32, encTM 0x5D pr 1 (lsid.toNat * 8) t0.toNat)
  | .stW pr lsid t0 => some (32, encTM 0x5D pr 2 (lsid.toNat * 8) t0.toNat)
  | .stD pr lsid t0 => some (32, encTM 0x5D pr 3 (lsid.toNat * 8) t0.toNat)
  | .stL pr lsid t0 => some (32, encTM 0x5D pr 6 (lsid.toNat * 8) t0.toNat)
  | .ldrB pr lsid t0 => some (32, encTM 0x5E pr 0 (lsid.toNat * 8) t0.toNat)
  | .ldrH pr lsid t0 => some (32, encTM 0x5E pr 1 (lsid.toNat * 8) t0.toNat)
  | .ldrW pr lsid t0 => some (32, encTM 0x5E pr 2 (lsid.toNat * 8) t0.toNat)
  | .ldrD pr lsid t0 => some (32, encTM 0x5E pr 3 (lsid.toNat * 8) t0.toNat)
  | .ldrQ pr lsid t0 => some (32, encTM 0x5E pr 4 (lsid.toNat * 8) t0.toNat)
  | .ldrO pr lsid t0 => some (32, encTM 0x5E pr 5 (lsid.toNat * 8) t0.toNat)
  | .ldrL pr lsid t0 => some (32, encTM 0x5E pr 6 (lsid.toNat * 8) t0.toNat)
  | .strB pr lsid t0 => some (32, encTM 0x5F pr 0 (lsid.toNat * 8) t0.toNat)
  | .strH pr lsid t0 => some (32, encTM 0x5F pr 1 (lsid.toNat * 8) t0.toNat)
  | .strW pr lsid t0 => some (32, encTM 0x5F pr 2 (lsid.toNat * 8) t0.toNat)
  | .strD pr lsid t0 => some (32, encTM 0x5F pr 3 (lsid.toNat * 8) t0.toNat)
  | .strQ pr lsid t0 => some (32, encTM 0x5F pr 4 (lsid.toNat * 8) t0.toNat)
  | .strO pr lsid t0 => some (32, encTM 0x5F pr 5 (lsid.toNat * 8) t0.toNat)
  | .strL pr lsid t0 => some (32, encTM 0x5F pr 6 (lsid.toNat * 8) t0.toNat)
  | .amoAadd pr lsid dbl ord t0 => some (32, encTM 0x60 pr 0 (lsid.toNat * 8 + dbl.toNat * 4 + ord.toNat) t0.toNat)
  | .amoAand pr lsid dbl ord t0 => some (32, encTM 0x60 pr 1 (lsid.toNat * 8 + dbl.toNat * 4 + ord.toNat) t0.toNat)
  | .amoAor pr lsid dbl ord t0 => some (32, encTM 0x60 pr 2 (lsid.toNat * 8 + dbl.toNat * 4 + ord.toNat) t0.toNat)
  | .amoAxor pr lsid dbl ord t0 => some (32, encTM 0x60 pr 3 (lsid.toNat * 8 + dbl.toNat * 4 + ord.toNat) t0.toNat)
  | .amoAmin pr lsid dbl ord t0 => some (32, encTM 0x60 pr 4 (lsid.toNat * 8 + dbl.toNat * 4 + ord.toNat) t0.toNat)
  | .amoAmax pr lsid dbl ord t0 => some (32, encTM 0x60 pr 5 (lsid.toNat * 8 + dbl.toNat * 4 + ord.toNat) t0.toNat)
  | .amoAminn pr lsid dbl ord t0 => some (32, encTM 0x60 pr 6 (lsid.toNat * 8 + dbl.toNat * 4 + ord.toNat) t0.toNat)
  | .amoAmaxn pr lsid dbl ord t0 => some (32, encTM 0x60 pr 7 (lsid.toNat * 8 + dbl.toNat * 4 + ord.toNat) t0.toNat)
  | .amoAxchg pr lsid dbl ord t0 => some (32, encTM 0x60 pr 8 (lsid.toNat * 8 + dbl.toNat * 4 + ord.toNat) t0.toNat)
  | .amoAcas pr lsid dbl ord t0 => some (32, encTM 0x60 pr 9 (lsid.toNat * 8 + dbl.toNat * 4 + ord.toNat) t0.toNat)
  | .fenceLocal pr lsid t0 => some (32, encTM 0x62 pr 0 (lsid.toNat * 8) t0.toNat)
  | .fenceRect pr lsid t0 => some (32, encTM 0x62 pr 1 (lsid.toNat * 8) t0.toNat)
  | .fenceCluster pr lsid t0 => some (32, encTM 0x62 pr 2 (lsid.toNat * 8) t0.toNat)
  | .fenceRegion pr lsid t0 => some (32, encTM 0x62 pr 3 (lsid.toNat * 8) t0.toNat)
  | .acq pr lsid t0 => some (32, encTM 0x63 pr 0 (lsid.toNat * 8) t0.toNat)
  | .rel pr lsid t0 => some (32, encTM 0x64 pr 0 (lsid.toNat * 8) t0.toNat)
  | .bind pr t0 => some (32, encTM 0x65 pr 0 0 t0.toNat)
  | .unbind pr t0 => some (32, encTM 0x65 pr 1 0 t0.toNat)
  | .lwait pr t0 => some (32, encTM 0x66 pr 0 0 t0.toNat)
  | .lwarm pr t0 => some (32, encTM 0x66 pr 1 0 t0.toNat)
  | .tcwait pr me t0 => some (32, encTM 0x67 pr 0 me.toNat t0.toNat)
  | .cwait pr t0 => some (32, encTM 0x67 pr 1 0 t0.toNat)
  | .sbind pr k t0 => some (32, encTM 0x68 pr 0 k.toNat t0.toNat)
  | .sunbind pr k t0 => some (32, encTM 0x69 pr 0 k.toNat t0.toNat)
  | .sskip pr k t0 => some (32, encTM 0x69 pr 1 k.toNat t0.toNat)
  | .sflush pr k t0 => some (32, encTM 0x69 pr 2 k.toNat t0.toNat)
  | .sstat pr k t0 => some (32, encTM 0x69 pr 3 k.toNat t0.toNat)
  | .copyLinear pr t0 => some (32, encTM 0x6C pr 0 0 t0.toNat)
  | .copyPlane pr t0 => some (32, encTM 0x6C pr 1 0 t0.toNat)
  | .copyTensor pr t0 => some (32, encTM 0x6C pr 2 0 t0.toNat)
  | .copyGather pr t0 => some (32, encTM 0x6C pr 3 0 t0.toNat)
  | .cseal pr t0 => some (32, encTM 0x6D pr 0 0 t0.toNat)
  | .mldb pr kph t0 => some (32, encTM 0x70 pr 0 kph.toNat t0.toNat)
  | .mq pr dep acc t0 => some (32, encTM 0x71 pr 0 (dep.toNat * 16 + acc.toNat) t0.toNat)
  | .mdrain pr dep acc t0 => some (32, encTM 0x72 pr 0 (dep.toNat * 16 + acc.toNat) t0.toNat)
  | .mzero pr acc t0 => some (32, encTM 0x73 pr 0 acc.toNat t0.toNat)
  | .mfence pr t0 => some (32, encTM 0x73 pr 1 0 t0.toNat)
  | .mstat pr t0 => some (32, encTM 0x73 pr 2 0 t0.toNat)
  | .send pr oport t0 => some (32, encTM 0x74 pr 0 oport.toNat t0.toNat)
  | .spawn pr t0 => some (32, encTM 0x75 pr 0 0 t0.toNat)
  | .mbpop pr t0 => some (32, encTM 0x76 pr 0 0 t0.toNat)
  | .mbpeek pr t0 => some (32, encTM 0x76 pr 1 0 t0.toNat)
  | .mbhw pr t0 => some (32, encTM 0x76 pr 2 0 t0.toNat)
  | .eos pr oport t0 => some (32, encTM 0x77 pr 0 oport.toNat t0.toNat)
  | .stealSplit pr t0 => some (32, encTM 0x78 pr 0 0 t0.toNat)
  | .stealRange pr t0 => some (32, encTM 0x78 pr 1 0 t0.toNat)
  | .csrr pr t0 => some (32, encTM 0x7A pr 0 0 t0.toNat)
  | .csrw pr t0 => some (32, encTM 0x7A pr 1 0 t0.toNat)
  | .resume pr t0 => some (32, encTM 0x7A pr 2 0 t0.toNat)
  | .resumeVal pr t0 => some (32, encTM 0x7A pr 2 1 t0.toNat)
  | .halt pr t0 => some (32, encTM 0x7A pr 3 0 t0.toNat)
  | .haltRegion pr t0 => some (32, encTM 0x7A pr 3 1 t0.toNat)
  | .wake pr t0 => some (32, encTM 0x7A pr 4 0 t0.toNat)
  | .ctxsv pr t0 => some (32, encTM 0x7A pr 5 0 t0.toNat)
  | .ctxrs pr t0 => some (32, encTM 0x7A pr 6 0 t0.toNat)
  | .xlati pr t0 => some (32, encTM 0x7A pr 7 0 t0.toNat)
  | .slotw pr t0 => some (32, encTM 0x7A pr 8 0 t0.toNat)
  | .pwrq pr t0 => some (32, encTM 0x7A pr 9 0 t0.toNat)
  | .pwrqSet pr t0 => some (32, encTM 0x7A pr 9 1 t0.toNat)
  | .bkpt pr code t0 => some (32, encTM 0x7C pr 0 code.toNat t0.toNat)
  | .pmark pr t0 => some (32, encTM 0x7C pr 1 0 t0.toNat)
  | .trc pr tag t0 => some (32, encTM 0x7C pr 2 tag.toNat t0.toNat)
  | .compactNop => some (16, 0x83FF)
  | .compactMov t0 => some (16, enc16 1 t0)
  | .compactAdd t0 => some (16, enc16 2 t0)
  | .compactSub t0 => some (16, enc16 3 t0)
  | .compactAnd t0 => some (16, enc16 4 t0)
  | .compactOr t0 => some (16, enc16 5 t0)
  | .compactXor t0 => some (16, enc16 6 t0)
  | .compactShl t0 => some (16, enc16 7 t0)
  | .compactShr t0 => some (16, enc16 8 t0)
  | .not t0 => some (16, enc16 9 t0)
  | .neg t0 => some (16, enc16 10 t0)
  | .compactFadd t0 => some (16, enc16 11 t0)
  | .compactFmul t0 => some (16, enc16 12 t0)
  | .compactJoin t0 => some (16, enc16 13 t0)
  | .compactNull t0 => some (16, enc16 14 t0)
  | _ => none

end Sys2Proof
end

