-- ==== Sys2Proof/Machine/Shape.lean ====
section
/-! DEFINITION. What the block rules need to know of each instruction (R73 to R81): its slots, targets,
LSID and role. -/

namespace Sys2Proof

/-- What the third slot of an instruction is (R80, R81). -/
inductive Third where
  | none
  | data
  | order
  deriving DecidableEq, Repr

/-- What an instruction counts as among the limits of R75. -/
inductive Role where
  | plain
  | read (r : Reg)
  | write (r : Reg)
  | load
  | store
  | amo
  | sends
  | exit
  | nop
  deriving DecidableEq, Repr

/-- An instruction as its block sees it. -/
structure Shape where
  pr      : Pr
  left    : Bool
  right   : Bool
  third   : Third
  targets : List Target
  lsid    : Option Nat
  role    : Role
  deriving DecidableEq, Repr

/-- The shape of an instruction that carries no LSID. -/
def mkShape (pr : Pr) (l r : Bool) (t : Third) (ts : List Target) (role : Role) : Shape :=
  ⟨pr, l, r, t, ts, none, role⟩
/-- The shape of an instruction that carries an LSID (R75): its third slot orders. -/
def memShape (pr : Pr) (l r : Bool) (lsid : BitVec 5) (t0 : Target) (role : Role) : Shape :=
  ⟨pr, l, r, .order, [t0], some lsid.toNat, role⟩

/-- The shape of each encoded instruction, from its entry (R217 to R310); an event has none. -/
def Instr.shape : Instr → Option Shape
  | .read r t0 => some (mkShape .always false false .none [t0] (.read r))
  | .write r => some (mkShape .always true false .none [] (.write r))
  | .mov pr _ t0 t1 => some (mkShape pr true false .none [t0, t1] .plain)
  | .movi pr _ t0 => some (mkShape pr false false .none [t0] .plain)
  | .movhi pr _ t0 => some (mkShape pr true false .none [t0] .plain)
  | .null pr _ t0 t1 => some (mkShape pr true false .none [t0, t1] .plain)
  | .sel pr _ t0 t1 => some (mkShape pr true true .data [t0, t1] .plain)
  | .join pr _ t0 t1 => some (mkShape pr true true .none [t0, t1] .plain)
  | .setx pr _ _ t0 => some (mkShape pr true true .none [t0] .plain)
  | .getx pr _ _ t0 => some (mkShape pr false false .none [t0] .plain)
  | .getxBlr pr t0 => some (mkShape pr false false .none [t0] .plain)
  | .statCoord pr t0 => some (mkShape pr false false .none [t0] .plain)
  | .statTsid pr t0 => some (mkShape pr false false .none [t0] .plain)
  | .statStage pr t0 => some (mkShape pr false false .none [t0] .plain)
  | .statSeq pr t0 => some (mkShape pr false false .none [t0] .plain)
  | .statCycle pr t0 => some (mkShape pr false false .none [t0] .plain)
  | .statTlcce pr t0 => some (mkShape pr false false .none [t0] .plain)
  | .statTlcme pr t0 => some (mkShape pr false false .none [t0] .plain)
  | .statFlags pr t0 => some (mkShape pr false false .none [t0] .plain)
  | .statMexc pr t0 => some (mkShape pr false false .none [t0] .plain)
  | .statEnergy pr t0 => some (mkShape pr false false .none [t0] .plain)
  | .statw pr _ _ _ _ _ => some (mkShape pr false false .none [] .plain)
  | .add pr _ t0 t1 => some (mkShape pr true true .none [t0, t1] .plain)
  | .sub pr _ t0 t1 => some (mkShape pr true true .none [t0, t1] .plain)
  | .addi pr _ t0 => some (mkShape pr true false .none [t0] .plain)
  | .mulLo pr t0 => some (mkShape pr true true .none [t0] .plain)
  | .mulHi pr t0 => some (mkShape pr true true .none [t0] .plain)
  | .mulHiu pr t0 => some (mkShape pr true true .none [t0] .plain)
  | .div pr t0 => some (mkShape pr true true .none [t0] .plain)
  | .divu pr t0 => some (mkShape pr true true .none [t0] .plain)
  | .rem pr t0 => some (mkShape pr true true .none [t0] .plain)
  | .remu pr t0 => some (mkShape pr true true .none [t0] .plain)
  | .and pr _ t0 t1 => some (mkShape pr true true .none [t0, t1] .plain)
  | .or pr _ t0 t1 => some (mkShape pr true true .none [t0, t1] .plain)
  | .xor pr _ t0 t1 => some (mkShape pr true true .none [t0, t1] .plain)
  | .andi pr _ t0 => some (mkShape pr true false .none [t0] .plain)
  | .ori pr _ t0 => some (mkShape pr true false .none [t0] .plain)
  | .xori pr _ t0 => some (mkShape pr true false .none [t0] .plain)
  | .shl pr t0 => some (mkShape pr true true .none [t0] .plain)
  | .shr pr t0 => some (mkShape pr true true .none [t0] .plain)
  | .sar pr t0 => some (mkShape pr true true .none [t0] .plain)
  | .rot pr t0 => some (mkShape pr true true .none [t0] .plain)
  | .shli pr _ t0 => some (mkShape pr true false .none [t0] .plain)
  | .shri pr _ t0 => some (mkShape pr true false .none [t0] .plain)
  | .sari pr _ t0 => some (mkShape pr true false .none [t0] .plain)
  | .roti pr _ t0 => some (mkShape pr true false .none [t0] .plain)
  | .clz pr t0 => some (mkShape pr true false .none [t0] .plain)
  | .ctz pr t0 => some (mkShape pr true false .none [t0] .plain)
  | .popc pr t0 => some (mkShape pr true false .none [t0] .plain)
  | .brev pr t0 => some (mkShape pr true false .none [t0] .plain)
  | .bswap pr t0 => some (mkShape pr true false .none [t0] .plain)
  | .min pr t0 => some (mkShape pr true true .none [t0] .plain)
  | .max pr t0 => some (mkShape pr true true .none [t0] .plain)
  | .minu pr t0 => some (mkShape pr true true .none [t0] .plain)
  | .maxu pr t0 => some (mkShape pr true true .none [t0] .plain)
  | .cmpeq pr t0 => some (mkShape pr true true .none [t0] .plain)
  | .cmpne pr t0 => some (mkShape pr true true .none [t0] .plain)
  | .cmplt pr t0 => some (mkShape pr true true .none [t0] .plain)
  | .cmple pr t0 => some (mkShape pr true true .none [t0] .plain)
  | .cmpltu pr t0 => some (mkShape pr true true .none [t0] .plain)
  | .cmpleu pr t0 => some (mkShape pr true true .none [t0] .plain)
  | .cmpeqi pr _ t0 => some (mkShape pr true false .none [t0] .plain)
  | .cmplti pr _ t0 => some (mkShape pr true false .none [t0] .plain)
  | .cmpltui pr _ t0 => some (mkShape pr true false .none [t0] .plain)
  | .sextb pr t0 => some (mkShape pr true false .none [t0] .plain)
  | .sexth pr t0 => some (mkShape pr true false .none [t0] .plain)
  | .sextw pr t0 => some (mkShape pr true false .none [t0] .plain)
  | .zextb pr t0 => some (mkShape pr true false .none [t0] .plain)
  | .zexth pr t0 => some (mkShape pr true false .none [t0] .plain)
  | .zextw pr t0 => some (mkShape pr true false .none [t0] .plain)
  | .bfx pr _ _ t0 => some (mkShape pr true false .none [t0] .plain)
  | .bfi pr _ _ t0 => some (mkShape pr true true .none [t0] .plain)
  | .lea pr _ t0 => some (mkShape pr true true .none [t0] .plain)
  | .crdx pr t0 => some (mkShape pr true false .none [t0] .plain)
  | .crdy pr t0 => some (mkShape pr true false .none [t0] .plain)
  | .crdpk pr t0 => some (mkShape pr true true .none [t0] .plain)
  | .rect pr t0 => some (mkShape pr true true .none [t0] .plain)
  | .br pr _ => some (mkShape pr false false .none [] .exit)
  | .call pr _ => some (mkShape pr false false .none [] .exit)
  | .bri pr => some (mkShape pr true false .none [] .exit)
  | .calli pr => some (mkShape pr true false .none [] .exit)
  | .ret pr => some (mkShape pr false false .none [] .exit)
  | .done pr => some (mkShape pr false false .none [] .exit)
  | .yield pr => some (mkShape pr false false .none [] .exit)
  | .trap pr _ => some (mkShape pr false false .none [] .exit)
  | .fadd pr _ t0 t1 => some (mkShape pr true true .none [t0, t1] .plain)
  | .fsub pr _ t0 t1 => some (mkShape pr true true .none [t0, t1] .plain)
  | .fmul pr _ t0 t1 => some (mkShape pr true true .none [t0, t1] .plain)
  | .fma pr _ t0 t1 => some (mkShape pr true true .data [t0, t1] .plain)
  | .fnma pr _ t0 t1 => some (mkShape pr true true .data [t0, t1] .plain)
  | .fmin pr t0 => some (mkShape pr true true .none [t0] .plain)
  | .fmax pr t0 => some (mkShape pr true true .none [t0] .plain)
  | .fdiv pr _ t0 t1 => some (mkShape pr true true .none [t0, t1] .plain)
  | .fsqrt pr _ t0 t1 => some (mkShape pr true false .none [t0, t1] .plain)
  | .fabs pr t0 => some (mkShape pr true false .none [t0] .plain)
  | .fneg pr t0 => some (mkShape pr true false .none [t0] .plain)
  | .frcp pr t0 => some (mkShape pr true false .none [t0] .plain)
  | .frsq pr t0 => some (mkShape pr true false .none [t0] .plain)
  | .fexp2 pr t0 => some (mkShape pr true false .none [t0] .plain)
  | .flog2 pr t0 => some (mkShape pr true false .none [t0] .plain)
  | .ftanh pr t0 => some (mkShape pr true false .none [t0] .plain)
  | .fsin pr t0 => some (mkShape pr true false .none [t0] .plain)
  | .fcmpeq pr t0 => some (mkShape pr true true .none [t0] .plain)
  | .fcmplt pr t0 => some (mkShape pr true true .none [t0] .plain)
  | .fcmple pr t0 => some (mkShape pr true true .none [t0] .plain)
  | .fcmpun pr t0 => some (mkShape pr true true .none [t0] .plain)
  | .f2i pr _ _ t0 => some (mkShape pr true false .none [t0] .plain)
  | .f2n pr _ _ t0 => some (mkShape pr true false .none [t0] .plain)
  | .i2f pr _ _ t0 => some (mkShape pr true false .none [t0] .plain)
  | .n2f pr _ _ t0 => some (mkShape pr true false .none [t0] .plain)
  | .fclass pr t0 => some (mkShape pr true false .none [t0] .plain)
  | .fscale pr _ t0 t1 => some (mkShape pr true true .none [t0, t1] .plain)
  | .frndRne pr t0 => some (mkShape pr true false .none [t0] .plain)
  | .frndRz pr t0 => some (mkShape pr true false .none [t0] .plain)
  | .frndRu pr t0 => some (mkShape pr true false .none [t0] .plain)
  | .frndRd pr t0 => some (mkShape pr true false .none [t0] .plain)
  | .vbcast pr _ t0 t1 => some (mkShape pr true false .none [t0, t1] .plain)
  | .vextr pr _ t0 => some (mkShape pr true false .none [t0] .plain)
  | .vins pr _ t0 => some (mkShape pr true true .none [t0] .plain)
  | .vshuf pr _ t0 t1 => some (mkShape pr true true .none [t0, t1] .plain)
  | .vredSum pr t0 => some (mkShape pr true false .none [t0] .plain)
  | .vredFsum pr t0 => some (mkShape pr true false .none [t0] .plain)
  | .vredMin pr t0 => some (mkShape pr true false .none [t0] .plain)
  | .vredMax pr t0 => some (mkShape pr true false .none [t0] .plain)
  | .vredFmin pr t0 => some (mkShape pr true false .none [t0] .plain)
  | .vredFmax pr t0 => some (mkShape pr true false .none [t0] .plain)
  | .vredAnd pr t0 => some (mkShape pr true false .none [t0] .plain)
  | .vredOr pr t0 => some (mkShape pr true false .none [t0] .plain)
  | .vredXor pr t0 => some (mkShape pr true false .none [t0] .plain)
  | .vscanSum pr t0 => some (mkShape pr true false .none [t0] .plain)
  | .vscanFsum pr t0 => some (mkShape pr true false .none [t0] .plain)
  | .mand pr t0 => some (mkShape pr true true .none [t0] .plain)
  | .mor pr t0 => some (mkShape pr true true .none [t0] .plain)
  | .mnot pr t0 => some (mkShape pr true false .none [t0] .plain)
  | .mpopc pr t0 => some (mkShape pr true false .none [t0] .plain)
  | .mfirst pr t0 => some (mkShape pr true false .none [t0] .plain)
  | .mfroms pr t0 => some (mkShape pr true false .none [t0] .plain)
  | .mtos pr t0 => some (mkShape pr true false .none [t0] .plain)
  | .vidx pr _ t0 => some (mkShape pr true false .none [t0] .plain)
  | .vslide pr _ t0 => some (mkShape pr true true .none [t0] .plain)
  | .vcomp pr _ t0 t1 => some (mkShape pr true true .none [t0, t1] .plain)
  | .ldB pr lsid t0 => some (memShape pr true false lsid t0 .load)
  | .ldH pr lsid t0 => some (memShape pr true false lsid t0 .load)
  | .ldW pr lsid t0 => some (memShape pr true false lsid t0 .load)
  | .ldD pr lsid t0 => some (memShape pr true false lsid t0 .load)
  | .ldL pr lsid t0 => some (memShape pr true false lsid t0 .load)
  | .stB pr lsid t0 => some (memShape pr true true lsid t0 .store)
  | .stH pr lsid t0 => some (memShape pr true true lsid t0 .store)
  | .stW pr lsid t0 => some (memShape pr true true lsid t0 .store)
  | .stD pr lsid t0 => some (memShape pr true true lsid t0 .store)
  | .stL pr lsid t0 => some (memShape pr true true lsid t0 .store)
  | .ldrB pr lsid t0 => some (memShape pr true false lsid t0 .load)
  | .ldrH pr lsid t0 => some (memShape pr true false lsid t0 .load)
  | .ldrW pr lsid t0 => some (memShape pr true false lsid t0 .load)
  | .ldrD pr lsid t0 => some (memShape pr true false lsid t0 .load)
  | .ldrQ pr lsid t0 => some (memShape pr true false lsid t0 .load)
  | .ldrO pr lsid t0 => some (memShape pr true false lsid t0 .load)
  | .ldrL pr lsid t0 => some (memShape pr true false lsid t0 .load)
  | .strB pr lsid t0 => some (memShape pr true true lsid t0 .store)
  | .strH pr lsid t0 => some (memShape pr true true lsid t0 .store)
  | .strW pr lsid t0 => some (memShape pr true true lsid t0 .store)
  | .strD pr lsid t0 => some (memShape pr true true lsid t0 .store)
  | .strQ pr lsid t0 => some (memShape pr true true lsid t0 .store)
  | .strO pr lsid t0 => some (memShape pr true true lsid t0 .store)
  | .strL pr lsid t0 => some (memShape pr true true lsid t0 .store)
  | .amoAadd pr lsid _ _ t0 => some (memShape pr true true lsid t0 .amo)
  | .amoAand pr lsid _ _ t0 => some (memShape pr true true lsid t0 .amo)
  | .amoAor pr lsid _ _ t0 => some (memShape pr true true lsid t0 .amo)
  | .amoAxor pr lsid _ _ t0 => some (memShape pr true true lsid t0 .amo)
  | .amoAmin pr lsid _ _ t0 => some (memShape pr true true lsid t0 .amo)
  | .amoAmax pr lsid _ _ t0 => some (memShape pr true true lsid t0 .amo)
  | .amoAminn pr lsid _ _ t0 => some (memShape pr true true lsid t0 .amo)
  | .amoAmaxn pr lsid _ _ t0 => some (memShape pr true true lsid t0 .amo)
  | .amoAxchg pr lsid _ _ t0 => some (memShape pr true true lsid t0 .amo)
  | .amoAcas pr lsid _ _ t0 => some (memShape pr true true lsid t0 .amo)
  | .fenceLocal pr lsid t0 => some (memShape pr false false lsid t0 .plain)
  | .fenceRect pr lsid t0 => some (memShape pr true false lsid t0 .plain)
  | .fenceCluster pr lsid t0 => some (memShape pr false false lsid t0 .plain)
  | .fenceRegion pr lsid t0 => some (memShape pr false false lsid t0 .plain)
  | .acq pr lsid t0 => some (memShape pr true true lsid t0 .plain)
  | .rel pr lsid t0 => some (memShape pr true true lsid t0 .plain)
  | .bind pr t0 => some (mkShape pr true true .data [t0] .plain)
  | .unbind pr t0 => some (mkShape pr true true .none [t0] .plain)
  | .lwait pr t0 => some (mkShape pr true true .none [t0] .plain)
  | .lwarm pr t0 => some (mkShape pr true true .none [t0] .plain)
  | .tcwait pr _ t0 => some (mkShape pr true false .none [t0] .plain)
  | .cwait pr t0 => some (mkShape pr true false .none [t0] .plain)
  | .sbind pr _ t0 => some (mkShape pr true false .none [t0] .plain)
  | .sunbind pr _ t0 => some (mkShape pr false false .none [t0] .plain)
  | .sskip pr _ t0 => some (mkShape pr true false .none [t0] .plain)
  | .sflush pr _ t0 => some (mkShape pr false false .none [t0] .plain)
  | .sstat pr _ t0 => some (mkShape pr false false .none [t0] .plain)
  | .copyLinear pr t0 => some (mkShape pr true false .none [t0] .plain)
  | .copyPlane pr t0 => some (mkShape pr true false .none [t0] .plain)
  | .copyTensor pr t0 => some (mkShape pr true false .none [t0] .plain)
  | .copyGather pr t0 => some (mkShape pr true false .none [t0] .plain)
  | .cseal pr t0 => some (mkShape pr false false .none [t0] .plain)
  | .mldb pr _ t0 => some (mkShape pr true true .none [t0] .plain)
  | .mq pr dep _ t0 => some (mkShape pr true true (if dep then .data else .none) [t0] .plain)
  | .mdrain pr dep _ t0 => some (mkShape pr true true (if dep then .data else .none) [t0] .plain)
  | .mzero pr _ t0 => some (mkShape pr false false .none [t0] .plain)
  | .mfence pr t0 => some (mkShape pr false false .none [t0] .plain)
  | .mstat pr t0 => some (mkShape pr false false .none [t0] .plain)
  | .send pr _ t0 => some (mkShape pr true true .none [t0] .sends)
  | .spawn pr t0 => some (mkShape pr true true .data [t0] .sends)
  | .mbpop pr t0 => some (mkShape pr false false .none [t0] .plain)
  | .mbpeek pr t0 => some (mkShape pr true false .none [t0] .plain)
  | .mbhw pr t0 => some (mkShape pr true false .none [t0] .plain)
  | .eos pr _ t0 => some (mkShape pr false false .none [t0] .sends)
  | .stealSplit pr t0 => some (mkShape pr false false .none [t0] .sends)
  | .stealRange pr t0 => some (mkShape pr false false .none [t0] .plain)
  | .csrr pr t0 => some (mkShape pr true false .none [t0] .plain)
  | .csrw pr t0 => some (mkShape pr true true .none [t0] .plain)
  | .resume pr t0 => some (mkShape pr true true .none [t0] .plain)
  | .resumeVal pr t0 => some (mkShape pr true true .data [t0] .plain)
  | .halt pr t0 => some (mkShape pr true false .none [t0] .plain)
  | .haltRegion pr t0 => some (mkShape pr false false .none [t0] .plain)
  | .wake pr t0 => some (mkShape pr true false .none [t0] .plain)
  | .ctxsv pr t0 => some (mkShape pr true true .data [t0] .plain)
  | .ctxrs pr t0 => some (mkShape pr true true .data [t0] .plain)
  | .xlati pr t0 => some (mkShape pr true true .none [t0] .plain)
  | .slotw pr t0 => some (mkShape pr true true .none [t0] .plain)
  | .pwrq pr t0 => some (mkShape pr false false .none [t0] .plain)
  | .pwrqSet pr t0 => some (mkShape pr true false .none [t0] .plain)
  | .bkpt pr _ t0 => some (mkShape pr false false .none [t0] .plain)
  | .pmark pr t0 => some (mkShape pr true false .none [t0] .plain)
  | .trc pr _ t0 => some (mkShape pr true false .none [t0] .plain)
  | .compactNop => some (mkShape .always false false .none [] .nop)
  | .compactMov t0 => some (mkShape .always true false .none [t0] .plain)
  | .compactAdd t0 => some (mkShape .always true true .none [t0] .plain)
  | .compactSub t0 => some (mkShape .always true true .none [t0] .plain)
  | .compactAnd t0 => some (mkShape .always true true .none [t0] .plain)
  | .compactOr t0 => some (mkShape .always true true .none [t0] .plain)
  | .compactXor t0 => some (mkShape .always true true .none [t0] .plain)
  | .compactShl t0 => some (mkShape .always true true .none [t0] .plain)
  | .compactShr t0 => some (mkShape .always true true .none [t0] .plain)
  | .not t0 => some (mkShape .always true false .none [t0] .plain)
  | .neg t0 => some (mkShape .always true false .none [t0] .plain)
  | .compactFadd t0 => some (mkShape .always true true .none [t0] .plain)
  | .compactFmul t0 => some (mkShape .always true true .none [t0] .plain)
  | .compactJoin t0 => some (mkShape .always true true .none [t0] .plain)
  | .compactNull t0 => some (mkShape .always true false .none [t0] .plain)
  | _ => none

/-! ## What a block asks of a shape -/

/-- The target fields of an instruction that name a target. -/
def Shape.goals (sh : Shape) : List Nat := (sh.targets.filter (· ≠ 1023)).map BitVec.toNat
/-- Whether an instruction has a slot: 0 left, 1 right, 2 predicate, 3 third (R80). -/
def Shape.hasSlot (sh : Shape) (n : Nat) : Bool :=
  sh.role ≠ .nop && (match n with
    | 0 => sh.left
    | 1 => sh.right
    | 2 => sh.pr ≠ .always
    | _ => sh.third ≠ .none)
/-- The register of a WRITE. -/
def Role.writes : Role → Option Reg
  | .write r => some r
  | _ => none
/-- Whether an instruction is one of STMASK's (R75). -/
def Role.stores : Role → Bool
  | .store | .amo => true
  | _ => false
/-- The slots that an instruction requires (R81). -/
def Shape.required (sh : Shape) (named : Bool) : List Nat :=
  (if sh.left then [0] else []) ++ (if sh.right then [1] else []) ++ (if sh.pr ≠ .always then [2] else []) ++
    (if sh.third = .data ∨ (sh.third = .order ∧ named) then [3] else [])

end Sys2Proof
end

