-- ==== Sys2Proof/Machine/Fire.lean ====
section
/-! DEFINITION. Firing (R79 to R87, R95): the cursor of the block in flight, the tokens that an
instruction receives, null and predicate, what a firing gives, and its record in the block. A firing
changes nothing but the block in flight, save for the requests that R305 and R307 make at once. -/

namespace Sys2Proof.Machine

open Sys2Proof

/-! ## The block in flight -/

/-- What has become of the instruction of an index. -/
def Flight.status (f : Flight) (ix : Nat) : IStat := AMap.get .idle ix f.stat
/-- Whether an instruction has come to its end: nothing more becomes of it (R87). -/
def IStat.final : IStat → Bool
  | .fired | .nulled | .dead | .faulted => true
  | .idle | .waiting => false
/-- Whether an instruction of this status has delivered no token and will deliver none (R87). -/
def IStat.silent : IStat → Bool
  | .dead | .faulted => true
  | _ => false
/-- Whether a dependence is over: a producer's index, or 256 above the index of an instruction that only
goes first (R93). -/
def Flight.depDone (f : Flight) (d : Nat) : Bool := (f.status (d % 256)).final
/-- Whether a dependence is a producer that will deliver nothing. -/
def Flight.depSilent (f : Flight) (d : Nat) : Bool := decide (d < 256) && (f.status d).silent
/-- Marks the instructions that can no longer fire, in an order in which producers come first (R87). -/
def Flight.sweep (f : Flight) : Flight :=
  f.order.foldl (fun f p =>
    if f.status p.1 = .idle ∧ p.2.any f.depSilent then { f with stat := AMap.ins p.1 .dead f.stat } else f) f
/-- The instruction that fires next: the first whose dependences are over. -/
def Flight.cursor (f : Flight) : Option Nat :=
  (f.order.find? fun p => f.status p.1 == .idle && p.2.all f.depDone).map Prod.fst
/-- Whether the block has settled (R87). -/
def Flight.settled (f : Flight) : Bool := f.order.all fun p => (f.status p.1).final

/-- Whether a token is null. -/
def Token.isNull : Token → Bool
  | .null => true
  | _ => false
/-- Whether a token is a scalar. -/
def Token.isScalar : Token → Bool
  | .scalar _ => true
  | _ => false
/-- Whether a token is a vector. -/
def Token.isVector : Token → Bool
  | .vector _ _ => true
  | _ => false
/-- The 64 bits of a scalar token; other tokens have none. -/
def Token.word : Token → Word
  | .scalar w => w
  | _ => 0

/-- The token that has reached a slot of an index: 0 left, 1 right, 2 predicate, 3 third (R80, R194). -/
def Flight.token (f : Flight) (ix slot : Nat) : Token := (AMap.find (4 * ix + slot) f.toks).getD .null
/-- Delivers a token to a target; 0x3FF is no target (R194). -/
def deliver (t : Token) (toks : AMap Token) (d : Target) : AMap Token :=
  if d = 1023 then toks else AMap.ins d.toNat t toks

/-! ## The instructions of a block -/

/-- The instructions of a body with their indices; index 255 holds none (R73). -/
def bodyInstrs : Nat → List (BitVec 32) → List (Nat × Instr)
  | _, [] => []
  | k, w :: ws =>
    (match decodeSlot w with
      | .ok (.one i) => [(2 * k, i)]
      | .ok (.pair i j) => if k = 127 then [(2 * k, i)] else [(2 * k, i), (2 * k + 1, j)]
      | .error _ => []) ++ bodyInstrs (k + 1) ws

/-- What instructions fire after one another though no token joins them: the appenders of matrix records
(R289), sends on a port (R241, R299), SBINDs of a slot (R283), CSEALs (R286), and CSRWs (R303). -/
def chainOf : Instr → Option Nat
  | .mldb _ _ _ | .mq _ _ _ _ | .mdrain _ _ _ _ | .mzero _ _ _ => some 0
  | .send _ _ _ | .eos _ _ _ => some 1
  | .cseal _ _ => some 2
  | .csrw _ _ => some 3
  | .sbind _ k _ => some (8 + k.toNat)
  | _ => none

/-! ## What a firing sees and gives -/

/-- What an instruction sees when it fires. -/
structure Fire where
  s     : State
  k     : Nat
  fl    : Flight
  ix    : Nat
  left  : Token
  right : Token
  third : Token
  en    : BitVec 8
  mask  : Bool

/-- The lower-indexed instructions of a chain that have not come to their end and count as ones that will fire non-null: none,
but where the chain has given way. One that an earlier attempt at the block has found nulled does not count (R289). -/
def Fire.unfired (c : Fire) (chain : Nat) : List Instr :=
  ((bodyInstrs 0 c.fl.body).filter fun p => decide (p.1 < c.ix) && chainOf p.2 == some chain && !(c.fl.status p.1).final &&
    !c.fl.nulls.contains p.1).map Prod.snd
/-- What a firing comes to. -/
inductive Given where
  /-- The token goes to every target. -/
  | deliver (t : Token)
  /-- The instruction is nulled: null goes to every target, nothing else happens (R83, R84). -/
  | null
  /-- It waits (R87). -/
  | wait
  /-- It faults (R91 cause 3): cause, SUB, FW2, FW3, FW4. -/
  | fault (c : Cause) (sub : Nat) (fw2 fw3 fw4 : Word)
  /-- It names a coordinate outside the region: the master is frozen (R342). -/
  | freeze (coord : Nat)

/-- A request that a firing makes at once (R305, R307). -/
inductive Side where
  | halt (tss : List Nat)
  | xlati (addr : Word) (ctx : Nat)
  /-- The block waits for an entry that will never be acknowledged: it is discarded (R140, R279). -/
  | drop

/-- The whole outcome of a firing. -/
structure Out where
  given : Given
  eff   : Option Effect := none
  flags : BitVec 7 := 0
  load  : Option (Nat × Nat) := none
  req   : Option LoadReq := none
  side  : Option Side := none

/-- Delivers a token and does nothing else. -/
def Out.tok (t : Token) : Out := { given := .deliver t }
/-- Delivers a token with flags (R116, R232). -/
def Out.flagged (t : Token) (fl : BitVec 7) : Out := { given := .deliver t, flags := fl }
/-- Delivers a token and does something at commit. -/
def Out.act (t : Token) (e : Effect) : Out := { given := .deliver t, eff := some e }
/-- A fault without address or value. -/
def Out.fault (c : Cause) : Out := { given := .fault c 0 0 0 0 }
/-- A fault with the address that it names (R368). -/
def Out.faultAt (c : Cause) (sub : Nat) (a : Word) : Out := { given := .fault c sub a 0 0 }
/-- The data-error fault of a poisoned line, with MARGIN (R375, R395). -/
def Fire.dataFault (c : Fire) (key n : Nat) (a : Word) : Out :=
  { given := .fault .dataError 0 a 0 (markWord 3 (c.s.marginAt key n)) }
/-- The operand-type fault (R82). -/
def Out.badType : Out := Out.fault .operandType
/-- The instruction is nulled. -/
def Out.null : Out := { given := .null }

/-! ## Energy classes (R403) -/

/-- The groups of instructions that R403 charges alike, a vector or lane-mask result apart. -/
inductive Grp where
  | plumb
  | int
  | mulDiv
  | float
  | slow
  | vec
  | mem
  deriving DecidableEq, Repr

/-- The class of a firing with a result. -/
def Grp.cls (g : Grp) (t : Token) : Nat :=
  let wide := match t with | .vector _ _ | .mask _ => true | _ => false
  match g with
  | .plumb => 0
  | .int => if wide then 5 else 1
  | .mulDiv => if wide then 5 else 2
  | .float => if wide then 5 else 3
  | .slow => if wide then 5 else 4
  | .vec => 5
  | .mem => 6

/-! ## Recording a firing -/

/-- Ends an instruction's firing with a token for every target. -/
def Flight.finish (f : Flight) (ix cls : Nat) (st : IStat) (ts : List Target) (t : Token) : Flight :=
  { f with stat := AMap.ins ix st f.stat, toks := ts.foldl (deliver t) f.toks,
           counts := AMap.ins ix (cls + 1) f.counts }

/-- Keeps the bytes that stand where a firing reads them from the tile's pool (R94, R150). -/
def State.sees (s : State) (k : Nat) (f : Flight) (load : Option (Nat × Nat)) : Flight :=
  { f with seen := match load with | some p => s.bytes (poolKey (tileOf k) p.1) p.2 :: f.seen | none => f.seen }

/-- The token of an instruction that is nulled: null (R83, R84, R268), but from a store, which resolves as nulled, a
completion token (R95, R270, R273; assumption 65). -/
def nulledToken (sh : Shape) : Token := if sh.role = .store then .completion else .null

/-- Records what a firing has given. -/
def Flight.record (f : Flight) (sh : Shape) (g : Grp) (ix : Nat) (o : Out) : Flight :=
  let f := match o.eff with | some e => { f with effs := AMap.ins ix e f.effs } | none => f
  let f := match o.req with | some q => { f with reqs := AMap.ins ix q f.reqs } | none => f
  let f := match o.load with
    | some p => { f with loads := p :: f.loads, counts := AMap.ins (512 + ix) (units8 p.2) f.counts }
    | none => f
  match o.given with
  | .deliver t => { f.finish ix (g.cls t) .fired sh.targets t with raised := f.raised ||| o.flags }
  | .null => { f.finish ix (g.cls .null) .nulled sh.targets (nulledToken sh) with effs := AMap.del ix f.effs }
  | .wait => { f with stat := AMap.ins ix .waiting f.stat, counts := AMap.ins ix (g.cls .null + 1) f.counts }
  | .fault c sub a b d =>
    { f with stat := AMap.ins ix .faulted f.stat, faults := AMap.ins ix ⟨c, ix, sub, a, b, d⟩ f.faults,
             counts := AMap.ins ix (g.cls .null + 1) f.counts }
  | .freeze coord =>
    { f with stat := AMap.ins ix .faulted f.stat, counts := AMap.ins ix (g.cls .null + 1) f.counts,
             freeze := match f.freeze with | some x => some x | none => some (ix, coord) }

/-- The lanes that a lane-mask predicate enables (R83). -/
def enabled (pr : Pr) (m : BitVec 8) : BitVec 8 := match pr with | .onFalse => ~~~m | _ => m

/-- What the predicate decides (R83): all lanes, some lanes, nothing, or a type it cannot have. -/
inductive Pred where
  | go (en : BitVec 8) (mask : Bool)
  | skip
  | bad
  deriving DecidableEq, Repr

/-- Reads the predicate token. -/
def predicate (pr : Pr) (t : Token) : Pred :=
  match pr, t with
  | .always, _ => .go 255 false
  | _, .null => .skip
  | .onTrue, .scalar w => if w = 0 then .skip else .go 255 false
  | .onFalse, .scalar w => if w = 0 then .go 255 false else .skip
  | _, .mask m => .go (enabled pr m) true
  | _, _ => .bad

/-- The firing of an instruction of a shape (R81 to R85): a null operand nulls it unless `nullOk`, then
the predicate, then its own rule. A lane-mask predicate is a type fault unless `maskOk`. -/
def outcome (sh : Shape) (maskOk nullOk : Bool) (body : Fire → Out) (s : State) (k : Nat) (f : Flight) (ix : Nat) : Out :=
  let l := f.token ix 0
  let r := f.token ix 1
  let t := f.token ix 3
  match predicate sh.pr (f.token ix 2) with
  | .skip => Out.null
  | p =>
    if !nullOk && ((sh.left && l.isNull) || (sh.right && r.isNull) || (sh.third == .data && t.isNull)) then Out.null
    else match p with
      | .go en m => if m && !maskOk then Out.badType else body ⟨s, k, f, ix, l, r, t, en, m⟩
      | _ => Out.badType

/-- Whether XLATI of an address drops a leaf: every one of the context for address 0, else that of its page (R307). -/
def Tlb.drops (e : Tlb) (a : Word) (ctx : Nat) : Bool :=
  decide (e.ctx = ctx) && (decide (a = 0) || decide (e.page = a.toNat % 2 ^ 57 / 2 ^ e.bits))
/-- XLATI at the entry ports (R307, R341): the cached leaves are dropped, and a request that has been walked through one
of them and is not performed yet is walked again. -/
def State.invalidate (s : State) (a : Word) (ctx : Nat) : State :=
  let out := s.tlb.filter fun e => e.drops a ctx
  { s with
    tlb := s.tlb.filter fun e => !e.drops a ctx,
    dreqs := s.dreqs.map fun d =>
      if (d.phys matches .at _) ∧ (s.region d.rgn).ctx = ctx ∧
          (a = 0 ∨ out.any fun e => e.port == d.port && decide (e.page = ofBytes (d.body.take 8) % 2 ^ 57 / 2 ^ e.bits)) then
        { d with phys := .unwalked }
      else d }

/-- Stops a thread set between blocks at a request (R98, R305): its block in flight is discarded. -/
def State.applySide (s : State) (side : Option Side) : State :=
  match side with
  | some (.halt tss) => tss.foldl State.halt s
  | some (.xlati a ctx) => s.invalidate a ctx
  | some .drop | none => s

/-- FIRES an instruction at the cursor of the block in flight on the thread set that the schedule has
chosen. -/
def State.fire (s : State) (sh : Shape) (g : Grp) (maskOk nullOk : Bool) (body : Fire → Out) : Res :=
  match s.flight s.focus with
  | none => .refused .noBlock
  | some f =>
    match f.cursor with
    | none => .refused .noBlock
    | some ix =>
      let o := outcome sh maskOk nullOk body s s.focus f ix
      if o.side matches some .drop then .next ((s.discard s.focus).boundary s.focus)
      else .next ((s.applySide o.side).setFlight s.focus ((s.sees s.focus f o.load).record sh g ix o).sweep)

/-! ## Lanes (R218) -/

/-- The null lanes of a token; a scalar has none. -/
def Token.nulls : Token → BitVec 8
  | .vector _ n => n
  | _ => 0
/-- Lane i of a token; a scalar is broadcast (R218). -/
def Token.lane (t : Token) (i : Nat) : Word :=
  match t with
  | .scalar w => w
  | .vector v _ => v.get i
  | _ => 0
/-- One bit of a lane mask. -/
def maskBit (m : BitVec 8) (i : Nat) : Bool := m.toNat / 2 ^ i % 2 == 1
/-- Whether lane i of a token is null. -/
def Token.laneNull (t : Token) (i : Nat) : Bool := maskBit t.nulls i

/-- Flags of FLAGS[6:0] (R103). -/
abbrev Flags := BitVec 7

/-- A result with flags for each lane that computes; absent lanes are null (R218, R245). -/
def lanes (f : Nat → Option (Word × Flags)) : Token × Flags :=
  let r := laneList.map f
  let at_ (i : Nat) : Option (Word × Flags) := (r.getD i none)
  (.vector (Vec.ofFn fun i => match at_ i with | some p => p.1 | none => 0) (mask8 fun i => (at_ i).isNone),
   r.foldl (fun a p => match p with | some q => a ||| q.2 | none => a) 0)

/-- Whether a token is a scalar or a vector. -/
def Token.isData (t : Token) : Bool := t.isScalar || t.isVector

/-- `lanewise` of R218 for up to three operands: scalars give a scalar, a vector among them gives a
vector. -/
def lanewise (a b c : Token) (en : BitVec 8) (f : Word → Word → Word → Word × Flags) : Token × Flags :=
  if a.isScalar && b.isScalar && c.isScalar then
    let r := f a.word b.word c.word
    (.scalar r.1, r.2)
  else
    lanes fun i =>
      if a.laneNull i || b.laneNull i || c.laneNull i || !maskBit en i then none
      else some (f (a.lane i) (b.lane i) (c.lane i))

/-- A compare (R233, R252): a scalar 1 or 0, or a lane mask whose null and disabled lanes are 0. -/
def compare (a b : Token) (en : BitVec 8) (f : Word → Word → Bool × Flags) : Token × Flags :=
  if a.isScalar && b.isScalar then
    let r := f a.word b.word
    (.scalar (if r.1 then 1 else 0), r.2)
  else
    let r := laneList.map fun i =>
      if a.laneNull i || b.laneNull i || !maskBit en i then (false, (0 : Flags)) else f (a.lane i) (b.lane i)
    (.mask (mask8 fun i => (r.getD i (false, 0)).1), r.foldl (fun x p => x ||| p.2) 0)

end Sys2Proof.Machine
end

