-- ==== Sys2Proof/Machine/Remote.lean ====
section
/-! DEFINITION. Posted stores, atomics and remote loads (R136 to R147, R272, R273, R275, R279): the
journal's entries on their way, their performance at the destination, acknowledgement, refusal and
replies. -/

namespace Sys2Proof.Machine

open Sys2Proof

/-! ## The journal -/

/-- The journal entry of a number. -/
def ThreadSet.entry (a : ThreadSet) (n : Nat) : Option JEntry := a.eng.journal.find? fun e => e.num == n
/-- Changes a journal entry. -/
def ThreadSet.updEntry (a : ThreadSet) (n : Nat) (f : JEntry → JEntry) : ThreadSet :=
  { a with eng := { a.eng with journal := a.eng.journal.map fun e => if e.num = n then f e else e } }
/-- Frees a journal entry (R137). -/
def ThreadSet.freeEntry (a : ThreadSet) (n : Nat) : ThreadSet :=
  { a with eng := { a.eng with journal := a.eng.journal.filter fun e => e.num ≠ n } }
/-- Whether an entry is still neither acknowledged nor refused: a refusal counts once it has been reported. -/
def JEntry.openYet (e : JEntry) : Bool :=
  match e.state with | .acked => false | .refused _ r => !r | _ => true
/-- Whether the entries that an entry waits for are settled (R144, R147, R276). -/
def ThreadSet.afterDone (a : ThreadSet) (e : JEntry) : Bool :=
  a.eng.journal.all fun j => !(e.after.contains j.seq && j.openYet)
/-- Posting order (R138): sequences compared modulo 2^32. -/
def seqBefore (a b : Nat) : Bool :=
  let d := (b + 2 ^ 32 - a) % 2 ^ 32
  decide (1 ≤ d) && decide (d < 2 ^ 31)
/-- Where an access of a tile to DRAM begins: its physical address, whatever page leads there (R138, R139); 5 and the address as
asked while it has no translation. -/
def State.dramSpot (s : State) (t port a : Nat) : Nat × Nat :=
  match s.frameOf (s.rgnOf t) port a with | some q => (1, q) | none => (5, a)
/-- What orders two entries of a tile: the same destination tile, or the same 64-byte DRAM line at the owning stack (R138,
R177). -/
def State.placeOf (s : State) (t : Nat) : Dest → Nat × Nat
  | .pool d _ => (0, d)
  | .csr d _ => (0, d)
  | .dram p a => ((s.dramSpot t p a).1, (s.dramSpot t p a).2 / 64)
  | .noPath => (2, 0)
  | .withdrawn => (3, 0)
  | .outside c => (4, c)
/-- Whether every entry posted earlier to the same place has been performed (R138). -/
def State.inOrder (s : State) (k : Nat) (e : JEntry) : Bool :=
  let t := tileOf k
  let p := s.placeOf t (s.destOf t e.addr)
  (s.ts k).eng.journal.all fun j =>
    !(seqBefore j.seq e.seq && s.placeOf t (s.destOf t j.addr) == p && (j.state == .pending || j.state == .held || j.state == .withheld || j.state == .lost))

/-- Adds to some posting sequences those of the entries that wait for one of them: they are posted after it, or performed at the
same place after it (R138, R144, R147). The fuel is the number of rounds. -/
def State.behind (s : State) (k : Nat) : Nat → List Nat → List Nat
  | 0, l => l
  | n + 1, l =>
    let t := tileOf k
    let j := (s.ts k).eng.journal
    s.behind k n (l ++ ((j.filter fun e => (e.state == .held || e.state == .pending) && !l.contains e.seq &&
      j.any fun x => l.contains x.seq && (e.after.contains x.seq ||
        (seqBefore x.seq e.seq && s.placeOf t (s.destOf t x.addr) == s.placeOf t (s.destOf t e.addr)))).map JEntry.seq))
/-- Whether an entry will never be acknowledged before its thread set has stopped: it is a withheld update (R279), or it waits for
one. -/
def State.never (s : State) (k : Nat) (e : JEntry) : Bool :=
  let ws := ((s.ts k).eng.journal.filter fun x => x.state == .withheld).map JEntry.seq
  !ws.isEmpty && (s.behind k 32 ws).contains e.seq

/-- Whether nothing but the priorities at its entry port keeps an entry from being performed: it is posted, in order, held by no
boundary (R138, R412), and has its ticket (R427). -/
def State.performReady (s : State) (k n : Nat) (atomic : Bool) : Bool :=
  let t := tileOf k
  match (s.ts k).entry n with
  | none => false
  | some e =>
    (match e.kind with | .atomic _ _ => atomic | _ => !atomic) &&
    (e.state == .pending || (e.state == .held && (e.kind == .store || e.kind == .csr) && (s.ts k).afterDone e)) &&
    s.inOrder k e &&
    !s.heldTo t (s.destOf t e.addr) &&
    s.ticketOk (s.rgnOf t) t (tsNum k) 0

/-- A space-4 store at its register: 8 bytes, allowed to the issuer, in range (R331); an ignored write has no
range. -/
def State.csrStoreAt (s : State) (t d n : Nat) (bs : Bytes) : Got × State :=
  let v := word (ofBytes (bs.map (·.getD 0)))
  if bs.length = 8 && csrWriteOk (s.level t) n && (s.csrValueOk (s.level t) d n v || !csrWrites (s.level t) n) then
    (.bytes [], if csrWrites (s.level t) n then s.csrWrite d n v else s)
  else (.refused 8 false, s)

/-- Performs a store, a REL update or a space-4 store at its destination (R136, R144, R331). -/
def State.performEntry (s : State) (k : Nat) (e : JEntry) : Got × State :=
  let t := tileOf k
  let d := s.destOf t e.addr
  match e.kind, d with
  | .rel, d => s.amoAt t d ⟨0, true, 0, 1, 0⟩ e.missed
  | .atomic o _, d => s.amoAt t d o e.missed
  | _, .csr c n => s.csrStoreAt t c n e.bytes
  | _, d => s.writeAt t d e.bytes e.missed

/-- The entry port that an access goes through. -/
def Dest.port? : Dest → Option Nat
  | .dram p _ => some p
  | _ => none
/-- An entry port that serves a request counts it ahead of all others that wait there (R363). -/
def State.portServed (s : State) (d : Dest) : State :=
  match d.port? with
  | none => s
  | some p =>
    let here (k : Nat) (a : Word) : Bool := (s.destOf (tileOf k) a).port? == some p
    { s with
      dreqs := s.dreqs.map fun q => if q.port = p then { q with ahead := q.ahead + 1 } else q,
      tss := s.tss.map fun x => (x.1, { x.2 with eng := { x.2.eng with
        journal := x.2.eng.journal.map fun e => if e.state = .pending ∧ here x.1 e.addr then { e with ahead := e.ahead + 1 } else e,
        copies := x.2.eng.copies.map fun c => if here x.1 c.desc.src ∨ here x.1 c.desc.dst then { c with ahead := c.ahead + 1 } else c } }),
      flights := s.flights.map fun x => (x.1, { x.2 with
        reqs := x.2.reqs.map fun q => if q.2.reply = .asked ∧ here x.1 q.2.addr then (q.1, { q.2 with ahead := q.2.ahead + 1 }) else q }) }
/-- Hops of a request of a tile to a destination. -/
def State.destHops (t : Nat) : Dest → Nat
  | .pool d _ => hops t d
  | .csr d _ => hops t d
  | .dram p _ => hops t (portTile p)
  | _ => 0
/-- Charges the flits of a request and its reply to the tile that issues it and to the one that serves it (R402). -/
def State.chargeHops (s : State) (t : Nat) (d : Dest) (n : Nat) : State :=
  let units := Config.requestFlits n * State.destHops t d
  let s := s.charge t (s.ctxOf t) 8 units
  match d with
  | .pool u _ | .csr u _ => s.charge u (s.ctxOf t) 8 units
  | _ => s

/-- An addition to a declared collective's word is recorded; one that brings the word to members × period ends the period,
and the member's wait, from its own addition, is kept with the period's length (R399, R436). -/
def Coll.added (c : Coll) (own : Bool) (now value : Nat) : Coll :=
  let adds := c.adds ++ [(own, now)]
  if value = c.members * (c.period + 1) then
    let mine := match adds.find? Prod.fst with | some p => p.2 | none => now
    { c with period := c.period + 1, start := now, adds := [], waits := c.waits ++ [(now - mine, now - c.start)] }
  else { c with adds := adds }
/-- The clock by which an entry port of a region records when additions are performed (R436). -/
def State.portClock (s : State) (r : Nat) : Nat :=
  match s.portFor r ((s.region r).physOf 0) with | some p => (s.tile (portTile p)).cycle | none => 0
/-- An addition at an entry port of a region: this module's own, or another member's (R436). -/
def State.collAdded (s : State) (r port a : Nat) (own : Bool) : State :=
  match (s.dramAddr r port a .both).1 with
  | .at p =>
    let now := s.portClock r
    s.updLinks fun l => { l with colls := l.colls.map fun c => if c.rgn = r ∧ c.addr = a then c.added own now (s.num p 8) else c }
  | _ => s
/-- Whether a performed entry is an addition: a REL update or an AADD (R144, R274). -/
def JKind.adds : JKind → Bool
  | .rel => true
  | .atomic o _ => o.op == 0
  | _ => false

/-- The entry is performed, or refused with its cause (R138, R140). -/
def State.remotePerform (s : State) (k n : Nat) : State :=
  let t := tileOf k
  let r := s.rgnOf t
  match (s.ts k).entry n with
  | none => s
  | some e =>
    let d := s.destOf t e.addr
    let here := s.inDram t d
    let s := ((s.ticket r t (tsNum k) 0).chargeHops t d e.size).portServed d
    match s.performEntry k e with
    | (.bytes bs, s) =>
      let s := s.updTs k fun a => a.updEntry n fun e => { e with state := .done, old := ofBytes bs, dram := here }
      match d with
      | .dram p a => if e.kind.adds then s.collAdded r p a true else s
      | _ => s
    | (.refused c m, s) => s.updTs k fun a => a.updEntry n fun e => { e with state := .refused c false, old := m.toNat }


/-- Emits the sends that waited for REL updates, and holes among them, while they can leave (R146). The fuel is their
number. -/
def State.drainSends (s : State) (k : Nat) : Nat → State
  | 0 => s
  | n + 1 =>
    match (s.ts k).outs with
    | o :: rest => if (o.send || o.isHole) && s.canToken k then ((s.updTs k fun a => { a with outs := rest }).emitOut k o).drainSends k n else s
    | [] => s

/-- Whether an acknowledgement of an entry can come: it has been performed and is no atomic. -/
def State.canAck (s : State) (k n : Nat) : Bool :=
  match (s.ts k).entry n with
  | some e => e.state == .done && (match e.kind with | .atomic _ _ => false | _ => true)
  | none => false
/-- Charges the DRAM access of an entry that is acknowledged or answered (R402). -/
def State.chargeEntry (s : State) (k n : Nat) : State :=
  match (s.ts k).entry n with
  | some e => if e.dram then s.charge (tileOf k) (s.ctxOf (tileOf k)) 13 ((e.size + 63) / 64) else s
  | none => s
/-- JOURNAL_ACK (R137, R144, R146): the entry is free, and what waited for it may go on. -/
def State.journalAck (s : State) (k n : Nat) : State :=
  let s := (s.chargeEntry k n).updTs k fun a => a.freeEntry n
  ((s.drainSends k (s.ts k).outs.length).tryFree k).wakeAll
/-- JOURNAL_ACK. -/
def execJournalAck (ts ent : Nat) (s : State) : Res :=
  whenEnabled "JOURNAL_ACK" (s.canAck ts ent) (s.journalAck ts ent)

/-- Register keys: s0 to s31, v0 to v31, ox0 to ox3. -/
def regKey : Reg → Nat
  | .s n => n.toNat
  | .v n => 32 + n.toNat
  | .ox n => 64 + n.toNat

/-- Whether a coordinate lies in a rectangle word (R142). -/
def inRect (w : Word) (c : Nat) : Bool :=
  decide (field w 0 10 ≤ cx c) && decide (cx c ≤ field w 20 10) && decide (field w 10 10 ≤ cy c) && decide (cy c ≤ field w 30 10)

/-- Whether a FENCE of a kind covers an entry's destination (R141): 1 rectangle, 2 the tile's cluster, 3
the whole region; DRAM entries always, space-4 entries under REGION. A withdrawn coordinate lies where it lay before
it was withdrawn. -/
def State.fenceCovers (s : State) (t kind : Nat) (rect : Word) (e : JEntry) : Bool :=
  match space e.addr with
  | 3 => decide (kind ≠ 0)
  | 4 => decide (kind = 3)
  | _ =>
    let c := packXY (field e.addr 50 10) (field e.addr 40 10)
    match kind, s.destOf t e.addr with
    | 1, .pool d _ => inRect rect (s.tile d).coord
    | 2, .pool d _ => decide (clusterOf d = clusterOf t)
    | 1, .withdrawn => inRect rect c
    | 2, .withdrawn => decide (clusterOf ((s.region (s.rgnOf t)).physOf c) = clusterOf t)
    | 3, _ => true
    | _, _ => false

/-- Whether bytes of a tile's access meet those of an entry of its journal, wherever both lead (R134, R139). -/
def State.entryMeets (s : State) (t : Nat) (e : JEntry) (a : Word) (n : Nat) : Bool :=
  match s.destOf t a, s.destOf t e.addr with
  | .pool d o, .pool u p => d == u && decide (o < p + e.size) && decide (p < o + n)
  | .dram q o, .dram r p =>
    let x := s.dramSpot t q o
    let y := s.dramSpot t r p
    x.1 == y.1 && decide (x.2 < y.2 + e.size) && decide (y.2 < x.2 + n)
  | .csr d o, .csr u p => d == u && o == p
  | _, _ => false
/-- Whether a block in flight waits, in a REL or a FENCE, for an entry (R140). -/
def State.blockWaitsOn (s : State) (k : Nat) (e : JEntry) : Bool :=
  match s.flight k with
  | none => false
  | some f => f.effs.any fun p => !(f.status p.1).final && (match p.2 with
    | .fence _ kind rect => s.fenceCovers (tileOf k) kind rect e
    | .relUpd _ obj => e.objs.contains obj
    | _ => false)
/-- Whether a load of the block in flight waits for an entry to be performed (R139). -/
def State.loadWaitsOn (s : State) (k : Nat) (e : JEntry) : Bool :=
  match s.flight k with
  | none => false
  | some f => f.reqs.any fun q => q.2.reply == .asked && s.entryMeets (tileOf k) e q.2.addr q.2.size

/-- A refused entry's fault (R140, R368): the entry number and posting sequence, the address, the cause. -/
def refusalInfo (e : JEntry) (sub : Nat) (tableMark : Bool) : FaultInfo :=
  ⟨.storeRefused, 255, sub, e.said, word (at_ 32 5 e.num + at_ 0 32 e.seq), markWord sub tableMark⟩

/-- Whether a refusal of an entry can be reported: a RUN that clears the earlier run lets none (R353). -/
def State.canRefuse (s : State) (k n : Nat) : Bool :=
  match (s.ts k).entry n with
  | some e => (match e.state with | .refused _ r => !r | _ => false) && decide ((s.region (s.rgnOf (tileOf k))).cut.why ≠ 2)
  | none => false
/-- JOURNAL_REFUSAL (R92, R137, R140, R146, R279): a pending register stops being pending unchanged, a REL that waits
for a refused bound entry is withheld, packets that wait for a refused REL update never leave, a block that waits for
the entry or for the withheld update is discarded, and the thread set stops at its next block boundary; when the fault token has been sent the
entry is free. -/
def State.journalRefusal (s : State) (k n : Nat) : State :=
  match (s.ts k).entry n with
  | none => s
  | some e =>
    let sub := match e.state with | .refused c _ => c | _ => 0
    let stuck (x : JEntry) : Bool := x.kind == .rel && x.state == .held && x.after.contains e.seq &&
      e.objs.contains x.said
    let waits := s.blockWaitsOn k e || (s.ts k).eng.journal.any fun x => stuck x && (s.blockWaitsOn k x || s.loadWaitsOn k x)
    let s := if waits then s.discard k else s
    let busy := (s.flight k).isSome
    let s := s.updTs k fun a =>
      let still := a.stops.cut || a.stops.trellis || busy
      let j := ((a.eng.journal.filter fun x => still || decide (x.num ≠ n)).map fun x =>
        if stuck x then { x with state := .withheld } else if x.num = n then { x with state := .refused sub true } else x)
      { a with eng := { a.eng with
          journal := j, relLost := a.eng.relLost || e.kind == .rel,
          pend := match e.kind with | .atomic _ (some r) => AMap.del (regKey r) a.eng.pend | _ => a.eng.pend } }
    (s.asyncFault k (refusalInfo e sub (e.old = 1))).wakeAll
/-- JOURNAL_REFUSAL. -/
def execJournalRefusal (ts ent : Nat) (s : State) : Res :=
  whenEnabled "JOURNAL_REFUSAL" (s.canRefuse ts ent) (s.journalRefusal ts ent)

/-- Writes a register as a WRITE at commit would (R85, R99, R373). -/
def Regs.writeScalar (r : Regs) (d : Reg) (w : Word) : Regs :=
  match d with
  | .s n => if n = 0 then r else { r with s := AMap.put 0 n.toNat w r.s }
  | .v n => { r with v := AMap.put Vec.zero n.toNat (Vec.splat w) r.v }
  | .ox n => { r with ox := AMap.put 0 n.toNat w r.ox }

/-- Whether the reply of a remote atomic can come. -/
def State.canAmoReply (s : State) (k n : Nat) : Bool :=
  match (s.ts k).entry n with
  | some e => e.state == .done && (match e.kind with | .atomic _ _ => true | _ => false) &&
      s.ticketOk (s.rgnOf (tileOf k)) (tileOf k) (tsNum k) 1
  | none => false
/-- AMO_REPLY (R92, R275, R427): the register that the AMO left pending takes the old value. -/
def State.amoReply (s : State) (k n : Nat) : State :=
  match (s.ts k).entry n with
  | none => s
  | some e =>
    let s := ((s.ticket (s.rgnOf (tileOf k)) (tileOf k) (tsNum k) 1).chargeEntry k n).updTs k fun a =>
      let a := a.freeEntry n
      match e.kind with
      | .atomic _ (some r) => { a with regs := a.regs.writeScalar r (word e.old), eng := { a.eng with pend := AMap.del (regKey r) a.eng.pend } }
      | _ => a
    (s.tryFree k).wakeAll
/-- AMO_REPLY. -/
def execAmoReply (ts ent : Nat) (s : State) : Res :=
  whenEnabled "AMO_REPLY" (s.canAmoReply ts ent) (s.amoReply ts ent)

/-- Whether a held entry of a kind can be posted: what it waits for is settled (R144, R147). -/
def State.canPost (s : State) (k n : Nat) (rel : Bool) : Bool :=
  match (s.ts k).entry n with
  | some e => e.state == .held && !s.gatedAt (tileOf k) && (match e.kind with | .rel => rel | .atomic _ _ => !rel | _ => false) && (s.ts k).afterDone e
  | none => false
/-- The entry is posted. -/
def State.postEntry (s : State) (k n : Nat) : State := s.updTs k fun a => a.updEntry n fun e => { e with state := .pending }
/-- REL_UPDATE_POST (R144, R279). -/
def execRelUpdatePost (ts ent : Nat) (s : State) : Res :=
  whenEnabled "REL_UPDATE_POST" (s.canPost ts ent true) (s.postEntry ts ent)
/-- RELEASE_AMO_POST (R147, R275). -/
def execReleaseAmoPost (ts ent : Nat) (s : State) : Res :=
  whenEnabled "RELEASE_AMO_POST" (s.canPost ts ent false) (s.postEntry ts ent)

/-- Whether an acquire AMO of an earlier block has not been answered (R147, R275). -/
def Fire.acquiring (c : Fire) : Bool :=
  (c.s.ts c.k).eng.journal.any fun e => e.openYet && (match e.kind with | .atomic o _ => o.ord == 1 | _ => false)
/-- A wait for some journal entries: one for an entry that will never be acknowledged discards the block, so that the thread set
can stop (R140, R279). -/
def Fire.waitsFor (c : Fire) (p : JEntry → Bool) (o : Out) : Out :=
  if (c.s.ts c.k).eng.journal.any fun e => p e && c.s.never c.k e then { o with side := some .drop } else o
/-- What a firing that reads or writes memory comes to: while an acquire AMO is unanswered it waits (R147, R275). -/
def Fire.afterAcquire (c : Fire) (o : Out) : Out :=
  if c.acquiring then c.waitsFor (fun e => match e.kind with | .atomic o _ => o.ord == 1 | _ => false) { given := .wait } else o
/-- The waiting outcome that keeps what the instruction will do. -/
def Out.waitWith (e : Effect) : Out := { given := .wait, eff := some e }

/-! ## Remote loads (R139, R272) -/

/-- Whether a pending entry of the thread set covers bytes that a load reads (R139). -/
def State.ownPending (s : State) (k : Nat) (a : Word) (n : Nat) : Bool :=
  (s.ts k).eng.journal.any fun j => (j.state == .pending || j.state == .held || j.state == .withheld || j.state == .lost) &&
    s.entryMeets (tileOf k) j a n

/-- Whether nothing but the priorities at its entry port keeps a remote load of a block from being served. -/
def State.loadReady (s : State) (k ix : Nat) : Bool :=
  match s.flight k with
  | none => false
  | some f => match AMap.find ix f.reqs with
    | none => false
    | some q => q.reply == .asked && !s.ownPending k q.addr q.size &&
        !s.heldTo (tileOf k) (s.destOf (tileOf k) q.addr) &&
        s.ticketOk (s.rgnOf (tileOf k)) (tileOf k) (tsNum k) 1

/-- Reads what a remote load names: memory, or a register of a tile (R331). -/
def State.loadAt (s : State) (t : Nat) (a : Word) (n : Nat) (told : Bool := false) : Got × State :=
  match s.destOf t a with
  | .csr d c =>
    if n = 8 && csrReadOk (s.level t) c then (.bytes (leBytes 8 (s.csrValue d c).toNat), s) else (.refused 8 false, s)
  | d => s.readAt t d n told

/-- REMOTE_LOAD_SERVICE (R139, R150, R272, R331): the destination performs the read. -/
def State.loadService (s : State) (k ix : Nat) : State :=
  match s.flight k with
  | none => s
  | some f => match AMap.find ix f.reqs with
    | none => s
    | some q =>
      let t := tileOf k
      let here := s.inDram t (s.destOf t q.addr)
      let s := ((s.ticket (s.rgnOf t) t (tsNum k) 1).chargeHops t (s.destOf t q.addr) q.size).portServed (s.destOf t q.addr)
      let (got, s) := s.loadAt t q.addr q.size q.missed
      let rep := match got with | .bytes bs => Reply.data bs | .refused c m => Reply.refused c m
      s.updFlight k fun f => { f with reqs := AMap.ins ix { q with reply := rep, dram := here && !rep.isRefused } f.reqs }

/-- Whether a reply of a served load can arrive. -/
def State.canLdrReply (s : State) (k ix : Nat) : Bool :=
  match s.flight k with
  | none => false
  | some f => match AMap.find ix f.reqs with
    | some q => q.reply != .asked && !q.here
    | none => false
/-- LDR_REPLY (R176, R272): the reply reaches the waiting instruction; what the DRAM has read is charged (R402). -/
def State.ldrReply (s : State) (k ix : Nat) : State :=
  match s.flight k with
  | none => s
  | some f => match AMap.find ix f.reqs with
    | none => s
    | some q =>
      let t := tileOf k
      let s := s.setFlight k ({ f with reqs := AMap.ins ix { q with here := true } f.reqs }).wake
      if q.dram then s.charge t (s.ctxOf t) 13 ((q.size + 63) / 64) else s
/-- LDR_REPLY. -/
def execLdrReply (ts ix : Nat) (s : State) : Res :=
  whenEnabled "LDR_REPLY" (s.canLdrReply ts ix) (s.ldrReply ts ix)

end Sys2Proof.Machine
end

