-- ==== Sys2Proof/Machine/DramUnit.lean ====
section
/-! DEFINITION. The DRAM actors and the copy engine (R166 to R177, R318, R340, R445): dramreqs at their
entry port, walks, performance, replies and their landing, arrivals at landing words, and the pieces of
copies. -/

namespace Sys2Proof.Machine

open Sys2Proof

/-! ## dramreqs (R174 to R177) -/

/-- The context's region of a packet (H1.CTXID, R44). -/
def State.rgnOfCtx (s : State) (ctx : Nat) : Nat :=
  match s.regions.find? fun p => p.2.ctx == ctx with | some p => p.1 | none => 256

/-- The entry port attached to a tile that serves a region. -/
def State.portAt (s : State) (r t : Nat) : Nat :=
  match (s.region r).image with
  | some i => (i.ports.find? fun p => portTile p == t).getD 0
  | none => 0

/-- Whether a dramreq in the network can be accepted: the oldest of its route, and fewer than 256 requests
pend at the port (R177). -/
def State.canDramreq (s : State) (n : Nat) : Bool :=
  match s.net[n]? with
  | some f => s.toPort f && decide (s.mode (s.rgnOfCtx (field f.h1 12 12)) ≠ 3) && s.oldestFlying n f &&
      decide ((s.dreqs.filter fun d => portTile d.port == f.dst).length < 256)
  | none => false
/-- DRAMREQ (R173, R177, R318): the entry port accepts the request, and the sender's credit starts back. A hole or an eos
of a stage, which is no request, is consumed (assumption 30). -/
def State.dramreq (s : State) (n : Nat) : State :=
  match s.net[n]? with
  | none => s
  | some f =>
    let r := s.rgnOfCtx (field f.h1 12 12)
    let s : State := { s with net := s.net.eraseIdx n, dreqs := s.dreqs ++ (if h0Kind f.h0 = 3 then
      [(⟨s.portAt r f.dst, f.src, r, f.h0, f.h1, f.body, h0Colour f.h0, .unwalked, h0Prio f.h0, 0, [], false⟩ : DramReq)] else []) }
    let s := s.updRegion r fun g => { g with portRecv := countPair g.portRecv (h0Colour f.h0) }
    s.returnCredit r (f.edge.map Prod.snd) (h0Seq f.h0)
/-- DRAMREQ. -/
def execDramreq (n : Nat) (s : State) : Res := whenEnabled "DRAMREQ" (s.canDramreq n) (s.dramreq n)

/-- Bytes that a request reads, writes or replaces (R174). -/
def DramReq.size (d : DramReq) : Nat :=
  let c := d.ctl
  match field c 60 4 with
  | 2 => if bitAt c 4 then 8 else 4
  | 1 => if bitAt c 3 then 2 ^ field c 1 2 else (field c 52 4 + 1) * 16
  | _ => (field c 52 4 + 1) * 16

/-- Whether a request is well formed (R174, R175). -/
def DramReq.wellFormed (d : DramReq) : Bool :=
  let c := d.ctl
  let a := d.addr
  let n := d.size
  let pay := payloadLen d.h0
  let len := field c 52 4
  let full := field a 0 4 == 0 && decide (field a 0 8 + n ≤ 256)
  decide (field a 57 7 = 24) && !bitAt c 0 && decide (16 ≤ pay) &&
    (match field c 60 4 with
      | 0 => full && field c 1 3 == 0 && (bitAt c 51 || decide (len ≤ 13))
      | 1 => if bitAt c 3 then decide (len = 0) && decide (a.toNat % n = 0) && decide (16 + n ≤ pay)
             else full && decide (len ≤ 13) && decide (16 + n ≤ pay)
      | 2 => decide (len = 0) && field c 1 3 == 0 && decide (a.toNat % n = 0) && decide (field c 56 4 ≤ 9) &&
             decide ((if field c 56 4 = 9 then 24 + n else 16 + n) ≤ pay)
      | _ => false)

/-- What a request wants of its page. -/
def DramReq.want (d : DramReq) : Want :=
  match field d.ctl 60 4 with | 0 => .read | 1 => .write | _ => .both

/-- Whether a walk for request n is to be made. -/
def State.canWalk (s : State) (n : Nat) : Bool :=
  match s.dreqs[n]? with | some d => d.phys == .unwalked && d.wellFormed | none => false
/-- Whether a request waits for the walk that another one starts: the same context, port and page (R340). -/
def DramReq.sharesWalk (d q : DramReq) : Bool :=
  q.port == d.port && q.rgn == d.rgn && q.phys == .unwalked && q.wellFormed && field q.addr 0 57 / 65536 == field d.addr 0 57 / 65536
/-- Where a request's address leads, for what it wants of its page. -/
def State.dramAddrOf (s : State) (q : DramReq) : Phys × State := s.dramAddr q.rgn q.port (field q.addr 0 57) q.want
/-- TRANSLATION_WALK (R336 to R340): the walk serves every request of the context to that page that is
pending at the port, each for what it wants; a failed walk sends one report. -/
def State.translationWalk (s : State) (n : Nat) : State :=
  match s.dreqs[n]? with
  | none => s
  | some d =>
    let served := s.dreqs.map fun q => if d.sharesWalk q then { q with phys := (s.dramAddrOf q).1 } else q
    let s := (s.dreqs.filter d.sharesWalk).foldl (fun s q => (s.dramAddrOf q).2) s
    let failure (q : DramReq) : Option (Nat × Bool × Nat) :=
      match (s.dramAddrOf q).1 with | .failed c m => some (c, m, field q.addr 0 57) | _ => none
    let failures := (s.dreqs.filter fun q => d.sharesWalk q && !q.missed).filterMap failure
    let s := { s with dreqs := served }
    match failures with
    | (c, m, a) :: _ => s.dramRefused false true d.rgn d.port c m a
    | [] => s
/-- TRANSLATION_WALK. -/
def execTranslationWalk (n : Nat) (s : State) : Res := whenEnabled "TRANSLATION_WALK" (s.canWalk n) (s.translationWalk n)

/-- Whether nothing but the order of service keeps request n: it is walked (or malformed), and no earlier request of the
same tile, or to the same line, is still before it (R175, R177). -/
def State.dramReady (s : State) (n : Nat) : Bool :=
  match s.dreqs[n]? with
  | some d => (!d.wellFormed || d.phys != .unwalked) && decide (s.mode d.rgn ≠ 3) &&
      (s.dreqs.take n).all fun q => !(q.tile == d.tile && q.port == d.port) && (q.rgn != d.rgn || decide (field q.addr 0 57 / 64 ≠ field d.addr 0 57 / 64))
  | none => false
/-- Whether a request writes a 64-byte line of a physical address: a write or an atomic there. -/
def DramReq.writesLine (d : DramReq) (l : Nat) : Bool :=
  match d.phys with
  | .at p => decide (field d.ctl 60 4 ≠ 0) && decide (p / 64 ≤ l) && decide (l ≤ (p + d.size - 1) / 64)
  | _ => false
/-- The bytes that a read returns: of each line, what a read pending together has brought, else what the line holds
(R177). -/
def State.readLines (s : State) (d : DramReq) (p n : Nat) : List Byte :=
  (List.range n).map fun i => match AMap.find ((p + i) / 64) d.lines with
    | some bs => bs.getD ((p + i) % 64) 0
    | none => s.byte (p + i)
/-- The reads of a line that are pending at a port together with one that is performed are served by the same line
read, but for those behind a write or an atomic to the line (R177). -/
def State.shareLine (s : State) (port l : Nat) : State :=
  let bs := s.bytes (64 * l) 64
  { s with dreqs := s.dreqs.zipIdx.map fun q => match q.1.phys with
      | .at p =>
        if q.1.port = port ∧ field q.1.ctl 60 4 = 0 ∧ q.1.wellFormed ∧ p / 64 ≤ l ∧ l ≤ (p + q.1.size - 1) / 64 ∧
            (AMap.find l q.1.lines).isNone ∧ (s.dreqs.take q.2).all (fun w => !w.writesLine l) then
          { q.1 with lines := AMap.ins l bs q.1.lines }
        else q.1
      | _ => q.1 }
/-- The cause and data of a request (R175, R375, R437), and the state after it. -/
def State.dramOutcome (s : State) (d : DramReq) : Nat × List Byte × State :=
  let n := d.size
  if !d.wellFormed then (4, [], s)
  else match d.phys with
    | .failed c _ => (c, [], s)
    | .unwalked => (1, [], s)
    | .at p =>
      if 2 ^ 59 ≤ p then
        let target := (p - 2 ^ 59) / 2 ^ 40
        let op := field d.ctl 60 4
        let two := decide (op = 2) && decide (field d.ctl 56 4 = 9)
        let data := if op = 0 then [] else ((d.body.drop (if two then 24 else 16)).take n).map some
        let ask := { remoteAsk target (s.region d.rgn).ctx op (p % 2 ^ 40) n data with
          minor := if op = 2 then field d.ctl 56 4 else 0, cmp := if two then ofBytes ((d.body.drop 16).take n) else 0 }
        match s.boderAsk d.port ask with
        | (0, s) => if op = 1 then (0, [], s) else let (bs, s) := s.freeBytes n; (0, bs, s)
        | (c, s) => (c, [], s)
      else if s.poisoned p n then (3, [], s)
      else match field d.ctl 60 4 with
        | 0 => (0, s.readLines d p n, (List.range ((p + n - 1) / 64 - p / 64 + 1)).foldl (fun s i =>
            if (AMap.find (p / 64 + i) d.lines).isSome then s else s.shareLine d.port (p / 64 + i)) s)
        | 1 => (0, [], s.putAll p ((d.body.drop 16).take n))
        | _ =>
          let op := field d.ctl 56 4
          let b0 := ofBytes ((d.body.drop 16).take n)
          let b1 := ofBytes ((d.body.drop 24).take n)
          let old := s.bytes p n
          let new := if op = 9 then amoNew (8 * n) op (ofBytes old) b1 b0 else amoNew (8 * n) op (ofBytes old) b0 0
          let s := s.putNum p n new
          (0, old, if op = 0 then s.collAdded d.rgn d.port (field d.addr 0 57) true else s)
/-- DRAM_REQUEST_PERFORM (R175 to R177): the stack performs the request and the entry port makes the reply;
a fault reply is reported. -/
def State.dramPerform (s : State) (n : Nat) : State :=
  match s.dreqs[n]? with
  | none => s
  | some d =>
    let (cause, data, s) := s.dramOutcome d
    let lines := match d.phys with | .at p => if cause = 0 ∧ p < 2 ^ 59 then (d.size + 63) / 64 else 0 | _ => 0
    let s := (({ s with dreqs := s.dreqs.eraseIdx n, dreps := s.dreps ++
      [(⟨d.tile, d.rgn, d.addr, field d.ctl 60 4, cause, field d.ctl 52 4, data, d.ctl, d.colour, d.prio, lines⟩ : DramRep)] } : State)).portServed
        (.dram d.port 0)
    let s := s.updRegion d.rgn fun g => { g with portSent := countPair g.portSent d.colour }
    match d.phys with
    | .failed _ _ => s
    | _ => if cause ≠ 0 then s.dramRefused false false d.rgn d.port cause false (field d.addr 0 57) else s
/-- Whether reply n can arrive: no earlier reply of the tile is before it, and no Trellis boundary holds it. A halted cluster takes
neither landed bytes (R412) nor a reply packet, which would change its mailbox (R413), but what a stepped block has landed
(R418). -/
def State.canDramrep (s : State) (n : Nat) : Bool :=
  match s.dreps[n]? with
  | some d =>
    let t := s.follow (s.region d.rgn).ctx d.tile
    (s.dreps.take n).all (fun q => q.tile != d.tile) && decide (s.mode d.rgn ≠ 3) &&
      !(s.shut t && !(bitAt d.ctl 51 && s.ownLanding t (field d.ctl 5 17)))
  | none => false
/-- The report of R445. -/
def State.landingRefused (s : State) (t off : Nat) (a : Word) : State :=
  s.report t { FaultInfo.plain .landingRefused 255 with fw2 := word off, fw3 := a }
/-- DRAMREP (R175, R176, R318, R445): landed data is checked, written and posted to its landing word; a
packet reply goes to RPORT with the handler that the port declares. -/
def State.dramrep (s : State) (n : Nat) : State :=
  match s.dreps[n]? with
  | none => s
  | some d =>
    let t := s.follow (s.region d.rgn).ctx d.tile
    let s : State := { s with dreps := s.dreps.eraseIdx n }
    let s := s.updTile t fun x => { x with recv := countPair x.recv d.colour }
    let size := (d.len + 1) * 16
    let s := s.charge t (s.region d.rgn).ctx 13 d.lines
    let s := s.charge t (s.region d.rgn).ctx 8 (((d.data.length + 31) / 16 + 1) * (match s.portFor d.rgn d.tile with | some p => hops (portTile p) t | none => 0))
    if bitAt d.ctl 51 then
      let ra := field d.ctl 22 17
      let lw := field d.ctl 5 17
      let fits := d.data.isEmpty || s.inPad t ra d.data.length
      let lwOk := s.landingOk t lw
      let s := if d.cause = 0 && fits then s.putAll (poolKey t ra) d.data else s
      let s := if d.cause = 0 && !fits then s.landingRefused t ra d.addr else s
      if lwOk then { s with landings := s.landings ++ [⟨t, lw, size, d.cause ≠ 0 || !fits, false, none⟩] }
      else if d.cause = 0 && !fits then s else s.landingRefused t lw d.addr
    else
      let port := field d.ctl 39 12
      let x := s.tile t
      let body := leBytes 8 d.addr.toNat ++ leBytes 8 (at_ 60 4 d.op + at_ 52 8 d.cause + at_ 48 4 d.len) ++ d.data
      let pad := body ++ leBytes ((16 - body.length % 16) % 16) 0
      let h0 := mkH0 4 d.prio (AMap.get Port.init port x.conf.ports).handler (pad.length / 16) 0 d.colour 0 0
      let h1 := mkH1 x.coord 0 (s.region d.rgn).ctx port
      let (pos, s) := s.nextPos t
      if rejects x.conf none false port h0 pad then s.rejectReport t h0 h1
      else s.putMail t (mkMail .plain port h0 h1 pad pos (s.clock t) (decide (t ≠ d.tile)) none)
/-- DRAMREP. -/
def execDramrep (n : Nat) (s : State) : Res := whenEnabled "DRAMREP" (s.canDramrep n) (s.dramrep n)

/-! ## Copies (R166 to R172) -/

/-- One row of a copy: where its bytes go and come from, how long it is, and which of them are in bounds
(the others are filled). -/
structure CopyRow where
  dst : Nat
  len : Nat
  src : Nat
  lo  : Nat
  hi  : Nat
  deriving DecidableEq, Repr

/-- A field of KSPEC (numbered from bit 256 of the descriptor). -/
def CopyDesc.k (d : CopyDesc) (lo len : Nat) : Nat := d.kspec / 2 ^ (lo - 256) % 2 ^ len
/-- An address plus a signed displacement, modulo 2^64. -/
def addrPlus (a : Word) (i : Int) : Nat := (((a.toNat : Int) + i) % 2 ^ 64).toNat

/-- Rows of a copy (R167). -/
def CopyDesc.rows (d : CopyDesc) : Nat :=
  match d.kind with
  | 0 => 1
  | 1 => d.k 288 32
  | 2 => d.k 432 16
  | _ => d.k 320 32

/-- Row r of a copy; a gather row's index is given (R167). -/
def CopyDesc.row (d : CopyDesc) (r ix : Nat) : CopyRow :=
  match d.kind with
  | 0 => ⟨d.dst.toNat, d.k 256 40, d.src.toNat, 0, d.k 256 40⟩
  | 1 => ⟨addrPlus d.dst (r * sintN 64 (d.k 384 64)), d.k 256 32, addrPlus d.src (r * sintN 64 (d.k 320 64)), 0, d.k 256 32⟩
  | 2 =>
    let esz : Nat := 2 ^ d.esz
    let o0 := sintN 32 (d.k 352 32)
    let o1 := sintN 32 (d.k 384 32)
    let t0 := d.k 416 16
    let inRow := decide (0 ≤ o1 + r) && decide (o1 + r < d.k 288 32)
    let lo := (min (t0 : Int) (max 0 (-o0))).toNat
    let hi := (max (lo : Int) (min (t0 : Int) ((d.k 256 32 : Int) - o0))).toNat
    ⟨addrPlus d.dst (r * (d.k 448 32 : Nat)), t0 * esz, addrPlus d.src ((o1 + r) * (d.k 320 32 : Nat) + o0 * esz),
      if inRow then lo * esz else 0, if inRow then hi * esz else 0⟩
  | _ =>
    let rowb := d.k 352 32
    let ok := decide (ix < d.k 448 32)
    ⟨addrPlus d.dst (r * rowb), rowb, addrPlus d.src (ix * sintN 64 (d.k 384 64)), 0, if ok then rowb else 0⟩

/-- Naturally aligned 64-byte blocks that a row of a destination can touch. -/
def CopyDesc.rowBlocks (d : CopyDesc) : Nat :=
  (match d.kind with | 0 => d.k 256 40 | 1 => d.k 256 32 | 2 => d.k 416 16 * 2 ^ d.esz | _ => d.k 352 32) / 64 + 2

/-- A piece: its bytes within the row, and whether it is filled (R172). -/
structure Piece where
  row : CopyRow
  lo  : Nat
  hi  : Nat
  fill : Bool
  deriving DecidableEq, Repr

/-- Piece number pc: row, block of the row, and part: fill below the bounds, in bounds, fill above. -/
def CopyDesc.piece (d : CopyDesc) (pc ix : Nat) : Option Piece :=
  let part := pc % 3
  let blk := pc / 3 % d.rowBlocks
  let r := d.row (pc / 3 / d.rowBlocks) ix
  let b0 := (r.dst / 64 + blk) * 64
  let lo := max r.dst b0 - r.dst
  let hi := min (r.dst + r.len) (b0 + 64) - r.dst
  let (lo, hi) := match part with
    | 0 => (lo, min hi r.lo)
    | 1 => (max lo r.lo, min hi r.hi)
    | _ => (max lo (max r.lo r.hi), hi)
  if pc / 3 / d.rowBlocks < d.rows ∧ lo < hi then some ⟨r, lo, hi, part ≠ 1⟩ else none

/-- Where an address of a copy leads, for a copy that tile `home` issued and that the engine now runs for tile t: a
space-1 address names a sibling of the cluster it was issued in (R134, R171); an address that a stride has led out of
the spaces of R133 or their legal forms (R131) leads nowhere. -/
def State.engineDest (s : State) (t home : Nat) (a : Word) : Option Dest :=
  if !addrFormOk a || decide (3 < space a) then none
  else if space a = 1 then some (s.destOf home a)
  else some (s.destOf t a)
/-- The refusal cause of an address that leads nowhere: a malformed request in space 3, else bytes outside the range
(R140). -/
def formCause (a : Word) : Nat := if space a = 3 then 4 else 6
/-- Reads n bytes of one page of DRAM for a copy, at the cost of the access (R402). `missed` holds the pages whose failed walk has
been reported (R340). -/
def State.readPage (s : State) (t p o n : Nat) (missed : List Nat) : Got × State :=
  match s.readAt t (.dram p o) n (missed.contains (o / 65536)) with
  | (.bytes bs, s) => (.bytes bs, s.chargeDram t (.dram p o) n)
  | r => r
/-- Reads n bytes for a copy, at the cost of their way and of the DRAM access (R402); a run that crosses a 64 KiB page of
DRAM makes a request for each page (R174). -/
def State.readRun (s : State) (t home : Nat) (a : Word) (n : Nat) (missed : List Nat) : Got × State :=
  match s.engineDest t home a with
  | none => (.refused (formCause a) false, s)
  | some (.dram p o) =>
    let s := (s.chargeHops t (.dram p o) n).portServed (.dram p o)
    let m := 65536 - o % 65536
    if n ≤ m then s.readPage t p o n missed
    else match s.readPage t p o m missed with
      | (.bytes bs, s) => match s.readPage t p (o + m) (n - m) missed with
        | (.bytes cs, s) => (.bytes (bs ++ cs), s)
        | r => r
      | r => r
  | some d => (s.chargeHops t d n).readAt t d n
/-- Writes bytes for a copy, at the cost of its way and its access (R402). -/
def State.writeRun (s : State) (t home : Nat) (a : Word) (bs : Bytes) (missed : List Nat) : Got × State :=
  match s.engineDest t home a with
  | none => (.refused (formCause a) false, s)
  | some d =>
    let told := match d with | .dram _ o => missed.contains (o / 65536) | _ => false
    match ((s.chargeHops t d bs.length).portServed d).writeAt t d bs told with
    | (.bytes x, s) => (.bytes x, s.chargeDram t d bs.length)
    | r => r
/-- The coordinate outside the region that an address of a copy names, if it does (R24, R342). -/
def State.runStrays (s : State) (t home : Nat) (a : Word) : Option Nat :=
  match s.engineDest t home a with | some (.outside c) => some c | _ => none

/-- The index of a gather row, or the refusal cause when it cannot be read (R167). -/
def State.gatherIndex (s : State) (t home : Nat) (d : CopyDesc) (r : Nat) (missed : List Nat) : Got × State :=
  if d.kind = 3 then s.readRun t home (word (d.k 256 64 + 4 * r)) 4 missed else (.bytes [], s)
/-- The index of a row of a copy: what the engine has read when it began the row, else what it would read now. -/
def State.rowIndex (s : State) (t : Nat) (c : Copy) (r : Nat) : Got × State :=
  match AMap.find r c.index with
  | some (true, i, _) => (.bytes (leBytes 4 i), s)
  | some (false, i, m) => (.refused i m, s)
  | none => s.gatherIndex t c.home c.desc r c.missed
/-- Keeps what the engine has read as a row's index. -/
def Copy.rowOpened (c : Copy) (r : Nat) (g : Got) : Copy :=
  match g with
  | .bytes bs => { c with index := AMap.ins r (true, ofBytes bs, false) c.index }
  | .refused n m => { c with index := AMap.ins r (false, n, m) c.index }

/-- All pieces of a copy that exist, by number. -/
def State.pieceNums (s : State) (t : Nat) (c : Copy) : List Nat :=
  let d := c.desc
  (List.range (3 * d.rowBlocks * d.rows)).filter fun pc =>
    match (s.rowIndex t c (pc / 3 / d.rowBlocks)).1 with
    | .bytes bs => (d.piece pc (ofBytes bs)).isSome
    | .refused _ _ => (d.piece pc 0).isSome || (d.piece pc (2 ^ 32)).isSome && pc % 3 == 1

/-- Offset of the first byte of a run that a destination refuses. -/
def State.firstBad (s : State) (t home a n : Nat) (write : Bool) : Nat :=
  ((List.range n).find? fun i =>
    match (if write then (s.writeRun t home (word (a + i)) [none] []).1 else (s.readRun t home (word (a + i)) 1 []).1) with
    | .refused _ _ => true
    | _ => false).getD 0

/-- The memory keys of n bytes at an address of a copy, as intervals: those of tiles pool by pool, since a run in space 1 may go
on in a later sibling (R131); those of DRAM are physical, page by page. -/
def State.runKeys (s : State) (t home : Nat) (a : Word) (n : Nat) (w : Want) : List (Nat × Nat) :=
  match s.engineDest t home a with
  | some (.pool _ _) => (List.range (min 33 ((a.toNat % 2 ^ 17 + n) / 2 ^ 17 + 1))).filterMap fun i =>
      let lo := max a.toNat ((a.toNat / 2 ^ 17 + i) * 2 ^ 17)
      let hi := min (a.toNat + n) ((a.toNat / 2 ^ 17 + i + 1) * 2 ^ 17)
      match s.engineDest t home (word lo) with
      | some (.pool p o) => if lo < hi then some (poolKey p o, poolKey p o + (hi - lo)) else none
      | _ => none
  | some (.dram p o) => (List.range ((o + n) / 65536 - o / 65536 + 1)).filterMap fun i =>
      let lo := max o ((o / 65536 + i) * 65536)
      let hi := min (o + n) ((o / 65536 + i + 1) * 65536)
      match (s.dramAddr (s.rgnOf t) p lo w).1 with | .at q => if lo < hi then some (q, q + (hi - lo)) else none | _ => none
  | _ => []
/-- Whether two runs share a byte. -/
def runsMeet (a b : List (Nat × Nat)) : Bool := a.any fun x => b.any fun y => decide (x.1 < y.2) && decide (y.1 < x.2)
/-- Whether source and destination bytes of a copy overlap (R170). -/
def State.overlaps (s : State) (t : Nat) (c : Copy) : Bool :=
  let d := c.desc
  let rows := (List.range d.rows).map fun r =>
    d.row r (match (s.rowIndex t c r).1 with | .bytes bs => ofBytes bs | .refused _ _ => 2 ^ 32)
  rows.any fun x => decide (x.lo < x.hi) && rows.any fun y =>
    runsMeet (s.runKeys t c.home (word (x.src + x.lo)) (x.hi - x.lo) .read) (s.runKeys t c.home (word y.dst) y.len .write)

/-- TLC.CE rises to the batch below the lowest unfinished one (R105, R154, R286). -/
def Engines.retireBatches (e : Engines) : Engines :=
  let ce := max e.ce (e.copies.foldl (fun m c => match c.batch with | some b => min m (b - 1) | none => m) e.sealed)
  { e with ce := ce, hollow := e.hollow.filter fun b => decide (ce < b) }

/-- A copy has done a piece; it may now be finished, and with it its batch (R105, R170). -/
def State.copySettle (s : State) (k id : Nat) : State :=
  match (s.ts k).eng.copies.find? fun c => c.id == id with
  | none => s
  | some c =>
    if c.landing = 0 ∧ (s.pieceNums (tileOf k) c).all (fun p => c.finished.contains p) then
      let s := (s.ticket (s.rgnOf (tileOf k)) (tileOf k) (tsNum k) 5).updTs k fun a =>
        { a with eng := { a.eng with copies := a.eng.copies.filter fun c => c.id ≠ id }.retireBatches }
      s.wakeAll
    else s

/-- The copy-fault token of a refused piece or arrival (R171). -/
def State.copyFault (s : State) (k : Nat) (c : Copy) (sub : Nat) (a : Nat) (flags : Nat) : State :=
  s.asyncFault k ⟨.copyFault, 255, sub, word a, word (c.batch.getD ((s.ts k).eng.sealed + 1)), word flags⟩

/-- Posts a piece to the copy's landing word, if it has one (R166, R171): an arrival, or its refusal by the word's
tile. -/
def State.copyPost (s : State) (k : Nat) (c : Copy) (n : Nat) (flt oob : Bool) : State :=
  match c.desc.lw with
  | none => s
  | some lw => match s.engineDest (tileOf k) c.home lw with
    | some (.pool t off) =>
      if s.landingOk t off then
        { s.updTs k (fun a => { a with eng := { a.eng with copies := a.eng.copies.map fun x => if x.id = c.id then { x with landing := x.landing + 1 } else x } }) with
          landings := s.landings ++ [⟨t, off, n, flt, oob, some (k, c.id)⟩] }
      else s.copyFault k c 6 lw.toNat 32
    | some .withdrawn => s.copyFault k c 7 lw.toNat 32
    | _ => s.copyFault k c 6 lw.toNat 32

/-- The bytes of a filled piece (R167). -/
def CopyDesc.fillBytes (d : CopyDesc) (lo hi : Nat) : List Byte :=
  let unit := leBytes (2 ^ d.esz) (d.fill + d.fill * 2 ^ 32)
  (List.range (hi - lo)).map fun i => unit.getD ((lo + i) % 2 ^ d.esz) 0

/-- Whether the boundary of a halted cluster holds a piece (R412): what it reads, or what it writes, lies in a cluster that
is halted. -/
def State.pieceHeld (s : State) (t : Nat) (c : Copy) (pc : Nat) : Bool :=
  let held (a : Nat) : Bool := match s.engineDest t c.home (word a) with | some d => s.heldTo t d | none => false
  let p (ix : Nat) : Bool := match c.desc.piece pc ix with
    | some p => held (p.row.dst + p.lo) || (!p.fill && held ((p.row.src + p.lo) % 2 ^ 64))
    | none => false
  match (s.rowIndex t c (pc / 3 / c.desc.rowBlocks)).1 with
  | .bytes bs => p (ofBytes bs)
  | .refused _ _ => false
/-- Whether what a copy posts for a piece goes to a landing word, whose arrival the copy then waits for (R166, R171). -/
def State.landsAt (s : State) (t : Nat) (c : Copy) : Bool :=
  match c.desc.lw.bind fun lw => s.engineDest t c.home lw with
  | some (.pool d off) => s.landingOk d off
  | _ => false
/-- Whether a piece of a copy is the last, with which the copy completes. -/
def State.pieceEnds (s : State) (t : Nat) (c : Copy) (pc : Nat) : Bool :=
  decide (c.landing = 0) && !s.landsAt t c && (s.pieceNums t c).all fun p => p == pc || c.finished.contains p
/-- Whether the next arrival of a copy's landing word completes the copy (R170). -/
def State.arrivalEnds (s : State) (k id : Nat) : Bool :=
  match (s.ts k).eng.copies.find? fun c => c.id == id with
  | some c => decide (c.landing = 1) && (s.pieceNums (tileOf k) c).all fun p => c.finished.contains p
  | none => false
/-- Whether nothing but the priorities at an entry port keeps a piece of a copy from being done: it exists, is not done yet, and the engine is not frozen by a
Trellis halt or a thermal gate (R398, R412), nor the piece held at a halted cluster; the end of the copy takes a ticket
(R427). -/
def State.pieceReady (s : State) (k id pc : Nat) : Bool :=
  match (s.ts k).eng.copies.find? fun c => c.id == id with
  | some c => !c.finished.contains pc && (s.pieceNums (tileOf k) c).contains pc && !s.stilledCopy k id && !s.pieceHeld (tileOf k) c pc &&
      !(s.fieldRec (fieldOf (tileOf k))).gated && decide (s.mode (s.rgnOf (tileOf k)) ≠ 3) &&
      (!s.pieceEnds (tileOf k) c pc || s.ticketFree (s.rgnOf (tileOf k)) (tileOf k) (tsNum k) 5)
  | none => false

/-- A piece that can be neither read nor written as the copy asks: nothing of it is written and it is posted with FLT
(R171). One whose stride leads to a coordinate outside the region freezes the thread set that issued the copy (R24,
R342, assumption 76); any other stops it at its next block boundary. -/
def State.pieceRefused (s : State) (k : Nat) (c : Copy) (stray : Option Nat) (cause a flags n : Nat) (fill : Bool) : State :=
  (match stray with | some x => s.freezeTs k x | none => s.copyFault k c cause a flags).copyPost k c n true fill
/-- COPY_PIECE (R170 to R172): the piece is read or filled, written, and posted, or refused. When source and
destination of the copy overlap, what is written is unpredictable (R170). Of a piece that both its source and its destination
would refuse the source is reported (DESIGN CHOICE, assumption 124). -/
def State.copyPiece (s : State) (k id pc : Nat) : State :=
  let t := tileOf k
  match (s.ts k).eng.copies.find? fun c => c.id == id with
  | none => s
  | some c =>
    let s := s.updTs k fun a => { a with eng := { a.eng with copies := a.eng.copies.map fun x => if x.id = id then { x with finished := pc :: x.finished } else x } }
    let mixed := s.overlaps t c
    let (ixg, s) := s.rowIndex t c (pc / 3 / c.desc.rowBlocks)
    let opened (x : Copy) : Copy := if x.id = id ∧ c.desc.kind = 3 then x.rowOpened (pc / 3 / c.desc.rowBlocks) ixg else x
    let s := s.updTs k fun a => { a with eng := { a.eng with copies := a.eng.copies.map opened } }
    let s := match ixg with
      | .refused cause m =>
        match c.desc.piece pc 0 with
        | some p => s.pieceRefused k c none cause (c.desc.k 256 64 + 4 * (pc / 3 / c.desc.rowBlocks)) (markWord cause m).toNat (p.hi - p.lo) false
        | none => s
      | .bytes bs =>
        match c.desc.piece pc (ofBytes bs) with
        | none => s
        | some p =>
          let n := p.hi - p.lo
          let da := p.row.dst + p.lo
          let sa := (p.row.src + p.lo) % 2 ^ 64
          let (got, s) := if p.fill then (Got.bytes (c.desc.fillBytes p.lo p.hi), s) else s.readRun t c.home (word sa) n c.missed
          match got with
          | .refused cause m =>
            s.pieceRefused k c (s.runStrays t c.home (word sa)) cause (sa + s.firstBad t c.home sa n false) (markWord cause m).toNat n false
          | .bytes bs =>
            let (bs, s) := if mixed then s.freeBytes n else (bs, s)
            match s.writeRun t c.home (word da) (bs.map some) c.missed with
            | (.bytes _, s) => s.copyPost k c n false p.fill
            | (.refused cause m, s) =>
              s.pieceRefused k c (s.runStrays t c.home (word da)) cause (da + s.firstBad t c.home da n true) (16 + (markWord cause m).toNat) n p.fill
    s.copySettle k id
/-! ## Priorities at an entry port (R363) -/

/-- The effective priority of what a region asks of an entry port: RGNPRIO, and one level more for each 64 requests that the port
has served ahead of it (R363). -/
def State.rankAt (s : State) (rgn ahead : Nat) : Nat := (s.region rgn).rank + ahead / 64
/-- The effective priority of a dramreq at its port. -/
def State.dramRank (s : State) (d : DramReq) : Nat := s.rankAt d.rgn d.ahead
/-- The entry ports that a piece of a copy goes through. -/
def State.piecePorts (s : State) (t : Nat) (c : Copy) (pc : Nat) : List Nat :=
  let at_ (a : Nat) : List Nat := ((s.engineDest t c.home (word a)).bind Dest.port?).toList
  match (s.rowIndex t c (pc / 3 / c.desc.rowBlocks)).1 with
  | .bytes bs => match c.desc.piece pc (ofBytes bs) with
    | some p => at_ (p.row.dst + p.lo) ++ (if p.fill then [] else at_ ((p.row.src + p.lo) % 2 ^ 64))
    | none => []
  | .refused _ _ => []
/-- Whether an entry port has a ready request above an effective priority: a dramreq, a posted entry, a load or a piece of a
copy, for each of which the hardware builds a dramreq (R174, R363). -/
def State.outranked (s : State) (p rank : Nat) : Bool :=
  let via (k : Nat) (a : Word) : Bool := (s.destOf (tileOf k) a).port? == some p
  let above (k ahead : Nat) : Bool := decide (rank < s.rankAt (s.rgnOf (tileOf k)) ahead)
  (s.dreqs.zipIdx.any fun q => q.1.port == p && decide (rank < s.dramRank q.1) && s.dramReady q.2) ||
  (s.tss.any fun x =>
    (x.2.eng.journal.any fun e => above x.1 e.ahead && via x.1 e.addr && (s.performReady x.1 e.num false || s.performReady x.1 e.num true)) ||
    (x.2.eng.copies.any fun c => above x.1 c.ahead && (s.pieceNums (tileOf x.1) c).any fun pc =>
      (s.piecePorts (tileOf x.1) c pc).contains p && s.pieceReady x.1 c.id pc)) ||
  (s.flights.any fun x => x.2.reqs.any fun q => above x.1 q.2.ahead && via x.1 q.2.addr && s.loadReady x.1 q.1)
/-- Whether a request of a thread set to a destination may be served: no ready request at its entry port is of a higher
effective priority (R363). The close of a round has an order of its own (R429). -/
def State.portTurn (s : State) (k ahead : Nat) (d : Dest) : Bool :=
  match d.port? with
  | none => true
  | some p => (s.region (s.rgnOf (tileOf k))).closing || !s.outranked p (s.rankAt (s.rgnOf (tileOf k)) ahead)

/-- Whether an entry can be performed (R138, R363, R412, R427). -/
def State.canPerform (s : State) (k n : Nat) (atomic : Bool) : Bool :=
  s.performReady k n atomic && (match (s.ts k).entry n with | some e => s.portTurn k e.ahead (s.destOf (tileOf k) e.addr) | none => true)
/-- REMOTE_STORE_PERFORM (R135, R136, R138, R331). -/
def execRemoteStorePerform (ts ent : Nat) (s : State) : Res :=
  whenEnabled "REMOTE_STORE_PERFORM" (s.canPerform ts ent false) (s.remotePerform ts ent)
/-- REMOTE_ATOMIC_PERFORM (R135, R275). -/
def execRemoteAtomicPerform (ts ent : Nat) (s : State) : Res :=
  whenEnabled "REMOTE_ATOMIC_PERFORM" (s.canPerform ts ent true) (s.remotePerform ts ent)
/-- Whether a remote load of a block can be served (R139, R363). -/
def State.canLoad (s : State) (k ix : Nat) : Bool :=
  s.loadReady k ix && (match (s.flight k).bind fun f => AMap.find ix f.reqs with
    | some q => s.portTurn k q.ahead (s.destOf (tileOf k) q.addr)
    | none => true)
/-- REMOTE_LOAD_SERVICE. -/
def execRemoteLoadService (ts ix : Nat) (s : State) : Res :=
  whenEnabled "REMOTE_LOAD_SERVICE" (s.canLoad ts ix) (s.loadService ts ix)
/-- Whether request n can be performed: it is ready, and the port has no ready request of a higher effective priority
(R363). -/
def State.canDramPerform (s : State) (n : Nat) : Bool :=
  match s.dreqs[n]? with
  | some d => s.dramReady n && !s.outranked d.port (s.dramRank d)
  | none => false
/-- DRAM_REQUEST_PERFORM. -/
def execDramRequestPerform (n : Nat) (s : State) : Res := whenEnabled "DRAM_REQUEST_PERFORM" (s.canDramPerform n) (s.dramPerform n)
/-- Whether a piece of a copy can be done (R170, R363). -/
def State.canPiece (s : State) (k id pc : Nat) : Bool :=
  s.pieceReady k id pc && (match (s.ts k).eng.copies.find? fun c => c.id == id with
    | some c => (s.piecePorts (tileOf k) c pc).all fun p => s.portTurn k c.ahead (.dram p 0)
    | none => true)
/-- COPY_PIECE. -/
def execCopyPiece (ts cp pc : Nat) (s : State) : Res := whenEnabled "COPY_PIECE" (s.canPiece ts cp pc) (s.copyPiece ts cp pc)

/-- Whether landing arrival n can be applied (R412, R427). -/
def State.canLand (s : State) (n : Nat) : Bool :=
  match s.landings[n]? with
  | some l => decide (s.mode (s.rgnOf l.tile) ≠ 3) && s.ticketsFree (s.rgnOf l.tile) ((l.tile, 0, 2) :: (match l.copy with
      | some (k, id) => if s.arrivalEnds k id then [(tileOf k, tsNum k, 5)] else []
      | none => [])) && (!s.shut l.tile || (match l.copy with
      | some (k, id) => s.ownCopy k id
      | none => s.ownLanding l.tile l.off))
  | none => false
/-- LANDING_ARRIVAL (R152): one indivisible update at the word; a copy's arrival also counts towards the
copy's end (R170). -/
def State.land (s : State) (n : Nat) : State :=
  match s.landings[n]? with
  | none => s
  | some l =>
    let s := { s with landings := s.landings.eraseIdx n }
    let s := (s.ticket (s.rgnOf l.tile) l.tile 0 2).landingArrival l.tile l.off l.n l.flt l.oob
    match l.copy with
    | some (k, id) =>
      (s.updTs k fun a => { a with eng := { a.eng with copies := a.eng.copies.map fun x => if x.id = id then { x with landing := x.landing - 1 } else x } }).copySettle k id
    | none => s
/-- LANDING_ARRIVAL. -/
def execLandingArrival (n : Nat) (s : State) : Res := whenEnabled "LANDING_ARRIVAL" (s.canLand n) (s.land n)

end Sys2Proof.Machine
end

