-- ==== Sys2Proof/Machine/Faulting.lean ====
section
/-! DEFINITION. Repair, freezes, cuts, migration, errors and the watchdog (R342 to R344, R366 to R381,
R386, R395). -/

namespace Sys2Proof.Machine

open Sys2Proof

/-! ## Repair (R304, R372 to R374) -/

/-- The oldest repair packet at a tile for a thread set, when it has an ACTION: repairs act in the order in which
they arrive; the thread set's number travels in HANDLER (assumption 62). -/
def State.repairMail (s : State) (k action : Nat) : Option Mail :=
  ((s.tile (tileOf k)).mbox.mails.find? fun m => m.kind = .repair && h0Handler m.h0 == tsNum k).filter fun m =>
    (ofBytes (m.body.take 8)) / 2 ^ 60 == action
/-- The repair word of a packet. -/
def Mail.repairWord (m : Mail) : Word := word (ofBytes (m.body.take 8))
/-- The coordinate to which a migrate repair leads (R372). -/
def Mail.moveTo (m : Mail) : Nat := packXY (field m.repairWord 32 10) (field m.repairWord 42 10)
/-- Whether a repair of an ACTION acts now: its packet is there, and neither a cut nor a Trellis halt records it (R374,
R413), of the tile to which it migrates either; in deterministic mode it acts when a round closes (R429). -/
def State.canRepair (s : State) (k action : Nat) : Bool :=
  match s.repairMail k action with
  | some m => decide ((s.region (s.rgnOf (tileOf k))).cut.phase = 0) && !s.trellised (tileOf k) && decide (s.mode (s.rgnOf (tileOf k)) ≠ 3) &&
      (decide (action ≠ 4) || (match (s.region (s.rgnOf (tileOf k))).tileAt? m.moveTo with | some d => !s.shut d | none => true))
  | none => false
/-- The value that travels with a repair. -/
def Mail.repairValue (m : Mail) : Word := word (ofBytes ((m.body.drop 8).take 8))

/-- A report of a thread set's tile that answers a repair (R304, R374). -/
def State.repairReport (s : State) (k : Nat) (c : Cause) : State := s.sendToken (s.subjectOf k) (FaultInfo.plain c 255) 2

/-- Takes the repair packet, and acts when it answers the open stop; otherwise it is stale (R304). -/
def State.withRepair (s : State) (k action : Nat) (act : Mail → State → State) : State :=
  match s.repairMail k action with
  | none => s
  | some m =>
    let s := s.dropMail (tileOf k) m.pos
    match (s.ts k).stops.fault with
    | some (serial, _) => if serial = field m.repairWord 0 16 then act m s else s.repairReport k .staleRepair
    | none => s.repairReport k .staleRepair

/-- Resume: withheld REL updates are posted, and the thread set restarts at its BPC (R279, R373); one whose task has
ended is free once nothing is pending (R92, R240). -/
def State.resumeTs (s : State) (k : Nat) : State :=
  ((s.releaseFault k).updTs k fun a => { a with eng := { a.eng with journal := a.eng.journal.map fun e => if e.state = .withheld then { e with state := .pending } else e } }).tryFree k
/-- REPAIR_RESUME (R373 action 0). -/
def execRepairResume (ts : Nat) (s : State) : Res :=
  whenEnabled "REPAIR_RESUME" (s.canRepair ts 0) (s.withRepair ts 0 fun _ s => s.resumeTs ts)

/-- The register that a repair word names (R372). -/
def repairReg (w : Word) : Reg := if field w 58 2 = 2 then .ox (BitVec.ofNat 2 (field w 53 5)) else .s (BitVec.ofNat 5 (field w 53 5))
/-- A thread set writes one of its registers. -/
def ThreadSet.writeReg (a : ThreadSet) (r : Reg) (w : Word) : ThreadSet := { a with regs := a.regs.writeScalar r w }
/-- A register is no longer pending: a write of it stands when the reply comes (R92, R373). -/
def ThreadSet.forget (a : ThreadSet) (r : Reg) : ThreadSet :=
  { a with eng := { a.eng with
      pend := AMap.del (regKey r) a.eng.pend,
      journal := a.eng.journal.map fun e => match e.kind with
        | .atomic o (some q) => if q = r then { e with kind := .atomic o none } else e
        | _ => e } }
/-- Resume with value: the register is written as by a WRITE at commit (R373). -/
def State.resumeWith (s : State) (k : Nat) (m : Mail) : State :=
  (s.updTs k fun a => (a.forget (repairReg m.repairWord)).writeReg (repairReg m.repairWord) m.repairValue).resumeTs k
/-- REPAIR_RESUME_WITH_VALUE (R373 action 1). -/
def execRepairResumeWithValue (ts : Nat) (s : State) : Res :=
  whenEnabled "REPAIR_RESUME_WITH_VALUE" (s.canRepair ts 1) (s.withRepair ts 1 fun m s => s.resumeWith ts m)

/-- `next_block` of R237. -/
def nextBlock (b : Word) (nslot : Nat) : Word := b + word (16 * ((12 + 4 * nslot + 15) / 16))

/-- Reads n bytes of code at a region-virtual address through a tile's entry port (R77): the bytes, or the
refusal cause. The bytes are those that memory holds at the fetch; no block cache stands between (R77; assumption
83). -/
def State.fetchCode (s : State) (t : Nat) (a : Word) (n : Nat) : Got × State :=
  match s.portFor (s.rgnOf t) t with
  | none => (.refused 0 false, s)
  | some p => match s.dramKey (s.rgnOf t) p (field a 0 57) n .fetch with
    | (.key k, s) => (.bytes (s.bytes k n), s)
    | (.remote _ _, s) => (.refused 0 false, s)
    | (.refused c m _, s) => (.refused c m, s)

/-- REPAIR_SKIP_BLOCK (R373 action 2, R374): after a precise fault other than a trap the thread set goes on
at the next block, which must have KIND 0; after a block-fetch fault the repair is refused. -/
def State.skipBlock (s : State) (k : Nat) : State :=
  match (s.ts k).stops.fault with
  | none => s
  | some (_, f) =>
    if f.cause = .blockFetch then s.repairReport k .repairRefused
    else if f.cause.cls = 0 ∧ f.cause ≠ .trap then
      match (s.fetchCode (tileOf k) (s.ts k).regs.bpc 8).1 with
      | .bytes bs =>
        let h := word (ofBytes bs)
        (s.updTs k fun a => { a with regs := { a.regs with bpc := nextBlock a.regs.bpc (field h 53 7) }, kindOk := 0 }).resumeTs k
      | .refused _ _ => s.repairReport k .repairRefused
    else s.resumeTs k
/-- REPAIR_SKIP_BLOCK. -/
def execRepairSkipBlock (ts : Nat) (s : State) : Res :=
  whenEnabled "REPAIR_SKIP_BLOCK" (s.canRepair ts 2) (s.withRepair ts 2 fun _ s => s.skipBlock ts)

/-- An epilogue that ends by repair lets the drain store the row as dispatched (R373). -/
def State.epilogueKilled (s : State) (owner : Nat) : State :=
  s.updTs owner fun a => { a with eng := { a.eng with recs := a.eng.recs.map fun r => { r with epiOn := false } } }

/-- REPAIR_KILL_TASK (R373 action 3): packet released, holes sent, no completion token, bindings cleared,
withheld updates discarded, thread set freed. Of a task that has ended, the packets that a commit has sent still leave (R146). -/
def State.killTask (s : State) (k : Nat) : State :=
  let s := s.releaseFault k
  let s := s.updTs k fun a => { a with
    outs := if a.eng.relLost then a.outs.filter OutTok.isHole
            else if a.ending then a.outs.filter fun o => o.send || o.isHole else a.outs,
    eng := { a.eng with relLost := false, journal := a.eng.journal.filter fun e => e.state ≠ .withheld } }
  match (s.ts k).task with
  | some a => match a.epi with
    | some (owner, _, _) => (s.epilogueKilled owner).endEpilogue k
    | none => if (s.ts k).ending then (s.drainSends k (s.ts k).outs.length).tryFree k else s.endTask k false
  | none => s
/-- REPAIR_KILL_TASK. -/
def execRepairKillTask (ts : Nat) (s : State) : Res :=
  whenEnabled "REPAIR_KILL_TASK" (s.canRepair ts 3) (s.withRepair ts 3 fun _ s => s.killTask ts)

/-! ## Live migration (R380, R381) -/

/-- Whether a tile is spare: a user tile of a region on which no actor is placed, holding no forwarding
entry, whose coordinate maps to it (R359, R381). -/
def State.spare (s : State) (r t : Nat) : Bool :=
  let x := s.tile t
  decide (x.rgn = some r) && x.conf.actor.isNone && !inShed x.coord && x.fwds.isEmpty &&
    decide ((s.region r).tileAt? x.coord = some t)

/-- Whether a live migration can come about: the source holds a context of a region, the destination is
spare there, no cut is open (R360, R380), no delta in progress affects either (R354), and no replay mode is on (R426). -/
def State.canMigrate (s : State) (src dst : Nat) : Bool :=
  let r := s.rgnOf src
  decide ((s.tile src).rgn = some r) && (s.tile src).conf.actor.isSome && !inShed (s.tile src).coord && s.spare r dst &&
    decide (src ≠ dst) && decide ((s.region r).cut.phase ≠ 1) && !s.trellised src && !s.trellised dst && decide ((s.region r).modeOn = 0) &&
    (match (s.region r).delta with | some d => d.tiles.all fun x => x.coord ≠ (s.tile src).coord && x.coord ≠ (s.tile dst).coord | none => true)
/-- LIVE_MIGRATION (R380). -/
def execLiveMigration (src dst : Nat) (s : State) : Res :=
  whenEnabled "LIVE_MIGRATION" (s.canMigrate src dst)
    ((s.migrate src dst).traceFw (s.rgnOf src) 4 (s.tile src).coord (s.tile src).coord (s.tile dst).coord 0)

/-- Whether the tile's oldest forwarding entry can end: 2^20 cycles have passed and no packet of an old
route is on its way (R381). -/
def State.canEndFwd (s : State) (t : Nat) : Bool :=
  match (s.tile t).fwds.getLast? with
  | some f => decide (f.expiry ≤ (s.tile t).cycle) && s.net.all fun p => !(p.dst == t && p.edge.isSome)
  | none => false
/-- FORWARDING_ENTRY_END (R381). -/
def execForwardingEntryEnd (tile : Nat) (s : State) : Res :=
  whenEnabled "FORWARDING_ENTRY_END" (s.canEndFwd tile) (s.updTile tile fun x => { x with fwds := x.fwds.dropLast })

/-- REPAIR_MIGRATE (R373 action 4, R374, R426). -/
def State.repairMigrate (s : State) (k : Nat) (m : Mail) : State :=
  let t := tileOf k
  let r := s.rgnOf t
  match (s.region r).tileAt? m.moveTo with
  | some d => if s.spare r d && decide ((s.region r).modeOn = 0) then (s.migrate t d).resumeTs (4 * d + tsNum k) else s.repairReport k .repairRefused
  | none => s.repairReport k .repairRefused
/-- REPAIR_MIGRATE. -/
def execRepairMigrate (ts : Nat) (s : State) : Res :=
  whenEnabled "REPAIR_MIGRATE" (s.canRepair ts 4) (s.withRepair ts 4 fun m s => s.repairMigrate ts m)
/-- REPAIR_HALT_REGION (R373 action 5). -/
def execRepairHaltRegion (ts : Nat) (s : State) : Res :=
  whenEnabled "REPAIR_HALT_REGION" (s.canRepair ts 5) (s.withRepair ts 5 fun _ s => s.haltRegion (s.rgnOf (tileOf ts)) 3)

/-- What a repair of an ACTION does (R373). -/
def State.repairAct (s : State) (k : Nat) (m : Mail) : Nat → State
  | 0 => s.resumeTs k
  | 1 => s.resumeWith k m
  | 2 => s.skipBlock k
  | 3 => s.killTask k
  | 4 => s.repairMigrate k m
  | _ => s.haltRegion (s.rgnOf (tileOf k)) 3

/-! ## Freezes (R344) -/

/-- The CXL.mem requester of a port goes on (R432). -/
def State.thawPort (s : State) (p : Nat) : State :=
  s.updLinks fun l => { l with ports := l.ports.zipIdx.map fun q => if q.2 = p then { q.1 with frozen := false } else q.1 }
/-- A host requester goes on: a queue, or the CXL.mem requester of a port (R344, R432). -/
def State.thawRequester (s : State) (n : Nat) : State :=
  if n < 64 then s.updQueue n fun q => { q with frozen := false } else s.thawPort (n - 64)
/-- FRZCTL convert (R344): a frozen thread set takes a region-bounds fault; a frozen port drops its held
packets and returns their credits; a frozen requester goes on. A serial that names no record is ignored. -/
def State.frzConvert (s : State) (r n : Nat) : State :=
  let g := s.region r
  match g.freezes.find? fun f => f.serial == n with
  | none => s
  | some f =>
    let s := s.updRegion r fun g => { g with freezes := g.freezes.filter fun x => x.serial ≠ n }
    match f.kind with
    | 0 =>
      match (g.tilesOf.flatMap fun t => (List.range 4).map fun i => 4 * t + i).find? (fun k => (s.ts k).stops.frozen == some n) with
      | some k => (s.updTs k fun a => { a with stops := { a.stops with frozen := none } }).takeFault k (FaultInfo.plain .regionBounds 255)
      | none => s
    | 1 =>
      let thaw (p : Nat × Edge) : Nat × Edge :=
        if p.2.frozen = some n then (p.1, { p.2 with frozen := none, waiting := [], returning := p.2.returning ++ p.2.waiting.map fun w => h0Seq w.2.1 }) else p
      s.updRegion r fun g => { g with edges := g.edges.map thaw }
    | _ => s.thawRequester f.wher
/-- FRZCTL_CONVERT. -/
def execFrzctlConvert (rgn serial : Nat) (s : State) : Res :=
  whenEnabled "FRZCTL_CONVERT" (s.hasRegion rgn) (s.frzConvert rgn serial)
/-- FRZCTL_KILL (R344): the region is halted as by a repair of halt region; the freeze of a host requester ends with its record
(R432). -/
def State.frzKill (s : State) (r n : Nat) : State :=
  match (s.region r).freezes.find? fun f => f.serial == n with
  | some f =>
    let s := (s.haltRegion r 3).updRegion r fun g => { g with freezes := g.freezes.filter fun x => x.serial ≠ n }
    if f.kind = 2 then s.thawRequester f.wher else s
  | none => s
/-- FRZCTL_KILL. -/
def execFrzctlKill (rgn serial : Nat) (s : State) : Res :=
  whenEnabled "FRZCTL_KILL" (s.hasRegion rgn) (s.frzKill rgn serial)

/-! ## Cuts (R377 to R379, R415) -/

/-- A stop request for a cut: every tile of the region stops dispatching; a halted cluster's boundary
admits its held traffic (R378, R415). -/
def State.cutRequest (s : State) (r why : Nat) : State :=
  let s := s.updRegion r fun g => { g with cut := { g.cut with phase := 1, why := why }, calm := false }
  (s.region r).tilesOf.foldl (fun s t =>
    let s := s.updTile t fun x => { x with stopping := true }
    if s.trellised t then s.updCluster (clusterOf t) fun c => { c with letIn := true, reason := 6 } else s) s
/-- The boundaries of a region's halted clusters hold traffic again (R412, R415). -/
def State.closeBoundary (s : State) (r : Nat) : State :=
  (s.region r).tilesOf.foldl (fun s t => s.updCluster (clusterOf t) fun c => { c with letIn := false }) s

/-- Whether a tile can reach Stopped (R378). A block in flight is discarded then, unless it has committed
before (R98). A thread set with a pending reply has not stopped (R92), and the core of a gated tile does nothing (R398). -/
def State.canStop (s : State) (t : Nat) : Bool :=
  (s.tile t).stopping && !(s.tile t).stopped && !s.gatedAt t && (List.range 4).all fun i => (s.ts (4 * t + i)).eng.pend.isEmpty
/-- TILE_STOPPED (R378): every thread set is between blocks, fault-stopped or frozen; the colour flips. -/
def State.tileStopped (s : State) (t : Nat) : State :=
  let s := (List.range 4).foldl (fun s i =>
    ((s.discard (4 * t + i)).dropGroups (4 * t + i)).updTs (4 * t + i) fun a => { a with stops := { a.stops with cut := true } }) s
  s.updTile t fun x => { x with stopped := true, colour := !x.colour, live := x.live }
/-- TILE_STOPPED. -/
def execTileStopped (tile : Nat) (s : State) : Res := whenEnabled "TILE_STOPPED" (s.canStop tile) (s.tileStopped tile)

/-- Whether the cut closes (R379): every tile Stopped, the colour's sends equal its receipts, and no entry
port owes a reply of that colour. -/
def State.canClose (s : State) (r : Nat) : Bool :=
  let g := s.region r
  s.hasRegion r && decide (g.cut.phase = 1) && g.tilesOf.all (fun t => (s.tile t).stopped) &&
    decide ((s.colourSums r g.colour).1 = (s.colourSums r g.colour).2) &&
    s.dreqs.all (fun d => !(d.rgn == r && d.colour == g.colour)) && s.dreps.all fun d => !(d.rgn == r && d.colour == g.colour)
/-- CUT_CLOSE (R379). -/
def State.cutClose (s : State) (r : Nat) : State :=
  let g := s.region r
  let (a, b) := s.colourSums r g.colour
  s.updRegion r fun g => { g with cut := { g.cut with phase := 2, sent := a, recv := b }, colour := !g.colour }
/-- CUT_CLOSE. -/
def execCutClose (rgn : Nat) (s : State) : Res := whenEnabled "CUT_CLOSE" (s.canClose rgn) (s.cutClose rgn)

/-- What the stopped tiles of a region have held back leaves (R378): sends and holes for which there is room, and what
steal packets that came meanwhile to tiles of no stage call for. -/
def State.sendHeld (s : State) (r : Nat) : State :=
  let s := ((s.region r).tilesOf.flatMap fun t => (List.range 4).map fun i => 4 * t + i).foldl
    (fun s k => (s.drainSends k (s.ts k).outs.length).tryFree k) s
  let s := (s.region r).edges.foldl (fun s p => s.flushHoles r p.1 ((s.region r).edge p.1).holes.length) s
  ((s.region r).stages.foldl (fun s p => s.stealLeft r p.1) s).feedSources r
/-- The tiles of a region are stopped for a cut no more (R378). -/
def State.cutEnd (s : State) (r : Nat) : State :=
  let s := (s.updRegion r fun g => { g with cut := { g.cut with phase := 0 } }).closeBoundary r
  (s.region r).tilesOf.foldl (fun s t =>
    (List.range 4).foldl (fun s i => s.updTs (4 * t + i) fun a => { a with stops := { a.stops with cut := false } })
      (s.updTile t fun x => { x with stopping := false, stopped := false })) s
/-- Resume after a cut: dispatch goes on, the tokens that a stopped tile has held are sent, and recorded asynchronous faults are
taken (R374, R378). The static energy of a tile is its context's from here on, that of one that a substitution has brought in
meanwhile too (R405). A Trellis-halted cluster stays halted, and its boundary holds traffic again (R412, R415). -/
def State.cutResume (s : State) (r : Nat) : State :=
  let s := s.cutEnd r
  let s := (s.region r).tilesOf.foldl (fun s t =>
    (List.range 4).foldl (fun s i => s.settle (4 * t + i)) ((s.updTile t fun x => { x with live := true }).sendTokens t)) s
  (s.sendHeld r).wakeAll

/-! ## Errors (R375, R394, R395) -/

/-- A register frame whose contents are unpredictable (R110, R375): every register that it holds takes a free value;
s0 and the reserved bits read as zero still. -/
def freeFrame (n : Nat) : Regs :=
  let w (i : Nat) : Word := Config.freeWord n i
  { s := (List.range 31).foldl (fun m i => AMap.put 0 (i + 1) (w i) m) [],
    v := (List.range 32).foldl (fun m i => AMap.put Vec.zero i (Vec.ofFn fun l => w (64 + 8 * i + l)) m) [],
    ox := (List.range 4).foldl (fun m i => AMap.put 0 i (w (40 + i)) m) [],
    bpc := w 44 &&& 0xFFFFFFFFFFFFFFF0, blr := w 45, flags := w 46 &&& 0x7007F, mexc := w 47 &&& 0xFFFFFFFFFFFF }
/-- UNCORRECTABLE_ERROR (R375, R395): a pool or DRAM line is poisoned (n is its line key), or a register
frame is hit (n is the thread set): the thread set stops with cause 0x24 and INDEX 255 and its frame is
unpredictable. While the field is undervolted the rail returns to SAFE and undervolting is disabled. -/
def State.uncorrectable (s : State) (frame : Bool) (n : Nat) : State :=
  let t := if frame then tileOf n else (n * 64 - 2 ^ 60) / 2 ^ 17
  let f := fieldOf t
  let rail := csrOf (s.fieldRec f).csr 0x200
  let onWafer := frame || decide (2 ^ 60 ≤ n * 64)
  let margin := onWafer && decide (0 < field rail 16 6)
  let s := if onWafer then s.updField f fun x => { x with csr := csrPut x.csr 0x206 (setField (csrOf x.csr 0x206) 32 32 (min (2 ^ 32 - 1) (field (csrOf x.csr 0x206) 32 32 + 1))) } else s
  let s := if margin then
      (s.updField f fun x => { x with
        moving := none,
        csr := csrPut (csrPut x.csr 0x200 (setField (setField rail 16 6 0) 0 6 (field rail 8 6))) 0x207 (setField (csrOf x.csr 0x207) 1 1 1) }).tracePower
        f 5 (field rail 8 6)
    else s
  if frame then
    let s := s.takeFault n ⟨.dataError, 255, 0, 0, 0, word margin.toNat⟩
    { s.updTs n fun a => { a with regs := freeFrame s.fresh } with fresh := s.fresh + 1 }
  else { s with poison := if s.poison.contains n then s.poison else n :: s.poison,
                margin := if margin && !s.margin.contains n then n :: s.margin else s.margin }
/-- Whether an error can come about at a place (R18, R336): a frame or a pool line of a tile, or a line of a DRAM
stack. -/
def errorPlace (frame : Bool) (n : Nat) : Bool :=
  if frame then isTile (tileOf n) else if 2 ^ 60 ≤ n * 64 then isTile ((n * 64 - 2 ^ 60) / 2 ^ 17) else physOk (n * 64) 64
/-- UNCORRECTABLE_ERROR. -/
def execUncorrectableError (frame : Bool) (n : Nat) (s : State) : Res :=
  whenEnabled "UNCORRECTABLE_ERROR" (errorPlace frame n) (s.uncorrectable frame n)

/-- CORRECTABLE_ERROR (R392, R394, R437): counted in ECCCNT, and in the field's window while the field may be undervolted; no
value changes. -/
def State.correctable (s : State) (f : Nat) : State :=
  s.updField f fun x => { x with errs := if x.counting then x.errs + 1 else x.errs, csr := csrPut x.csr 0x206 (setField (csrOf x.csr 0x206) 0 32 (min (2 ^ 32 - 1) (field (csrOf x.csr 0x206) 0 32 + 1))) }
/-- CORRECTABLE_ERROR. -/
def execCorrectableError (fld : Nat) (s : State) : Res :=
  whenEnabled "CORRECTABLE_ERROR" (decide (fld < 84)) (s.correctable fld)

end Sys2Proof.Machine
end

