-- ==== Sys2Proof/Machine/Operands.lean ====
section
/-! DEFINITION. The operand forms that instructions share (R82, R83, R196, R202, R217, R218, R244): which
tokens a form accepts, what V asserts, and the lane-wise forms of one, two and three operands. -/

namespace Sys2Proof.Machine

open Sys2Proof

/-- What an instruction asserts about its data operands: nothing (TI, TM), V as written (T2, R196), or
scalars only (compact, R202). -/
inductive Assert where
  | free
  | v (b : Bool)
  | scalars
  deriving DecidableEq, Repr

/-- Whether data operands meet the assertion, and whether a lane-mask predicate meets a vector (R83). -/
def Assert.holds (a : Assert) (mask : Bool) (ts : List Token) : Bool :=
  let anyV := ts.any Token.isVector
  ts.all Token.isData && (!mask || anyV) && (match a with
    | .free => true
    | .v b => b == anyV
    | .scalars => !anyV)

/-- A 12-bit immediate, sign-extended (R197). -/
def sext12 (i : BitVec 12) : Word := i.signExtend 64
/-- A 12-bit immediate, zero-extended (R197). -/
def zext12 (i : BitVec 12) : Word := i.zeroExtend 64

/-- A lane-wise instruction with one operand. -/
def State.lane1 (s : State) (g : Grp) (a : Assert) (pr : Pr) (ts : List Target) (f : Word → Word × Flags) : Res :=
  s.fire (mkShape pr true false .none ts .plain) g true false fun c =>
    if a.holds c.mask [c.left] then
      let r := lanewise c.left (.scalar 0) (.scalar 0) c.en fun x _ _ => f x
      Out.flagged r.1 r.2
    else Out.badType

/-- A lane-wise instruction with two operands. -/
def State.lane2 (s : State) (g : Grp) (a : Assert) (pr : Pr) (ts : List Target) (f : Word → Word → Word × Flags) : Res :=
  s.fire (mkShape pr true true .none ts .plain) g true false fun c =>
    if a.holds c.mask [c.left, c.right] then
      let r := lanewise c.left c.right (.scalar 0) c.en fun x y _ => f x y
      Out.flagged r.1 r.2
    else Out.badType

/-- A lane-wise instruction with three operands (R245). -/
def State.lane3 (s : State) (g : Grp) (a : Assert) (pr : Pr) (ts : List Target) (f : Word → Word → Word → Word × Flags) : Res :=
  s.fire (mkShape pr true true .data ts .plain) g true false fun c =>
    if a.holds c.mask [c.left, c.right, c.third] then
      let r := lanewise c.left c.right c.third c.en f
      Out.flagged r.1 r.2
    else Out.badType

/-- A compare of two operands (R233, R252). -/
def State.cmp2 (s : State) (g : Grp) (pr : Pr) (ts : List Target) (f : Word → Word → Bool × Flags) : Res :=
  s.fire (mkShape pr true true .none ts .plain) g true false fun c =>
    if Assert.free.holds c.mask [c.left, c.right] then
      let r := compare c.left c.right c.en f
      Out.flagged r.1 r.2
    else Out.badType

/-- A compare with an immediate (R233). -/
def State.cmpImm (s : State) (pr : Pr) (t0 : Target) (i : BitVec 12) (f : Word → Word → Bool) : Res :=
  s.fire (mkShape pr true false .none [t0] .plain) .int true false fun c =>
    if Assert.free.holds c.mask [c.left] then
      let r := compare c.left (.scalar (sext12 i)) c.en fun x y => (f x y, 0)
      Out.flagged r.1 r.2
    else Out.badType

/-- A lane-wise function that raises no flag. -/
def plain1 (f : Word → Word) (a : Word) : Word × Flags := (f a, 0)
/-- A lane-wise function of two operands that raises no flag. -/
def plain2 (f : Word → Word → Word) (a b : Word) : Word × Flags := (f a b, 0)

/-- Whether a token has one of the types that SEL takes to its left and right (R217). -/
def Token.isValue : Token → Bool
  | .scalar _ | .vector _ _ | .mask _ => true
  | _ => false

/-- Nulls the lanes that a lane-mask predicate disables (R83, R257). -/
def Token.disable (t : Token) (en : BitVec 8) : Token :=
  match t with
  | .vector v n => .vector v (n ||| ~~~en)
  | t => t

/-- Whether what a T2 instruction delivers agrees with V; a compact one asserts nothing (R202). -/
def agrees (v : Option Bool) (mask : Bool) (t : Token) : Bool :=
  (match v with | some b => b == t.isVector | none => true) && (!mask || t.isVector)

/-- The thread set's region, tile and thread set records, as instructions read them. -/
def Fire.tile (c : Fire) : Nat := tileOf c.k
/-- The thread set. -/
def Fire.set (c : Fire) : ThreadSet := c.s.ts c.k
/-- The tile record. -/
def Fire.tileRec (c : Fire) : Tile := c.s.tile (tileOf c.k)
/-- An ox register at block start (R86). -/
def Fire.oxAt (c : Fire) (n : Nat) : Word := AMap.get 0 n c.fl.snap.ox
/-- The region. -/
def Fire.region (c : Fire) : Region := c.s.region (c.s.rgnOf (tileOf c.k))

end Sys2Proof.Machine
end

