-- ==== Sys2Proof/Machine/Control.lean ====
section
/-! DEFINITION. The exits of a block (R237 to R243): each is kept until the commit, which sets BPC and BLR
or ends the task. -/

namespace Sys2Proof.Machine

open Sys2Proof

/-- NSLOT of a header (R74). -/
def nslotOf (h : Word) : Nat := field h 53 7
/-- `next_block` of the block in flight. -/
def Flight.next (f : Flight) : Word := nextBlock f.base (nslotOf f.header)
/-- Whether the thread set runs an epilogue (R188). -/
def ThreadSet.inEpilogue (t : ThreadSet) : Bool := match t.task with | some a => a.epi.isSome | none => false

/-- An exit without a data slot (R238). -/
def State.exitOf (s : State) (pr : Pr) (f : Fire → Out) : Res :=
  s.fire (mkShape pr false false .none [] .exit) .plumb false false f
/-- Leaves for an address; `link` is what BLR becomes (R238). -/
def leave (kind : ExitKind) (dest link : Word) : Out := Out.act .completion (.exit kind dest link)
/-- The target of BR and CALL: the block's address plus 16 times the offset (R238). -/
def Fire.relative (c : Fire) (off : BitVec 20) : Word := c.fl.base + (off.signExtend 64 <<< 4)
/-- An exit through an address in the left slot: it must lie in space 3 and be a multiple of 16 (R239). -/
def State.exitVia (s : State) (pr : Pr) (f : Fire → Word → Out) : Res :=
  s.fire (mkShape pr true false .none [] .exit) .plumb false false fun c =>
    match c.left with
    | .scalar a => if space a = 3 ∧ field a 0 4 = 0 then f c a else Out.faultAt .branchTarget 0 a
    | _ => Out.badType

/-- BR (R238). -/
def execBr (pr : Pr) (off : BitVec 20) (s : State) : Res :=
  s.exitOf pr fun c => leave .goto (c.relative off) c.set.regs.blr
/-- CALL (R238). -/
def execCall (pr : Pr) (off : BitVec 20) (s : State) : Res :=
  s.exitOf pr fun c => leave .call (c.relative off) c.fl.next
/-- BRI (R238, R239). -/
def execBri (pr : Pr) (s : State) : Res := s.exitVia pr fun c a => leave .goto a c.set.regs.blr
/-- CALLI (R238, R239). -/
def execCalli (pr : Pr) (s : State) : Res := s.exitVia pr fun c a => leave .call a c.fl.next
/-- RET (R238): BLR as at block start. -/
def execRet (pr : Pr) (s : State) : Res := s.exitOf pr fun c => leave .goto c.set.regs.blr c.set.regs.blr
/-- DONE (R240). -/
def execDone (pr : Pr) (s : State) : Res := s.exitOf pr fun c => leave .done 0 c.set.regs.blr
/-- YIELD (R241): in an epilogue it takes the epilogue fault (R188). -/
def execYield (pr : Pr) (s : State) : Res :=
  s.exitOf pr fun c => if c.set.inEpilogue then Out.fault .epilogue else leave .yield 0 c.set.regs.blr
/-- TRAP (R242): it commits, and the thread set stops with BPC at the next block. -/
def execTrap (pr : Pr) (code : BitVec 12) (s : State) : Res :=
  s.exitOf pr fun c => leave (.trap code.toNat) c.fl.next c.set.regs.blr

end Sys2Proof.Machine
end

