-- ==== Sys2Proof/Machine/Numbers.lean ====
section
/-! DEFINITION. WF64 (R113 to R116): values as sign, integer significand and exponent, rounding once, and
the arithmetic of R246 to R249, R252, R254 to R256. -/

namespace Sys2Proof.Machine

open Sys2Proof

/-- The flags NX, UF, OF, DZ, NV, SAT and IDZ of FLAGS[6:0] (R103). -/
def fNX : BitVec 7 := 1
/-- Underflow. -/
def fUF : BitVec 7 := 2
/-- Overflow. -/
def fOF : BitVec 7 := 4
/-- Division by zero. -/
def fDZ : BitVec 7 := 8
/-- Invalid. -/
def fNV : BitVec 7 := 16
/-- Saturated. -/
def fSAT : BitVec 7 := 32
/-- Integer division by zero. -/
def fIDZ : BitVec 7 := 64

/-- A flag when a condition holds. -/
def flagIf (c : Bool) (f : BitVec 7) : BitVec 7 := if c then f else 0

/-- A floating value: (−1)^neg × m × 2^e with m ≠ 0, a zero, an infinity or a NaN (R114, R119). -/
inductive FVal where
  | zero (neg : Bool)
  | fin (neg : Bool) (m : Nat) (e : Int)
  | inf (neg : Bool)
  | nan (signalling : Bool)
  deriving DecidableEq, Repr

/-- The canonical quiet NaN (R115). -/
def qNaN : Word := 0x7FF8000000000000
/-- The infinities of WF64. -/
def wInf (neg : Bool) : Word := if neg then 0xFFF0000000000000 else 0x7FF0000000000000
/-- The zeros of WF64. -/
def wZero (neg : Bool) : Word := if neg then 0x8000000000000000 else 0
/-- The largest finite values of WF64 (R114). -/
def wMax (neg : Bool) : Word := if neg then 0xFFDFFFFFFFFFFFFF else 0x7FDFFFFFFFFFFFFF

/-- The value of a WF64 encoding (R113, R114). -/
def wfVal (w : Word) : FVal :=
  let neg := bitAt w 63
  let ex := field w 53 10
  let sig := field w 0 53
  if ex = 1023 then
    if sig = 2 ^ 52 then .inf neg else .nan (!(decide (sig / 2 ^ 51 % 2 = 1)))
  else if sig = 0 then .zero neg
  else .fin neg sig (if ex = 0 then -562 else (ex : Int) - 563)

/-- Length of a number in bits. -/
def bitLen (m : Nat) : Nat := if m = 0 then 0 else Nat.log2 m + 1

/-- A rounded magnitude: m × 2^e, and whether rounding changed it. -/
structure Rounded where
  m : Nat
  e : Int
  inexact : Bool
  deriving DecidableEq, Repr

/-- Whether a mode rounds a magnitude up: 0 RNE, 1 RZ, 2 RU, 3 RD (R101). -/
def roundsUp (rm : Nat) (neg : Bool) (keep : Nat) (aboveHalf half low : Bool) : Bool :=
  match rm with
  | 0 => aboveHalf || (half && decide (keep % 2 = 1))
  | 1 => false
  | 2 => !neg && (aboveHalf || half || low)
  | _ => neg && (aboveHalf || half || low)

/-- Rounds the magnitude m × 2^e to p bits with the last bit at 2^emin or above. With `sticky` the exact
magnitude lies strictly between m and m + 1 in units of 2^e, and m has more than p bits. -/
def roundMag (p : Nat) (emin : Int) (rm : Nat) (neg : Bool) (m : Nat) (e : Int) (sticky : Bool) : Rounded :=
  let q := max (e + (bitLen m : Int) - (p : Int)) emin
  if q ≤ e then ⟨m * 2 ^ (e - q).toNat, q, sticky⟩
  else
    let d := (q - e).toNat
    let keep := m / 2 ^ d
    let rest := m % 2 ^ d
    let h := 2 ^ (d - 1)
    let above := decide (h < rest) || (decide (rest = h) && sticky)
    let half := decide (rest = h) && !sticky
    let low := (decide (0 < rest) && decide (rest < h)) || (decide (rest = 0) && sticky)
    let up := roundsUp rm neg keep above half low
    ⟨if up then keep + 1 else keep, q, above || half || low⟩

/-- The canonical WF64 encoding of m × 2^e with m < 2^54 and e at least −562, in range. -/
def wfEncode (neg : Bool) (m : Nat) (e : Int) : Word :=
  if m = 0 then wZero neg
  else
    let (m, e) := if 2 ^ 53 ≤ m then (m / 2, e + 1) else (m, e)
    let up := min (53 - bitLen m) (e + 562).toNat
    let m := m * 2 ^ up
    let e := e - (up : Int)
    let ex := if m < 2 ^ 52 then 0 else (e + 563).toNat
    BitVec.ofNat 64 ((if neg then 2 ^ 63 else 0) + ex % 1024 * 2 ^ 53 + m % 2 ^ 53)

/-- Whether a magnitude is above the largest finite WF64 value. -/
def aboveWf (m : Nat) (e : Int) : Bool := decide (512 < e + (bitLen m : Int))

/-- Whether m × 2^e, or the number just above it, is below 2^-510. -/
def belowNormal (m : Nat) (e : Int) : Bool := decide (e + (bitLen m : Int) ≤ -510)

/-- `round_wf64` of R116 in a mode: the encoding and the flags NX, UF and OF of a nonzero exact value. -/
def roundWfMode (rm : Nat) (neg : Bool) (m : Nat) (e : Int) (sticky : Bool) : Word × BitVec 7 :=
  if m = 0 ∧ !sticky then (wZero neg, 0)
  else
    let r := roundMag 53 (-562) rm neg m e sticky
    if aboveWf r.m r.e then
      let toInf := match rm with | 0 => true | 1 => false | 2 => !neg | _ => neg
      (if toInf then wInf neg else wMax neg, fOF ||| fNX)
    else
      (wfEncode neg r.m r.e, flagIf r.inexact fNX ||| flagIf (r.inexact && belowNormal m e) fUF)

/-- `round_wf64` of R116: to nearest, ties to even. -/
def roundWf (neg : Bool) (m : Nat) (e : Int) (sticky : Bool) : Word × BitVec 7 := roundWfMode 0 neg m e sticky

/-- An exact signed number n × 2^e, rounded; an exact zero has the sign `zneg`. -/
def roundSigned (n : Int) (e : Int) (zneg : Bool) : Word × BitVec 7 :=
  if n = 0 then (wZero zneg, 0) else roundWf (decide (n < 0)) n.natAbs e false

/-- Signed integer of a sign and magnitude. -/
def signed (neg : Bool) (m : Nat) : Int := if neg then -(m : Int) else (m : Int)

/-- The exact sum of two finite numbers, as an integer and its exponent. -/
def sumOf (a : Int) (ea : Int) (b : Int) (eb : Int) : Int × Int :=
  let e := min ea eb
  (a * (2 ^ (ea - e).toNat : Nat) + b * (2 ^ (eb - e).toNat : Nat), e)

/-- A NaN operand's result (R246): NV when one signals. -/
def nanRes (signals : Bool) : Word × BitVec 7 := (qNaN, flagIf signals fNV)
/-- An invalid operation (R116). -/
def invalid : Word × BitVec 7 := (qNaN, fNV)
/-- Whether a value is a NaN. -/
def FVal.isNan : FVal → Bool
  | .nan _ => true
  | _ => false
/-- Whether a value is a signalling NaN. -/
def FVal.signals : FVal → Bool
  | .nan s => s
  | _ => false
/-- The sign of a value; a NaN has none. -/
def FVal.neg : FVal → Bool
  | .zero n => n
  | .fin n _ _ => n
  | .inf n => n
  | .nan _ => false
/-- The negated value. -/
def FVal.negate : FVal → FVal
  | .zero n => .zero (!n)
  | .fin n m e => .fin (!n) m e
  | .inf n => .inf (!n)
  | .nan s => .nan s

/-- The encoding of a value (canonical); finite values that fit. -/
def FVal.enc : FVal → Word
  | .zero n => wZero n
  | .fin n m e => (roundWf n m e false).1
  | .inf n => wInf n
  | .nan _ => qNaN

/-- The canonical encoding of the value of a pattern (R115). -/
def canon (w : Word) : Word := (wfVal w).enc

/-- Addition of values (R246). -/
def addVal (a b : FVal) : Word × BitVec 7 :=
  if a.isNan || b.isNan then nanRes (a.signals || b.signals)
  else match a, b with
    | .inf n, .inf k => if n = k then (wInf n, 0) else invalid
    | .inf n, _ => (wInf n, 0)
    | _, .inf n => (wInf n, 0)
    | .zero n, .zero k => (wZero (n && k), 0)
    | .zero _, .fin n m e => roundWf n m e false
    | .fin n m e, .zero _ => roundWf n m e false
    | .fin n m e, .fin k p q =>
      let s := sumOf (signed n m) e (signed k p) q
      roundSigned s.1 s.2 false
    | _, _ => (qNaN, 0)

/-- FADD (R246). -/
def fadd (a b : Word) : Word × BitVec 7 := addVal (wfVal a) (wfVal b)
/-- FSUB (R246). -/
def fsub (a b : Word) : Word × BitVec 7 := addVal (wfVal a) (wfVal b).negate
/-- FMUL (R246). -/
def fmul (a b : Word) : Word × BitVec 7 :=
  let x := wfVal a
  let y := wfVal b
  let n := x.neg != y.neg
  if x.isNan || y.isNan then nanRes (x.signals || y.signals)
  else match x, y with
    | .inf _, .zero _ => invalid
    | .zero _, .inf _ => invalid
    | .inf _, _ => (wInf n, 0)
    | _, .inf _ => (wInf n, 0)
    | .fin _ m e, .fin _ p q => roundWf n (m * p) (e + q) false
    | _, _ => (wZero n, 0)

/-- a × b + c with the product negated when `np` (R247). -/
def fmaVal (x y z : FVal) (np : Bool) : Word × BitVec 7 :=
  let n := (x.neg != y.neg) != np
  if x.signals || y.signals || z.signals then invalid
  else match x, y with
    | .inf _, .zero _ => invalid
    | .zero _, .inf _ => invalid
    | _, _ =>
      if x.isNan || y.isNan || z.isNan then nanRes false
      else match x, y, z with
        | .inf _, _, .inf k => if n = k then (wInf k, 0) else invalid
        | _, .inf _, .inf k => if n = k then (wInf k, 0) else invalid
        | .inf _, _, _ => (wInf n, 0)
        | _, .inf _, _ => (wInf n, 0)
        | _, _, .inf k => (wInf k, 0)
        | .fin _ m e, .fin _ p q, .fin k r t =>
          let s := sumOf (signed n (m * p)) (e + q) (signed k r) t
          roundSigned s.1 s.2 false
        | .fin _ m e, .fin _ p q, _ => roundWf n (m * p) (e + q) false
        | _, _, .fin k r t => roundWf k r t false
        | _, _, _ => (wZero (n && z.neg), 0)
/-- FMA (R247). -/
def fma (a b c : Word) : Word × BitVec 7 := fmaVal (wfVal a) (wfVal b) (wfVal c) false
/-- FNMA (R247). -/
def fnma (a b c : Word) : Word × BitVec 7 := fmaVal (wfVal a) (wfVal b) (wfVal c) true

/-- The rounded quotient of two magnitudes. -/
def divRound (neg : Bool) (m : Nat) (e : Int) (p : Nat) (q : Int) : Word × BitVec 7 :=
  let sh : Nat := 120
  let n := m * 2 ^ sh
  roundWf neg (n / p) (e - q - (sh : Int)) (decide (n % p ≠ 0))

/-- FDIV (R248). -/
def fdiv (a b : Word) : Word × BitVec 7 :=
  let x := wfVal a
  let y := wfVal b
  let n := x.neg != y.neg
  if x.isNan || y.isNan then nanRes (x.signals || y.signals)
  else match x, y with
    | .inf _, .inf _ => invalid
    | .zero _, .zero _ => invalid
    | .inf _, _ => (wInf n, 0)
    | _, .inf _ => (wZero n, 0)
    | .zero _, _ => (wZero n, 0)
    | _, .zero _ => (wInf n, fDZ)
    | .fin _ m e, .fin _ p q => divRound n m e p q
    | _, _ => (qNaN, 0)

/-- Integer square root, bit by bit: `k` bits are still to be decided. -/
def isqrtFrom (n : Nat) : Nat → Nat → Nat
  | 0, r => r
  | k + 1, r => if (r + 2 ^ k) * (r + 2 ^ k) ≤ n then isqrtFrom n k (r + 2 ^ k) else isqrtFrom n k r
/-- floor(√n). -/
def isqrt (n : Nat) : Nat := isqrtFrom n (bitLen n / 2 + 1) 0

/-- The square root of a positive number, with 100 more bits than it has: significand, exponent, sticky. -/
def sqrtParts (m : Nat) (e : Int) : Nat × Int × Bool :=
  let sh : Nat := if e % 2 = 0 then 200 else 201
  let n := m * 2 ^ sh
  let r := isqrt n
  (r, (e - (sh : Int)) / 2, decide (r * r ≠ n))

/-- FSQRT (R248). -/
def fsqrt (a : Word) : Word × BitVec 7 :=
  match wfVal a with
  | .nan s => nanRes s
  | .zero n => (wZero n, 0)
  | .inf true => invalid
  | .inf false => (wInf false, 0)
  | .fin true _ _ => invalid
  | .fin false m e => let r := sqrtParts m e; roundWf false r.1 r.2.1 r.2.2

/-- Comparison of two values that are no NaN: below, equal, above; zeros are equal. -/
def cmpVal (a b : FVal) : Ordering :=
  match a, b with
  | .inf n, .inf k => if n = k then .eq else if n then .lt else .gt
  | .inf n, _ => if n then .lt else .gt
  | _, .inf n => if n then .gt else .lt
  | .zero _, .zero _ => .eq
  | .zero _, .fin n _ _ => if n then .gt else .lt
  | .fin n _ _, .zero _ => if n then .lt else .gt
  | .fin n m e, .fin k p q =>
    let s := sumOf (signed n m) e (-(signed k p)) q
    if s.1 < 0 then .lt else if s.1 = 0 then .eq else .gt
  | _, _ => .eq

/-- FMIN and FMAX (R249): −0 is below +0. -/
def fminmax (isMax : Bool) (a b : Word) : Word × BitVec 7 :=
  let x := wfVal a
  let y := wfVal b
  let fl := flagIf (x.signals || y.signals) fNV
  if x.isNan && y.isNan then (qNaN, fl)
  else if x.isNan then (y.enc, fl)
  else if y.isNan then (x.enc, fl)
  else
    let below := match cmpVal x y with
      | .lt => true
      | .gt => false
      | .eq => x.neg && !y.neg
    (if below != isMax then x.enc else y.enc, fl)

/-- The comparisons of R252: 0 equal, 1 less, 2 at most, 3 unordered. -/
def fcmp (minor : Nat) (a b : Word) : Bool × BitVec 7 :=
  let x := wfVal a
  let y := wfVal b
  let un := x.isNan || y.isNan
  let sig := x.signals || y.signals
  match minor with
  | 0 => (!un && cmpVal x y == .eq, flagIf sig fNV)
  | 1 => (!un && cmpVal x y == .lt, flagIf un fNV)
  | 2 => (!un && cmpVal x y != .gt, flagIf un fNV)
  | _ => (un, flagIf sig fNV)

/-- FABS and FNEG (R250). -/
def fabsNeg (isNeg : Bool) (a : Word) : Word × BitVec 7 :=
  match wfVal a with
  | .nan s => nanRes s
  | v => ((if isNeg then v.negate else if v.neg then v.negate else v).enc, 0)

/-- FCLASS (R254). -/
def fclass (a : Word) : Word :=
  let ex := field a 53 10
  let odd := (decide (ex = 0) && bitAt a 52) || (decide (0 < ex ∧ ex < 1023) && !bitAt a 52)
  let b := match wfVal a with
    | .inf n => if n then 0 else 7
    | .nan s => if s then 8 else 9
    | .zero n => if n then 3 else 4
    | .fin n m e => if belowNormal m e then (if n then 2 else 5) else (if n then 1 else 6)
  BitVec.ofNat 64 (2 ^ b + if odd then 1024 else 0)

/-- FSCALE (R255): n is clamped where the result no longer depends on it. -/
def fscale (a n : Word) : Word × BitVec 7 :=
  match wfVal a with
  | .nan s => nanRes s
  | .fin neg m e => roundWf neg m (e + max (-4096) (min 4096 n.toInt)) false
  | v => (v.enc, 0)

/-- An integer nearest to m × 2^e in a mode, and whether it is exact. -/
def roundInt (rm : Nat) (neg : Bool) (m : Nat) (e : Int) : Nat × Bool :=
  if 0 ≤ e then (m * 2 ^ e.toNat, false)
  else
    let d := (-e).toNat
    let keep := m / 2 ^ d
    let rest := m % 2 ^ d
    let h := 2 ^ (d - 1)
    let up := roundsUp rm neg keep (decide (h < rest)) (decide (rest = h)) (decide (0 < rest ∧ rest < h))
    (if up then keep + 1 else keep, decide (rest ≠ 0))

/-- FRND (R256). -/
def frnd (rm : Nat) (a : Word) : Word × BitVec 7 :=
  match wfVal a with
  | .nan s => nanRes s
  | .fin neg m e => ((roundWf neg (roundInt rm neg m e).1 0 false).1, 0)
  | v => (v.enc, 0)

end Sys2Proof.Machine
end

