-- ==== Sys2Proof/Machine/Convert.lean ====
section
/-! DEFINITION. Storage formats and their converters (R118 to R121), and the conversions of R253. -/

namespace Sys2Proof.Machine

open Sys2Proof

/-- A floating storage format (R119): exponent bits, fraction bits, bias; `narrow` is E4M3, which has no
infinity and one NaN. -/
structure FloatFmt where
  ebits  : Nat
  fbits  : Nat
  bias   : Int
  narrow : Bool
  deriving DecidableEq, Repr

/-- The kinds of storage format (R118). -/
inductive Fmt where
  | wf
  | float (f : FloatFmt)
  | int (bits : Nat) (sgn : Bool)
  deriving DecidableEq, Repr

/-- The format of a storage format code; a reserved code has none (R118). -/
def fmtOf : Nat → Option Fmt
  | 0 => some .wf
  | 1 => some (.float ⟨11, 52, 1023, false⟩)
  | 2 => some (.float ⟨8, 23, 127, false⟩)
  | 3 => some (.float ⟨5, 10, 15, false⟩)
  | 4 => some (.float ⟨8, 7, 127, false⟩)
  | 5 => some (.float ⟨4, 3, 7, true⟩)
  | 6 => some (.float ⟨5, 2, 15, false⟩)
  | 8 => some (.int 8 true)
  | 9 => some (.int 16 true)
  | 10 => some (.int 32 true)
  | 11 => some (.int 64 true)
  | 12 => some (.int 8 false)
  | 13 => some (.int 16 false)
  | 14 => some (.int 32 false)
  | 15 => some (.int 64 false)
  | _ => none

/-- Bits of an element. -/
def Fmt.bits : Fmt → Nat
  | .wf => 64
  | .float f => 1 + f.ebits + f.fbits
  | .int n _ => n
/-- Bytes of an element. -/
def Fmt.bytes (f : Fmt) : Nat := f.bits / 8

/-- The value of a stored floating number (R119). -/
def FloatFmt.val (f : FloatFmt) (x : Nat) : FVal :=
  let frac := x % 2 ^ f.fbits
  let ex := x / 2 ^ f.fbits % 2 ^ f.ebits
  let neg := decide (x / 2 ^ (f.fbits + f.ebits) % 2 = 1)
  let top := 2 ^ f.ebits - 1
  if f.narrow && decide (ex = top) && decide (frac = 2 ^ f.fbits - 1) then .nan false
  else if !f.narrow && decide (ex = top) then
    if frac = 0 then .inf neg else .nan (decide (frac / 2 ^ (f.fbits - 1) = 0))
  else if ex = 0 then
    if frac = 0 then .zero neg else .fin neg frac (1 - f.bias - (f.fbits : Int))
  else .fin neg (2 ^ f.fbits + frac) ((ex : Int) - f.bias - (f.fbits : Int))

/-- Adds the sign bit of a format. -/
def FloatFmt.sign (f : FloatFmt) (neg : Bool) (x : Nat) : Nat := x + if neg then 2 ^ (f.ebits + f.fbits) else 0
/-- The largest finite encoding. -/
def FloatFmt.maxBits (f : FloatFmt) : Nat :=
  if f.narrow then 2 ^ (f.ebits + f.fbits) - 2 else (2 ^ f.ebits - 1) * 2 ^ f.fbits - 1
/-- The canonical NaN (R119). -/
def FloatFmt.nan (f : FloatFmt) : Nat :=
  if f.narrow then 2 ^ (f.ebits + f.fbits) - 1 else (2 ^ f.ebits - 1) * 2 ^ f.fbits + 2 ^ (f.fbits - 1)
/-- The encoding that stands for an infinity: NaN where the format has none (R121). -/
def FloatFmt.infBits (f : FloatFmt) (neg : Bool) : Nat :=
  if f.narrow then f.nan else f.sign neg ((2 ^ f.ebits - 1) * 2 ^ f.fbits)
/-- The encoding of a rounded magnitude m × 2^e that the format holds. -/
def FloatFmt.enc (f : FloatFmt) (m : Nat) (e : Int) : Nat :=
  if m = 0 then 0
  else
    let emin := 1 - f.bias - (f.fbits : Int)
    let up := min (f.fbits + 1 - bitLen m) (e - emin).toNat
    let m' := m * 2 ^ up
    let e' := e - (up : Int)
    if m' < 2 ^ f.fbits then m'
    else
      let (m', e') := if 2 ^ (f.fbits + 1) ≤ m' then (m' / 2, e' + 1) else (m', e')
      (e' - emin + 1).toNat * 2 ^ f.fbits + m' % 2 ^ f.fbits

/-- Whether a rounded magnitude is above the largest finite value of a format. -/
def FloatFmt.above (f : FloatFmt) (m : Nat) (e : Int) : Bool :=
  match f.val f.maxBits with
  | .fin _ p q => let s := sumOf (m : Int) e (-(p : Int)) q; decide (0 < s.1)
  | _ => false

/-- Whether a rounded magnitude is subnormal or zero in a format. -/
def FloatFmt.subnormal (f : FloatFmt) (m : Nat) (e : Int) : Bool := decide (e + (bitLen m : Int) ≤ 1 - f.bias)

/-- Whether a mode's overflow gives an infinity (R121). -/
def overflowInf (rm : Nat) (neg : Bool) : Bool := match rm with | 0 => true | 1 => false | 2 => !neg | _ => neg

/-- A finite number into a floating format (R121). -/
def toFloat (f : FloatFmt) (rm : Nat) (sat neg : Bool) (m : Nat) (e : Int) : Nat × BitVec 7 :=
  let r := roundMag (f.fbits + 1) (1 - f.bias - (f.fbits : Int)) rm neg m e false
  if f.above r.m r.e then
    if sat then (f.sign neg f.maxBits, fSAT ||| fNX)
    else (if overflowInf rm neg then f.infBits neg else f.sign neg f.maxBits, fOF ||| fNX)
  else
    (f.sign neg (f.enc r.m r.e), flagIf r.inexact fNX ||| flagIf (r.inexact && f.subnormal r.m r.e) fUF)

/-- The smallest integer of a target. -/
def intMin (n : Nat) (sgn : Bool) : Int := if sgn then -(2 ^ (n - 1) : Nat) else 0
/-- The largest integer of a target. -/
def intMax (n : Nat) (sgn : Bool) : Int := if sgn then (2 ^ (n - 1) : Nat) - 1 else (2 ^ n : Nat) - 1

/-- An integer into an integer target of n bits (R121). -/
def narrowInt (n : Nat) (sgn sat : Bool) (x : Int) (inexact : Bool) : Nat × BitVec 7 :=
  let fl := flagIf inexact fNX
  if intMin n sgn ≤ x ∧ x ≤ intMax n sgn then (toBits n x, fl)
  else if sat then (toBits n (if x < intMin n sgn then intMin n sgn else intMax n sgn), fl ||| fSAT)
  else (toBits n x, fl ||| fNV)

/-- A floating value into an integer target (R121). -/
def valToInt (n : Nat) (sgn sat : Bool) (rm : Nat) (v : FVal) : Nat × BitVec 7 :=
  match v with
  | .nan _ => (0, fNV)
  | .inf neg =>
    if sat then (toBits n (if neg then intMin n sgn else intMax n sgn), fSAT) else (toBits n (intMin n sgn), fNV)
  | .zero _ => (0, 0)
  | .fin neg m e =>
    let r := roundInt rm neg m e
    narrowInt n sgn sat (signed neg r.1) r.2

/-- An integer rounded to WF64 by a mode (R120, R121). -/
def intToWf (rm : Nat) (x : Int) : Word × BitVec 7 :=
  if x = 0 then (0, 0) else roundWfMode rm (decide (x < 0)) x.natAbs 0 false

/-- The integer that the bits of an integer element hold. -/
def intVal (n : Nat) (sgn : Bool) (x : Nat) : Int := if sgn then sintN n x else (x % 2 ^ n : Nat)

/-- A stored floating value into the core as WF64 (R120). -/
def valToWf (rm : Nat) (sat : Bool) (v : FVal) : Word × BitVec 7 :=
  match v with
  | .nan s => nanRes s
  | .inf n => (wInf n, 0)
  | .zero n => (wZero n, 0)
  | .fin n m e =>
    let r := roundWfMode rm n m e false
    if sat && decide (r.2 &&& fOF ≠ 0) then (wMax n, fSAT ||| fNX) else r

/-- A converter into the core (R120): a stored element as WF64, or as an integer. -/
def convertIn (f : Fmt) (asInt : Bool) (rm : Nat) (sat : Bool) (x : Nat) : Word × BitVec 7 :=
  match f, asInt with
  | .wf, false => (BitVec.ofNat 64 x, 0)
  | .wf, true => let r := valToInt 64 true sat rm (wfVal (BitVec.ofNat 64 x)); (BitVec.ofNat 64 r.1, r.2)
  | .float g, false => valToWf rm sat (g.val x)
  | .float g, true => let r := valToInt 64 true sat rm (g.val x); (BitVec.ofNat 64 r.1, r.2)
  | .int n s, true => (wordOfInt (intVal n s x), 0)
  | .int n s, false => intToWf rm (intVal n s x)

/-- A converter out of the core (R121): a WF64 lane, or an integer lane, into a storage format. -/
def convertOut (f : Fmt) (fromInt : Bool) (rm : Nat) (sat : Bool) (w : Word) : Nat × BitVec 7 :=
  match f, fromInt with
  | .wf, false => (w.toNat, 0)
  | .wf, true => let r := intToWf rm w.toInt; (r.1.toNat, r.2)
  | .float g, false =>
    match wfVal w with
    | .nan s => (g.nan, flagIf s fNV)
    | .inf n =>
      if sat then (g.sign n g.maxBits, fSAT) else (g.infBits n, flagIf g.narrow fNV)
    | .zero n => (g.sign n 0, 0)
    | .fin n m e => toFloat g rm sat n m e
  | .float g, true =>
    if w = 0 then (0, 0) else toFloat g rm sat (decide (w.toInt < 0)) w.toInt.natAbs 0
  | .int n s, false => valToInt n s sat rm (wfVal w)
  | .int n s, true => narrowInt n s sat (if s then w.toInt else (w.toNat : Int)) false

/-- FCVT.F2I and F2N (R253). -/
def f2i (sgn : Bool) (sat : Bool) (rm : Nat) (a : Word) : Word × BitVec 7 :=
  let r := convertOut (.int 64 sgn) false rm sat a
  (BitVec.ofNat 64 r.1, r.2)
/-- FCVT.I2F and N2F (R253). -/
def i2f (sgn : Bool) (rm : Nat) (a : Word) : Word × BitVec 7 := convertIn (.int 64 sgn) false rm false a.toNat

end Sys2Proof.Machine
end

