-- ==== Sys2Proof/Machine/Flags.lean ====
section
/-! DEFINITION. The flag computations of R103, R104 and R228: merging a block's flags into FLAGS, clearing
and setting them by STATW, and the saturating counters of MEXC. -/

namespace Sys2Proof.Machine

open Sys2Proof

/-- ORs flags into FLAGS[6:0] (R89 step 6, R103). -/
def mergeFlags (w : Word) (f : BitVec 7) : Word := w ||| f.zeroExtend 64

/-- Clears FLAGS[6:0] (R228). -/
def clearFlags (w : Word) : Word := w &&& ~~~(0x7F : Word)

/-- FLAGS.DRM (R103). -/
def drmOf (w : Word) : Nat := field w 16 2
/-- FLAGS.DSAT (R103). -/
def dsatOf (w : Word) : Bool := bitAt w 18

/-- Sets FLAGS.DRM and FLAGS.DSAT (R228). -/
def setDefaults (w : Word) (drm : BitVec 2) (dsat : Bool) : Word :=
  (w &&& ~~~(0x70000 : Word)) ||| (drm.zeroExtend 64 <<< 16) ||| (if dsat then 0x40000 else 0)

/-- One 16-bit counter of MEXC: it saturates at 0xFFFF (R104). -/
def satCount (w : Word) (lo n : Nat) : Nat := min 0xFFFF (field w lo 16 + n)

/-- Adds to the counters INVC, OVFC and SATC of MEXC (R104, R129). -/
def addMexc (w : Word) (inv ovf sat : Nat) : Word :=
  BitVec.ofNat 64 (satCount w 0 inv + satCount w 16 ovf * 2 ^ 16 + satCount w 32 sat * 2 ^ 32)

/-- The rounding mode and saturate flag of a converter (R101): ox1 when its EN is set, then the
operation's own, then FLAGS. -/
def convMode (ox1 flags : Word) (own : Option (Nat × Bool)) : Nat × Bool :=
  if bitAt ox1 3 then (field ox1 0 2, bitAt ox1 2)
  else match own with
    | some p => p
    | none => (drmOf flags, dsatOf flags)

end Sys2Proof.Machine
end

