-- ==== Sys2Proof/Machine/Streams.lean ====
section
/-! DEFINITION. The stream unit (R156 to R165, R283, R284): descriptors, the groups it fetches, the
appends it writes, and SBIND and SCTL. -/

namespace Sys2Proof.Machine

open Sys2Proof

/-! ## Addresses that instructions name (R131, R132, R269) -/

/-- Checks 1 to 5 of R269 for an access of n bytes that reaches the spaces of `ok`; `size` is its
alignment. PHYS of space 4 is for device level alone (R331). The result is the fault, or none. -/
def checkAddr (s : State) (t : Nat) (a : Word) (ok : Nat → Bool) (size n : Nat) (load : Bool) : Option Cause :=
  if !addrFormOk a then some .address
  else if space a = 4 ∧ (s.level t = .user ∨ (bitAt a 39 ∧ s.level t ≠ .device)) then some .privilege
  else if !ok (space a) then some .address
  else if a.toNat % size ≠ 0 then some .alignment
  else if space a = 0 then
    if s.inPad t (field a 0 17) n || (load && s.inPadOrMbox t (field a 0 17) n) then none else some .poolProtection
  else none

/-- Check 6 of R269: a space-2 coordinate outside the region. -/
def outsideCoord (s : State) (t : Nat) (a : Word) : Option Nat :=
  match s.destOf t a with | .outside c => some c | _ => none

/-- An address that passes R269, or what the firing comes to instead. -/
def withAddr (c : Fire) (a : Word) (ok : Nat → Bool) (size n : Nat) (load : Bool) (k : Out) : Out :=
  match checkAddr c.s c.tile a ok size n load with
  | some f => Out.faultAt f 0 a
  | none =>
    match outsideCoord c.s c.tile a with
    | some x => { given := .freeze x }
    | none => k

/-! ## Descriptors (R156 to R160) -/

/-- Bits of a descriptor from bit `lo`. -/
def dbits (raw lo len : Nat) : Nat := raw / 2 ^ lo % 2 ^ len

/-- The window fields of R158 from KSPEC. -/
structure Window where
  kw : Nat
  kh : Nat
  sw : Nat
  sh : Nat
  dw : Nat
  dh : Nat
  dlBase : Nat
  dlSize : Nat
  deriving DecidableEq, Repr

/-- Reads KSPEC as a window; bit positions are those of R158 less 384. -/
def windowOf (k : Nat) : Window :=
  { kh := dbits k 0 8, kw := dbits k 8 8, sh := dbits k 16 4, sw := dbits k 20 4, dh := dbits k 24 4, dw := dbits k 28 4,
    dlBase := dbits k 63 17, dlSize := dbits k 80 12 }

/-- XE of R158. -/
def Window.xe (w : Window) : Nat := w.dw * (w.kw - 1) + 1
/-- YE of R158. -/
def Window.ye (w : Window) : Nat := w.dh * (w.kh - 1) + 1
/-- OW of R158 for rows of n pixels. -/
def Window.ow (w : Window) (n : Nat) : Nat := if n < w.xe then 0 else (n - w.xe) / w.sw + 1
/-- OH of R158 for n rows. -/
def Window.oh (w : Window) (n : Nat) : Nat := if n < w.ye then 0 else (n - w.ye) / w.sh + 1
/-- Pixels of one window. -/
def Window.pixels (w : Window) : Nat := w.kw * w.kh

/-- COUNT of a dimension. -/
def StreamDesc.count (d : StreamDesc) (i : Nat) : Nat := d.counts.getD i 0
/-- STRIDE of a dimension. -/
def StreamDesc.stride (d : StreamDesc) (i : Nat) : Int := d.strides.getD i 0
/-- The window of a window stream. -/
def StreamDesc.win (d : StreamDesc) : Window := windowOf d.kspec
/-- Windows of a window stream. -/
def StreamDesc.windows (d : StreamDesc) : Nat :=
  if d.win.ow (d.count 0) = 0 ∨ d.win.oh (d.count 1) = 0 then 0 else d.win.ow (d.count 0) * d.win.oh (d.count 1)
/-- The stream's length L (R157, R158). -/
def StreamDesc.length (d : StreamDesc) : Nat :=
  match d.kind with
  | 0 => (List.range (d.ndim + 1)).foldl (fun n i => n * d.count i) 1
  | 1 => d.count 0
  | _ => d.windows * d.win.pixels

/-- The storage format of a stream. -/
def StreamDesc.format (d : StreamDesc) : Fmt := (fmtOf d.fmt).getD .wf
/-- The index format of an indirect stream (R157). -/
def StreamDesc.idxFmt (d : StreamDesc) : Nat := dbits d.kspec 64 5
/-- IDXADDR. -/
def StreamDesc.idxAddr (d : StreamDesc) : Word := word (dbits d.kspec 0 64)

/-- Whether an address has the form that a stream or copy index may have: space 0 or 1 (R159, R169). -/
def padForm (a : Word) : Bool := addrFormOk a && decide (space a < 2)

/-- Signed 32-bit field. -/
def sint32 (x : Nat) : Int := sintN 32 x

/-- Reads a descriptor (R156): the converter choice is the one of R229, AHEAD that of R160. -/
def streamOf (raw : Nat) (bytes : List Byte) (ox1 flags ox3 : Word) : StreamDesc :=
  let m := convMode ox1 flags (if dbits raw 116 1 = 1 then some (dbits raw 113 2, dbits raw 115 1 == 1) else none)
  let h := field ox3 8 4
  { kind := dbits raw 124 4, out := dbits raw 123 1 == 1, fmt := dbits raw 118 5, isInt := dbits raw 117 1 == 1,
    rm := m.1, sat := m.2, ndim := dbits raw 111 2, base := word (dbits raw 0 64),
    counts := (List.range 4).map fun i => dbits raw (128 + 32 * i) 32,
    strides := (List.range 4).map fun i => sint32 (dbits raw (256 + 32 * i) 32),
    kspec := dbits raw 384 128, raw := bytes, ahead := if h = 0 then 4 else min h 8 }

/-- Whether a descriptor is legal (R159). DESIGN CHOICE (assumption 123): R157 gives windows with DIR 0 and R159 names no fault for
DIR 1; the model takes the stream-descriptor fault. -/
def streamLegal (raw : Nat) (d : StreamDesc) : Bool :=
  let k := d.kspec
  let w := d.win
  let esz : Int := (d.format.bytes : Nat)
  decide (d.kind < 3) && (fmtOf d.fmt).isSome && dbits raw 64 47 == 0 && padForm d.base &&
    ((List.range 4).all fun i => decide (i ≤ d.ndim) || (d.count i == 0 && d.stride i == 0)) &&
    decide ((d.base.toNat : Int) % esz = 0) && ((List.range 4).all fun i => decide (d.stride i % esz = 0)) &&
    decide (d.length < 2 ^ 48) &&
    (match d.kind with
      | 0 => k == 0
      | 1 => d.ndim == 0 && dbits k 69 59 == 0 && decide (8 ≤ d.idxFmt ∧ d.idxFmt ≤ 15) && padForm d.idxAddr &&
          decide (d.idxAddr.toNat % ((fmtOf d.idxFmt).getD .wf).bytes = 0)
      | _ => d.ndim == 1 && !d.out && dbits k 92 36 == 0 && dbits k 32 31 == 0 &&
          decide (1 ≤ w.kw ∧ w.kw ≤ 8 ∧ 1 ≤ w.kh ∧ w.kh ≤ 8) &&
          decide (1 ≤ w.sw ∧ 1 ≤ w.sh ∧ 1 ≤ w.dw ∧ 1 ≤ w.dh) && w.dlBase % 64 == 0 &&
          decide (8 * d.count 0 * (w.ye - 1) ≤ 64 * w.dlSize))

/-! ## Elements -/

/-- Adds a signed offset to an address. -/
def addOff (a : Word) (x : Int) : Word := a + wordOfInt x

/-- The offset of element n of an affine stream, in odometer order (R157). -/
def affineOff : List Nat → List Int → Nat → Int
  | c :: cs, t :: ts, n => ((n % c : Nat) : Int) * t + affineOff cs ts (n / c)
  | _, _, _ => 0

/-- Column and row of pixel n of a window stream (R158). -/
def StreamDesc.pixel (d : StreamDesc) (n : Nat) : Nat × Nat :=
  let w := d.win
  let i := n / w.pixels
  let r := n % w.pixels
  let ow := w.ow (d.count 0)
  (i % ow * w.sw + r % w.kw * w.dw, i / ow * w.sh + r / w.kw * w.dh)

/-- What reading an element gives: its bits, or the defect 1 (bounds), 2 (data) or 3 (data, MARGIN) with its address. -/
inductive Elem where
  | bits (x : Nat)
  | bad (kind : Nat) (addr : Word)
  deriving DecidableEq, Repr

/-- Reads n bytes for the stream unit of a tile (R163). -/
def State.streamRead (s : State) (t : Nat) (a : Word) (n : Nat) : Elem × State :=
  if !padForm a then (.bad 1 a, s)
  else match s.readAt t (s.destOf t a) n with
    | (.bytes bs, s) => (.bits (ofBytes bs), s)
    | (.refused c m, s) => (.bad (if c = 3 then 2 + m.toNat else 1) a, s)

/-- The address of element n (R157, R158); an indirect stream reads its index. -/
def State.elemAddr (s : State) (t : Nat) (d : StreamDesc) (n : Nat) : (Except (Nat × Word) Word) × State :=
  match d.kind with
  | 0 => (.ok (addOff d.base (affineOff d.counts d.strides n)), s)
  | 1 =>
    let f := (fmtOf d.idxFmt).getD .wf
    match s.streamRead t (addOff d.idxAddr ((n * f.bytes : Nat) : Int)) f.bytes with
    | (.bits x, s) =>
      let i := match f with | .int b g => intVal b g x | _ => 0
      (.ok (addOff d.base (i * d.stride 0)), s)
    | (.bad k a, s) => (.error (k, a), s)
  | _ =>
    let p := d.pixel n
    (.ok (addOff d.base ((p.1 : Int) * d.stride 0 + (p.2 : Int) * d.stride 1)), s)

/-- The delay line of a window stream at POS n without the pixels that no window from there on holds, those of rows
above that window (R158, R165). -/
def StreamDesc.keep (d : StreamDesc) (n : Nat) (l : AMap (Word × BitVec 7)) : AMap (Word × BitVec 7) :=
  l.filter fun p => decide (n / d.win.pixels / d.win.ow (d.count 0) * d.win.sh ≤ p.1 / d.count 0)
/-- The bytes of the scratchpad that the delay line takes: 8 for each pixel of YE - 1 rows (R158). -/
def StreamDesc.delayBytes (d : StreamDesc) : Nat :=
  if d.kind = 2 then min (8 * d.count 0 * (d.win.ye - 1)) (2 ^ 17 - d.win.dlBase) else 0
/-- The delay line's bytes while a slot is bound and when it is freed: the spec gives them no layout, so each is
unpredictable (R158; assumption 79). -/
def State.delayLine (s : State) (t : Nat) (d : StreamDesc) : State := s.putFree (poolKey t d.win.dlBase) d.delayBytes

/-- Whether the boundary of a halted cluster holds what the stream unit of a tile would access for element n of a stream: the
element, or the index that says where it lies (R412). -/
def State.elemHeld (s : State) (t : Nat) (d : StreamDesc) (n : Nat) : Bool :=
  let at' (a : Word) : Bool := padForm a && s.heldTo t (s.destOf t a)
  (d.kind == 1 && at' (addOff d.idxAddr ((n * ((fmtOf d.idxFmt).getD .wf).bytes : Nat) : Int))) ||
    (match (s.elemAddr t d n).1 with | .ok a => at' a | .error _ => false)
/-- One converted element (R161): a pixel that the delay line holds is not read again (R158). -/
def State.fetchElem (s : State) (t k : Nat) (d : StreamDesc) (n : Nat) : (Except (Nat × Word) (Word × BitVec 7)) × State :=
  let key := let p := d.pixel n; p.2 * d.count 0 + p.1
  let held := if d.kind = 2 then ((s.tile t).slots.find? fun e => e.1 == k).bind fun e => e.2.line.find? fun x => x.1 == key else none
  match held with
  | some e => (.ok e.2, s)
  | none =>
    match s.elemAddr t d n with
    | (.error e, s) => (.error e, s)
    | (.ok a, s) =>
      match s.streamRead t a d.format.bytes with
      | (.bits x, s) =>
        let r := convertIn d.format d.isInt d.rm d.sat x
        let s := if d.kind = 2 then
            s.updTile t fun y => { y with slots := AMap.modify k (fun z => { z with line := AMap.ins key r (d.keep z.pos z.line) }) y.slots }
          else s
        (.ok r, s)
      | (.bad e a, s) => (.error (e, a), s)

/-- Elements of the group at a position: up to 8, and none past the end or the window (R158, R161). -/
def StreamDesc.groupLen (d : StreamDesc) (pos : Nat) : Nat :=
  if d.length ≤ pos then 0
  else if d.kind = 2 then min 8 (d.win.pixels - pos % d.win.pixels)
  else min 8 (d.length - pos)

/-- Fetches the elements of a group from lane i on. -/
def State.fetchLanes (s : State) (t k : Nat) (d : StreamDesc) (pos : Nat) : Nat → List (Word × BitVec 7) × Option (Nat × Word) × State
  | 0 => ([], none, s)
  | n + 1 =>
    let (l, e, s) := s.fetchLanes t k d pos n
    match e with
    | some e => (l, some e, s)
    | none =>
      match s.fetchElem t k d (pos + n) with
      | (.ok r, s) => (l ++ [r], none, s)
      | (.error e, s) => (l, some e, s)

/-- The position after the groups that stand ready. -/
def Slot.frontier (z : Slot) : Nat := z.ready.foldl (fun n g => n + g.2.2.2 % 16) z.pos

/-- An all-null group (R161). -/
def nullGroup : Vec × BitVec 8 × BitVec 7 × Nat := (Vec.zero, 255, 0, 0)

/-- Groups of a slot that a waiting READ asks for. -/
def State.askedGroups (s : State) (z : Slot) (k : Nat) : Nat :=
  match s.flight z.ts with
  | none => 0
  | some f => f.pops.foldl (fun n p => if p.2 / 64 = k ∧ f.status p.1 = .waiting then max n (p.2 % 64 + 1) else n) 0

/-- Whether STREAM_FETCH of a slot can come about: an input stream with elements left, and less fetched
than AHEAD or than a READ waits for; its thread set is not stopped, and no boundary holds the group (R161, R165, R412). -/
def State.canFetch (s : State) (t k : Nat) : Bool :=
  match AMap.find k (s.tile t).slots with
  | none => false
  | some z => !z.desc.out && decide (z.frontier < z.desc.length) &&
      decide (z.ready.length < max z.desc.ahead (s.askedGroups z k)) && s.runnable z.ts && !s.stilled z.ts &&
      decide (s.mode (s.rgnOf t) ≠ 3) &&
      !(List.range (z.desc.groupLen z.frontier)).any fun i => s.elemHeld t z.desc (z.frontier + i)

/-- STREAM_FETCH (R161): the next group is read and converted. -/
def State.streamFetch (s : State) (t k : Nat) : State :=
  match AMap.find k (s.tile t).slots with
  | none => s
  | some z =>
    let n := z.desc.groupLen z.frontier
    let (l, e, s) := s.fetchLanes t k z.desc z.frontier n
    let v := Vec.ofFn fun i => match l[i]? with | some p => p.1 | none => 0
    let fl := l.foldl (fun a p => a ||| p.2) 0
    let meta_ := n + (match e with | some p => 16 * p.1 + 64 * p.2.toNat | none => 0)
    let g := (v, mask8 fun i => decide (n ≤ i), fl, meta_)
    (s.updTile t fun x => { x with slots := AMap.modify k (fun z => { z with ready := z.ready ++ [g] }) x.slots }).wakeAll
/-- STREAM_FETCH. -/
def execStreamFetch (tile slot : Nat) (s : State) : Res :=
  whenEnabled "STREAM_FETCH" (s.canFetch tile slot) (s.streamFetch tile slot)

/-! ## Appends (R162, R163) -/

/-- Whether the block in flight of a thread set waits in a FENCE.LOCAL for its appends (R140, R141). -/
def State.fencesAppends (s : State) (k : Nat) : Bool :=
  match s.flight k with
  | none => false
  | some f => f.effs.any fun p => !(f.status p.1).final && (p.2 matches .fence _ 0 _)
/-- Stops a thread set for a refused append (R163): the slot in FW3. As with a refused store (R140), a block that waits
for the append is discarded, and the stop comes at the next block boundary, which for an append that a commit writes
(`now`) is the one that follows. -/
def State.appendRefused (s : State) (t k : Nat) (z : Slot) (now : Bool) (a : Word) (cause : Nat) (m : Bool) : State :=
  let s := s.updTile t fun x => { x with slots := AMap.modify k (fun z => { z with flt := true }) x.slots }
  let s := if s.fencesAppends z.ts then s.discard z.ts else s
  let f : FaultInfo := ⟨.appendRefused, 255, cause, a, word k, markWord cause m⟩
  if now then s.updTs z.ts fun x => { x with stops := { x.stops with pendingFaults := x.stops.pendingFaults ++ [f] } }
  else s.asyncFault z.ts f

/-- Writes one append at its element's place (R162). -/
def State.writeAppend (s : State) (t k : Nat) (z : Slot) (now : Bool) (n : Nat) (bs : List Byte) : State :=
  match s.elemAddr t z.desc n with
  | (.error e, s) => s.appendRefused t k z now e.2 (if e.1 = 1 then 6 else 3) (e.1 == 3)
  | (.ok a, s) =>
    if !padForm a then s.appendRefused t k z now a 6 false
    else match s.writeAt t (s.destOf t a) (bs.map some) with
      | (.bytes _, s) => s
      | (.refused c m, s) => s.appendRefused t k z now a c m

/-- Whether STREAM_APPEND_WRITE of a slot can come about: a halted cluster's boundary holds the write from outside (R412). -/
def State.canAppend (s : State) (t k : Nat) : Bool :=
  match AMap.find k (s.tile t).slots with
  | none => false
  | some z => !z.toWrite.isEmpty && !(s.fieldRec (fieldOf t)).gated && decide (s.mode (s.rgnOf t) ≠ 3) &&
      (match z.toWrite with | p :: _ => !s.elemHeld t z.desc p.1 | [] => true)
/-- STREAM_APPEND_WRITE (R162): the oldest committed append reaches the scratchpad. -/
def State.appendWrite (s : State) (t k : Nat) : State :=
  match AMap.find k (s.tile t).slots with
  | none => s
  | some z =>
    match z.toWrite with
    | [] => s
    | p :: rest =>
      let s := s.updTile t fun x => { x with slots := AMap.modify k (fun z => { z with toWrite := rest }) x.slots }
      (s.writeAppend t k z false p.1 p.2).wakeAll
/-- STREAM_APPEND_WRITE. -/
def execStreamAppendWrite (tile slot : Nat) (s : State) : Res :=
  whenEnabled "STREAM_APPEND_WRITE" (s.canAppend tile slot) (s.appendWrite tile slot)

/-- Appends the non-null lanes of a vector at commit (R162): the lanes beyond the end are discarded. -/
def Slot.append (z : Slot) (v : Vec) (nulls : BitVec 8) : Slot × BitVec 7 :=
  laneList.foldl (fun (z, fl) i =>
    if maskBit nulls i then (z, fl)
    else if z.desc.length ≤ z.pos then ({ z with ended := true, xovr := true }, fl)
    else
      let r := convertOut z.desc.format z.desc.isInt z.desc.rm z.desc.sat (v.get i)
      ({ z with toWrite := z.toWrite ++ [(z.pos, leBytes z.desc.format.bytes r.1)], pos := z.pos + 1 }, fl ||| r.2)) (z, 0)

/-! ## The slot of a thread set -/

/-- The slot that a thread set's register v(24 + k) names (R102, R283). -/
def State.slotOf (s : State) (ts k : Nat) : Option Slot :=
  match AMap.find k (s.tile (tileOf ts)).slots with
  | some z => if z.ts = ts then some z else none
  | none => none

/-- The status word of R164; zero for a slot not bound by the thread set (R284). -/
def State.slotStatus (s : State) (ts k : Nat) : Word :=
  match s.slotOf ts k with
  | none => 0
  | some z => word (2 ^ 63 + at_ 62 1 z.desc.out.toNat + at_ 61 1 z.ended.toNat + at_ 60 1 z.xovr.toNat +
      at_ 59 1 z.flt.toNat + at_ 0 48 z.pos)

/-- READ of a register that names an input stream (R86, R161, R163): the group of this READ's place. -/
def readStream (k : Nat) (z : Slot) (ord : Nat) : Out :=
  if z.desc.out then Out.fault .streamDirection
  else
    let g := match z.ready[ord]? with
      | some g => some g
      | none => if z.desc.length ≤ z.frontier then some nullGroup else none
    match g with
    | none => { given := .wait }
    | some (v, nulls, fl, m) =>
      match m / 16 % 4 with
      | 0 => { given := .deliver (.vector v nulls), flags := fl, eff := some (.popped k 1) }
      | 1 => Out.faultAt .streamBounds 0 (word (m / 64))
      | 2 => Out.faultAt .dataError 0 (word (m / 64))
      | _ => { given := .fault .dataError 0 (word (m / 64)) 0 1 }

/-! ## SBIND and SCTL (R283, R284) -/

/-- Slots that lower-indexed SBINDs of the block bind. -/
def Fire.boundHere (c : Fire) (k : Nat) : Bool :=
  c.fl.effs.any fun p => match p.2 with | .sbind j _ => decide (p.1 < c.ix) && j == k | _ => false

/-- SBIND (R283). DESIGN CHOICE (assumption 122): where the descriptor is illegal and the slot is bound, R159 and R283 give no order;
the stream-descriptor fault comes first. -/
def execSbind (pr : Pr) (k : BitVec 3) (t0 : Target) (s : State) : Res :=
  s.fire (mkShape pr true false .none [t0] .plain) .mem false false fun c =>
    match c.left with
    | .scalar a => withAddr c a (fun n => n == 0) 64 64 false <| c.afterAcquire <|
        let off := field a 0 17
        if c.s.poisoned (poolKey c.tile off) 64 then c.dataFault (poolKey c.tile off) 64 a
        else
          let bs := c.s.bytes (poolKey c.tile off) 64
          let d := streamOf (ofBytes bs) bs (c.oxAt 1) c.fl.snap.flags (c.oxAt 3)
          if !streamLegal (ofBytes bs) d then Out.faultAt .streamDescriptor 0 a
          else if (AMap.find k.toNat c.tileRec.slots).isSome || c.boundHere k.toNat then Out.fault .streamSlot
          else { Out.act .completion (.sbind k.toNat d) with load := some (off, 64) }
    | _ => Out.badType

/-- An SCTL minor that needs the slot bound by the issuing thread set. -/
def withSlot (c : Fire) (k : Nat) (f : Slot → Out) : Out :=
  match c.s.slotOf c.k k with
  | some z => f z
  | none => Out.fault .streamSlot

/-- SCTL.SUNBIND (R284). -/
def execSunbind (pr : Pr) (k : BitVec 3) (t0 : Target) (s : State) : Res :=
  s.fire (mkShape pr false false .none [t0] .plain) .mem false false fun c =>
    withSlot c k.toNat fun _ => Out.act .completion (.sunbind k.toNat)
/-- SCTL.SSKIP (R284). -/
def execSskip (pr : Pr) (k : BitVec 3) (t0 : Target) (s : State) : Res :=
  s.fire (mkShape pr true false .none [t0] .plain) .mem false false fun c =>
    match c.left with
    | .scalar n => withSlot c k.toNat fun _ => Out.act .completion (.sskip k.toNat n.toNat)
    | _ => Out.badType
/-- SCTL.SFLUSH (R284): on an output stream it waits for the appends committed earlier. -/
def execSflush (pr : Pr) (k : BitVec 3) (t0 : Target) (s : State) : Res :=
  s.fire (mkShape pr false false .none [t0] .plain) .mem false false fun c =>
    withSlot c k.toNat fun z =>
      if z.desc.out && !z.toWrite.isEmpty then { given := .wait } else Out.act .completion (.sflush k.toNat)
/-- SCTL.SSTAT (R164, R284): the status at block start. -/
def execSstat (pr : Pr) (k : BitVec 3) (t0 : Target) (s : State) : Res :=
  s.fire (mkShape pr false false .none [t0] .plain) .mem false false fun c =>
    Out.tok (.scalar (c.fl.snap.sstat.getD k.toNat 0))

end Sys2Proof.Machine
end

