-- ==== Sys2Proof/Machine/CopyOps.lean ====
section
/-! DEFINITION. COPY and CSEAL (R166 to R169, R285, R286): the descriptor is read and checked when COPY fires;
the copy is accepted, and the batch sealed, at commit. -/

namespace Sys2Proof.Machine

open Sys2Proof

/-- Reads a descriptor (R166); a descriptor without a landing word uses the one of ox2, where ox2 gives one
(R168, R169). -/
def copyOf (raw : Nat) (ox2 : Word) : CopyDesc :=
  let lw := dbits raw 128 64
  { kind := dbits raw 252 4, esz := dbits raw 250 2, fill := dbits raw 216 32,
    lw := if lw ≠ 0 then some (word lw) else if bitAt ox2 17 then some (word (field ox2 0 17)) else none,
    dst := word (dbits raw 64 64), src := word (dbits raw 0 64), kspec := dbits raw 256 256 }

/-- Whether every address of a list lies in an allowed space with its must-be-zero bits clear (R131, R169). -/
def spacesOk (lim : Nat) (as : List Word) : Bool := as.all fun a => addrFormOk a && decide (space a < lim)

/-- The addresses of a copy; a copy without a landing word has none there. -/
def CopyDesc.words (d : CopyDesc) : List Word := d.lw.toList
/-- IDXADDR of a gather (R167). -/
def CopyDesc.idx (d : CopyDesc) : List Word := if d.kind = 3 then [word (d.k 256 64)] else []

/-- The checks of R169 that the descriptor's fields alone decide: KIND, reserved fields, counts and sizes. -/
def copyFields (raw : Nat) (d : CopyDesc) (minor : Nat) : Bool :=
  decide (d.kind = minor) && dbits raw 248 2 == 0 && dbits raw 192 24 == 0 &&
  (match d.kind with
    | 0 => dbits raw 296 216 == 0 && d.k 256 40 != 0
    | 1 => dbits raw 448 64 == 0 && d.k 256 32 != 0 && d.k 288 32 != 0
    | 2 => dbits raw 480 32 == 0 && d.k 256 32 != 0 && d.k 288 32 != 0 && d.k 416 16 != 0 && d.k 432 16 != 0
    | _ => dbits raw 480 32 == 0 && d.k 320 32 != 0 && d.k 352 32 != 0 && d.k 448 32 != 0)

/-- Whether ESZ divides what the kind uses (R169). -/
def copyAligned (d : CopyDesc) : Bool :=
  let e := 2 ^ d.esz
  match d.kind with
  | 2 => d.src.toNat % e == 0 && d.dst.toNat % e == 0 && d.k 320 32 % e == 0 && d.k 448 32 % e == 0
  | 3 => d.src.toNat % e == 0 && d.dst.toNat % e == 0 && d.k 384 64 % e == 0 && d.k 352 32 % e == 0
  | _ => true

/-- The checks of R169 on the landing word: alignment, and in space 0 its place (R112, R151). -/
def Fire.wordOk (c : Fire) (d : CopyDesc) : Bool :=
  d.words.all fun a => a.toNat % 8 == 0 && (decide (space a ≠ 0) || c.s.inPad c.tile (field a 0 17) 24)

/-- A space-2 coordinate outside the region among well-formed addresses (R169, R342). -/
def Fire.strays (c : Fire) (as : List Word) : Option Nat :=
  as.findSome? fun a => if addrFormOk a && space a == 2 then outsideCoord c.s c.tile a else none

/-- COPY of a minor (R285). -/
def State.copyOp (s : State) (minor : Nat) (pr : Pr) (t0 : Target) : Res :=
  s.fire (mkShape pr true false .none [t0] .plain) .mem false false fun c =>
    match c.left with
    | .scalar a => withAddr c a (· == 0) 64 64 false <| c.afterAcquire <|
        let off := field a 0 17
        if c.s.poisoned (poolKey c.tile off) 64 then c.dataFault (poolKey c.tile off) 64 a
        else
          let raw := c.s.num (poolKey c.tile off) 64
          let d := copyOf raw (c.oxAt 2)
          let ends := [d.src, d.dst]
          if !copyFields raw d minor then Out.faultAt .copyDescriptor 0 a
          else match (ends ++ d.words ++ d.idx).find? fun x => space x == 4 && decide (c.s.level c.tile = .user) with
            | some x => Out.faultAt .privilege 0 x
            | none =>
              if !(spacesOk 4 ends && spacesOk 3 d.words && spacesOk 2 d.idx && copyAligned d && c.wordOk d) then
                Out.faultAt .copyDescriptor 0 a
              else match c.strays (ends ++ d.words) with
                | some x => { given := .freeze x }
                | none => { Out.act .completion (.copy d) with load := some (off, 64) }
    | _ => Out.badType

/-- COPY.LINEAR. -/
def execCopyLinear (pr : Pr) (t0 : Target) (s : State) : Res := s.copyOp 0 pr t0
/-- COPY.PLANE. -/
def execCopyPlane (pr : Pr) (t0 : Target) (s : State) : Res := s.copyOp 1 pr t0
/-- COPY.TENSOR. -/
def execCopyTensor (pr : Pr) (t0 : Target) (s : State) : Res := s.copyOp 2 pr t0
/-- COPY.GATHER. -/
def execCopyGather (pr : Pr) (t0 : Target) (s : State) : Res := s.copyOp 3 pr t0

/-- CSEAL (R286): the number of the batch that it seals. -/
def execCseal (pr : Pr) (t0 : Target) (s : State) : Res :=
  s.fire (mkShape pr false false .none [t0] .plain) .mem false false fun c =>
    if c.fl.effs.any fun p => decide (p.1 < c.ix) && (p.2 matches .cseal) then Out.fault .copyBatch
    else Out.act (.scalar (word (c.fl.snap.sealed + 1))) .cseal

end Sys2Proof.Machine
end

