-- ==== Sys2Proof/Machine/MemoryOps.lean ====
section
/-! DEFINITION. Loads, stores, atomics, fences, synchronisation, bindings and waits (R92 to R95, R131 to R155,
R267 to R282). A load waits for its reply, a store or atomic is kept for the commit. -/

namespace Sys2Proof.Machine

open Sys2Proof

/-! ## Forms -/

/-- An instruction that carries an LSID: while an acquire AMO is unanswered it is not performed (R275). -/
def State.memOp (s : State) (pr : Pr) (l r : Bool) (lsid : BitVec 5) (t0 : Target) (role : Role) (maskOk : Bool)
    (body : Fire → Out) : Res :=
  s.fire (memShape pr l r lsid t0 role) .mem maskOk false fun c => c.afterAcquire (body c)

/-- The block's own tile, named in any way, follows the pool-protection check too (R134). -/
def withPlace (c : Fire) (a : Word) (ok : Nat → Bool) (size n : Nat) (load : Bool) (k : Dest → Out) : Out :=
  withAddr c a ok size n load <|
    match c.s.destOf c.tile a with
    | .pool t off =>
      if t = c.tile ∧ space a ≠ 0 ∧ !(c.s.inPad t off n || (load && c.s.inPadOrMbox t off n)) then
        Out.faultAt .poolProtection 0 a
      else k (.pool t off)
    | d => k d

/-- A place as one number, by which two names of one byte agree (R134). -/
def Dest.key? : Dest → Option Nat
  | .pool t off => some (poolKey t off)
  | .dram _ a => some a
  | .csr t n => some (2 ^ 62 + (t * 4096 + n) * 8)
  | _ => none

/-- What an access of the block will do at commit: its LSID, place, size, and its bytes (none for an AMO or
the update of a REL). -/
structure Access where
  lsid  : Nat
  key   : Option Nat
  size  : Nat
  bytes : Option Bytes
  rel   : Bool
  deriving DecidableEq, Repr

/-- The access of an effect. -/
def Fire.access (c : Fire) (e : Effect) : Option Access :=
  let t := c.tile
  match e with
  | .store l off bs => some ⟨l, some (poolKey t off), bs.length, some bs, false⟩
  | .rstore l a n bs => some ⟨l, (c.s.destOf t a).key?, n, some bs, false⟩
  | .amoLocal l off o _ => some ⟨l, some (poolKey t off), o.bytes, none, false⟩
  | .amoRemote l a o _ => some ⟨l, (c.s.destOf t a).key?, o.bytes, none, false⟩
  | .relUpd l a => some ⟨l, (c.s.destOf t a).key?, 8, none, true⟩
  | _ => none

/-- The accesses of the block below an LSID that overlap n bytes at a place. -/
def Fire.below (c : Fire) (lsid key n : Nat) : List Access :=
  (c.fl.effs.filterMap fun p => c.access p.2).filter fun x => decide (x.lsid < lsid) && (match x.key with
    | some k => decide (k < key + n) && decide (key < k + x.size)
    | none => false)

/-- The byte that a load returns: that of the highest store of the block below it, or memory's (R93). -/
def overlayByte (xs : List Access) (key : Nat) (b : Byte) : Byte :=
  (xs.foldl (fun (best : Option (Nat × Byte)) x =>
    match x.bytes, x.key with
    | some bs, some k =>
      if k ≤ key then match bs.getD (key - k) none with
        | some v => (match best with | some (l, _) => if l < x.lsid then some (x.lsid, v) else best | none => some (x.lsid, v))
        | none => best
      else best
    | _, _ => best) none).elim b Prod.snd
/-- The bytes that a load returns (R93). -/
def overlayBytes (xs : List Access) (key : Nat) (bs : List Byte) : List Byte :=
  bs.zipIdx.map fun p => overlayByte xs (key + p.2) p.1

/-! ## Loads -/

/-- A load of n bytes at a place (R93, R94, R134, R272): local memory at once; elsewhere it asks, and waits
for the reply. An atomic of the block below it that overlaps is a fault; for ACQ a REL too (R278). -/
def Fire.load (c : Fire) (lsid : Nat) (a : Word) (d : Dest) (n : Nat) (acq : Bool) (give : List Byte → Out) : Out :=
  let key := d.key?.getD 0
  let xs := if d.key?.isSome then c.below lsid key n else []
  if xs.any fun x => x.bytes.isNone && (!x.rel || acq) then Out.faultAt .atomicOrdering 0 a
  else
    let isOwn := match d with | .pool t _ => decide (t = c.tile) | _ => false
    if isOwn then
      if c.s.poisoned key n then c.dataFault key n a
      else { give (overlayBytes xs key (c.s.bytes key n)) with load := some (key % 2 ^ 17, n) }
    else
      match AMap.find c.ix c.fl.reqs with
      | none => c.waitsFor (fun e => c.s.entryMeets c.tile e a n) { given := .wait, req := some ⟨a, n, .asked, false, false, false, 0⟩ }
      | some q =>
        if !q.here then c.waitsFor (fun e => q.reply == .asked && c.s.entryMeets c.tile e a n) { given := .wait }
        else match q.reply with
          | .data bs => give (overlayBytes xs key bs)
          | .refused sub m =>
            { given := .fault (if space a = 3 then .dramAccess else .remoteAccess) sub a 0 (markWord sub m) }
          | .asked => { given := .wait }

/-- The token of loaded bytes (R270, R271): a scalar up to 8 bytes, else lanes, the rest of them null. -/
def loadToken (n : Nat) (bs : List Byte) : Token :=
  if n ≤ 8 then .scalar (word (ofBytes bs))
  else .vector (Vec.ofFn fun i => word (ofBytes ((bs.drop (8 * i)).take 8))) (mask8 fun i => decide (n ≤ 8 * i))

/-- The spaces of LDR and STR for a size (R133). -/
def remoteSpaces (n : Nat) (sp : Nat) : Bool := decide (sp ≤ 2) || sp == 4 || (sp == 3 && decide (8 ≤ n))

/-- LD and LDR (R270 to R272). -/
def State.loadOp (s : State) (pr : Pr) (lsid : BitVec 5) (t0 : Target) (ok : Nat → Bool) (n : Nat) : Res :=
  s.memOp pr true false lsid t0 .load false fun c =>
    match c.left with
    | .scalar a => withPlace c a ok n n true fun d => c.load lsid.toNat a d n false fun bs => Out.tok (loadToken n bs)
    | _ => Out.badType

/-- LD of a byte (R270). -/
def execLdB (pr : Pr) (lsid : BitVec 5) (t0 : Target) (s : State) : Res := s.loadOp pr lsid t0 (· == 0) 1
/-- LD of 2 bytes. -/
def execLdH (pr : Pr) (lsid : BitVec 5) (t0 : Target) (s : State) : Res := s.loadOp pr lsid t0 (· == 0) 2
/-- LD of 4 bytes. -/
def execLdW (pr : Pr) (lsid : BitVec 5) (t0 : Target) (s : State) : Res := s.loadOp pr lsid t0 (· == 0) 4
/-- LD of 8 bytes. -/
def execLdD (pr : Pr) (lsid : BitVec 5) (t0 : Target) (s : State) : Res := s.loadOp pr lsid t0 (· == 0) 8
/-- LD of 64 bytes. -/
def execLdL (pr : Pr) (lsid : BitVec 5) (t0 : Target) (s : State) : Res := s.loadOp pr lsid t0 (· == 0) 64
/-- LDR of a byte (R271, R272). -/
def execLdrB (pr : Pr) (lsid : BitVec 5) (t0 : Target) (s : State) : Res := s.loadOp pr lsid t0 (remoteSpaces 1) 1
/-- LDR of 2 bytes. -/
def execLdrH (pr : Pr) (lsid : BitVec 5) (t0 : Target) (s : State) : Res := s.loadOp pr lsid t0 (remoteSpaces 2) 2
/-- LDR of 4 bytes. -/
def execLdrW (pr : Pr) (lsid : BitVec 5) (t0 : Target) (s : State) : Res := s.loadOp pr lsid t0 (remoteSpaces 4) 4
/-- LDR of 8 bytes. -/
def execLdrD (pr : Pr) (lsid : BitVec 5) (t0 : Target) (s : State) : Res := s.loadOp pr lsid t0 (remoteSpaces 8) 8
/-- LDR of 16 bytes. -/
def execLdrQ (pr : Pr) (lsid : BitVec 5) (t0 : Target) (s : State) : Res := s.loadOp pr lsid t0 (remoteSpaces 16) 16
/-- LDR of 32 bytes. -/
def execLdrO (pr : Pr) (lsid : BitVec 5) (t0 : Target) (s : State) : Res := s.loadOp pr lsid t0 (remoteSpaces 32) 32
/-- LDR of 64 bytes. -/
def execLdrL (pr : Pr) (lsid : BitVec 5) (t0 : Target) (s : State) : Res := s.loadOp pr lsid t0 (remoteSpaces 64) 64

/-! ## Stores -/

/-- The bytes of a store of n bytes (R85, R270, R271): the low bytes of a scalar; above 8 bytes lanes, a
scalar broadcast, null and disabled lanes absent. -/
def storeBytes (n : Nat) (t : Token) (en : BitVec 8) : Option Bytes :=
  match t with
  | .scalar w =>
    if n ≤ 8 then some ((leBytes n w.toNat).map some)
    else some ((List.range (n / 8)).flatMap fun i => (leBytes 8 w.toNat).map fun b => if maskBit en i then some b else none)
  | .vector v nulls =>
    if n ≤ 8 then none
    else some ((List.range (n / 8)).flatMap fun i => (leBytes 8 (v.get i).toNat).map fun b =>
      if maskBit en i && !maskBit nulls i then some b else none)
  | _ => none

/-- ST and STR (R270 to R273): the data are taken when it fires. -/
def State.storeOp (s : State) (pr : Pr) (lsid : BitVec 5) (t0 : Target) (ok : Nat → Bool) (n : Nat) : Res :=
  s.memOp pr true true lsid t0 .store (decide (8 < n)) fun c =>
    match c.left, storeBytes n c.right c.en with
    | .scalar a, some bs => withPlace c a ok n n false fun d =>
        match d with
        | .pool t off => if t = c.tile then Out.act .completion (.store lsid.toNat off bs)
                         else Out.act .completion (.rstore lsid.toNat a n bs)
        | _ => Out.act .completion (.rstore lsid.toNat a n bs)
    | _, _ => Out.badType

/-- ST of a byte (R270). -/
def execStB (pr : Pr) (lsid : BitVec 5) (t0 : Target) (s : State) : Res := s.storeOp pr lsid t0 (· == 0) 1
/-- ST of 2 bytes. -/
def execStH (pr : Pr) (lsid : BitVec 5) (t0 : Target) (s : State) : Res := s.storeOp pr lsid t0 (· == 0) 2
/-- ST of 4 bytes. -/
def execStW (pr : Pr) (lsid : BitVec 5) (t0 : Target) (s : State) : Res := s.storeOp pr lsid t0 (· == 0) 4
/-- ST of 8 bytes. -/
def execStD (pr : Pr) (lsid : BitVec 5) (t0 : Target) (s : State) : Res := s.storeOp pr lsid t0 (· == 0) 8
/-- ST of 64 bytes. -/
def execStL (pr : Pr) (lsid : BitVec 5) (t0 : Target) (s : State) : Res := s.storeOp pr lsid t0 (· == 0) 64
/-- STR of a byte (R271, R273). -/
def execStrB (pr : Pr) (lsid : BitVec 5) (t0 : Target) (s : State) : Res := s.storeOp pr lsid t0 (remoteSpaces 1) 1
/-- STR of 2 bytes. -/
def execStrH (pr : Pr) (lsid : BitVec 5) (t0 : Target) (s : State) : Res := s.storeOp pr lsid t0 (remoteSpaces 2) 2
/-- STR of 4 bytes. -/
def execStrW (pr : Pr) (lsid : BitVec 5) (t0 : Target) (s : State) : Res := s.storeOp pr lsid t0 (remoteSpaces 4) 4
/-- STR of 8 bytes. -/
def execStrD (pr : Pr) (lsid : BitVec 5) (t0 : Target) (s : State) : Res := s.storeOp pr lsid t0 (remoteSpaces 8) 8
/-- STR of 16 bytes. -/
def execStrQ (pr : Pr) (lsid : BitVec 5) (t0 : Target) (s : State) : Res := s.storeOp pr lsid t0 (remoteSpaces 16) 16
/-- STR of 32 bytes. -/
def execStrO (pr : Pr) (lsid : BitVec 5) (t0 : Target) (s : State) : Res := s.storeOp pr lsid t0 (remoteSpaces 32) 32
/-- STR of 64 bytes. -/
def execStrL (pr : Pr) (lsid : BitVec 5) (t0 : Target) (s : State) : Res := s.storeOp pr lsid t0 (remoteSpaces 64) 64

/-! ## AMO (R92, R147, R274, R275) -/

/-- The instruction that a block holds at an index (R73, R192). -/
def Flight.instrAt (f : Flight) (ix : Nat) : Option Instr :=
  match f.body[ix / 2]? with
  | none => none
  | some w => match decodeSlot w with
    | .ok (.one i) => if ix % 2 = 0 then some i else none
    | .ok (.pair a b) => some (if ix % 2 = 0 then a else b)
    | .error _ => none

/-- The register of the WRITE that an AMO names (R78, R92). -/
def Flight.amoReg (f : Flight) (t0 : Target) : Option Reg :=
  if t0 = 1023 then none
  else match f.instrAt (t0.toNat / 4) with
    | some (.write r) => some r
    | _ => none

/-- Operand and comparison value of an AMO (R274): none for a type it does not take, null when a lane that
ACAS needs is null. -/
inductive AmoArg where
  | bad
  | null
  | vals (b cmp : Nat)
  deriving DecidableEq, Repr

/-- Reads the right operand of an AMO (R274). -/
def amoArg (op : Nat) (dbl : Bool) (t : Token) : AmoArg :=
  let n : Nat := if dbl then 64 else 32
  match t with
  | .scalar w =>
    if op = 9 then (if dbl then .bad else .vals (field w 32 32) (field w 0 32)) else .vals (field w 0 n) 0
  | .vector v nulls =>
    if op ≠ 9 then .bad
    else if maskBit nulls 0 || maskBit nulls 1 then .null
    else .vals (field (v.get 1) 0 n) (field (v.get 0) 0 n)
  | _ => .bad

/-- An AMO of a minor (R274, R275): its WRITE receives a token that stands for the old value, which the
commit or the reply puts into the register. -/
def State.amoOp (s : State) (op : Nat) (pr : Pr) (lsid : BitVec 5) (dbl : Bool) (ord : BitVec 2) (t0 : Target) : Res :=
  s.memOp pr true true lsid t0 .amo false fun c =>
    match c.left, amoArg op dbl c.right with
    | .scalar a, .vals b cmp =>
      let o : AmoOp := ⟨op, dbl, ord.toNat, b, cmp⟩
      withPlace c a (fun sp => decide (sp < 4)) o.bytes o.bytes false fun d =>
        match d with
        | .pool t off => if t = c.tile then Out.act (.scalar 0) (.amoLocal lsid.toNat off o (c.fl.amoReg t0))
                         else Out.act (.scalar 0) (.amoRemote lsid.toNat a o (c.fl.amoReg t0))
        | _ => Out.act (.scalar 0) (.amoRemote lsid.toNat a o (c.fl.amoReg t0))
    | .scalar _, .null => Out.null
    | _, _ => Out.badType

/-- AMO.AADD. -/
def execAmoAadd (pr : Pr) (lsid : BitVec 5) (dbl : Bool) (ord : BitVec 2) (t0 : Target) (s : State) : Res := s.amoOp 0 pr lsid dbl ord t0
/-- AMO.AAND. -/
def execAmoAand (pr : Pr) (lsid : BitVec 5) (dbl : Bool) (ord : BitVec 2) (t0 : Target) (s : State) : Res := s.amoOp 1 pr lsid dbl ord t0
/-- AMO.AOR. -/
def execAmoAor (pr : Pr) (lsid : BitVec 5) (dbl : Bool) (ord : BitVec 2) (t0 : Target) (s : State) : Res := s.amoOp 2 pr lsid dbl ord t0
/-- AMO.AXOR. -/
def execAmoAxor (pr : Pr) (lsid : BitVec 5) (dbl : Bool) (ord : BitVec 2) (t0 : Target) (s : State) : Res := s.amoOp 3 pr lsid dbl ord t0
/-- AMO.AMIN. -/
def execAmoAmin (pr : Pr) (lsid : BitVec 5) (dbl : Bool) (ord : BitVec 2) (t0 : Target) (s : State) : Res := s.amoOp 4 pr lsid dbl ord t0
/-- AMO.AMAX. -/
def execAmoAmax (pr : Pr) (lsid : BitVec 5) (dbl : Bool) (ord : BitVec 2) (t0 : Target) (s : State) : Res := s.amoOp 5 pr lsid dbl ord t0
/-- AMO.AMINN. -/
def execAmoAminn (pr : Pr) (lsid : BitVec 5) (dbl : Bool) (ord : BitVec 2) (t0 : Target) (s : State) : Res := s.amoOp 6 pr lsid dbl ord t0
/-- AMO.AMAXN. -/
def execAmoAmaxn (pr : Pr) (lsid : BitVec 5) (dbl : Bool) (ord : BitVec 2) (t0 : Target) (s : State) : Res := s.amoOp 7 pr lsid dbl ord t0
/-- AMO.AXCHG. -/
def execAmoAxchg (pr : Pr) (lsid : BitVec 5) (dbl : Bool) (ord : BitVec 2) (t0 : Target) (s : State) : Res := s.amoOp 8 pr lsid dbl ord t0
/-- AMO.ACAS. -/
def execAmoAcas (pr : Pr) (lsid : BitVec 5) (dbl : Bool) (ord : BitVec 2) (t0 : Target) (s : State) : Res := s.amoOp 9 pr lsid dbl ord t0

/-! ## FENCE, ACQ, REL (R141 to R146, R276, R278, R279) -/

/-- Whether a rectangle word is legal in the region (R142). -/
def Fire.rectOk (c : Fire) (w : Word) : Bool :=
  field w 40 24 == 0 && decide (field w 0 10 ≤ field w 20 10) && decide (field w 10 10 ≤ field w 30 10) &&
    decide (field w 20 10 < 4 * c.region.cw) && decide (field w 30 10 < 4 * c.region.ch)

/-- What waits for journal entries: it resolves when each of them is acknowledged or refused (R141, R144); one that is
withheld will never be acknowledged, so the block is discarded (R140, R279). -/
def Fire.awaits (c : Fire) (e : Effect) (among : JEntry → Bool) (done : Out) : Out :=
  if c.set.eng.journal.any fun x => among x && x.openYet then c.waitsFor (fun x => among x && x.openYet) (Out.waitWith e)
  else { done with eff := some e }

/-- FENCE.LOCAL (R141): every append committed earlier has been written. -/
def execFenceLocal (pr : Pr) (lsid : BitVec 5) (t0 : Target) (s : State) : Res :=
  s.memOp pr false false lsid t0 .plain false fun c =>
    if c.tileRec.slots.any fun p => p.2.ts == c.k && !p.2.toWrite.isEmpty then Out.waitWith (.fence lsid.toNat 0 0)
    else Out.act .completion (.fence lsid.toNat 0 0)
/-- The other kinds of FENCE (R141, R276). -/
def Fire.fenceKind (c : Fire) (lsid : BitVec 5) (kind : Nat) (rect : Word) : Out :=
  c.awaits (.fence lsid.toNat kind rect) (c.s.fenceCovers c.tile kind rect) (Out.tok .completion)
/-- FENCE.RECT (R141, R142). -/
def execFenceRect (pr : Pr) (lsid : BitVec 5) (t0 : Target) (s : State) : Res :=
  s.memOp pr true false lsid t0 .plain false fun c =>
    match c.left with
    | .scalar w => if c.rectOk w then c.fenceKind lsid 1 w else Out.fault .scope
    | _ => Out.badType
/-- FENCE.CLUSTER (R141). -/
def execFenceCluster (pr : Pr) (lsid : BitVec 5) (t0 : Target) (s : State) : Res :=
  s.memOp pr false false lsid t0 .plain false fun c => c.fenceKind lsid 2 0
/-- FENCE.REGION (R141). -/
def execFenceRegion (pr : Pr) (lsid : BitVec 5) (t0 : Target) (s : State) : Res :=
  s.memOp pr false false lsid t0 .plain false fun c => c.fenceKind lsid 3 0

/-- The spaces of objects and atomics (R133). -/
def objSpaces (sp : Nat) : Bool := decide (sp < 4)

/-- ACQ (R145, R278): an 8-byte load of the object, which may lie in the mailbox as a load's bytes may (R112; assumption
80). -/
def execAcq (pr : Pr) (lsid : BitVec 5) (t0 : Target) (s : State) : Res :=
  s.memOp pr true true lsid t0 .plain false fun c =>
    match c.left, c.right with
    | .scalar a, .scalar w => withPlace c a objSpaces 8 8 true fun d =>
        if c.rectOk w then c.load lsid.toNat a d 8 true fun bs => Out.tok (.scalar (word (ofBytes bs)))
        else Out.fault .scope
    | _, _ => Out.badType
/-- REL (R144, R279): phase 1 waits for the bound entries of earlier blocks. -/
def execRel (pr : Pr) (lsid : BitVec 5) (t0 : Target) (s : State) : Res :=
  s.memOp pr true true lsid t0 .plain false fun c =>
    match c.left, c.right with
    | .scalar a, .scalar w => withPlace c a objSpaces 8 8 false fun _ =>
        if c.rectOk w then
          c.awaits (.relUpd lsid.toNat a) (fun e => e.objs.contains a && e.kind != .rel) (Out.tok .completion)
        else Out.fault .scope
    | _, _ => Out.badType

/-! ## BIND and UNBIND (R143, R277) -/

/-- Whether a range may be bound (R143, R277). -/
def rangeOk (base len : Word) : Bool :=
  decide (base.toNat % 64 = 0) && decide (len.toNat % 64 = 0) && decide (64 ≤ len.toNat) && decide (len.toNat ≤ 2 ^ 40) &&
    decide (base.toNat % 2 ^ 60 + len.toNat ≤ 2 ^ 60)

/-- BIND (R277): the table changes at commit. -/
def execBind (pr : Pr) (t0 : Target) (s : State) : Res :=
  s.fire (mkShape pr true true .data [t0] .plain) .mem false false fun c =>
    match c.left, c.right, c.third with
    | .scalar o, .scalar b, .scalar n => withPlace c o objSpaces 8 8 false fun _ =>
        if rangeOk b n then Out.act .completion (.bindE o b n.toNat) else Out.fault .binding
    | _, _, _ => Out.badType
/-- UNBIND (R277). -/
def execUnbind (pr : Pr) (t0 : Target) (s : State) : Res :=
  s.fire (mkShape pr true true .none [t0] .plain) .mem false false fun c =>
    match c.left, c.right with
    | .scalar o, .scalar b => withPlace c o objSpaces 8 8 false fun _ => Out.act .completion (.unbindE o b)
    | _, _ => Out.badType

/-! ## Landing words and timelines (R153, R154, R280, R281) -/

/-- A landing word that an instruction names (R151, R280): in space 0, else the landing fault. -/
def withWord (c : Fire) (a : Word) (k : Nat → Out) : Out :=
  if addrFormOk a && decide (1 ≤ space a) && (decide (space a < 4) || decide (c.s.level c.tile ≠ .user)) then Out.faultAt .landing 0 a
  else withAddr c a (· == 0) 8 24 false (k (field a 0 17))

/-- LWAIT (R153, R280): a word that LWARM disarms while it waits leaves it waiting. -/
def execLwait (pr : Pr) (t0 : Target) (s : State) : Res :=
  s.fire (mkShape pr true true .none [t0] .plain) .mem false false fun c =>
    match c.left, c.right with
    | .scalar a, .scalar g => withWord c a fun off => c.afterAcquire <|
        let waited := (AMap.find c.ix c.fl.effs).isSome
        let gen := c.s.landingGen c.tile off
        if c.s.landingTarget c.tile off = 0 ∧ !waited then Out.faultAt .landing 0 a
        else if genReached gen (field g 0 32) then Out.act (.scalar (word gen)) .acquire
        else Out.waitWith .acquire
    | _, _ => Out.badType
/-- LWARM (R280): TARGET and COUNT are written at commit. -/
def execLwarm (pr : Pr) (t0 : Target) (s : State) : Res :=
  s.fire (mkShape pr true true .none [t0] .plain) .mem false false fun c =>
    match c.left, c.right with
    | .scalar a, .scalar n => withWord c a fun off => c.afterAcquire (Out.act .completion (.lwarm off n))
    | _, _ => Out.badType

/-- A wait for a count (R154): above what was issued at block start it is a fault. -/
def State.countWait (s : State) (pr : Pr) (t0 : Target) (issued : Fire → Nat) (ready : Fire → Nat → Bool) : Res :=
  s.fire (mkShape pr true false .none [t0] .plain) .mem false false fun c =>
    match c.left with
    | .scalar n =>
      if issued c < n.toNat then Out.fault .timeline
      else if ready c n.toNat then Out.act (.scalar n) .acquire
      else { given := .wait }
    | _ => Out.badType
/-- Sealed batches that have not completed (R154). -/
def Engines.unfinished (e : Engines) : Nat :=
  ((List.range (e.sealed - e.ce)).filter fun i =>
    e.hollow.contains (e.ce + 1 + i) || e.copies.any fun c => c.batch == some (e.ce + 1 + i)).length
/-- TCWAIT (R154, R281). -/
def execTcwait (pr : Pr) (me : Bool) (t0 : Target) (s : State) : Res :=
  s.countWait pr t0 (fun c => if me then c.fl.snap.issued else c.fl.snap.sealed)
    fun c n => decide (n ≤ if me then c.set.eng.me else c.set.eng.ce)
/-- CWAIT (R154, R281). -/
def execCwait (pr : Pr) (t0 : Target) (s : State) : Res :=
  s.countWait pr t0 (fun c => c.fl.snap.sealed) fun c n => decide (c.set.eng.unfinished ≤ n)

end Sys2Proof.Machine
end

