-- ==== Sys2Proof/Machine/Power.lean ====
section
/-! DEFINITION. Power, heat, energy accounting and the Transplanter (R34, R70, R355, R358 to R360, R389 to
R409, R424): rails, trimming, gating, caps, boost, meters, tile cycles, and the moves of each interval. -/

namespace Sys2Proof.Machine

open Sys2Proof

/-! ## Rails (R389, R393, R394) -/

/-- RAIL_STEP (R389): the rail moves one code towards its target. -/
def State.railStep (s : State) (f : Nat) : State :=
  s.updField f fun x =>
    match x.moving with
    | none => x
    | some target =>
      let c := field (csrOf x.csr 0x200) 0 6
      let c' := if c < target then c + 1 else if target < c then c - 1 else c
      { x with moving := if c' = target then none else some target, csr := csrPut x.csr 0x200 (setField (csrOf x.csr 0x200) 0 6 c') }
/-- RAIL_STEP. -/
def execRailStep (fld : Nat) (s : State) : Res := whenEnabled "RAIL_STEP" ((s.fieldRec fld).moving.isSome) (s.railStep fld)

/-- SAFE of a field takes a code, and the rail starts for SAFE - UVOFF (R393). -/
def State.safeUpdate (s : State) (f code : Nat) : State :=
  s.updField f fun x =>
    let w := csrOf x.csr 0x200
    let off := uvoffFor (csrOf x.csr 0x207) code (field w 16 6)
    { x with moving := if field w 0 6 = code - off then none else some (code - off), csr := csrPut x.csr 0x200 (setField (setField w 8 6 code) 16 6 off) }
/-- SAFE_UPDATE (R393): the code is the one that the field's temperatures and the entries in use call for. -/
def execSafeUpdate (fld code : Nat) (s : State) : Res :=
  whenEnabled "SAFE_UPDATE" (decide (fld < 84) && decide (code = s.safeCode fld)) (s.safeUpdate fld code)

/-- UNDERVOLT_WINDOW (R394): the errors of a 10 ms window move UVOFF by one; after a fall no rise follows
for 100 windows; nothing moves while the field is gated. -/
def State.undervolt (s : State) (f : Nat) : State :=
  s.updField f fun x =>
    let w := csrOf x.csr 0x200
    let u := csrOf x.csr 0x207
    let off := field w 16 6
    let safe := field w 8 6
    let up := decide (x.errs < field u 16 16) && decide (x.noRise = 0) && decide (field u 8 6 + (off + 1) ≤ safe)
    let down := decide (field u 16 16 ≤ x.errs)
    let off' := if x.gated then off else if down then off - 1 else if up then off + 1 else off
    let quiet := if x.gated then x.noRise else if down then 100 else x.noRise - 1
    { x with errs := 0, noRise := quiet, moving := if field w 0 6 = safe - off' then none else some (safe - off'), csr := csrPut x.csr 0x200 (setField w 16 6 off') }
/-- UNDERVOLT_WINDOW. -/
def execUndervoltWindow (fld : Nat) (s : State) : Res :=
  whenEnabled "UNDERVOLT_WINDOW" (bitAt (csrOf (s.fieldRec fld).csr 0x207) 0 && !bitAt (csrOf (s.fieldRec fld).csr 0x207) 1) (s.undervolt fld)

/-! ## Temperature (R398, R400) -/

/-- TEMP_UPDATE (R400): a cluster's calibrated temperature in 1/16 °C. -/
def execTempUpdate (clu : Nat) (temp : BitVec 16) (s : State) : Res :=
  whenEnabled "TEMP_UPDATE" (clusterOk clu) (s.updCluster clu fun c => { c with csr := csrPut c.csr 0x205 (word temp.toNat) })

/-- The temperature of a cluster in 1/16 °C. -/
def Cluster.temp (c : Cluster) : Int := sintN 16 (field (csrOf c.csr 0x205) 0 16)
/-- Whether THERMAL_GATE can come about: a cluster of the field reads 125.0 °C or more (R398). -/
def State.canGate (s : State) (f : Nat) : Bool :=
  !(s.fieldRec f).gated && s.clusters.any fun p => fieldOfCluster p.1 = f && decide (2000 ≤ p.2.temp)
/-- THERMAL_GATE (R398): the field's clocks stop, its state is kept. -/
def State.gate (s : State) (f : Nat) : State :=
  (s.updField f fun x => { x with gated := true, csr := csrPut x.csr 0x209 (setField (csrOf x.csr 0x209) 16 32 (min (2 ^ 32 - 1) (field (csrOf x.csr 0x209) 16 32 + 1))) }).tracePower f 2 0
/-- THERMAL_GATE. -/
def execThermalGate (fld : Nat) (s : State) : Res := whenEnabled "THERMAL_GATE" (s.canGate fld) (s.gate fld)
/-- Whether THERMAL_RELEASE can come about: every cluster of the field reads below 105.0 °C (R398). -/
def State.canRelease (s : State) (f : Nat) : Bool :=
  (s.fieldRec f).gated && s.clusters.all fun p => fieldOfCluster p.1 ≠ f || decide (p.2.temp < 1680)
/-- THERMAL_RELEASE (R398): what the gated cores have held back leaves. -/
def State.release (s : State) (f : Nat) : State :=
  let s := (s.updField f fun x => { x with gated := false }).tracePower f 3 0
  ((s.regions.filter fun p => p.2.tilesOf.any fun t => fieldOf t == f).foldl (fun s p => s.sendHeld p.1) s).wakeAll
/-- THERMAL_RELEASE. -/
def execThermalRelease (fld : Nat) (s : State) : Res := whenEnabled "THERMAL_RELEASE" (s.canRelease fld) (s.release fld)

/-! ## Caps (R390, R397, R399, R400) -/

/-- Sets a tile's CAP, which its entry follows (R390). -/
def State.setCap (s : State) (t cap : Nat) : State := (s.updTile t fun x => { x with cap := some (min 15 cap) }).trim t
/-- A CAP one entry lower, but not below a floor. -/
def lowerCap (floor cap : Nat) : Nat := if cap ≤ floor then cap else cap - 1
/-- Steps the CAPs of tiles; of each field in which one changes, one power record of the tile's region tells a new value
(R421; assumption 90). -/
def State.stepCapsOf (s : State) (ts : List Nat) (f : Nat → Nat → Nat) : State :=
  let u := ts.foldl (fun s t => s.setCap t (f t (s.capOf t))) s
  ((ts.map fun t => (s.rgnOf t, fieldOf t)).eraseDups).foldl (fun u n =>
    match ts.find? fun t => s.rgnOf t == n.1 && fieldOf t == n.2 && s.capOf t != u.capOf t with
    | some t => u.traceFw n.1 6 0 4 (u.capOf t) n.2
    | none => u) u
/-- Steps every CAP of a region. -/
def State.stepCaps (s : State) (r : Nat) (f : Nat → Nat → Nat) : State := s.stepCapsOf (s.region r).tilesOf f
/-- FMIN of a region's grant (R308). -/
def Region.fmin (g : Region) : Nat := field (csrOf g.csr 0x04A) 0 4
/-- The lowest entry at which a tile reaches a frequency at its cluster's ratio; 15 when none does. -/
def State.entryFor (s : State) (t mhz : Nat) : Nat :=
  ((List.range 15).find? fun i => decide (mhz ≤ frequencyAt t (s.ratioOf t) i)).getD 15

/-- COOLANT_INLET_LIMIT (R397, R400): above 55 °C firmware lowers every CAP, but not below the FMIN of the tile's
region; by how many entries depends on the coolant, so the number is a choice. The CAP that every tile without one of its own has
falls with them. -/
def State.coolant (s : State) (inlet : Nat) : State :=
  let (n, s) := s.choose
  let ts := (((s.tiles.filter fun p => p.2.cap.isSome || p.2.rgn.isSome).map Prod.fst) ++ s.regions.flatMap fun p => p.2.tilesOf).eraseDups
  (s.stepCapsOf ts fun t cap => min cap (max (s.region (s.rgnOf t)).fmin (cap - (1 + n % 15)))).updLinks fun l =>
    { l with inlet := inlet, cap := l.cap - (1 + n % 15) }
/-- COOLANT_INLET_LIMIT. -/
def execCoolantInletLimit (inlet : Nat) (s : State) : Res := whenEnabled "COOLANT_INLET_LIMIT" (decide (55 < inlet)) (s.coolant inlet)

/-- SLKPER of a region (R392). -/
def Region.slkper (g : Region) : Nat := field (csrOf g.csr 0x230) 0 6
/-- Whether a collective of a region has had the periods of an interval (R399). -/
def State.slackDue (s : State) (r : Nat) (c : Coll) : Bool := c.rgn == r && decide ((s.region r).slkper ≤ c.waits.length)
/-- The SLKPER periods of a region's interval: the oldest that the slack control has not yet counted, of its first collective
that has had as many (R399, R436). -/
def State.periodsOf (s : State) (r : Nat) : List (Nat × Nat) :=
  match s.links.colls.find? (s.slackDue r) with
  | some c => c.waits.take (s.region r).slkper
  | none => []
/-- The slack of an interval: the mean wait for the last peer in 1/256 of a period, at most 255 (R399). Periods that took
no cycle of the entry port's tile have no such mean: a choice gives it (assumption 108). -/
def State.slackOf (s : State) (r : Nat) : Nat × State :=
  let ps := s.periodsOf r
  let len := (ps.map Prod.snd).sum
  if len = 0 then let (t, s) := s.choose; (min 255 t, s) else (min 255 ((ps.map Prod.fst).sum * 256 / len), s)
/-- SLACK_INTERVAL (R399): one step of the slack control of a region in a collective. A raise lifts the CAPs that a step
has lowered. -/
def State.slack (s : State) (r : Nat) : State :=
  let (slk, s) := s.slackOf r
  let g := s.region r
  let one := (s.links.colls.find? (s.slackDue r)).map Coll.id
  let s := s.updLinks fun l => { l with colls := l.colls.map fun c => if one = some c.id then { c with waits := c.waits.drop g.slkper } else c }
  let cfg := csrOf g.csr 0x230
  let st := csrOf g.csr 0x231
  let down := field st 8 4
  let stable := min 15 (field st 12 4 + 1)
  let floor (t : Nat) : Nat := max g.fmin (s.entryFor t (field (csrOf g.csr 0x042) 0 12))
  let put (s : State) (d n : Nat) : State :=
    s.updRegion r fun g => { g with csr := csrPut g.csr 0x231 (word (at_ 0 8 slk + at_ 8 4 d + at_ 12 4 n)) }
  if field cfg 16 8 < slk then
    let falls := g.tilesOf.filter fun t => lowerCap (floor t) (s.capOf t) != s.capOf t
    let s := (s.stepCapsOf falls fun t cap => lowerCap (floor t) cap).updRegion r fun g =>
      { g with lowered := falls.foldl (fun m t => AMap.upd 0 (s.tile t).coord (· + 1) m) g.lowered }
    put s (if falls.isEmpty then down else min 15 (down + 1)) 0
  else if field cfg 8 8 ≤ slk then put s down 0
  else if 8 ≤ stable ∧ down ≠ 0 then
    let rises := g.tilesOf.filter fun t => AMap.get 0 (s.tile t).coord g.lowered != 0
    let s := (s.stepCapsOf rises fun _ cap => cap + 1).updRegion r fun g =>
      { g with lowered := rises.foldl (fun m t => AMap.upd 0 (s.tile t).coord (· - 1) m) g.lowered }
    put s (down - 1) 0
  else put s down stable
/-- SLACK_INTERVAL. -/
def execSlackInterval (rgn : Nat) (s : State) : Res :=
  whenEnabled "SLACK_INTERVAL" (s.hasRegion rgn && bitAt (csrOf (s.region rgn).csr 0x230) 24 &&
    s.links.colls.any (s.slackDue rgn)) (s.slack rgn)

/-! ## Meters (R405, R408, R409) -/

/-- ENERGY_HARVEST (R408): every ENCTL interval. -/
def execEnergyHarvest (rgn : Nat) (s : State) : Res :=
  whenEnabled "ENERGY_HARVEST" (s.hasRegion rgn && decide (field (csrOf (s.region rgn).csr 0x210) 0 14 ≠ 0)) (s.harvest rgn false)

/-- BILLBACK_HARVEST (R409): each account's total goes back to its origin module over Boder. An account's
key is origin × 4096 + tag. -/
def State.billback (s : State) : State :=
  let bills := s.links.bills
  let left := bills.map fun p => if (s.boderTo (p.1 / 4096)).isSome then (p.1, p.2 % 16000) else p
  let s := bills.foldl (fun s p => match s.boderTo (p.1 / 4096) with
    | none => s
    | some b => s.boderSend b (remoteAsk (p.1 / 4096) (p.1 % 4096) 3 0 8 ((leBytes 8 (p.2 / 16000)).map some))) s
  s.updLinks fun l => { l with bills := left.filter fun p => p.2 != 0 }
/-- BILLBACK_HARVEST. -/
def execBillbackHarvest (s : State) : Res := .next s.billback

/-- BILLBACK_RECEIVE (R409): the total joins ENTOT and ENREM of the context of that tag, resident or saved;
otherwise context 0's total. -/
def State.billReceive (s : State) (ctx nj : Nat) : State :=
  let add (g : Region) : Region :=
    { g with csr := csrPut (csrPut g.csr 0x211 (satAdd64 (csrOf g.csr 0x211) nj)) 0x212 (satAdd64 (csrOf g.csr 0x212) nj) }
  if s.regions.any (fun p => p.2.ctx == ctx && p.1 != 256) then
    { s with regions := s.regions.map fun p => if p.2.ctx = ctx ∧ p.1 ≠ 256 then (p.1, add p.2) else p }
  else if s.saves.any (fun p => p.2.region.ctx == ctx) then
    { s with saves := s.saves.map fun p => if p.2.region.ctx = ctx then (p.1, { p.2 with region := add p.2.region }) else p }
  else s.updRegion 256 fun g => { g with csr := csrPut g.csr 0x211 (satAdd64 (csrOf g.csr 0x211) nj) }
/-- BILLBACK_RECEIVE. -/
def execBillbackReceive (ctx nj : Nat) (s : State) : Res := .next (s.billReceive ctx nj)

/-- Undispatched packets of a port; fault and repair packets are at none (R43, R369). -/
def Tile.waitingOn (x : Tile) (p : Nat) : Nat :=
  (x.mbox.mails.filter fun m => m.port = p && !m.taken && !m.hole && m.kind != .fault && m.kind != .repair).length
/-- The queue counters of a tile after one cycle, its edges having the depths given (R424). -/
def Tile.countQueues (x : Tile) (depth : Nat → Nat) : Tile :=
  { x with
    qcnt := x.conf.ports.foldl (fun q p =>
      let n := x.waitingOn p.1
      let up (b : Bool) (c : Nat) : Nat := if b then min (2 ^ 48 - 1) (c + 1) else c
      AMap.upd (0, 0, 0) p.1 (fun c => (up (p.2.edge.any fun e => n == depth e) c.1, up (n == 0) c.2.1, up (x.moved.contains p.1) c.2.2)) q) x.qcnt,
    moved := [] }

/-- Whether a tile has no task running. -/
def State.tileIdle (s : State) (t : Nat) : Bool := (List.range 4).all fun i => (s.ts (4 * t + i)).task.isNone && !(s.ts (4 * t + i)).ending

/-- A tile joins a stage (R70, R359): the configuration of the stage's actor with its partition word (R216), its read-only
data, SLOTDEF in the slot table (R362), and its place in the stage's list. -/
def State.joinStage (s : State) (r n c : Nat) : State :=
  let g := s.region r
  let x := g.stage n
  match g.tileAt? c with
  | none => s
  | some t =>
    let s := s.updTile t fun y => { y with
      conf := { x.conf with coord := c }, live := true, mbox := Mailbox.rehead y.mbox (mboxBase x.conf.part),
      mx := { y.mx with table := csrOf g.csr 0x046, newTable := none } }
    let s := s.putRoData t x.roData
    s.updStage r n fun y => { y with replicas := (c :: y.replicas).mergeSort (fun a b => decide (a ≤ b)), joining := y.joining.erase c, moves := AMap.put 0 c g.interval y.moves }
/-- A tile that waits to join a stage does so once its tasks have ended (R70), not while its cluster is halted (R413,
R414). -/
def State.joinIfIdle (s : State) (t : Nat) : State :=
  let r := s.rgnOf t
  let c := (s.tile t).coord
  match (s.region r).stages.find? fun p => p.2.joining.contains c with
  | some p => if s.tileIdle t && (s.tile t).mbox.mails.isEmpty && !s.trellised t then s.joinStage r p.1 c else s
  | none => s

/-! ## Head records of the matrix queue (R184, R185, R190) -/

/-- Whether the engines of a tile may start something: its region runs, and no halt, cut or gate holds it
(R190, R398, R412). A RUN that clears an earlier one waits for the engines, halted or not (R353). -/
def State.engineOn (s : State) (t : Nat) : Bool :=
  let g := s.region (s.rgnOf t)
  decide (g.st = .running) && (decide (g.outcome ≠ .failed) || decide (g.cut.why = 2)) && !s.gatedAt t && !(s.tile t).stopped
/-- The head record of a thread set when it is ready (R184); what ends it takes a ticket (R427). -/
def State.headReady (s : State) (k : Nat) : Option MRec :=
  match (s.ts k).eng.recs with
  | [] => none
  | r :: _ =>
    let ok := match r.depk with
      | 1 => genReached (s.landingGen (tileOf k) r.deplw) (r.depv % 2 ^ 32)
      | 2 => decide (r.depv ≤ (s.ts k).eng.ce)
      | _ => true
    let last := match r.body with | .drain _ _ _ _ _ _ _ _ _ _ _ _ => r.row == 7 | _ => true
    if ok && s.engineOn (tileOf k) && !s.stilledRecs k && decide (s.mode (s.rgnOf (tileOf k)) ≠ 3) &&
        (!last || s.ticketFree (s.rgnOf (tileOf k)) (tileOf k) (tsNum k) 5) then some r else none
/-- Whether a thread set's head record is a ready op. -/
def State.opReady (s : State) (k : Nat) : Bool :=
  match s.headReady k with | some r => (r.body matches .op _ _ _ _ _ _) | none => false
/-- Whether an op of some thread set of a tile is ready (R185). -/
def State.anyOp (s : State) (t : Nat) : Bool := (List.range 4).any fun i => s.opReady (4 * t + i)
/-- Tile cycles of a slot: 24 at the high ratio (R185, R396). -/
def State.slotLen (s : State) (t : Nat) : Nat := if s.ratioOf t = 2 then 24 else 12
/-- The cycle in which the next op of a tile may start: a slot, as long as the ratio of now makes it, after the start of the
last one (R185, R396). -/
def State.opDue (s : State) (t : Nat) : Nat :=
  let n := (s.tile t).mx.lastOp
  if n = 0 then 0 else n + (s.slotLen t - 12)
/-- The sequencer in a cycle in which the slot of the last op is over and no op is ready: it passes entries without
waiting, so its pass through the table ends and a new table applies (R185, R307). -/
def State.passEntries (s : State) (t : Nat) : State :=
  let m := (s.tile t).mx
  if s.anyOp t || decide ((s.tile t).cycle < s.opDue t) then s
  else s.updTile t fun x => { x with mx := { m with slotAt := none, table := m.newTable.getD m.table, newTable := none } }

/-- TILE_CYCLE (R7, R185, R405, R424): the cycle count, static energy, queue counters and occupancy samples; the
sequencer passes entries that run no op. -/
def State.tileCycle (s : State) (t : Nat) : State :=
  let x := s.tile t
  let r := s.rgnOf t
  let f := csrOf (s.fieldRec (fieldOf t)).csr 0x214
  let s := s.chargeRaw t (if x.live && !x.stopped then s.ctxOf t else 0) (field f 0 16 + field f 16 16 * partTs x.conf.part)
  let s := s.updTile t fun x => ({ x with cycle := x.cycle + 1 }).countQueues fun e => ((s.region r).edge e).depth
  let s := s.updRegion r fun g => { g with stages := g.stages.map fun p =>
    if p.2.lead = x.coord ∧ ¬ p.2.replicas.isEmpty then (p.1, { p.2 with
      occSum := p.2.occSum + p.2.inbox.length + (p.2.replicas.foldl (fun n c => n + (match g.tileAt? c with | some d => (s.tile d).waitingOn (g.edge p.2.inEdge).port | none => 0)) 0),
      occTime := p.2.occTime + 1 }) else p }
  (s.passEntries t).joinIfIdle t
/-- TILE_CYCLE: no cycle passes on a tile whose field is gated (R398). -/
def execTileCycle (tile : Nat) (s : State) : Res :=
  whenEnabled "TILE_CYCLE" (isTile tile && !(s.fieldRec (fieldOf tile)).gated) (s.tileCycle tile)

/-! ## The Transplanter's interval (R355, R358 to R361, R396, R397) -/

/-- Occupancy and class of a stage at the end of an interval (R358). -/
def Stage.classify (x : Stage) (depth lo hi : Nat) : Stage :=
  let o := if x.occTime * depth = 0 then 0 else min 255 (x.occSum * 255 / (x.occTime * depth))
  { x with occ := o, prevCls := x.cls, cls := if o ≤ lo then 1 else if hi ≤ o then 2 else 0, occSum := 0, occTime := 0 }

/-- The best stage number of a list by a key, the lowest number on a tie. -/
def bestStage (g : Region) (better : Stage → Stage → Bool) (l : List Nat) : Option Nat :=
  l.foldl (fun b n => match b with
    | none => some n
    | some m => if better (g.stage n) (g.stage m) then some n else some m) none
/-- The recipient (R359): backed, counted, not moved, below its maximum; highest O, then lowest number. -/
def Region.recipient (g : Region) (pipe : Nat) (moved : List Nat) : Option Nat :=
  bestStage g (fun a b => decide (b.occ < a.occ)) ((g.stages.filter fun p => p.2.pipe = pipe && p.2.cls = 2 && p.2.prevCls = 2 &&
    !moved.contains p.1 && decide (p.2.replicas.length + p.2.joining.length < p.2.maxR)).map Prod.fst)
/-- The donor (R359): starved, counted, not moved, above its minimum; lowest O, then lowest number. -/
def Region.donorStage (g : Region) (pipe : Nat) (moved : List Nat) : Option Nat :=
  bestStage g (fun a b => decide (a.occ < b.occ)) ((g.stages.filter fun p => p.2.pipe = pipe && p.2.cls = 1 && p.2.prevCls = 1 &&
    !moved.contains p.1 && decide (p.2.minR < p.2.replicas.length)).map Prod.fst)
/-- Whether the Transplanter may move a coordinate's tile: no delta in progress affects it, its field is not gated, and its
cluster is not halted (R354, R398, R414). -/
def State.movable (s : State) (r c : Nat) : Bool :=
  match (s.region r).tileAt? c with
  | some t => !(s.fieldRec (fieldOf t)).gated && !s.trellised t &&
      (match (s.region r).delta with | some d => d.tiles.all fun x => x.coord != c | none => true)
  | none => false
/-- `eligible_replica` of R359. -/
def State.eligibleReplica (s : State) (r n : Nat) : Option Nat :=
  let g := s.region r
  (g.stage n).replicas.find? fun c => decide (AMap.get 0 c (g.stage n).moves + 4 ≤ g.interval) && s.movable r c
/-- `spare_tile` of R359: the spare tile nearest the recipient's replicas, in hops between the physical tiles (R25). -/
def State.spareTile (s : State) (r n : Nat) : Option Nat :=
  let g := s.region r
  let far (c : Nat) : Nat := match g.tileAt? c with
    | some t => (g.stage n).replicas.foldl (fun m d => match g.tileAt? d with | some u => min m (hops t u) | none => m) (2 ^ 20)
    | none => 2 ^ 20
  (g.coords.filter fun c => match g.tileAt? c with | some t => s.spare r t && s.movable r c && g.stages.all (fun p => !p.2.joining.contains c) | none => false).foldl
    (fun b c => match b with | none => some c | some d => if far c < far d then some c else some d) none

/-- Removes a replica (R70, R361): its undispatched packets go to a current replica, whose cluster is not halted (R413)
where there is one, its remaining slices to its heir, and the steal requests that wait there get an empty answer. -/
def State.removeReplica (s : State) (r n c : Nat) : State :=
  let g := s.region r
  let x := g.stage n
  let heir := (g.heir x c).getD c
  let taker := ((heir :: x.replicas.filter (· ≠ c)).find? fun e => match g.tileAt? e with | some t => !s.shut t | none => false).getD heir
  let slices := AMap.get [] c x.rem
  let s := s.updStage r n fun y => { y with
    replicas := y.replicas.filter (· ≠ c), rem := AMap.del c y.rem, asks := y.asks.filter fun a => a.2 ≠ c, asking := y.asking.erase c }
  let s := if slices.isEmpty then s else s.sendSteal r n c heir .given slices
  let s := (x.asks.filter fun a => a.2 == c).foldl (fun s a => s.sendSteal r n c a.1 .reply []) s
  match g.tileAt? c, g.tileAt? taker with
  | some t, some d =>
    let ms := (s.tile t).mbox.mails.filter fun m => !m.taken && m.kind = .edge
    let s := s.updTile t fun y =>
      { y with mbox := Mailbox.rehead { y.mbox with mails := y.mbox.mails.filter fun m => m.taken || m.kind ≠ .edge } (mboxBase y.conf.part) }
    ms.foldl (fun s m => let (pos, s) := s.nextPos d
      s.putMail d { m.reclocked (s.clock t) (s.clock d) with pos := pos, fwd := false }) s
  | _, _ => s

/-- Moves a tile to a stage (R359): from its old stage if it had one; it joins when its tasks have ended. -/
def State.reassign (s : State) (r c rcv : Nat) (old : Option Nat) : State :=
  let s := match old with | some n => s.removeReplica r n c | none => s
  let s := s.traceFw r 4 c c c rcv
  let s := s.updRegion r fun g => { g with csr := csrPut g.csr 0x043 (setField (csrOf g.csr 0x043) 0 32 (min (2 ^ 32 - 1) (field (csrOf g.csr 0x043) 0 32 + 1))) }
  let s := s.updStage r rcv fun y => { y with joining := c :: y.joining }
  match (s.region r).tileAt? c with | some t => s.joinIfIdle t | none => s

/-- The pairing loop of R359 for one pipeline; the fuel is the number of stages. -/
def State.pairStages (s : State) (r pipe : Nat) (moved : List Nat) : Nat → State
  | 0 => s
  | k + 1 =>
    let g := s.region r
    match g.recipient pipe moved with
    | none => s
    | some rcv =>
      let dnr := g.donorStage pipe moved
      match (match dnr with | some d => s.eligibleReplica r d | none => none) with
      | some c => (s.reassign r c rcv dnr).pairStages r pipe (rcv :: dnr.toList ++ moved) k
      | none => match s.spareTile r rcv with
        | some c => (s.reassign r c rcv none).pairStages r pipe (rcv :: dnr.toList ++ moved) k
        | none => s

/-- Whether a tile at its entry runs below a frequency (R360). -/
def State.freqNow (s : State) (t : Nat) : Nat :=
  frequencyAt t (s.ratioOf t) (s.entryOf t)
/-- Whether a tile can reach a frequency at its limit entry. -/
def State.canReach (s : State) (t mhz : Nat) : Bool :=
  decide (mhz ≤ frequencyAt t (s.ratioOf t) (s.limitOf t))
/-- Evacuation (R360): at most 4 actors of each field, each to the nearest spare tile that can reach the
floor; without one the failure is traced. -/
def State.evacuate (s : State) (r : Nat) : State :=
  let g := s.region r
  let floor := field (csrOf g.csr 0x042) 0 12
  (List.range 84).foldl (fun s f =>
    let slow := (g.coords.filterMap g.tileAt?).filter fun t =>
      fieldOf t = f && decide ((s.tile t).conf.actor = some .stateful) && !inShed (s.tile t).coord && decide (s.freqNow t < floor) &&
      s.movable r (s.tile t).coord
    (slow.take 4).foldl (fun s t =>
      let dest := ((g.coords.filterMap g.tileAt?).filter fun d => s.spare r d && s.canReach d floor && s.movable r (s.tile d).coord).foldl
        (fun b d => match b with | none => some d | some e => if hops t d < hops t e then some d else some e) none
      let c := (s.tile t).coord
      match dest with
      | some d =>
        let s := (s.migrate t d).traceFw r 4 c c (s.tile d).coord (2 ^ 8)
        s.updRegion r fun g => { g with csr := csrPut g.csr 0x043 (setField (csrOf g.csr 0x043) 32 32 (min (2 ^ 32 - 1) (field (csrOf g.csr 0x043) 32 32 + 1))) }
      | none => s.traceFw r 4 c c 0 (2 ^ 8 + 2 ^ 9)) s) s

/-- The fields of a region. -/
def Region.fieldsOf (g : Region) : List Nat := ((g.coords.map fun c => fieldOf (g.physOf c)).eraseDups)
/-- The clusters of a region, ascending. -/
def Region.clustersOf (g : Region) : List Nat := ((g.coords.map fun c => clusterOf (g.physOf c)).eraseDups).mergeSort (fun a b => decide (a ≤ b))
/-- Whether a region's grant holds BOOST. -/
def Region.boosted (g : Region) : Bool := bitAt (csrOf g.csr 0x04A) 4
/-- Boost assignment (R396): in descending RGNPRIO, then ascending region and cluster number, within each
field's BOOSTMAX, skipping clusters at 100 °C or more; clusters outside the budget return to the mid ratio. -/
def State.boostAssign (s : State) : State :=
  let rs := (s.regions.filter fun p => p.2.boosted && p.2.st = .running).mergeSort
    (fun a b => decide (field (csrOf b.2.csr 0x047) 0 3 ≤ field (csrOf a.2.csr 0x047) 0 3))
  let want := (rs.flatMap fun p => p.2.clustersOf).filter fun c => decide ((s.cluster c).temp < 1600)
  let pick := want.foldl (fun (acc : List Nat) c =>
    if (acc.filter fun d => fieldOfCluster d = fieldOfCluster c).length < field (csrOf (s.fieldRec (fieldOfCluster c)).csr 0x208) 0 9 then acc ++ [c] else acc) []
  let s := s.clusters.foldl (fun s p => if p.2.ratio = 2 && !pick.contains p.1 then s.setRatio p.1 1 else s) s
  pick.foldl (fun s c => if (s.cluster c).ratio = 2 then s else s.setRatio c 2) s

/-- Energy charged to a region's context so far, in pJ (R402, R408). -/
def State.energySoFar (s : State) (r : Nat) : Nat :=
  (s.meterTiles r).foldl (fun n t => n + (AMap.get ⟨0, false⟩ (s.region r).ctx (s.tile t).meters).units / 16) ((csrOf (s.region r).csr 0x211).toNat * 1000)
/-- PMAX enforcement (R397): pJ per µs against watts; one CAP entry down above PMAX, one up below 90%, as far as the entry
requested. A context above PMAX with every CAP at FMIN is reported in the trace, by a record for each field
(assumption 90). -/
def State.enforcePmax (s : State) (r : Nat) : State :=
  let g := s.region r
  let now := s.energySoFar r
  let watts1e6 := (now - g.energyAt) / max 1 g.intv
  let pmax := field (csrOf g.csr 0x04A) 8 20 * 10 ^ 6
  let s := s.updRegion r fun g => { g with energyAt := now }
  if pmax < watts1e6 then
    if g.tilesOf.all fun t => decide (s.capOf t ≤ g.fmin) then
      ((g.tilesOf.map fieldOf).eraseDups).foldl (fun s n => s.traceFw r 6 0 4 g.fmin n) s
    else s.stepCaps r fun _ cap => lowerCap g.fmin cap
  else if watts1e6 * 10 < pmax * 9 then s.stepCaps r fun t cap => if cap < (s.tile t).wanted then cap + 1 else cap
  else s

/-- The grant of R355: each field the lower of request and grant, BOOST only when both set it and the flux
cap admits it; CLAMP when a field was reduced. -/
def grantOf (req lim : Word) (flux : Bool) : Word :=
  let p := min (field req 8 20) (field lim 8 20)
  let m := min (field req 0 4) (field lim 0 4)
  let b := bitAt req 4 && bitAt lim 4 && flux
  let c := decide (p ≠ field req 8 20) || decide (m ≠ field req 0 4) || (b != bitAt req 4)
  word (at_ 63 1 c.toNat + at_ 8 20 p + at_ 4 1 b.toNat + at_ 0 4 m)
/-- Whether the flux cap admits BOOST for a region: some field of it has BOOSTMAX above 0 (R396). -/
def State.fluxAdmits (s : State) (r : Nat) : Bool := (s.region r).fieldsOf.any fun f => decide (0 < field (csrOf (s.fieldRec f).csr 0x208) 0 9)

/-- Whether a Transplanter interval of a region ends now. -/
def State.canInterval (s : State) (r : Nat) : Bool := s.hasRegion r && decide ((s.region r).st = .running)
/-- TRANSPLANTER_INTERVAL (R355, R358 to R360, R396, R397): grants that were lowered take effect, stages are
classified and paired, actors evacuated, boost assigned and PMAX enforced. With EN 0, in a replay mode, while a cut is open
and at the end of an interval in which one was, nothing moves. The next interval is as long as RBCTL says now (R357). -/
def State.interval (s : State) (r : Nat) : State :=
  let calm := (s.region r).calm
  let s := s.updRegion r fun g => { g with
    interval := g.interval + 1, calm := decide (g.cut.phase ≠ 1), csr := csrPut g.csr 0x04A (word ((grantOf g.request g.granted (s.fluxAdmits r)).toNat % 2 ^ 63)),
    stages := g.stages.map fun p => (p.1, p.2.classify (g.edge p.2.inEdge).depth (field (csrOf g.csr 0x041) 0 8) (field (csrOf g.csr 0x041) 8 8)) }
  let g := s.region r
  let s := g.tilesOf.foldl (fun s t => s.updTile t fun x => { x with qmark := x.qcnt, cycMark := x.cycle }) s
  let s := if bitAt (csrOf g.csr 0x040) 24 && calm && decide (g.cut.phase ≠ 1) && decide (s.mode r = 0) then
      (((g.stages.map fun p => p.2.pipe).eraseDups).foldl (fun s p => s.pairStages r p [] g.stages.length) s).evacuate r
    else s
  (s.boostAssign.enforcePmax r).updRegion r fun g => { g with intv := field (csrOf g.csr 0x040) 0 24 }
/-- TRANSPLANTER_INTERVAL. -/
def execTransplanterInterval (rgn : Nat) (s : State) : Res :=
  whenEnabled "TRANSPLANTER_INTERVAL" (s.canInterval rgn) (s.interval rgn)

end Sys2Proof.Machine
end

