-- ==== Sys2Proof/Machine/Tasks.lean ====
section
/-! DEFINITION. SEND, SPAWN, MBPOP, MBPEEK, MBHW, EOS and STEAL (R294 to R301): the checks and waits when
they fire, and what each does at commit. -/

namespace Sys2Proof.Machine

open Sys2Proof

/-! ## Checks -/

/-- The header rules of R295: KIND, LENGTH, NSUCC and STAGE. -/
def headerOk (kinds : List Nat) (h0 : Word) : Bool :=
  kinds.contains (h0Kind h0) && decide (h0Len h0 ≠ 0) && decide (h0Nsucc h0 ≤ 8) &&
    decide (16 + 8 * h0Nsucc h0 ≤ packetLen h0) && decide (h0Stage h0 ≤ 63)
/-- Whether the issuing thread set is the epilogue thread set (R295). -/
def Fire.onEpilogue (c : Fire) : Bool := decide (epiTs c.tileRec.conf.part = some (tsNum c.k))
/-- The region number of the issuing tile. -/
def Fire.rgn (c : Fire) : Nat := c.s.rgnOf c.tile

/-- The payload and successor list of a packet to send (R294): 16-byte aligned, in the scratchpad range or the
mailbox. -/
def withPayload (c : Fire) (a h0 : Word) (k : Out) : Out :=
  withAddr c a (· == 0) 16 (bodyLen h0) true <|
    if c.s.poisoned (poolKey c.tile (field a 0 17)) (bodyLen h0) then c.dataFault (poolKey c.tile (field a 0 17)) (bodyLen h0) a else k

/-- Whether the task, or a lower-indexed SEND of the block, has sent on a stage output port (R57, R241). -/
def Fire.sentOn (c : Fire) (o : Nat) : Bool :=
  (match c.set.task with | some a => a.sent.contains o | none => false) ||
    c.fl.effs.any fun p => decide (p.1 < c.ix) && (match p.2 with | .send q _ _ => q == o | _ => false)
/-- Whether a port has carried an eos, or a lower-indexed EOS of the block sends one (R295, R299). -/
def Fire.ended (c : Fire) (e o : Nat) : Bool :=
  (c.region.edge e).closed || c.fl.effs.any fun p => decide (p.1 < c.ix) && p.2 == .eos o

/-! ## The instructions -/

/-- Whether an edge has a credit for the packet that a SEND makes: a replica's keeps its task's SEQ (R39, R55). -/
def Fire.sendRoom (c : Fire) (e : Nat) : Bool :=
  if c.tileRec.isReplica then c.s.creditKept c.rgn e (match c.set.task with | some q => h0Seq q.h0 | none => 0)
  else c.s.creditFree c.rgn e
/-- SEND (R294, R295). -/
def execSend (pr : Pr) (oport : BitVec 4) (t0 : Target) (s : State) : Res :=
  s.fire (mkShape pr true true .none [t0] .sends) .mem false false fun c =>
    match c.left, c.right with
    | .scalar a, .scalar h0 =>
      let o := oport.toNat
      match c.s.outEdge c.tile o with
      | none => Out.fault .send
      | some e =>
        if !headerOk [0, 1, 3] h0 || c.ended e o || decide ((c.region.edge e).len < h0Len h0) || c.onEpilogue then Out.fault .send
        else c.afterAcquire <| withPayload c a h0 <|
          if c.tileRec.isReplica && c.sentOn o then Out.fault .stageOutput
          else if c.sendRoom e then Out.act .completion (.send o h0 a)
          else { given := .wait }
    | _, _ => Out.badType

/-- SPAWN (R296, R297): a destination outside the region freezes the thread set. -/
def execSpawn (pr : Pr) (t0 : Target) (s : State) : Res :=
  s.fire (mkShape pr true true .data [t0] .sends) .mem false false fun c =>
    match c.left, c.right, c.third with
    | .scalar a, .scalar h0, .scalar h1 =>
      if !headerOk [0] h0 then Out.fault .send
      else c.afterAcquire <| withPayload c a h0 <|
        match c.region.translate (h1Dst h1) (decide (c.s.level c.tile = .user)) with
        | .outside => { given := .freeze (h1Dst h1) }
        | .withdrawn => Out.act .completion (.spawn h0 h1 a)
        | .at d =>
          if c.s.grants (c.s.follow (c.s.ctxOf c.tile) d) h0 then Out.act .completion (.spawn h0 h1 a)
          else { given := .wait }
    | _, _, _ => Out.badType

/-- EOS (R299). -/
def execEos (pr : Pr) (oport : BitVec 4) (t0 : Target) (s : State) : Res :=
  s.fire (mkShape pr false false .none [t0] .sends) .mem false false fun c =>
    let o := oport.toNat
    if c.tileRec.isReplica then Out.fault .stageOutput
    else match c.s.outEdge c.tile o with
      | none => Out.fault .send
      | some e =>
        if c.ended e o || c.onEpilogue then Out.fault .send
        else if c.s.creditFree c.rgn e then Out.act .completion (.eos o)
        else { given := .wait }

/-- MBX.MBPOP (R51, R298). -/
def execMbpop (pr : Pr) (t0 : Target) (s : State) : Res :=
  s.fire (mkShape pr false false .none [t0] .plain) .mem false false fun c =>
    if c.onEpilogue then Out.fault .mailbox else Out.act .completion .mbpop

/-- The oldest undispatched packet of an input port, in the mailbox or the spill ring (R298). -/
def Tile.oldest (x : Tile) (port : Nat) : Option Mail :=
  ((x.mbox.mails ++ x.mbox.ring).filter fun m => m.port == port && !m.taken && !m.hole && m.kind != .fault && m.kind != .repair).foldl
    (fun b m => match b with
      | none => some m
      | some y => if m.pos < y.pos then some m else some y) none
/-- MBX.MBPEEK (R298): sampled when it fires. -/
def execMbpeek (pr : Pr) (t0 : Target) (s : State) : Res :=
  s.fire (mkShape pr true false .none [t0] .plain) .mem false false fun c =>
    match c.left with
    | .scalar w => Out.tok (.scalar (match c.tileRec.oldest (field w 0 12) with | some m => m.h0 | none => 0))
    | _ => Out.badType

/-- Whether a spill configuration may be applied (R298). -/
def Fire.spillOk (c : Fire) (w : Word) : Bool :=
  let size := field w 24 15
  let base := field w 7 17
  let b := c.tileRec.mbox
  field w 39 25 == 0 && !bitAt w 6 && decide (base % 16 = 0) && (decide (size = 0) || c.s.inPad c.tile base (16 * size)) &&
    (b.ring.isEmpty || (decide (base = b.spBase) && decide (size = b.spSize)))
/-- MBX.MBHW (R298): the status at block start; the configuration is applied at commit. -/
def execMbhw (pr : Pr) (t0 : Target) (s : State) : Res :=
  s.fire (mkShape pr true false .none [t0] .plain) .mem false false fun c =>
    match c.left with
    | .scalar w => if c.spillOk w then Out.act (.scalar c.fl.snap.spill) (.mbhw w) else Out.fault .mailbox
    | _ => Out.badType
/-- The status word of R298. -/
def Mailbox.status (b : Mailbox) : Word :=
  word (at_ 48 6 b.hwm + at_ 32 16 b.ring.length + at_ 0 32 b.spills)

/-- Whether the thread set runs a slice of a range stage (R300). -/
def Fire.onSlice (c : Fire) : Bool := match c.set.task with | some a => a.slice.isSome | none => false
/-- STEAL.SPLIT (R300): how many slices it gives is settled by the count at block start. -/
def execStealSplit (pr : Pr) (t0 : Target) (s : State) : Res :=
  s.fire (mkShape pr false false .none [t0] .sends) .mem false false fun c =>
    if !c.onSlice then Out.fault .range
    else
      let n := if c.fl.snap.solo then 0 else c.fl.snap.remain.length / 2
      Out.act (.scalar (word n)) (.steal n)
/-- STEAL.RANGE (R300): the vector sampled at block start. -/
def execStealRange (pr : Pr) (t0 : Target) (s : State) : Res :=
  s.fire (mkShape pr false false .none [t0] .plain) .mem false false fun c =>
    match c.onSlice, c.fl.snap.range with
    | true, some v => Out.tok (.vector v 0xE0)
    | _, _ => Out.fault .range
/-- The vector of STEAL.RANGE for a range token and the slices that remain (R300). -/
def stealVec (k : RangeTok) (size : Nat) (rem : List Nat) : Vec :=
  let lo (i : Nat) : Nat := k.lo + (i - k.base) * size
  let first := match rem.head? with | some i => lo i | none => 0
  let last := match rem.getLast? with | some i => min (lo i + size) k.hi | none => 0
  Vec.ofFn fun i => word ([first, last, size, k.lo, rem.length].getD i 0)

/-! ## At commit (R89 steps 4 and 5, R301) -/

/-- A packet of a committed block: it leaves at once, or after the REL updates posted before it and the
packets that wait already (R146). -/
def State.sendNow (s : State) (k : Nat) (o : OutTok) : State :=
  if (s.ts k).outs.isEmpty && s.relClear k then s.emitOut k o
  else s.updTs k fun a => { a with outs := a.outs ++ [o] }

/-- The pool bytes that a packet's payload is read from (R402). -/
def State.chargePayload (s : State) (k : Nat) (h0 : Word) : State := s.charge (tileOf k) (s.ctxOf (tileOf k)) 7 (units8 (bodyLen h0))
/-- A DRAM request of a stepped block: its landed reply passes the halted cluster's boundary (R418). -/
def State.stepSends (s : State) (k oport : Nat) (h0 : Word) (body : List Byte) : State :=
  let t := tileOf k
  let ctl := word (ofBytes ((body.drop 8).take 8))
  if s.stepping k && decide (h0Kind h0 = 3) && bitAt ctl 51 &&
      (match s.outEdge t oport with | some e => ((s.region (s.rgnOf t)).edge e).dst == .dram | none => false) then
    s.updCluster (clusterOf t) fun c => { c with lands := (field ctl 22 17, field ctl 5 17) :: c.lands }
  else s
/-- A SEND leaves (R55, R294). -/
def State.commitSend (s : State) (k oport : Nat) (h0 a : Word) : State :=
  let t := tileOf k
  let x := s.tile t
  let body := s.bytes (poolKey t (field a 0 17)) (bodyLen h0)
  let (h0, s) := (s.chargePayload k h0).clamp t h0
  let s := s.stepSends k oport h0 body
  let seq := match (s.ts k).task with | some q => h0Seq q.h0 | none => 0
  let s := if x.isReplica then s.updTs k fun b => { b with task := b.task.map fun q => { q with sent := oport :: q.sent } } else s
  s.sendNow k { port := 0, dst := 0, h0 := if x.isReplica then setField h0 0 32 seq else h0, body := body, edge := s.outEdge t oport,
                spawn := false, send := true, keep := x.isReplica, slices := [] }
/-- A SPAWN leaves (R296). -/
def State.commitSpawn (s : State) (k : Nat) (h0 h1 a : Word) : State :=
  let t := tileOf k
  let body := s.bytes (poolKey t (field a 0 17)) (bodyLen h0)
  let (h0, s) := (s.chargePayload k h0).clamp t h0
  s.sendNow k { port := h1Port h1, dst := h1Dst h1, h0 := h0, body := body, edge := none, spawn := true, send := true, keep := false, slices := [] }
/-- An EOS leaves (R299, R444). -/
def State.commitEos (s : State) (k oport : Nat) : State :=
  let t := tileOf k
  match s.outEdge t oport with
  | none => s
  | some e =>
    let (prio, stage) := match (s.ts k).task with | some q => (h0Prio q.h0, h0Stage q.h0) | none => (0, 0)
    let s := s.updEdge (s.rgnOf t) e fun d => { d with closed := true }
    let (h0, s) := s.clamp t (mkH0 2 prio (s.portHandler (s.rgnOf t) e) 1 0 false stage 0)
    s.sendNow k { port := 0, dst := 0, h0 := h0, body := zero16, edge := some e,
                  spawn := false, send := true, keep := false, slices := [] }

/-- The upper slices that a split counted at block start go to a waiting requester, or to the ring's next
replica (R300), in a packet that leaves after the block's earlier ones (R301). -/
def State.commitSteal (s : State) (k n : Nat) (remain : List Nat) : State :=
  let x := s.tile (tileOf k)
  let r := s.rgnOf (tileOf k)
  let y := (s.region r).stage x.conf.stage
  let up := remain.drop (remain.length - n)
  let next := ringNext ((s.region r).ring y ((s.region r).fieldAt x.coord)) x.coord 1
  let give (s : State) (dst : Nat) (use : StealUse) : State :=
    let body := y.stealBody up
    (s.takeSlices r x.conf.stage x.coord up).sendNow k
      { port := 0, dst := dst, h0 := stealH0 x.conf.stage use body, body := body, edge := none, spawn := false, send := true, keep := false, slices := up }
  if n = 0 then s
  else match y.asks.find? fun a => a.2 == x.coord with
    | some a => give (s.updStage r x.conf.stage fun y => { y with asks := y.asks.erase a }) a.1 .reply
    | none => if next = x.coord then s else give s next .given

/-- MBPOP at commit (R51, R241): the packet is released; one already released stays so. -/
def State.commitMbpop (s : State) (k : Nat) : State :=
  match (s.ts k).task with
  | some a => (s.releaseMail (tileOf k) a.pos).updTs k fun b => { b with task := b.task.map fun q => { q with held := false } }
  | none => s
/-- MBHW at commit (R298): the last commit wins; a packet that waits may be admitted now. -/
def State.commitMbhw (s : State) (k : Nat) (w : Word) : State :=
  (s.updTile (tileOf k) fun x => { x with mbox := { x.mbox with hwm := field w 0 6, spBase := field w 7 17, spSize := field w 24 15 } }).wakeAll

end Sys2Proof.Machine
end

