-- ==== Sys2Proof/Machine/System.lean ====
section
/-! DEFINITION. SYS instructions (R302 to R308, R372): their privilege and operand checks when they fire, and
what each does at commit. -/

namespace Sys2Proof.Machine

open Sys2Proof

/-! ## Privilege (R302) -/

/-- A SYS minor: at user level it raises the privilege fault. -/
def State.sysOp (s : State) (pr : Pr) (l r : Bool) (third : Third) (t0 : Target) (body : Fire → Out) : Res :=
  s.fire (mkShape pr l r third [t0] .plain) .mem false false fun c =>
    if c.s.level c.tile = .user then Out.fault .privilege else body c

/-- The region whose coordinates a supervisor names. A device thread set has no region of its own; the
coordinates that it names are physical (assumption 17). -/
def Fire.named (c : Fire) (xy : Nat) : Option Nat :=
  match c.s.level c.tile with
  | .device =>
    let t := tileAt (cx xy) (cy xy)
    if tilePresent (cx xy) (cy xy) then some t else none
  | _ => c.region.tileAt? xy

/-- The thread set of an identity word (R302): none when the word raises the privilege fault. -/
def Fire.identity (c : Fire) (w : Word) : Option Nat :=
  if field w 22 42 ≠ 0 then none
  else if c.s.level c.tile = .supervisor ∧ inShed (field w 0 20) then none
  else (c.named (field w 0 20)).map fun t => 4 * t + field w 20 2

/-- Whether a context id names a context that the issuer may act on (R302). -/
def Fire.mayActOn (c : Fire) (ctx : Nat) : Bool :=
  decide (c.s.level c.tile = .device) || decide (ctx = c.s.ctxOf c.tile)

/-! ## CSRR and CSRW (R303) -/

/-- The fault of a register number at a level, or the number (R303, R329). -/
def csrNumber (lvl : Level) (w : Word) (ok : Level → Nat → Bool) : Except Cause Nat :=
  let n := field w 0 12
  if field w 12 52 ≠ 0 ∨ csrInfo n = none then .error .csr
  else if ok lvl n then .ok n else .error .privilege

/-- CSRR (R303): the value when it fires. -/
def execCsrr (pr : Pr) (t0 : Target) (s : State) : Res :=
  s.sysOp pr true false .none t0 fun c =>
    match c.left with
    | .scalar w =>
      match csrNumber (c.s.level c.tile) w csrReadOk with
      | .ok n => Out.tok (.scalar (c.s.csrValue c.tile n))
      | .error f => Out.fault f
    | _ => Out.badType
/-- CSRW at commit (R10, R303). -/
def State.commitCsrw (s : State) (k n : Nat) (v : Word) : State :=
  let t := tileOf k
  if csrWrites (s.level t) n && s.csrValueOk (s.level t) t n v then s.csrWrite t n v else s
/-- The registers as the CSRWs of the block below an instruction leave them: in ascending index (R303). -/
def Fire.csrView (c : Fire) : State :=
  c.fl.effs.foldl (fun s p => match p.2 with | .csrw n v => if p.1 < c.ix then s.commitCsrw c.k n v else s | _ => s) c.s
/-- CSRW (R303): a value out of range raises the CSR fault; the register takes the value at commit. -/
def execCsrw (pr : Pr) (t0 : Target) (s : State) : Res :=
  s.sysOp pr true true .none t0 fun c =>
    match c.left, c.right with
    | .scalar w, .scalar v =>
      match csrNumber (c.s.level c.tile) w csrWriteOk with
      | .ok n =>
        if csrWrites (c.s.level c.tile) n && !c.csrView.csrValueOk (c.s.level c.tile) c.tile n v then Out.fault .csr
        else Out.act .completion (.csrw n v)
      | .error f => Out.fault f
    | _, _ => Out.badType
/-! ## RESUME (R304, R372) -/

/-- Whether a repair word is legal (R372). -/
def repairOk (w : Word) (val : Bool) : Bool :=
  let a := field w 60 4
  decide (a ≤ 5) && !bitAt w 52 && field w 16 16 == 0 && (val == decide (a = 1)) &&
    (if a = 1 then (decide (field w 58 2 = 0) || (decide (field w 58 2 = 2) && decide (field w 53 5 ≤ 3))) else field w 53 7 == 0) &&
    (decide (a = 4) || field w 32 20 == 0)
/-- The common meaning of both forms of RESUME. -/
def Fire.resume (c : Fire) (val : Option Word) : Out :=
  match c.left, c.right with
  | .scalar i, .scalar w =>
    if (c.identity i).isSome && repairOk w val.isSome then Out.act .completion (.resume i w val) else Out.fault .privilege
  | _, _ => Out.badType
/-- RESUME without a value (R304). -/
def execResume (pr : Pr) (t0 : Target) (s : State) : Res :=
  s.sysOp pr true true .none t0 fun c => c.resume none
/-- RESUME with a value (R304). -/
def execResumeVal (pr : Pr) (t0 : Target) (s : State) : Res :=
  s.sysOp pr true true .data t0 fun c => match c.third with | .scalar v => c.resume (some v) | _ => Out.badType
/-- The repair packet leaves after the block's sends, and after the REL updates that keep those back (R146, R304, R372); the
thread set travels in HANDLER. -/
def State.commitResume (s : State) (k : Nat) (i w : Word) (val : Option Word) : State :=
  let r := s.rgnOf (tileOf k)
  s.sendNow k { port := field (csrOf (s.region r).csr 0x100) 0 12, dst := field i 0 20, h0 := mkH0 6 47 (field i 20 2) 1 0 false 0 0,
                body := leBytes 8 w.toNat ++ leBytes 8 (val.getD 0).toNat, edge := none, spawn := false, send := true, keep := false, slices := [] }

/-! ## HALT and WAKE (R305) -/

/-- A stop request, which acts when HALT fires; it resolves when every named thread set has stopped between
blocks (R92, R98, R305). -/
def Fire.halt (c : Fire) (tss : List Nat) : Out :=
  let stopped := tss.all fun k => (c.s.ts k).stops.fault.isSome || (c.s.ts k).eng.pend.isEmpty
  { given := if stopped then .deliver .completion else .wait, side := some (.halt tss) }
/-- HALT of one thread set (R305). -/
def execHalt (pr : Pr) (t0 : Target) (s : State) : Res :=
  s.sysOp pr true false .none t0 fun c =>
    match c.left with
    | .scalar i => match c.identity i with
      | some k => c.halt [k]
      | none => Out.fault .privilege
    | _ => Out.badType
/-- HALT of every thread set of the region outside the Potting shed (R305). -/
def execHaltRegion (pr : Pr) (t0 : Target) (s : State) : Res :=
  s.sysOp pr false false .none t0 fun c => c.halt (c.s.userTss c.rgn)
/-- WAKE (R305). -/
def execWake (pr : Pr) (t0 : Target) (s : State) : Res :=
  s.sysOp pr true false .none t0 fun c =>
    match c.left with
    | .scalar i => match c.identity i with
      | some k => Out.act .completion (.wake k)
      | none => Out.fault .privilege
    | _ => Out.badType
/-- WAKE at commit (R305): a thread set that HALT stopped runs again; on others it has no effect. -/
def State.commitWake (s : State) (k : Nat) : State :=
  s.updTs k fun t => if t.stops.fault.isSome then t else { t with stops := { t.stops with halted := false } }

/-! ## CTXSV and CTXRS (R306) -/

/-- Whether every thread set of a region is stopped (R92, R306, R378). -/
def State.allStopped (s : State) (r : Nat) : Bool :=
  (s.region r).tilesOf.all fun t => (List.range (partTs (s.tile t).conf.part)).all fun i =>
    let k := 4 * t + i
    s.betweenBlocks k && !(s.runnable k)
/-- CTXSV and CTXRS: device level only; the context's thread sets must be stopped. -/
def Fire.context (c : Fire) (save : Bool) : Out :=
  match c.left, c.right, c.third with
  | .scalar x, .scalar a, .scalar w =>
    let ctx := field x 0 12
    let r := c.s.rgnOfCtx ctx
    if c.s.level c.tile ≠ .device ∨ r = 256 ∨ !c.s.allStopped r then Out.fault .privilege
    else withWord c w fun _ => Out.act .completion (.ctx save ctx a w)
  | _, _, _ => Out.badType
/-- CTXSV (R306). -/
def execCtxsv (pr : Pr) (t0 : Target) (s : State) : Res := s.sysOp pr true true .data t0 fun c => c.context true
/-- CTXRS (R306). -/
def execCtxrs (pr : Pr) (t0 : Target) (s : State) : Res := s.sysOp pr true true .data t0 fun c => c.context false
/-- The save engines accept work: they do one piece after the other (R306). -/
def Region.takeSave (g : Region) (w : SaveWork) : Region :=
  if g.saving.isSome then { g with saveNext := g.saveNext ++ [w] } else { g with saving := some w }
/-- The save engines go on to the next work that they have accepted. -/
def Region.nextSave (g : Region) : Region := { g with saving := g.saveNext.head?, saveNext := g.saveNext.tail }
/-- The save engines accept the work at commit (R306, R384). -/
def State.commitCtx (s : State) (k : Nat) (save : Bool) (ctx : Nat) (a w : Word) : State :=
  s.updRegion (s.rgnOfCtx ctx) fun g => g.takeSave
    { save := save, area := a.toNat, lw := some (tileOf k, field w 0 17), dump := false, wdx := false, host := none }

/-! ## XLATI and SLOTW (R307) -/

/-- XLATI (R307): translations are gone, and walks begun before are over, when it resolves. -/
def execXlati (pr : Pr) (t0 : Target) (s : State) : Res :=
  s.sysOp pr true true .none t0 fun c =>
    match c.left, c.right with
    | .scalar a, .scalar x =>
      if c.mayActOn (field x 0 12) then { Out.tok .completion with side := some (.xlati a (field x 0 12)) } else Out.fault .privilege
    | _, _ => Out.badType
/-- SLOTW (R307). -/
def execSlotw (pr : Pr) (t0 : Target) (s : State) : Res :=
  s.sysOp pr true true .none t0 fun c =>
    match c.left, c.right with
    | .scalar xy, .scalar w =>
      match c.named (field xy 0 20) with
      | some t => if field w 48 16 = 0 then Out.act .completion (.slotw (word t) w) else Out.fault .privilege
      | none => Out.fault .privilege
    | _, _ => Out.badType
/-- SLOTW at commit: the new table applies from entry 0 of the next pass (R185, R307), at once where the sequencer passes
entries without an op. -/
def State.commitSlotw (s : State) (t : Nat) (w : Word) : State :=
  s.updTile t fun x => { x with mx := if x.mx.slotAt.isNone then { x.mx with table := w } else { x.mx with newTable := some w } }

/-! ## PWRQ (R308) -/

/-- PWRQ (R308): the context's current grant. -/
def execPwrq (pr : Pr) (t0 : Target) (s : State) : Res :=
  s.sysOp pr false false .none t0 fun c => Out.tok (.scalar (csrOf c.region.csr 0x04A))
/-- PWRQ with `set` (R308, R355): it delivers the word as granted, with CLAMP. -/
def execPwrqSet (pr : Pr) (t0 : Target) (s : State) : Res :=
  s.sysOp pr true false .none t0 fun c =>
    match c.left with
    | .scalar w =>
      if field w 28 36 ≠ 0 ∨ field w 5 3 ≠ 0 then Out.fault .privilege
      else Out.act (.scalar (grantOf w c.region.granted (c.s.fluxAdmits c.rgn))) (.pwrset w)
    | _ => Out.badType
/-- PWRQ at commit. -/
def State.commitPwr (s : State) (k : Nat) (w : Word) : State :=
  let r := s.rgnOf (tileOf k)
  let flux := s.fluxAdmits r
  s.updRegion r fun g => { g with request := w, csr := csrPut g.csr 0x04A (setField (grantOf w g.granted flux) 63 1 0) }

end Sys2Proof.Machine
end

