-- ==== Sys2Proof/Machine/Debug.lean ====
section
/-! DEFINITION. Debug (R309, R411 to R425): BKPT, PMARK and TRC, Trellis halts and single steps, trace
sessions, and the Root tracer. -/

namespace Sys2Proof.Machine

open Sys2Proof

/-! ## BKPT, PMARK and TRC (R309) -/

/-- DBG.BKPT (R309). -/
def execBkpt (pr : Pr) (code : BitVec 8) (t0 : Target) (s : State) : Res :=
  s.fire (mkShape pr false false .none [t0] .plain) .mem false false fun _ => Out.act .completion (.bkpt code.toNat)
/-- DBG.PMARK (R309). -/
def execPmark (pr : Pr) (t0 : Target) (s : State) : Res :=
  s.fire (mkShape pr true false .none [t0] .plain) .mem false false fun c =>
    match c.left with
    | .scalar w => Out.act .completion (.pmark w)
    | _ => Out.badType
/-- DBG.TRC (R309). -/
def execTrc (pr : Pr) (tag : BitVec 8) (t0 : Target) (s : State) : Res :=
  s.fire (mkShape pr true false .none [t0] .plain) .mem false false fun c =>
    match c.left with
    | .scalar w => Out.act .completion (.trc tag.toNat w)
    | _ => Out.badType

/-! ## Trellis halts (R411 to R415) -/

/-- TRLCTL_HALT (R411). -/
def execTrlctlHalt (clu : Nat) (s : State) : Res := whenEnabled "TRLCTL_HALT" (clusterOk clu) (s.trlHalt clu 1)
/-- CROSS_TRIGGER (R411). -/
def execCrossTrigger (clu : Nat) (s : State) : Res :=
  whenEnabled "CROSS_TRIGGER" (clusterOk clu && decide (field (csrOf (s.cluster clu).csr 0x302) 0 8 ≠ 0)) (s.trlHalt clu 2)

/-- Whether TRLSTAT can show a cluster halted (R413): every thread set is between blocks with no pending
register, and every append has been written. -/
def State.canTrlHalted (s : State) (c : Nat) : Bool :=
  (s.cluster c).halting.isSome && (clusterTss c).all (fun k => s.betweenBlocks k) &&
    (clusterTiles c).all fun t => (s.tile t).slots.all fun p => p.2.toWrite.isEmpty
/-- TRELLIS_HALTED (R413): while a cut of the region is open the boundary admits what the cut needs (R415). -/
def State.trlHalted (s : State) (c : Nat) : State :=
  let open_ := (clusterTiles c).any fun t => decide ((s.region (s.rgnOf t)).cut.phase = 1)
  s.updCluster c fun k => { k with
    halted := true, reason := if open_ then 6 else k.halting.getD 0, halting := none, letIn := open_, step := none }
/-- TRELLIS_HALTED. -/
def execTrellisHalted (clu : Nat) (s : State) : Res := whenEnabled "TRELLIS_HALTED" (s.canTrlHalted clu) (s.trlHalted clu)

/-- TRLCTL_RESUME. -/
def execTrlctlResume (clu : Nat) (s : State) : Res := whenEnabled "TRLCTL_RESUME" (clusterOk clu) (s.trlResume clu)

/-! ## Single steps (R418) -/

/-- STEP_GO. -/
def execStepGo (clu : Nat) (val : Word) (s : State) : Res := whenEnabled "STEP_GO" (clusterOk clu && bitAt val 6) (s.stepGo clu val)

/-- Whether every operation that a stepped block started has drained (R418). -/
def State.drained (s : State) (k : Nat) : Bool :=
  let e := (s.ts k).eng
  e.copies.all (fun c => !s.ownCopy k c.id) && e.recs.all (fun r => !s.ownRec k r.num) &&
    e.journal.all (fun j => !(j.openYet && s.ownPost k j.seq)) && e.pend.isEmpty && (s.ts k).outs.isEmpty &&
    (s.tile (tileOf k)).slots.all (fun z => decide (z.2.ts ≠ k) || z.2.toWrite.isEmpty) &&
    s.net.all fun f => f.src ≠ tileOf k || s.heldAt f.src f.dst
/-- Whether STEP_DONE can come about. -/
def State.canStepDone (s : State) (c : Nat) : Bool :=
  match (s.cluster c).step with
  | none => false
  | some k => if (s.cluster c).stepped then s.drained k else (s.ts k).stops.fault.isSome || (s.ts k).stops.frozen.isSome
/-- STEP_DONE (R418): the step is reported, as faulted when its block did not commit or a refusal arrived. -/
def State.stepDone (s : State) (c : Nat) : State :=
  match (s.cluster c).step with
  | none => s
  | some k =>
    let bad := !(s.cluster c).stepped || !(s.ts k).stops.pendingFaults.isEmpty || (s.ts k).stops.fault.isSome
    let s := s.updCluster c fun x => { x with step := none, stepped := false, reason := if bad then 5 else 4 }
    ((s.dropGroups k).updTs k fun a => { a with stops := { a.stops with trellis := true } }).boundary k
/-- STEP_DONE. -/
def execStepDone (clu : Nat) (s : State) : Res := whenEnabled "STEP_DONE" (s.canStepDone clu) (s.stepDone clu)

/-- A stepped thread set halts again after its block (R418). -/
def State.stepCommitted (s : State) (k : Nat) : State :=
  let c := clusterOf (tileOf k)
  if (s.cluster c).step = some k then
    ((s.updCluster c fun x => { x with stepped := true }).dropGroups k).updTs k fun a => { a with stops := { a.stops with trellis := true } }
  else s

/-! ## At commit (R309) -/

/-- BKPT at commit (R309, R411, R417). -/
def State.commitBkpt (s : State) (k code : Nat) : State :=
  let c := clusterOf (tileOf k)
  if bitAt (csrOf (s.cluster c).csr 0x300) 3 then (s.updCluster c fun x => { x with code := code }).trlHalt c 3 else s
/-- PMARK at commit (R309, R421). -/
def State.commitPmark (s : State) (k : Nat) (w : Word) : State :=
  (s.updTile (tileOf k) fun x => { x with csr := csrPut x.csr (0x304 + tsNum k) w }).traceTile (tileOf k) 7 (tsNum k) w.toNat 0 0
/-- TRC at commit (R309, R421). -/
def State.commitTrc (s : State) (k tag : Nat) (w : Word) : State := s.traceTile (tileOf k) 8 (tsNum k) tag w.toNat 0

/-! ## Trace sessions (R419 to R423) -/

/-- TRACE_SESSION_OPEN. -/
def execTraceSessionOpen (rgn : Nat) (val : Word) (s : State) : Res :=
  whenEnabled "TRACE_SESSION_OPEN" (s.hasRegion rgn) (s.traceOpen rgn val)
/-- TRACE_SESSION_END (R423). -/
def execTraceSessionEnd (rgn reason : Nat) (s : State) : Res :=
  whenEnabled "TRACE_SESSION_END" (s.hasRegion rgn && decide (reason ≤ 5)) (s.endTrace rgn reason)

/-! ## The Root tracer (R425) -/

/-- A node of the walk: a tile's actor, or a stage. -/
inductive Node where
  | tile (c : Nat)
  | stage (n : Nat)
  deriving DecidableEq, Repr

/-- The node at a coordinate. -/
def State.nodeAt (s : State) (r c : Nat) : Node :=
  match (s.region r).tileAt? c with
  | some t => if (s.tile t).isReplica then .stage (s.tile t).conf.stage else .tile c
  | none => .tile c
/-- The coordinates that a node's counters come from. -/
def Region.nodeCoords (g : Region) : Node → List Nat
  | .tile c => [c]
  | .stage n => (g.stage n).replicas
/-- Empty and full cycles of an input port of a node, and the cycles of the window (R425). -/
def State.window (s : State) (r : Nat) (n : Node) (port : Nat) : Nat × Nat × Nat :=
  let g := s.region r
  (g.nodeCoords n).foldl (fun a c => match g.tileAt? c with
    | some t =>
      let x := s.tile t
      let q := AMap.get (0, 0, 0) port x.qcnt
      let m := AMap.get (0, 0, 0) port x.qmark
      (a.1 + (q.2.1 - m.2.1), a.2.1 + (q.1 - m.1), a.2.2 + (x.cycle - x.cycMark))
    | none => a) (0, 0, 0)
/-- Input ports of a node with the edges that feed them. -/
def State.inputsOf (s : State) (r : Nat) (n : Node) : List (Nat × Nat) :=
  let g := s.region r
  match n with
  | .tile c => match g.tileAt? c with
    | some t => (s.tile t).conf.ports.filterMap fun p => p.2.edge.map fun e => (p.1, e)
    | none => []
  | .stage k => [((g.edge (g.stage k).inEdge).port, (g.stage k).inEdge)]
/-- Output edges of a node. -/
def State.outputsOf (s : State) (r : Nat) (n : Node) : List Nat :=
  let g := s.region r
  match n with
  | .tile c => match g.tileAt? c with | some t => (s.tile t).conf.outs.map Prod.snd | none => []
  | .stage k => (g.stage k).outs.map Prod.snd
/-- The consumer of an edge and its input port. -/
def Region.consumer (g : Region) (e : Nat) : Option (Node × Nat) :=
  match (g.edge e).dst with
  | .tile c p => some (.tile c, p)
  | .stage n => some (.stage n, (g.edge e).port)
  | .dram => none
/-- The producer of an edge; none for the host and DRAM. -/
def State.producer (s : State) (r e : Nat) : Option Node :=
  let g := s.region r
  match g.stages.find? fun p => p.2.outs.any fun o => o.2 == e with
  | some p => some (.stage p.1)
  | none => (g.coords.find? fun c => match g.tileAt? c with
      | some t => !(s.tile t).isReplica && (s.tile t).conf.outs.any fun o => o.2 == e
      | none => false).map .tile
/-- The first element with the largest fraction x / y. -/
def bestFrac (l : List (Nat × Nat × Nat)) : Option (Nat × Nat × Nat) :=
  l.foldl (fun b p => match b with
    | none => some p
    | some q => if q.2.1 * p.2.2 < p.2.1 * q.2.2 then some p else some q) none

/-- `root_walk` of R425 from a node; the fuel is the steps left of 16. The result is END and the steps. -/
def State.rootWalk (s : State) (r : Nat) (n : Node) (seen : List Node) (step : Nat) : Nat → Nat × Nat × State
  | 0 => (3, step, s)
  | k + 1 =>
    let g := s.region r
    let ins := (s.inputsOf r n).map fun p => let w := s.window r n p.1; (p.1, w.1, w.2.2)
    let outs := (s.outputsOf r n).filterMap fun e => (g.consumer e).map fun c => let w := s.window r c.1 c.2; (e, w.2.1, w.2.2)
    let i := (bestFrac ins).getD (0, 0, 1)
    let o := (bestFrac outs).getD (0, 0, 1)
    let scale (p : Nat × Nat × Nat) : Nat := p.2.1 * 255 / max 1 p.2.2
    let coord := match n with | .tile c => c | .stage m => (g.stage m).lead
    let a := (csrOf g.csr 0x321).toNat + 16 * step
    let s := (s.putNum a 8 (at_ 0 20 coord + at_ 20 12 i.1 + at_ 32 8 (scale i) + at_ 40 8 (scale o) + at_ 48 4 step)).putNum (a + 8) 8 0
    if seen.contains n then (1, step + 1, s)
    else if i.2.2 ≤ 2 * i.2.1 ∧ i.2.1 ≠ 0 then
      match (s.inputsOf r n).find? fun p => p.1 == i.1 with
      | some p => match s.producer r p.2 with
        | some m => s.rootWalk r m (n :: seen) (step + 1) k
        | none => (2, step + 1, s)
      | none => (2, step + 1, s)
    else if o.2.2 ≤ 2 * o.2.1 ∧ o.2.1 ≠ 0 then
      match g.consumer o.1 with
      | some c => s.rootWalk r c.1 (n :: seen) (step + 1) k
      | none => (0, step + 1, s)
    else (0, step + 1, s)

/-- The walk from the named input port ends: RTSTAT shows its END, and BUSY falls (R425). -/
def State.rootEnd (s : State) (r : Nat) (v : Word) : State :=
  let (e, n, s) := s.rootWalk r (s.nodeAt r (field v 0 20)) [] 0 16
  s.updRegion r fun g => { g with walkAt := none, csr := csrPut g.csr 0x322 (word (at_ 1 5 n + at_ 6 2 e)) }
/-- ROOT_TRACER_GO (R425): the walk that a GO started runs to its end; a GO of another value while BUSY is 1 changes
nothing. -/
def State.rootGo (s : State) (r : Nat) (v : Word) : State :=
  match (s.region r).walkAt with
  | some w => if w = v then s.rootEnd r v else s
  | none => s.rootEnd r v
/-- ROOT_TRACER_GO. -/
def execRootTracerGo (rgn : Nat) (val : Word) (s : State) : Res :=
  whenEnabled "ROOT_TRACER_GO" (s.hasRegion rgn) (s.rootGo rgn val)

end Sys2Proof.Machine
end

