-- ==== Sys2Proof/Machine/Matrix.lean ====
section
/-! DEFINITION. The matrix engine (R123 to R130, R178 to R191, R289 to R293, R447): the checks and records of
MLDB, MQ, MDRAIN and MCTL, the exact accumulator, and the events of the sequencer. -/

namespace Sys2Proof.Machine

open Sys2Proof

/-! ## Operand formats (R123 to R125) -/

/-- The group size of a grouped B format; 0 when it is not grouped (R123). -/
def groupOf (b : Nat) : Nat :=
  if b / 4 = 4 ∨ b / 4 = 5 ∨ b / 4 = 6 then (if b % 4 = 3 then 0 else 32 * 2 ^ (b % 4)) else 0
/-- Whether a code is a B format (R123). -/
def isB (b : Nat) : Bool := (decide (8 ≤ b) && decide (b ≤ 13)) || decide (groupOf b ≠ 0)
/-- Whether a code is an A format (R123). -/
def isA (a : Nat) : Bool := decide (a ≤ 4)
/-- UINT4 grouped. -/
def isU4 (b : Nat) : Bool := decide (b / 4 = 5) && decide (groupOf b ≠ 0)
/-- INT3 grouped. -/
def isI3 (b : Nat) : Bool := decide (b / 4 = 6) && decide (groupOf b ≠ 0)
/-- Bytes of a column of 96 elements (R291). -/
def columnBytes (b : Nat) : Nat :=
  if b = 8 ∨ b = 9 ∨ b = 12 then 96 else if b = 10 ∨ b = 11 then 192 else if isI3 b then 36 else 48
/-- Elements per op of an A format (R125). -/
def elems (a : Nat) : Nat := if a = 2 ∨ a = 3 then 48 else 96
/-- Whether a pairing is in the integer class (R125). -/
def intClass (a b : Nat) : Bool := decide (a = 4) && (decide (b = 12) || decide (b = 13))
/-- Whether a pairing is legal (R125). -/
def pairOk (a b : Nat) : Bool := decide (a ≠ 4) || decide (12 ≤ b)

/-- The exact value of a storage format's element (R116, R119). -/
def mvalOf (v : FVal) : MVal :=
  match v with
  | .zero _ => .fin 0 0
  | .fin n m e => .fin (signed n m) e
  | .inf n => .inf n
  | .nan _ => .nan false
/-- The floating format of a matrix operand code, by its low bits (R123). -/
def floatCode (c : Nat) : Nat := match c % 4 with | 0 => 5 | 1 => 6 | 2 => 4 | _ => 3
/-- The value of a floating element. -/
def floatElem (c x : Nat) : MVal :=
  match fmtOf (floatCode c) with
  | some (.float f) => mvalOf (f.val x)
  | _ => .fin 0 0
/-- A BF16 value (R119). -/
def bf16 (x : Nat) : MVal := floatElem 2 x

/-- q × s with the product rules of R125. -/
def scaled (q : Int) (s : MVal) : MVal :=
  match s with
  | .nan _ => .nan false
  | .inf n => if q = 0 then .nan true else .inf (n != decide (q < 0))
  | .fin g e => .fin (q * g) e

/-- Element k of a narrow or integer column, as an integer (R124). -/
def narrowElem (b x k : Nat) : Int :=
  if b = 12 then sintN 8 (x / 2 ^ (8 * k))
  else if isI3 b then sintN 3 (x / 2 ^ (96 * (k / 32) + 3 * (k % 32)))
  else if isU4 b then (x / 2 ^ (4 * k) % 16 : Nat) else sintN 4 (x / 2 ^ (4 * k))

/-! ## The accumulator (R127, R128) -/

/-- `trunc_int` of v × 2^sh, towards zero. -/
def truncShift (v sh : Int) : Int := if 0 ≤ sh then v * 2 ^ sh.toNat else v.tdiv (2 ^ (-sh).toNat)
/-- `exp_floor` of a nonzero value. -/
def expFloor (g e : Int) : Int := e + (bitLen g.natAbs : Int) - 1
/-- Whether a value is a zero. -/
def MVal.isZero : MVal → Bool
  | .fin g _ => decide (g = 0)
  | _ => false
/-- Whether a value is negative. -/
def MVal.isNeg : MVal → Bool
  | .fin g _ => decide (g < 0)
  | .inf n => n
  | .nan _ => false

/-- `acc_inf` of R127. -/
def AccElem.addInf (x : AccElem) (neg : Bool) : AccElem :=
  let s : Int := if neg then -1 else 1
  if x.e = 2047 ∧ x.m ≠ s then { x with inv := true, nan := true }
  else { x with e := 2047, m := s, cs := none, ovf := true }
/-- `acc_merge` of R127. -/
def AccElem.merge (x : AccElem) (mop eop : Int) (ic : Bool) : AccElem :=
  let en := max x.e eop
  let m := truncShift x.m (x.e - en) + truncShift mop (eop - en)
  let x := { x with cs := none }
  if 2 ^ 55 ≤ m.natAbs then
    if ic ∧ en = 54 then { x with m := if m < 0 then -(2 ^ 55 - 1) else 2 ^ 55 - 1, e := en, sat := true }
    else { x with m := truncShift m (-1), e := en + 1 }
  else { x with m := m, e := en }
/-- The special operands of one product (R127). -/
def AccElem.special (x : AccElem) (p : MVal × MVal) : AccElem :=
  match p.1, p.2 with
  | .nan i, .nan j => { x with nan := true, inv := x.inv || i || j }
  | .nan i, _ => { x with nan := true, inv := x.inv || i }
  | _, .nan j => { x with nan := true, inv := x.inv || j }
  | .fin _ _, .fin _ _ => x
  | a, b => if a.isZero || b.isZero then { x with inv := true, nan := true } else x.addInf (a.isNeg != b.isNeg)
/-- The nonzero finite products: significand, exponent and the sum of the operands' `exp_floor`. -/
def products (ps : List (MVal × MVal)) : List (Int × Int × Int) :=
  ps.filterMap fun p => match p with
    | (.fin g e, .fin h f) => if g = 0 ∨ h = 0 then none else some (g * h, e + f, expFloor g e + expFloor h f)
    | _ => none
/-- `acc_op` of R127. -/
def AccElem.op (x : AccElem) (ps : List (MVal × MVal)) (ic : Bool) : AccElem :=
  let x := ps.foldl AccElem.special x
  if x.nan ∨ x.e = 2047 then x
  else
    let qs := products ps
    let eop : Int := if ic then 54 else qs.foldl (fun m q => max m (q.2.2 + 8)) (-2048)
    if eop = -2048 then x
    else x.merge (qs.foldl (fun a q => a + truncShift q.1 (q.2.1 - (eop - 54))) 0) eop ic

/-- `drain_value` of R128: the WF64 value and the element after it. A nonzero magnitude under a column scale of zero gives
+0 (the spec names no sign: assumption 84). -/
def AccElem.drain (x : AccElem) (c : MVal) : Word × AccElem :=
  match c with
  | .nan _ => (qNaN, { x with nan := true })
  | .inf n =>
    if x.nan then (qNaN, x)
    else if x.m = 0 then (0, x)
    else (wInf (n != decide (x.m < 0)), x)
  | .fin g e =>
    if x.nan then (qNaN, x)
    else if x.e = 2047 then
      if g = 0 then (qNaN, { x with inv := true, nan := true }) else (wInf (decide (x.m < 0) != decide (g < 0)), x)
    else if x.m = 0 ∨ g = 0 then (0, x)
    else
      let r := roundWf (decide (x.m * g < 0)) (x.m * g).natAbs (x.e - 54 + e) false
      (r.1, { x with ovf := x.ovf || decide (r.2 &&& fOF ≠ 0) })

/-! ## The records that instructions append (R178 to R183, R289 to R293) -/

/-- Whether matrix instructions are barred: on the epilogue thread set, or outside the user tiles (R183). R183 names the tiles of a
Potting shed; that a field manager core takes the fault too is a DESIGN CHOICE (assumption 126). -/
def Fire.noMatrix (c : Fire) : Bool :=
  decide (epiTs c.tileRec.conf.part = some (tsNum c.k)) || decide (c.s.level c.tile ≠ .user)

/-- The records that lower-indexed instructions of the block append (R289). -/
def Fire.earlier (c : Fire) : List MRec :=
  c.fl.effs.filterMap fun p => match p.2 with | .mrec r => if p.1 < c.ix then some r else none | _ => none

/-- The accumulator tile that a record names. -/
def RecBody.acc? : RecBody → Option Nat
  | .op _ _ _ a _ _ => some a
  | .weight _ _ _ _ _ _ _ _ => none
  | .drain _ _ _ _ _ _ _ _ _ _ _ a => some a
  | .zero a => some a

/-- Records of a tile's queue (R179). -/
def State.queued (s : State) (t : Nat) : Nat := (List.range 4).foldl (fun n i => n + (s.ts (4 * t + i)).eng.recs.length) 0

/-- Whether the issuing thread set owns an accumulator tile (R182). -/
def Fire.owns (c : Fire) (acc : Nat) : Bool :=
  decide (acc < field c.tileRec.conf.part 8 5) &&
    (decide (AMap.find acc c.tileRec.mx.owner = some (tsNum c.k)) || c.earlier.any fun r => r.body == .zero acc)

/-- ox0 at block start (R178). -/
def Fire.ox0 (c : Fire) : Word := c.oxAt 0

/-- The dependence checks of R183. -/
def Fire.depFault (c : Fire) (depv : Word) : Option Out :=
  let x := c.ox0
  let lw := field x 15 17
  match field x 13 2 with
  | 0 => none
  | 1 => if c.s.landingOk c.tile lw ∧ c.s.landingTarget c.tile lw ≠ 0 then none else some (Out.faultAt .landing 0 (word lw))
  | 2 => if depv.toNat ≤ c.fl.snap.sealed then none else some (Out.fault .timeline)
  | _ => some (Out.fault .matrixRecord)

/-- How many records of lower-indexed instructions go before one that is appended (R289). An instruction of the chain that
has not yet come to its end, because it waits for what this one gives, counts as one that will fire non-null; when it turns
out to be nulled the block starts again with that known (assumption 104). -/
def Fire.ahead (c : Fire) : Nat := c.earlier.length + (c.unfired 0).length
/-- Appends a record that passed its own checks (R179, R183, R289): it waits for a free record. DESIGN CHOICE (assumption 125): a
dependence fault comes after those checks. -/
def Fire.append (c : Fire) (depv : Word) (body : RecBody) : Out :=
  match c.depFault depv with
  | some o => o
  | none =>
    let n := c.ahead
    if queueDepth c.tileRec.conf.part ≤ c.s.queued c.tile + n then { given := .wait }
    else
      let own := match body with | .drain _ _ _ _ drm dsat true _ _ _ _ _ => some (drm, dsat) | _ => none
      let m := convMode (c.oxAt 1) c.fl.snap.flags own
      let num := c.fl.snap.issued + 1 + n
      Out.act (.scalar (word num)) (.mrec
        { num := num, depk := field c.ox0 13 2, deplw := field c.ox0 15 17, depv := depv.toNat, body := body,
          csat := m.2, crm := m.1, row := 0, epi := none, epiOn := false, flt := false, tally := [0, 0, 0, 0] })

/-- The bytes [off + i × stride, …) of every column lie in the scratchpad range (R183). -/
def Fire.columnsIn (c : Fire) (off stride n : Nat) : Bool :=
  (List.range 8).all fun j => c.s.inPad c.tile (off + j * stride) n

/-- A lane of MLDB's right operand; a scalar is lane 0. -/
def laneOr (t : Token) (i : Nat) : Word := match t with | .scalar w => if i = 0 then w else 0 | _ => if t.laneNull i then 0 else t.lane i

/-- Groups that a column of 96 elements reaches (R186). -/
def groupsOf (b kph : Nat) : Nat := if groupOf b = 0 then 0 else (kph + 95) / groupOf b + 1

/-- Whether ox0 names an AFMT that is no A format or a BFMT that is no B format: MQ, MLDB and MDRAIN take both (R178,
R183). -/
def Fire.badFormats (c : Fire) : Bool := !isA (field c.ox0 0 5) || !isB (field c.ox0 8 5)

/-- MLDB (R183, R291, R447): a null lane that the format reads nulls it, every column, scale and zero point lies in the
scratchpad range and is aligned to its element. DESIGN CHOICE (assumption 125): of several faults it takes the first of context,
format, record and dependence. -/
def execMldb (pr : Pr) (kph : BitVec 7) (t0 : Target) (s : State) : Res :=
  s.fire (mkShape pr true true .none [t0] .plain) .mem false false fun c =>
    let b := field c.ox0 8 5
    let g := groupOf b
    let kp := kph.toNat
    if (g ≠ 0 ∧ c.right.laneNull 0) ∨ (isU4 b ∧ c.right.laneNull 1) then Out.null
    else if c.noMatrix then Out.fault .matrixContext
    else match c.left with
      | .scalar ew =>
        let sw := laneOr c.right 0
        let zw := laneOr c.right 1
        if !c.right.isData then Out.badType
        else if c.badFormats then Out.fault .matrixFormat
        else if (isU4 b ∧ c.right.isScalar) ∨ field ew 34 30 ≠ 0 ∨ (g ≠ 0 ∧ (field sw 34 30 ≠ 0 ∨ g ≤ kp)) ∨ (g = 0 ∧ kp ≠ 0) ∨
            (isU4 b ∧ field zw 34 30 ≠ 0) ∨ field ew 0 4 ≠ 0 ∨ (g ≠ 0 ∧ (field sw 0 1 ≠ 0 ∨ field sw 17 1 ≠ 0)) ∨
            (columnBytes b = 192 ∧ field ew 17 1 ≠ 0) then Out.fault .matrixRecord
        else if c.columnsIn (field ew 0 17) (field ew 17 17) (columnBytes b) ∧
            (g = 0 ∨ c.columnsIn (field sw 0 17) (field sw 17 17) (2 * groupsOf b kp)) ∧
            (!isU4 b ∨ c.columnsIn (field zw 0 17) (field zw 17 17) ((groupsOf b kp + 1) / 2)) then
          c.append 0 (.weight kp b (field zw 17 17) (field zw 0 17) (field sw 17 17) (field sw 0 17) (field ew 17 17) (field ew 0 17))
        else Out.fault .matrixRecord
      | _ => Out.badType

/-- DEPV of an instruction: its third slot when D is 1 (R289). -/
def Fire.depv? (c : Fire) (dep : Bool) : Option Word :=
  if dep then (match c.third with | .scalar w => some w | _ => none) else some 0

/-- The format of the most recently appended weight record: that of an MLDB of the block, which takes BFMT from ox0 as MQ does,
else that of an earlier block (R178, R290). -/
def Fire.weightFmt (c : Fire) : Option Nat :=
  if (c.unfired 0).any fun i => i matches .mldb _ _ _ then some (field c.ox0 8 5)
  else c.earlier.foldl (fun f r => match r.body with | .weight _ b _ _ _ _ _ _ => some b | _ => f) c.set.eng.bfmt

/-- MQ (R182, R183, R290). DESIGN CHOICE (assumption 125): of several faults it takes the first of context, format, ownership,
record and dependence. -/
def execMq (pr : Pr) (dep : Bool) (acc : BitVec 4) (t0 : Target) (s : State) : Res :=
  s.fire (mkShape pr true true (if dep then .data else .none) [t0] .plain) .mem false false fun c =>
    let a := field c.ox0 0 5
    let b := field c.ox0 8 5
    if c.noMatrix then Out.fault .matrixContext
    else match c.left, c.right, c.depv? dep with
      | .scalar aw, .vector v nulls, some depv =>
        let base := field aw 0 17
        let stride := field aw 17 17
        let idx := laneList.map fun i => if maskBit nulls i then none else some (field (v.get i) 0 8)
        if c.badFormats ∨ !pairOk a b ∨ c.weightFmt ≠ some b then Out.fault .matrixFormat
        else if !c.owns acc.toNat then Out.fault .matrixOwnership
        else if field aw 34 30 ≠ 0 ∨ stride % 16 ≠ 0 ∨ base % 16 ≠ 0 ∨
            !(idx.all fun i => match i with | some x => c.s.inPad c.tile (base + x * stride) 96 | none => true) then Out.fault .matrixRecord
        else c.append depv (.op idx b a acc.toNat stride base)
      | _, _, _ => Out.badType

/-- Byte address of row i of a drain. -/
def rowAddr (d : Word) (stride : Int) (i : Nat) : Word := d + wordOfInt ((i : Int) * stride)

/-- MDRAIN (R183, R292). DESIGN CHOICE (assumption 125): R183 gives its faults no order; the model takes context, format, ownership or
stage output, record, then dependence. -/
def execMdrain (pr : Pr) (dep : Bool) (acc : BitVec 4) (t0 : Target) (s : State) : Res :=
  s.fire (mkShape pr true true (if dep then .data else .none) [t0] .plain) .mem false false fun c =>
    if c.noMatrix then Out.fault .matrixContext
    else match c.left, c.right, c.depv? dep with
      | .scalar d, .scalar w, some depv =>
        let stride := sintN 20 (field w 0 20)
        let csb := field w 20 17
        let cse := bitAt w 37
        let dsend := bitAt w 47
        if c.badFormats then Out.fault .matrixFormat
        else match fmtOf (field w 38 5) with
        | none => if c.owns acc.toNat then Out.fault .matrixRecord else Out.fault .matrixOwnership
        | some f =>
          let n := f.bytes
          if !c.owns acc.toNat then Out.fault .matrixOwnership
          else if dsend ∧ c.tileRec.isReplica then Out.fault .stageOutput
          else if field w 55 9 ≠ 0 ∨ (bitAt w 48 ∧ (epiTs c.tileRec.conf.part).isNone) ∨
              (cse ∧ (csb % 2 ≠ 0 ∨ !c.s.inPad c.tile csb 16)) ∨
              (dsend ∧ field d 36 2 ≠ 0) ∨
              stride % (n : Int) ≠ 0 ∨ (!dsend ∧ (!addrFormOk d ∨ 4 ≤ space d ∨ d.toNat % n ≠ 0)) ∨
              (!dsend ∧ space d = 0 ∧ !((List.range 8).all fun i =>
                let a := rowAddr d stride i
                space a == 0 && addrFormOk a && c.s.inPad c.tile (field a 0 17) (8 * n))) then Out.fault .matrixRecord
          else c.append depv (.drain d stride cse csb (field w 43 2) (bitAt w 45) (bitAt w 46) (bitAt w 48) (field w 49 6) dsend
            (field w 38 5) acc.toNat)
      | _, _, _ => Out.badType

/-- MCTL.MZERO (R182, R293). -/
def execMzero (pr : Pr) (acc : BitVec 4) (t0 : Target) (s : State) : Res :=
  s.fire (mkShape pr false false .none [t0] .plain) .mem false false fun c =>
    let others := (List.range 4).any fun i => decide (i ≠ tsNum c.k) &&
      (c.s.ts (4 * c.tile + i)).eng.recs.any fun r => r.body.acc? == some acc.toNat
    if c.noMatrix then Out.fault .matrixContext
    else if field c.tileRec.conf.part 8 5 ≤ acc.toNat ∨ others then Out.fault .matrixOwnership
    else c.append 0 (.zero acc.toNat)

/-- MCTL.MFENCE (R293). -/
def execMfence (pr : Pr) (t0 : Target) (s : State) : Res :=
  s.fire (mkShape pr false false .none [t0] .plain) .mem false false fun c =>
    if c.noMatrix then Out.fault .matrixContext
    else if c.fl.snap.issued ≤ c.set.eng.me then Out.act .completion .acquire else { given := .wait }
/-- MCTL.MSTAT (R189, R293): the drain status at block start. -/
def execMstat (pr : Pr) (t0 : Target) (s : State) : Res :=
  s.fire (mkShape pr false false .none [t0] .plain) .mem false false fun c =>
    if c.noMatrix then Out.fault .matrixContext else Out.tok (.scalar c.fl.snap.drain)

/-! ## The sequencer (R184 to R187, R190) -/

/-- Changes the head record of a thread set. -/
def State.updHead (s : State) (k : Nat) (f : MRec → MRec) : State :=
  s.updTs k fun a => match a.eng.recs with
    | r :: rs => { a with eng := { a.eng with recs := f r :: rs } }
    | [] => a
/-- Retires the head record (R154, R179): TLC.ME counts it. -/
def State.retire (s : State) (k : Nat) : State :=
  ((s.ticket (s.rgnOf (tileOf k)) (tileOf k) (tsNum k) 5).updTs k fun a => { a with eng := { a.eng with recs := a.eng.recs.tail, me := a.eng.me + 1 } }).wakeAll

/-- The matrix-data stop of a record (R187, R188). -/
def State.matrixData (s : State) (k : Nat) (r : MRec) (sub : Nat) (a : Word) (m : Bool) : State :=
  s.asyncFault k ⟨.matrixData, 255, sub, a, word (r.num % 2 ^ 32), markWord sub m⟩

/-- An accumulator tile's 64 elements. -/
def Tile.acc (x : Tile) (n : Nat) : List AccElem := AMap.get (List.replicate 64 AccElem.zero) n x.mx.accs
/-- Stores an accumulator tile. -/
def State.setAcc (s : State) (t n : Nat) (es : List AccElem) : State :=
  s.updTile t fun x => { x with mx := { x.mx with accs := AMap.put (List.replicate 64 AccElem.zero) n es x.mx.accs } }

/-- Row i of A: 96 bytes as values (R125). -/
def State.aRow (s : State) (t off a : Nat) : List MVal :=
  let x := s.num (poolKey t off) 96
  (List.range (elems a)).map fun k =>
    if a = 4 then .fin (sintN 8 (x / 2 ^ (8 * k))) 0
    else if elems a = 48 then floatElem a (x / 2 ^ (16 * k) % 2 ^ 16) else floatElem a (x / 2 ^ (8 * k) % 2 ^ 8)

/-- Which thread set's op an entry of the slot table runs, and whether by round-robin (R185). -/
def State.slotChoice (s : State) (t entry : Nat) : Option (Nat × Bool) :=
  let x := s.tile t
  let e := field x.mx.table (3 * entry) 3
  if 4 ≤ e ∧ s.opReady (4 * t + e % 4) then some (e % 4, false)
  else ((List.range 4).map fun d => (x.mx.rr + 1 + d) % 4).find? (fun i => s.opReady (4 * t + i)) |>.map fun i => (i, true)

/-- The entry of the slot table that the sequencer comes to; one that has passed entries without a ready op may stand at
any (R185). -/
def State.entryAt (s : State) (t : Nat) : Nat × State :=
  match (s.tile t).mx.slotAt with
  | some e => (e, s)
  | none => let (w, s) := s.free; (field w 0 4, s)
/-- The slot table moves past an entry; a new table applies from entry 0 (R185, R307). -/
def MatrixUnit.advance (m : MatrixUnit) (entry : Nat) : MatrixUnit :=
  if 15 ≤ entry then { m with slotAt := some 0, table := m.newTable.getD m.table, newTable := none } else { m with slotAt := some (entry + 1) }

/-- Runs an op record (R127, R186, R187): a poisoned row applies nothing but NAN in every element; the zeros of a null
lane's row leave its elements as they are, but for a NaN or an infinity that the latch holds (R127, R183). DESIGN CHOICE (assumption 127):
R184 lets a record of DEPK 0 read each aligned 8 bytes at any moment between its append and its retirement; the model reads them all at
retirement. -/
def State.runOp (s : State) (k : Nat) (r : MRec) : State :=
  let t := tileOf k
  match r.body with
  | .op idx b a acc stride base =>
    let es := (s.tile t).acc acc
    let bad := idx.findSome? fun i => match i with
      | some x => if s.poisoned (poolKey t (base + x * stride)) 96 then some (base + x * stride) else none
      | none => none
    let s := s.charge t (s.ctxOf t) (if elems a = 48 then 10 else 9) 1
    match bad with
    | some off => ((s.setAcc t acc (es.map fun e => { e with nan := true })).matrixData k r 3 (word off) (s.marginAt (poolKey t off) 96)).retire k
    | none =>
      let latch := (s.ts k).eng.latch
      let es := (idx.zipIdx.map fun p => match p.1 with
        | none => ((es.drop (8 * p.2)).take 8).zipIdx.map fun q =>
          ((List.replicate (elems a) (MVal.fin 0 0)).zip (latch.drop (96 * q.2))).foldl AccElem.special q.1
        | some x =>
          let row := s.aRow t (base + x * stride) a
          ((es.drop (8 * p.2)).take 8).zipIdx.map fun q => q.1.op (row.zip (latch.drop (96 * q.2))) (intClass a b)).flatten
      (s.setAcc t acc es).retire k
  | _ => s
/-- Whether MATRIX_OP can come about on a tile: an op is ready, and the slot of the last one is over. -/
def State.canOp (s : State) (t : Nat) : Bool := s.anyOp t && decide (s.opDue t ≤ (s.tile t).cycle)
/-- MATRIX_OP (R127, R185, R186). -/
def State.matrixOp (s : State) (t : Nat) : State :=
  let (e, s) := s.entryAt t
  match s.slotChoice t e with
  | none => s
  | some (i, byTurn) =>
    match s.headReady (4 * t + i) with
    | none => s
    | some r =>
      let s := s.updTile t fun x => { x with mx := { x.mx.advance e with rr := if byTurn then i else x.mx.rr, lastOp := x.cycle + 12 } }
      s.runOp (4 * t + i) r
/-- MATRIX_OP. -/
def execMatrixOp (tile : Nat) (s : State) : Res := whenEnabled "MATRIX_OP" (s.canOp tile) (s.matrixOp tile)

/-- Column j of a weight record as values (R125, R186). -/
def State.bColumn (s : State) (t b kph : Nat) (bcol scol zcol : Nat) : List MVal :=
  let x := s.num (poolKey t bcol) (columnBytes b)
  let g := groupOf b
  let sc := s.num (poolKey t scol) (2 * groupsOf b kph)
  let zc := s.num (poolKey t zcol) (if isU4 b then (groupsOf b kph + 1) / 2 else 0)
  (List.range 96).map fun k =>
    if b = 8 ∨ b = 9 then floatElem b (x / 2 ^ (8 * k) % 2 ^ 8)
    else if b = 10 ∨ b = 11 then floatElem b (x / 2 ^ (16 * k) % 2 ^ 16)
    else if g = 0 then .fin (narrowElem b x k) 0
    else
      let r := (kph + k) / g
      scaled (narrowElem b x k - ((zc / 2 ^ (4 * r) % 16 : Nat) : Int)) (bf16 (sc / 2 ^ (16 * r) % 2 ^ 16))

/-- Whether a weight load of a thread set can run. -/
def State.canWeight (s : State) (k : Nat) : Bool :=
  match s.headReady k with | some r => (match r.body with | .weight _ _ _ _ _ _ _ _ => true | _ => false) | none => false
/-- WEIGHT_LOAD (R186, R187): poisoned bytes fill the latch with NaN and stop the thread set. DESIGN CHOICE (assumption 127): of the
moments that R184 allows for its reads it takes its retirement. -/
def State.weightLoad (s : State) (k : Nat) : State :=
  match s.headReady k with
  | none => s
  | some r =>
    match r.body with
    | .weight kph b zst zb sst sb bcs bb =>
      let t := tileOf k
      let runs := (List.range 8).flatMap fun j =>
        [(bb + j * bcs, columnBytes b), (sb + j * sst, 2 * groupsOf b kph), (zb + j * zst, if isU4 b then (groupsOf b kph + 1) / 2 else 0)]
      let s := s.charge t (s.ctxOf t) 11 1
      match runs.find? fun p => decide (p.2 ≠ 0) && s.poisoned (poolKey t p.1) p.2 with
      | some p =>
        ((s.updTs k fun a => { a with eng := { a.eng with latch := List.replicate 768 (.nan false) } }).matrixData k r 3 (word p.1) (s.marginAt (poolKey t p.1) p.2)).retire k
      | none =>
        let l := (List.range 8).flatMap fun j => s.bColumn t b kph (bb + j * bcs) (sb + j * sst) (zb + j * zst)
        (s.updTs k fun a => { a with eng := { a.eng with latch := l } }).retire k
    | _ => s
/-- WEIGHT_LOAD. -/
def execWeightLoad (ts : Nat) (s : State) : Res := whenEnabled "WEIGHT_LOAD" (s.canWeight ts) (s.weightLoad ts)

/-- The accumulator tile that a ready zero record clears. -/
def State.zeroHead (s : State) (k : Nat) : Option Nat :=
  match s.headReady k with | some r => (match r.body with | .zero a => some a | _ => none) | none => none
/-- ZERO_RECORD (R126). -/
def State.zeroRecord (s : State) (k : Nat) : State :=
  match s.zeroHead k with
  | some a => (s.setAcc (tileOf k) a (List.replicate 64 AccElem.zero)).retire k
  | none => s
/-- ZERO_RECORD. -/
def execZeroRecord (ts : Nat) (s : State) : Res := whenEnabled "ZERO_RECORD" (s.zeroHead ts).isSome (s.zeroRecord ts)

/-! ## Drains and epilogues (R128, R129, R188, R189) -/

/-- Resolves the next row of a drain: its eight WF64 values, and the elements with their flags (R128). DESIGN CHOICE (assumption 128):
R187 speaks of ops and weight loads alone; column scales on a poisoned line are read as their bytes. -/
def State.drainVals (s : State) (t : Nat) (r : MRec) : Vec × State :=
  match r.body with
  | .drain _ _ cse csb _ _ _ _ _ _ _ acc =>
    let es := (s.tile t).acc acc
    let row := (es.drop (8 * r.row)).take 8
    let out := row.zipIdx.map fun p => p.1.drain (if cse then bf16 (s.num (poolKey t (csb + 2 * p.2)) 2) else .fin 1 0)
    (Vec.ofFn fun i => (out.getD i (0, AccElem.zero)).1,
      s.setAcc t acc (es.take (8 * r.row) ++ out.map Prod.snd ++ es.drop (8 * r.row + 8)))
  | _ => (Vec.zero, s)

/-- The dispatch that a drain of a tile waits for: its thread set and record. -/
def State.epilogueHead (s : State) (t : Nat) : Option (Nat × MRec) :=
  (List.range 4).findSome? fun i => match s.headReady (4 * t + i) with
    | some r => match r.body with
      | .drain _ _ _ _ _ _ _ true _ _ _ _ => if r.epi.isNone ∧ !r.epiOn then some (4 * t + i, r) else none
      | _ => none
    | none => none
/-- The epilogue thread set of a tile when it is free. -/
def State.freeEpilogue (s : State) (t : Nat) : Option Nat :=
  (epiTs (s.tile t).conf.part).bind fun i =>
    let k := 4 * t + i
    let a := s.ts k
    if a.task.isNone && !a.ending && s.runnable k && (s.tile t).live && (s.flight k).isNone then some k else none
/-- Whether EPILOGUE_DISPATCH can come about on a tile. -/
def State.canEpilogue (s : State) (t : Nat) : Bool := (s.epilogueHead t).isSome && (s.freeEpilogue t).isSome
/-- EPILOGUE_DISPATCH (R50, R54, R76, R188). -/
def State.epilogueDispatch (s : State) (t : Nat) : State :=
  match s.epilogueHead t, s.freeEpilogue t with
  | some (k, r), some e =>
    let (v, s) := s.drainVals t r
    let epih := match r.body with | .drain _ _ _ _ _ _ _ _ h _ _ _ => h | _ => 0
    let x := s.tile t
    let s := s.updHead k fun r => { r with epi := some v, epiOn := true }
    s.updTs e fun a => { a with
      regs := { startRegs a.regs 0 0 0 0 x.conf.ox (AMap.get 0 epih x.conf.epilogues) with
                s := AMap.put 0 1 (word r.row) (AMap.put 0 2 (word (r.num % 2 ^ 32)) []), v := AMap.put Vec.zero 0 v [] },
      kindOk := 2,
      task := some { h0 := 0, h1 := 0, port := 0, pos := 0, addr := 0, size := 0, succ := [], held := false, sent := [], slice := none,
                     fwd := false, edge := none, kind := .plain, epi := some (k, r.row, r.num) } }
  | _, _ => s
/-- EPILOGUE_DISPATCH. -/
def execEpilogueDispatch (tile : Nat) (s : State) : Res :=
  whenEnabled "EPILOGUE_DISPATCH" (s.canEpilogue tile) (s.epilogueDispatch tile)

/-- DONE in an epilogue releases the row in v0 and ends the task (R188, R240). -/
def State.epilogueDone (s : State) (e owner : Nat) : State :=
  let v := AMap.get Vec.zero 0 (s.ts e).regs.v
  (s.updHead owner fun r => { r with epi := some v, epiOn := false }).endEpilogue e

/-- Writes one row of a drain (R188): whole or not at all. The refusal cause and its mark, if any. -/
def State.writeRow (s : State) (t : Nat) (a : Word) (bs : List Byte) : Option (Nat × Bool) × State :=
  let n := bs.length
  if !addrFormOk a then (some (6, false), s)
  else match s.destOf t a with
    | .pool d off =>
      if d = t then
        if !s.inPad t off n then (some (6, false), s)
        else if s.poisoned (poolKey t off) n then (some (3, s.marginAt (poolKey t off) n), s)
        else (none, s.putAll (poolKey t off) bs)
      else match s.writeAt t (.pool d off) (bs.map some) with
        | (.bytes _, s) => (none, s)
        | (.refused c m, s) => (some (c, m), s)
    | d =>
      let cut := 65536 - field a 0 16
      let far := s.destOf t (a + word cut)
      if cut < n then
        match s.writeAt t far [none] with
        | (.refused c m, s) => (some (c, m), s)
        | (.bytes _, _) => match s.writeAt t d ((bs.take cut).map some) with
          | (.refused c m, s) => (some (c, m), s)
          | (.bytes _, s) => (none, (s.writeAt t far ((bs.drop cut).map some)).2)
      else match s.writeAt t d (bs.map some) with
        | (.bytes _, s) => (none, s)
        | (.refused c m, s) => (some (c, m), s)

/-- Adds one element's flags to a drain's tally: NAN, SAT, OVF, INV. -/
def tallyRow (t : List Nat) (es : List AccElem) : List Nat :=
  [t.getD 0 0 + es.countP AccElem.nan, t.getD 1 0 + es.countP AccElem.sat, t.getD 2 0 + es.countP AccElem.ovf,
   t.getD 3 0 + es.countP AccElem.inv]
/-- The drain status of R189. -/
def drainWord (num : Nat) (flt : Bool) (t : List Nat) : Word :=
  word (at_ 32 32 num + at_ 31 1 flt.toNat + at_ 21 7 (t.getD 0 0) + at_ 14 7 (t.getD 1 0) + at_ 7 7 (t.getD 2 0) + at_ 0 7 (t.getD 3 0))

/-- The end of a row's last use (R129, R189): MEXC, the status tally, the flags cleared, the next row; the
drain retires after row 7. -/
def State.rowDone (s : State) (k acc : Nat) (flt : Bool) : State :=
  let t := tileOf k
  match (s.ts k).eng.recs with
  | [] => s
  | r :: _ =>
    let es := (s.tile t).acc acc
    let row := (es.drop (8 * r.row)).take 8
    let s := s.setAcc t acc (es.take (8 * r.row) ++ row.map (fun e => { e with inv := false, ovf := false, sat := false }) ++ es.drop (8 * r.row + 8))
    let tally := tallyRow r.tally row
    let s := s.updTs k fun a => { a with regs := { a.regs with
      mexc := addMexc a.regs.mexc (row.countP AccElem.inv) (row.countP AccElem.ovf) (row.countP AccElem.sat) } }
    let s := s.updHead k fun r => { r with row := r.row + 1, epi := none, flt := r.flt || flt, tally := tally }
    let s := s.charge t (s.ctxOf t) 12 1
    if r.row = 7 then
      (s.updTs k fun a => { a with eng := { a.eng with drain := drainWord r.num (r.flt || flt) tally } }).retire k
    else s.wakeAll

/-- Whether the boundary of a halted cluster holds a row of a drain, or the part of it that lies in the next 64 KiB (R412). -/
def State.rowHeld (s : State) (t : Nat) (a : Word) (n : Nat) : Bool :=
  let far := addrFormOk a && decide (65536 - field a 0 16 < n)
  addrFormOk a && (s.heldTo t (s.destOf t a) || (far && s.heldTo t (s.destOf t (a + word (65536 - field a 0 16)))))
/-- A drain whose next row can leave: no epilogue of it is outstanding, a sent row has its credit or grant, and no boundary holds
a row that is written (R188, R292, R412). -/
def State.drainHead (s : State) (k : Nat) : Option MRec :=
  match s.headReady k with
  | some r => match r.body with
    | .drain d stride _ _ _ _ _ epe _ dsend dfmt _ =>
      let ready := !epe || (r.epi.isSome && !r.epiOn)
      let outside := match (s.region (s.rgnOf (tileOf k))).translate (handleDst d) true with | .at _ => false | _ => true
      let open_ := dsend || !s.rowHeld (tileOf k) (rowAddr d stride r.row) (8 * ((fmtOf dfmt).getD .wf).bytes)
      if ready && open_ && (!dsend || outside || s.roomFor k (s.handleTok k d 24 5 0 0 [])) then some r else none
    | _ => none
  | none => none
/-- The converted row, with SAT set in the elements whose conversion saturates (R121, R128). -/
def State.convertRow (s : State) (t : Nat) (r : MRec) (acc dfmt : Nat) (v : Vec) : List Byte × State :=
  let f := (fmtOf dfmt).getD .wf
  let out := laneList.map fun i => convertOut f false r.crm r.csat (v.get i)
  let es := (s.tile t).acc acc
  let row := ((es.drop (8 * r.row)).take 8).zipIdx.map fun p =>
    { p.1 with sat := p.1.sat || decide ((out.getD p.2 (0, 0)).2 &&& fSAT ≠ 0) }
  (out.flatMap fun p => leBytes f.bytes p.1, s.setAcc t acc (es.take (8 * r.row) ++ row ++ es.drop (8 * r.row + 8)))

/-- DRAIN_ROW (R188, R189, R292). -/
def State.drainRow (s : State) (k : Nat) : State :=
  let t := tileOf k
  match s.drainHead k with
  | none => s
  | some r =>
    match r.body with
    | .drain d stride _ _ _ _ _ epe _ dsend dfmt acc =>
      let (v, s) := match epe, r.epi with | true, some v => (v, s) | _, _ => s.drainVals t r
      let (bs, s) := s.convertRow t r acc dfmt v
      if dsend then
        let body := leBytes 8 r.row ++ bs ++ leBytes (64 - bs.length) 0 ++ leBytes 8 0
        (s.emitOut k (s.handleTok k d 24 5 0 0 body)).rowDone k acc false
      else
        let a := rowAddr d stride r.row
        match outsideCoord s t a with
        | some c => (s.freezeTs k c).rowDone k acc false
        | none =>
          match s.writeRow t a bs with
          | (none, s) => s.rowDone k acc false
          | (some c, s) => (s.matrixData k r c.1 a c.2).rowDone k acc true
    | _ => s
/-- DRAIN_ROW. -/
def execDrainRow (ts : Nat) (s : State) : Res := whenEnabled "DRAIN_ROW" (s.drainHead ts).isSome (s.drainRow ts)

end Sys2Proof.Machine
end

