-- ==== Sys2Proof/Machine/Plumbing.lean ====
section
/-! DEFINITION. Registers in and out, token plumbing, operand extension and status (R86, R99 to R107, R217 to
R229). -/

namespace Sys2Proof.Machine

open Sys2Proof

/-! ## READ and WRITE (R220, R221) -/

/-- Whether an AMO has left a register pending (R92). -/
def ThreadSet.pending (t : ThreadSet) (r : Reg) : Bool := (AMap.find (regKey r) t.eng.pend).isSome

/-- The register file's value of a register as a token (R99, R220). -/
def Regs.token (x : Regs) (r : Reg) : Token :=
  match r with
  | .s n => .scalar (if n = 0 then 0 else AMap.get 0 n.toNat x.s)
  | .v n => .vector (AMap.get Vec.zero n.toNat x.v) 0
  | .ox n => .scalar (AMap.get 0 n.toNat x.ox)

/-- The stream slot that a register names: v24 to v31 name slots 0 to 7 (R102). -/
def regSlot : Reg → Option Nat
  | .v n => if 24 ≤ n.toNat then some (n.toNat - 24) else none
  | _ => none

/-- The bound slot that a register names for a thread set (R102). -/
def Fire.stream (c : Fire) (r : Reg) : Option (Nat × Slot) :=
  (regSlot r).bind fun k => (c.s.slotOf c.k k).map fun z => (k, z)

/-- READ (R220): the block-start value; a pending register is waited for (R86). -/
def execRead (r : Reg) (t0 : Target) (s : State) : Res :=
  s.fire (mkShape .always false false .none [t0] (.read r)) .plumb false false fun c =>
    match c.stream r with
    | some (k, z) => readStream k z (AMap.get 0 c.ix c.fl.pops % 64)
    | none => if c.set.pending r then c.waitsFor (fun e => AMap.find (regKey r) c.set.eng.pend == some e.num) { given := .wait } else Out.tok (c.set.regs.token r)

/-- Whether a token has the type that a WRITE of a register takes (R221). -/
def regTakes (r : Reg) (t : Token) : Bool :=
  match r with
  | .v _ => t.isVector
  | _ => t.isScalar

/-- WRITE (R221): the token is kept for the commit. DESIGN CHOICE (assumption 121): where a token of the wrong type meets a register
bound to an input stream, R102 gives no order; the operand-type fault comes first. -/
def execWrite (r : Reg) (s : State) : Res :=
  s.fire (mkShape .always true false .none [] (.write r)) .plumb false false fun c =>
    if !regTakes r c.left then Out.badType
    else match c.stream r with
      | some (_, z) => if z.desc.out then Out.act .completion (.wr r c.left) else Out.fault .streamDirection
      | none => Out.act .completion (.wr r c.left)

/-! ## MOV, MOVI, MOVHI, NULL, SEL, JOIN (R222 to R224) -/

/-- What MOV and NULL pass on: any type (R217), with the lanes that the predicate leaves. -/
def passOn (v : Option Bool) (c : Fire) (t : Token) : Out :=
  if agrees v c.mask c.left then Out.tok (t.disable c.en) else Out.badType

/-- MOV (R222). -/
def execMov (pr : Pr) (v : Bool) (t0 t1 : Target) (s : State) : Res :=
  s.fire (mkShape pr true false .none [t0, t1] .plain) .plumb true false fun c => passOn (some v) c c.left
/-- MOVI (R222). -/
def execMovi (pr : Pr) (imm : BitVec 12) (t0 : Target) (s : State) : Res :=
  s.fire (mkShape pr false false .none [t0] .plain) .plumb false false fun _ => Out.tok (.scalar (sext12 imm))
/-- MOVHI (R222). -/
def execMovhi (pr : Pr) (imm : BitVec 12) (t0 : Target) (s : State) : Res :=
  s.lane1 .plumb .free pr [t0] (plain1 fun a => (a <<< 12) ||| zext12 imm)
/-- NULL (R222). -/
def execNull (pr : Pr) (v : Bool) (t0 t1 : Target) (s : State) : Res :=
  s.fire (mkShape pr true false .none [t0, t1] .plain) .plumb true false fun c => passOn (some v) c .null

/-- The lane-wise choice of SEL (R223). -/
def selLanes (a b : Token) (pick : Nat → Option Bool) : Token :=
  (lanes fun i => match pick i with
    | none => none
    | some p => let t := if p then a else b
      if t.laneNull i then none else some (t.lane i, 0)).1

/-- SEL (R223). -/
def select (v : Bool) (c : Fire) : Out :=
  let a := c.left
  let b := c.right
  if !(a.isValue && b.isValue) then Out.badType
  else match c.third with
    | .scalar w =>
      let t := if w ≠ 0 then a else b
      if agrees (some v) c.mask t then Out.tok (t.disable c.en) else Out.badType
    | .mask m =>
      if v && a.isData && b.isData && (!c.mask || a.isVector || b.isVector) then
        Out.tok ((selLanes a b fun i => some (maskBit m i)).disable c.en)
      else Out.badType
    | .vector x n =>
      if v && a.isData && b.isData then
        Out.tok ((selLanes a b fun i => if maskBit n i then none else some (decide (x.get i ≠ 0))).disable c.en)
      else Out.badType
    | _ => Out.badType

/-- SEL (R223). -/
def execSel (pr : Pr) (v : Bool) (t0 t1 : Target) (s : State) : Res :=
  s.fire (mkShape pr true true .data [t0, t1] .plain) .plumb true false (select v)

/-- Fills the null lanes of a vector from another token (R224). -/
def fillLanes (a b : Token) : Token :=
  (lanes fun i => if !a.laneNull i then some (a.lane i, 0) else if !b.laneNull i then some (b.lane i, 0) else none).1

/-- What JOIN delivers, or a type fault (R224). -/
def joined (a b : Token) : Option Token :=
  match a, b with
  | .null, t => some t
  | t, .null => some t
  | .completion, t => some t
  | t, .completion => some t
  | .vector _ _, .mask _ => none
  | .mask _, .vector _ _ => none
  | .vector _ _, _ => some (fillLanes a b)
  | .scalar _, .vector _ _ => some (fillLanes b a)
  | t, _ => some t

/-- JOIN (R224). -/
def joinOut (v : Option Bool) (c : Fire) : Out :=
  match joined c.left c.right with
  | none => Out.badType
  | some .null => Out.null
  | some t => if agrees v c.mask t then Out.tok (t.disable c.en) else Out.badType

/-- JOIN (R224). -/
def execJoin (pr : Pr) (v : Bool) (t0 t1 : Target) (s : State) : Res :=
  s.fire (mkShape pr true true .none [t0, t1] .plain) .plumb true true (joinOut (some v))

/-! ## Compact MOV, NULL, JOIN and NOP (R201, R202) -/

/-- Compact NOP (R201): nothing; no firing is counted (R402). -/
def execCompactNop (s : State) : Res :=
  match s.flight s.focus with
  | none => .refused .noBlock
  | some f =>
    match f.cursor with
    | none => .refused .noBlock
    | some ix => .next (s.setFlight s.focus { f with stat := AMap.ins ix .fired f.stat })
/-- Compact MOV (R201, R202). -/
def execCompactMov (t0 : Target) (s : State) : Res :=
  s.fire (mkShape .always true false .none [t0] .plain) .plumb true false fun c => passOn none c c.left
/-- Compact NULL (R201, R202). -/
def execCompactNull (t0 : Target) (s : State) : Res :=
  s.fire (mkShape .always true false .none [t0] .plain) .plumb true false fun c => passOn none c .null
/-- Compact JOIN (R201, R202). -/
def execCompactJoin (t0 : Target) (s : State) : Res :=
  s.fire (mkShape .always true true .none [t0] .plain) .plumb true true (joinOut none)

/-! ## SETX and GETX (R225, R226) -/

/-- SETX (R225): ox at block start. -/
def execSetx (pr : Pr) (n : BitVec 4) (pos : BitVec 6) (t0 : Target) (s : State) : Res :=
  s.fire (mkShape pr true true .none [t0] .plain) .plumb false false fun c =>
    match c.left, c.right with
    | .scalar v, .scalar m =>
      Out.tok (.scalar ((c.oxAt n.toNat &&& ~~~m) ||| ((v <<< pos.toNat) &&& m)))
    | _, _ => Out.badType
/-- GETX (R226). -/
def execGetx (pr : Pr) (n : BitVec 4) (pos : BitVec 6) (t0 : Target) (s : State) : Res :=
  s.fire (mkShape pr false false .none [t0] .plain) .plumb false false fun c =>
    if c.set.pending (.ox (n.setWidth 2)) then
      c.waitsFor (fun e => AMap.find (regKey (.ox (n.setWidth 2))) c.set.eng.pend == some e.num) { given := .wait }
    else Out.tok (.scalar (AMap.get 0 n.toNat c.set.regs.ox >>> pos.toNat))
/-- GETX of BLR (R226). -/
def execGetxBlr (pr : Pr) (t0 : Target) (s : State) : Res :=
  s.fire (mkShape pr false false .none [t0] .plain) .plumb false false fun c => Out.tok (.scalar c.set.regs.blr)

/-! ## STAT and STATW (R106, R107, R227, R228) -/

/-- A STAT minor. -/
def State.stat (s : State) (pr : Pr) (t0 : Target) (f : Fire → Word) : Res :=
  s.fire (mkShape pr false false .none [t0] .plain) .plumb false false fun c => Out.tok (.scalar (f c))
/-- H0 of the current packet; zero in an epilogue, which has none (R106). -/
def Fire.h0 (c : Fire) : Word :=
  match c.set.task with | some a => if a.epi.isSome then 0 else a.h0 | none => 0

/-- STAT.COORD (R106). -/
def execStatCoord (pr : Pr) (t0 : Target) (s : State) : Res := s.stat pr t0 fun c => word c.tileRec.coord
/-- STAT.TSID (R106). -/
def execStatTsid (pr : Pr) (t0 : Target) (s : State) : Res := s.stat pr t0 fun c => word (tsNum c.k)
/-- STAT.STAGE (R106). -/
def execStatStage (pr : Pr) (t0 : Target) (s : State) : Res := s.stat pr t0 fun c => word (h0Stage c.h0)
/-- STAT.SEQ (R106). -/
def execStatSeq (pr : Pr) (t0 : Target) (s : State) : Res := s.stat pr t0 fun c => word (h0Seq c.h0)
/-- STAT.CYCLE (R106): sampled when it fires (R107). -/
def execStatCycle (pr : Pr) (t0 : Target) (s : State) : Res := s.stat pr t0 fun c => word c.tileRec.cycle
/-- STAT.TLCCE (R105, R106). -/
def execStatTlcce (pr : Pr) (t0 : Target) (s : State) : Res := s.stat pr t0 fun c => word c.fl.snap.ce
/-- STAT.TLCME (R105, R106). -/
def execStatTlcme (pr : Pr) (t0 : Target) (s : State) : Res := s.stat pr t0 fun c => word c.fl.snap.me
/-- STAT.FLAGS (R103, R106). -/
def execStatFlags (pr : Pr) (t0 : Target) (s : State) : Res := s.stat pr t0 fun c => c.fl.snap.flags
/-- STAT.MEXC (R104, R106). -/
def execStatMexc (pr : Pr) (t0 : Target) (s : State) : Res := s.stat pr t0 fun c => c.fl.snap.mexc
/-- STAT.ENERGY (R106, R401): METER and SAT without EFRAC. -/
def execStatEnergy (pr : Pr) (t0 : Target) (s : State) : Res :=
  s.stat pr t0 fun c => c.fl.snap.energy &&& 0x8000FFFFFFFFFFFF

/-- STATW (R228). -/
def execStatw (pr : Pr) (cf cm sd : Bool) (drm : BitVec 2) (dsat : Bool) (s : State) : Res :=
  s.fire (mkShape pr false false .none [] .plain) .plumb false false fun _ =>
    Out.act .completion (.statw cf cm sd drm.toNat dsat)

/-! ## Compact arithmetic (R201, R202) -/

/-- Compact ADD. -/
def execCompactAdd (t0 : Target) (s : State) : Res := s.lane2 .int .scalars .always [t0] (plain2 fun a b => a + b)
/-- Compact SUB. -/
def execCompactSub (t0 : Target) (s : State) : Res := s.lane2 .int .scalars .always [t0] (plain2 fun a b => a - b)
/-- Compact AND. -/
def execCompactAnd (t0 : Target) (s : State) : Res := s.lane2 .int .scalars .always [t0] (plain2 fun a b => a &&& b)
/-- Compact OR. -/
def execCompactOr (t0 : Target) (s : State) : Res := s.lane2 .int .scalars .always [t0] (plain2 fun a b => a ||| b)
/-- Compact XOR. -/
def execCompactXor (t0 : Target) (s : State) : Res := s.lane2 .int .scalars .always [t0] (plain2 fun a b => a ^^^ b)
/-- Compact SHL: only bits [5:0] of the amount count (R231). -/
def execCompactShl (t0 : Target) (s : State) : Res :=
  s.lane2 .int .scalars .always [t0] (plain2 fun a b => a <<< (b.toNat % 64))
/-- Compact SHR. -/
def execCompactShr (t0 : Target) (s : State) : Res :=
  s.lane2 .int .scalars .always [t0] (plain2 fun a b => a >>> (b.toNat % 64))
/-- NOT. -/
def execNot (t0 : Target) (s : State) : Res := s.lane1 .int .scalars .always [t0] (plain1 fun a => ~~~a)
/-- NEG. -/
def execNeg (t0 : Target) (s : State) : Res := s.lane1 .int .scalars .always [t0] (plain1 fun a => 0 - a)
/-- Compact FADD (R246). -/
def execCompactFadd (t0 : Target) (s : State) : Res := s.lane2 .float .scalars .always [t0] fadd
/-- Compact FMUL (R246). -/
def execCompactFmul (t0 : Target) (s : State) : Res := s.lane2 .float .scalars .always [t0] fmul

end Sys2Proof.Machine
end

