-- ==== Sys2Proof/Machine/Block.lean ====
section
/-! DEFINITION. The block as a whole (R73 to R98): fetching and decoding it, the order in which its
instructions fire, what it samples at its start, and its settlement: fault, freeze or commit. -/

namespace Sys2Proof.Machine

open Sys2Proof

/-! ## Decoding a block (R73 to R80, R206) -/

/-- The first half-slot that holds no instruction, from slot k on (R205, R206 step 2): its index. -/
def bodyDefect : Nat → List (BitVec 32) → Option Nat
  | _, [] => none
  | k, w :: ws =>
    if w.toNat < 2 ^ 31 then
      match decode32 w.toNat with
      | .ok _ => bodyDefect (k + 1) ws
      | .error _ => some (2 * k)
    else
      match decode16 (w.toNat % 65536), decode16 (w.toNat / 65536) with
      | .error _, _ => some (2 * k)
      | .ok _, .error _ => some (2 * k + 1)
      | .ok _, .ok j => if k = 127 ∧ j ≠ .compactNop then some 255 else bodyDefect (k + 1) ws

/-- The instructions of a body as their block sees them. -/
def bodyShapes (is : List (Nat × Instr)) : List (Nat × Shape) :=
  is.filterMap fun p => p.2.shape.map fun sh => (p.1, sh)

/-- Whether a target field of an instruction obeys R80, and R78 for an AMO. -/
def targetOk (shs : List (Nat × Shape)) (used : List Nat) (ix : Nat) (sh : Shape) (d : Nat) : Bool :=
  match AMap.find (d / 4) shs with
  | none => false
  | some c => decide (ix < d / 4) && c.hasSlot (d % 4) && !used.contains d &&
      (decide (sh.role ≠ .amo) || (decide (d % 4 = 0) && (match c.role with | .write _ => true | _ => false)))
/-- The first instruction with a target field that breaks R80. -/
def targetDefect (shs : List (Nat × Shape)) : List Nat → List (Nat × Shape) → Option Nat
  | _, [] => none
  | used, (ix, sh) :: rest =>
    let r := sh.goals.foldl (fun a d => (a.1 && targetOk shs a.2 ix sh d, d :: a.2)) (true, used)
    if r.1 then targetDefect shs r.2 rest else some ix
/-- The lowest LSID that a chain of targets reaches from each instruction, found from the last
instruction back; 99 where it reaches none. -/
def lowReach (shs : List (Nat × Shape)) : AMap Nat × Option Nat :=
  shs.foldr (fun p a =>
    let m := p.2.goals.foldl (fun m d => min m (AMap.get 99 (d / 4) a.1)) 99
    match p.2.lsid with
    | some l => (AMap.ins p.1 (min m l) a.1, if m < l then some p.1 else a.2)
    | none => (AMap.ins p.1 m a.1, a.2)) ([], none)

/-- Whether a list has no repeats. -/
def distinct {α : Type} [DecidableEq α] (l : List α) : Bool := decide (l.eraseDups.length = l.length)
/-- The counts and limits of R75 and R78 against the header. -/
def countsOk (h : Word) (shs : List (Nat × Shape)) : Bool :=
  let roles := shs.map fun p => p.2.role
  let ws := roles.filterMap Role.writes
  let ls := shs.filterMap fun p => p.2.lsid
  let mask := shs.foldl (fun m p => match p.2.lsid with | some l => if p.2.role.stores then m + 2 ^ l else m | none => m) 0
  distinct ws && distinct ls && decide (ws.length = field h 48 5) && decide (ws.length ≤ 16) &&
    decide (roles.countP (· == .sends) = field h 45 3) && decide (roles.countP (· == .sends) ≤ 4) &&
    decide (mask = field h 0 32) && decide (roles.countP (fun r => r matches .read _) ≤ 32) &&
    roles.any (· == .exit) && decide (shs.length ≤ 254)

/-- The first defect of a block, in the order of R206: its index, and whether it is an illegal instruction
(R205). The KIND that R76 asks for is checked with the header. DESIGN CHOICE (assumption 129): a lower compact half with bit 15 = 0,
which R206 calls malformed and R205's list leaves out, counts as an illegal instruction. -/
def blockDefect (kind : Nat) (h : Word) (body : List (BitVec 32)) : Option (Nat × Bool) :=
  if field h 60 4 ≠ kind ∨ 2 < field h 60 4 ∨ field h 32 13 ≠ 0 then some (255, false)
  else match bodyDefect 0 body with
    | some ix => some (ix, true)
    | none =>
      let shs := bodyShapes (bodyInstrs 0 body)
      match targetDefect shs [] shs with
      | some ix => some (ix, false)
      | none => match (lowReach shs).2 with
        | some ix => some (ix, false)
        | none => if countsOk h shs then none else some (255, false)

/-! ## The order of firing (R81, R93) -/

/-- The producer of each target of a block. -/
def producers (shs : List (Nat × Shape)) : AMap Nat :=
  shs.foldl (fun m p => p.2.goals.foldl (fun m d => AMap.ins d p.1 m) m) []
/-- The instructions that only go first: those with a lower LSID (R93), 256 added, and the lower-indexed of its
chain, 512 added. -/
def goesAfter (is : List (Nat × Instr)) (shs : List (Nat × Shape)) (ix : Nat) (i : Instr) (sh : Shape) : List Nat :=
  (match sh.lsid with
    | some l => (shs.filter fun p => match p.2.lsid with | some m => decide (m < l) | none => false).map fun p => 256 + p.1
    | none => []) ++
  (match chainOf i with
    | some c => (is.filter fun p => decide (p.1 < ix) && chainOf p.2 == some c).map fun p => 512 + p.1
    | none => [])

/-- Whether an index is among some others or goes before one of them. The fuel is the number of instructions. -/
def goesBefore (todo : List (Nat × List Nat)) (ix : Nat) : Nat → List Nat → Bool
  | 0, l => l.contains ix
  | n + 1, l => l.contains ix ||
    goesBefore todo ix n (((todo.filter fun (q : Nat × List Nat) => l.contains q.1).flatMap fun (q : Nat × List Nat) => q.2.map fun d => d % 256) ++ l).eraseDups
/-- Puts instructions into an order in which those that go first come first, the lowest index first. Tokens and the
order of LSIDs never stand against each other (R78). Where the order of a chain stands against them, it gives way for an
instruction that its own predecessor waits for. The fuel is the number of instructions. -/
def arrange : Nat → List (Nat × List Nat) → List (Nat × List Nat) → List (Nat × List Nat)
  | 0, todo, done => done.reverse ++ todo
  | n + 1, todo, done =>
    let free (l : List Nat) : Bool := l.all fun d => todo.all fun q => q.1 ≠ d % 256
    match todo.find? fun p => free p.2 with
    | some p => arrange n (todo.filter fun q => q.1 ≠ p.1) (p :: done)
    | none =>
      match todo.find? fun p => free (p.2.filter (· < 512)) &&
          goesBefore todo p.1 todo.length ((p.2.filter (512 ≤ ·)).map (· % 256)) with
      | some p => arrange n (todo.filter fun q => q.1 ≠ p.1) ((p.1, p.2.filter (· < 512)) :: done)
      | none => done.reverse ++ todo

/-- The place of each READ of a bound input stream among the block's READs of that register: 64 times the slot,
plus the place (R86). -/
def popPlaces (slot : Reg → Option Nat) (shs : List (Nat × Shape)) : AMap Nat :=
  (shs.foldl (fun (a : AMap Nat × List Nat) p =>
    match p.2.role with
    | .read r => match slot r with
      | some k => (AMap.ins p.1 (64 * k + a.2.count k) a.1, k :: a.2)
      | none => a
    | _ => a) ([], [])).1

/-! ## Starting a block (R77, R97, R107) -/

/-- Samples what the spec says is taken at block start. -/
def State.snapshot (s : State) (k : Nat) : Snapshot :=
  let t := tileOf k
  let x := s.tile t
  let a := s.ts k
  let g := s.region (s.rgnOf t)
  let y := g.stage x.conf.stage
  let rem := s.remaining t
  { ox := a.regs.ox, ce := a.eng.ce, me := a.eng.me, flags := a.regs.flags, mexc := a.regs.mexc,
    energy := (AMap.get ⟨0, false⟩ (s.ctxOf t) x.meters).word, sealed := a.eng.sealed, issued := a.eng.issued,
    drain := a.eng.drain, spill := x.mbox.status, sstat := laneList.map (s.slotStatus k), remain := rem,
    solo := decide ((g.ring y (g.fieldAt x.coord)).length ≤ 1), range := y.tok.map fun q => stealVec q y.slice rem,
    binds := a.eng.binds }

/-- A block in flight, nothing of which has fired (R81). -/
def mkFlight (base h : Word) (body : List (BitVec 32)) (slot : Reg → Option Nat) (snap : Snapshot) : Flight :=
  let is := bodyInstrs 0 body
  let shs := bodyShapes is
  let prods := producers shs
  let named := (shs.filter fun p => decide (p.2.third = .order) && (AMap.find (4 * p.1 + 3) prods).isSome).map Prod.fst
  let slots (p : Nat × Shape) : List (Option Nat) := (p.2.required (named.contains p.1)).map fun n => AMap.find (4 * p.1 + n) prods
  let deps := shs.map fun p => (p.1, ((slots p).filterMap id).eraseDups ++
    (match AMap.find p.1 is with | some i => goesAfter is shs p.1 i p.2 | none => []))
  { base := base, header := h, body := body, order := arrange deps.length deps [], named := named,
    stat := (shs.filter fun p => (slots p).any Option.isNone).map fun p => (p.1, .dead),
    toks := [], effs := [], faults := [], freeze := none, raised := 0, loads := [], seen := [], reqs := [], counts := [],
    pops := popPlaces slot shs, snap := snap,
    split := is.any fun p => p.2 matches .stealSplit _ _, late := [],
    nulls := ((shs.filter fun p => (slots p).any Option.isNone).map Prod.fst) }

/-- The input stream that a register names for a thread set (R102). -/
def State.inputSlot (s : State) (k : Nat) (r : Reg) : Option Nat :=
  (regSlot r).bind fun n => (s.slotOf k n).bind fun z => if z.desc.out then none else some n

/-- Reads code that may run over a 64 KiB page. -/
def State.fetchAcross (s : State) (t : Nat) (a : Word) (n : Nat) : Got × State :=
  let cut := 65536 - field a 0 16
  if cut < n then
    match s.fetchCode t a cut with
    | (.bytes x, s) => match s.fetchCode t (a + word cut) (n - cut) with
      | (.bytes y, s) => (.bytes (x ++ y), s)
      | r => r
    | r => r
  else s.fetchCode t a n

/-- The slots of a body from its bytes (R192). -/
def slotsOf : Nat → List Byte → List (BitVec 32)
  | 0, _ => []
  | n + 1, bs => slotOfBytes (bs.take 4) :: slotsOf n (bs.drop 4)

/-- Where a thread set stands in the order of R429: issuer y, x, TS. -/
def State.rank (s : State) (k : Nat) : Nat :=
  let c := (s.tile (tileOf k)).coord
  (cy c * 1024 + cx c) * 4 + tsNum k
/-- Whether a block of a thread set can do nothing more in this round: it waits for what a round's close brings. -/
def State.parked (s : State) (k : Nat) : Bool :=
  match s.flight k with
  | none => false
  | some f => f.cursor.isNone && !f.settled
/-- Whether a thread set has had its part in the round: committed, nothing to run, or waiting. -/
def State.doneRound (s : State) (k : Nat) : Bool :=
  (s.ts k).roundDone || (s.ts k).task.isNone || !s.runnable k || s.parked k
/-- In deterministic mode the thread sets of a region take their turns in the order of R429, each commits at most
one block in a round. -/
def State.myTurn (s : State) (k : Nat) : Bool :=
  let r := s.rgnOf (tileOf k)
  decide (s.mode r ≠ 3) || (!(s.ts k).roundDone &&
    s.tss.all fun p => s.rgnOf (tileOf p.1) ≠ r || decide (s.rank k ≤ s.rank p.1) || s.doneRound p.1)

/-- Whether a thread set starts a block: it runs a task, and no block of it is in flight (R97). -/
def State.canStart (s : State) (k : Nat) : Bool :=
  let a := s.ts k
  a.task.isSome && (s.flight k).isNone && s.runnable k && !(s.tile (tileOf k)).stopping && s.myTurn k

/-- The block-fetch fault (R77): the faulting address is BPC. -/
def State.fetchFault (s : State) (k cause : Nat) (m : Bool) : State :=
  s.takeFault k ⟨.blockFetch, 255, cause, (s.ts k).regs.bpc, 0, markWord cause m⟩

/-- BLOCK_START (R77, R78, R91): the block at BPC is fetched and decoded whole. -/
def State.blockStart (s : State) (k : Nat) : State :=
  let t := tileOf k
  let a := (s.ts k).regs.bpc
  if space a ≠ 3 ∨ field a 57 3 ≠ 0 ∨ field a 0 4 ≠ 0 then s.fetchFault k 0 false
  else match s.fetchAcross t a 8 with
    | (.refused c m, s) => s.fetchFault k c m
    | (.bytes bs, s) =>
      let h := word (ofBytes bs)
      match s.fetchAcross t (a + 8) (4 * (nslotOf h + 1)) with
      | (.refused c m, s) => s.fetchFault k c m
      | (.bytes cs, s) =>
        let body := slotsOf (nslotOf h + 1) cs
        match blockDefect (s.ts k).kindOk h body with
        | some (ix, ill) => s.takeFault k ⟨.malformed, ix, 0, 0, 0, if ill then 4 else 0⟩
        | none => s.setFlight k (mkFlight a h body (s.inputSlot k) (s.snapshot k)).sweep
/-- BLOCK_START. -/
def execBlockStart (ts : Nat) (s : State) : Res := whenEnabled "BLOCK_START" (s.canStart ts) (s.blockStart ts)

/-! ## Settlement (R87, R88, R91) -/

/-- The binding table after a BIND or UNBIND (R277). -/
def bindStep (b : List (Word × Word × Nat)) (e : Effect) : List (Word × Word × Nat) :=
  match e with
  | .bindE o a n => if b.contains (o, a, n) then b else b ++ [(o, a, n)]
  | .unbindE o a => b.filter fun x => !(x.1 == o && x.2.1 == a)
  | _ => b
/-- The BIND that takes the table beyond 8 entries (R143, R277). -/
def bindOverflow (b : List (Word × Word × Nat)) : AMap Effect → Option Nat
  | [] => none
  | (ix, e) :: rest => if 8 < (bindStep b e).length then some ix else bindOverflow (bindStep b e) rest
/-- The instruction that a lower-indexed one of its chain rules out, with its cause: a second SBIND of a slot (R283), a
second CSEAL (R286), a replica's second send on a port (R57), a send or an eos on a port that has carried an eos (R295,
R299). `seen` holds the effects of the lower indices. Each is found when the instruction fires, unless the chain has given
way. -/
def chainClash (replica : Bool) (seen : List Effect) : AMap Effect → Option (Nat × Cause)
  | [] => none
  | (ix, e) :: rest =>
    let ended (o : Nat) : Bool := seen.any fun x => match x with | .eos q => q == o | _ => false
    let c := match e with
      | .sbind n _ => if seen.any fun x => match x with | .sbind m _ => m == n | _ => false then some Cause.streamSlot else none
      | .cseal => if seen.any (· matches .cseal) then some Cause.copyBatch else none
      | .send o _ _ => if ended o then some Cause.send
        else if replica && seen.any (fun x => match x with | .send q _ _ => q == o | _ => false) then some Cause.stageOutput else none
      | .eos o => if ended o then some Cause.send else none
      | _ => none
    match c with
    | some c => some (ix, c)
    | none => chainClash replica (e :: seen) rest
/-- The fault of the faulting instruction with the lowest index (R91 precedence 3). -/
def State.firstFault (s : State) (k : Nat) (f : Flight) : Option FaultInfo :=
  let fs := match bindOverflow (s.ts k).eng.binds f.effs with
    | some ix => AMap.ins ix (FaultInfo.plain .binding ix) f.faults
    | none => f.faults
  let fs := match chainClash (s.tile (tileOf k)).isReplica [] f.effs with
    | some (ix, c) => AMap.ins ix (FaultInfo.plain c ix) fs
    | none => fs
  fs.head?.map Prod.snd

/-- The exits that fired non-null, with their indices. -/
def Flight.exits (f : Flight) : List (Nat × ExitKind × Word × Word) :=
  f.effs.filterMap fun p => match p.2 with | .exit kd a l => some (p.1, kd, a, l) | _ => none
/-- Whether conditions 1 to 3 of R88 hold. -/
def Flight.complete (f : Flight) : Bool :=
  (bodyShapes (bodyInstrs 0 f.body)).all fun p => match p.2.role with
    | .write _ | .store | .amo | .sends => f.status p.1 == .fired || f.status p.1 == .nulled
    | _ => true
/-- A completion token of the task that leads outside the region (R46, R342). -/
def State.strayHandle (s : State) (k : Nat) : Option Nat :=
  match (s.ts k).task with
  | none => none
  | some a =>
    if a.epi.isSome then none
    else a.succ.findSome? fun w =>
      match (s.region (s.rgnOf (tileOf k))).translate (handleDst w) (decide (s.level (tileOf k) = .user)) with
      | .outside => some (handleDst w)
      | _ => none

/-- The appenders of records that a higher-indexed one has counted before they had come to their end (R289). -/
def Flight.counted (f : Flight) : List Nat :=
  let recs := (bodyInstrs 0 f.body).filterMap fun p => if chainOf p.2 = some 0 then some p.1 else none
  let early (ix : Nat) : Bool := ((f.order.map Prod.fst).takeWhile (· ≠ ix)).any fun j => decide (ix < j) && recs.contains j
  recs.filter early
/-- Whether an instruction has ended without firing. -/
def Flight.blank (f : Flight) (ix : Nat) : Bool := f.status ix == .nulled || f.status ix == .dead
/-- Whether an appender that was counted as one that fires non-null has been nulled, or the other way round: the record numbers of
the block are not those of R289. -/
def Flight.miscounted (f : Flight) : Bool := f.counted.any fun ix => f.blank ix != f.nulls.contains ix
/-- Whether what the block has read of its tile's pool is still there: a remote access or an engine may have changed it since
(R150), as a commit of another thread set may (R94). -/
def State.loadsStand (s : State) (k : Nat) (f : Flight) : Bool :=
  (f.loads.zip f.seen).all fun p => s.bytes (poolKey (tileOf k) p.1.1) p.1.2 == p.2

/-- What a settled block comes to: `again` is a block whose record numbers or loads are not as they must be at its commit. -/
inductive Verdict where
  | again
  | freeze (coord : Nat)
  | fault (f : FaultInfo)
  | commit (ix : Nat) (kind : ExitKind) (dest link : Word)
  deriving DecidableEq, Repr

/-- The outcome of a settled block (R88, R91, R342). -/
def State.verdict (s : State) (k : Nat) (f : Flight) : Verdict :=
  match f.freeze with
  | some (_, c) => .freeze c
  | none => if f.miscounted then .again else
    match s.firstFault k f with
    | some i => .fault i
    | none =>
      match f.exits with
      | [] => .fault (FaultInfo.plain .exit 255)
      | [(ix, kd, a, l)] =>
        if f.complete then
          match (if kd = .done then s.strayHandle k else none) with
          | some c => .freeze c
          | none => if s.loadsStand k f then .commit ix kd a l else .again
        else .fault (FaultInfo.plain .incomplete 255)
      | _ => .fault (FaultInfo.plain .multipleExit 255)

/-- The effects of a block that have an LSID, in LSID order (R89 steps 2 and 3). -/
def Flight.byLsid (f : Flight) : AMap Effect :=
  f.effs.foldl (fun m p =>
    match p.2 with
    | .store l _ _ | .rstore l _ _ _ | .amoLocal l _ _ _ | .amoRemote l _ _ _ | .fence l _ _ | .relUpd l _ => AMap.ins l p.2 m
    | _ => m) []
/-- Whether an effect takes a journal entry (R137). -/
def Effect.posts : Effect → Bool
  | .rstore _ _ _ _ | .amoRemote _ _ _ _ | .relUpd _ _ => true
  | _ => false
/-- The register that an AMO names for its old value (R92). -/
def Effect.amoReg? : Effect → Option Reg
  | .amoLocal _ _ _ r | .amoRemote _ _ _ r => r
  | _ => none
/-- The matrix record that an effect appends. -/
def Effect.rec? : Effect → Option MRec
  | .mrec r => some r
  | _ => none

/-- Whether the block's records still stand: another thread set of the tile may have committed since they were
checked (R182, R183). -/
def State.recordsStand (s : State) (k : Nat) (f : Flight) : Bool :=
  let t := tileOf k
  let rs := f.effs.filterMap fun p => p.2.rec?
  rs.isEmpty ||
    (decide (s.queued t + rs.length ≤ queueDepth (s.tile t).conf.part) &&
      rs.all fun r => match r.body with
        | .zero a => (List.range 4).all fun i => decide (i = tsNum k) || (s.ts (4 * t + i)).eng.recs.all fun q => q.body.acc? ≠ some a
        | b => match b.acc? with
          | some a => AMap.find a (s.tile t).mx.owner = some (tsNum k) || rs.any fun q => q.body == .zero a
          | none => true)
/-- Whether every stream slot that the block binds is still free (R283). -/
def State.slotsStand (s : State) (k : Nat) (f : Flight) : Bool :=
  f.effs.all fun p => match p.2 with | .sbind n _ => (AMap.find n (s.tile (tileOf k)).slots).isNone | _ => true
/-- Whether the slices that the block's STEAL.SPLIT gives still remain: another thread set of the replica may have split
them off since (R300). -/
def State.splitStands (s : State) (k : Nat) (f : Flight) : Bool :=
  let x := s.tile (tileOf k)
  let rem := AMap.get [] x.coord ((s.region (s.rgnOf (tileOf k))).stage x.conf.stage).rem
  f.effs.all fun p => match p.2 with
    | .steal n => (f.snap.remain.drop (f.snap.remain.length - n)).all rem.contains
    | _ => true
/-- Whether what the block was checked against still stands. -/
def State.stands (s : State) (k : Nat) (f : Flight) : Bool := s.recordsStand k f && s.slotsStand k f && s.splitStands k f
/-- Whether the commit has what it waits for: journal entries (R89), the replies of registers that it writes (R92),
and places for its copies (R285). -/
def State.commitRoom (s : State) (k : Nat) (f : Flight) : Bool :=
  let a := s.ts k
  decide (a.eng.journal.length + f.effs.countP (fun p => p.2.posts) ≤ 32) &&
    f.effs.all (fun p => match p.2 with | .wr r _ => !a.pending r | _ => true) &&
    (!(f.effs.any fun p => p.2 matches .copy _) ||
      decide (a.eng.copies.length + f.effs.countP (fun p => p.2 matches .copy _) ≤ 16))

/-- Whether a block holds a release AMO to its own tile's scratchpad, which its commit performs. -/
def Flight.releases (f : Flight) : Bool := f.effs.any fun p => match p.2 with | .amoLocal _ _ o _ => o.ord == 2 | _ => false
/-- Whether the release AMOs of a block that act on the tile itself may be performed: every earlier journal entry of the
thread set is acknowledged or refused (R147, R149, R150). -/
def State.releaseReady (s : State) (k : Nat) (f : Flight) : Bool := !f.releases || (s.ts k).eng.journal.all fun e => !e.openYet
/-- Whether a commit waits for entries that will never be acknowledged (R140, R279): before a release AMO, for a register that an
AMO has left pending (R92), or for room in the journal. -/
def State.releaseStuck (s : State) (k : Nat) (f : Flight) : Bool :=
  let j := (s.ts k).eng.journal
  (f.releases && j.any fun e => s.never k e) ||
    (f.effs.any fun p => match p.2 with
      | .wr r _ => j.any fun e => AMap.find (regKey r) (s.ts k).eng.pend == some e.num && s.never k e
      | _ => false) ||
    (decide (0 < f.effs.countP fun p => p.2.posts) && decide (32 < j.countP (s.never k) + f.effs.countP fun p => p.2.posts))

/-- The event kinds of the tickets that a commit takes (R427). -/
def State.commitKinds (s : State) (k : Nat) (f : Flight) : List Nat :=
  let acqs := (bodyInstrs 0 f.body).countP fun p => (p.2 matches .acq _ _ _) && f.status p.1 == .fired && (AMap.find p.1 f.reqs).isNone
  (if (s.tile (tileOf k)).lastTs = some (tsNum k) then [] else [4]) ++
    List.replicate (acqs + f.effs.countP fun p => p.2 matches .amoLocal _ _ _ _) 6

/-! ## The acts of R89 -/

/-- Step 1: a WRITE of a token to a register that names no stream; null lanes are left (R85, R99). -/
def Regs.write (x : Regs) (r : Reg) (t : Token) : Regs :=
  match r, t with
  | .v n, .vector v nulls =>
    let old := AMap.get Vec.zero n.toNat x.v
    { x with v := AMap.put Vec.zero n.toNat (Vec.ofFn fun i => if maskBit nulls i then old.get i else v.get i) x.v }
  | r, .scalar w => x.writeScalar r w
  | _, _ => x
/-- Step 1 (R89, R92, R102). -/
def State.commitWrites (s : State) (k : Nat) (f : Flight) : State :=
  let amo := f.effs.filterMap fun p => p.2.amoReg?
  f.effs.foldl (fun s p => match p.2 with
    | .wr r t =>
      if amo.contains r ∨ ((regSlot r).bind (s.slotOf k)).isSome then s
      else s.updTs k fun a => { a with regs := a.regs.write r t }
    | _ => s) s

/-- Step 2: local stores and atomics in LSID order (R89, R92). -/
def State.commitLocal (s : State) (k : Nat) (f : Flight) : State :=
  let t := tileOf k
  f.byLsid.foldl (fun s p => match p.2 with
    | .store _ off bs => (s.charge t (s.ctxOf t) 7 (units8 bs.length)).putBytes (poolKey t off) bs
    | .amoLocal _ off o r =>
      let n := o.bytes
      let old := s.num (poolKey t off) n
      let s := (s.charge t (s.ctxOf t) 7 (2 * units8 n)).putNum (poolKey t off) n (amoNew (8 * n) o.op old o.b o.cmp)
      match r with
      | some r => s.updTs k fun a => { a with regs := a.regs.writeScalar r (word old) }
      | none => s
    | _ => s) s

/-- The objects that n bytes at an address are bound to (R143). -/
def boundTo (binds : List (Word × Word × Nat)) (a : Word) (n : Nat) : List Word :=
  (binds.filter fun b => decide (b.2.1.toNat ≤ a.toNat) && decide (a.toNat + n ≤ b.2.1.toNat + b.2.2)).map fun b => b.1
/-- The lowest free journal entry number (R137; that it is the lowest: assumption 82). -/
def freeEntryNum (j : List JEntry) : Nat := ((List.range 32).find? fun n => j.all fun e => e.num ≠ n).getD 0
/-- Posts one journal entry. -/
def State.post (s : State) (k : Nat) (a : Word) (n : Nat) (bs : Bytes) (kind : JKind) (hold : Bool) (after : List Nat) (objs : List Word) : State :=
  s.updTs k fun x =>
    let num := freeEntryNum x.eng.journal
    let e : JEntry :=
      { num := num, seq := x.eng.post, addr := a, size := n, bytes := bs, kind := kind,
        state := if hold || !after.isEmpty then .held else .pending, after := after, objs := objs, old := 0, said := a, missed := false, dram := false, ahead := 0 }
    let pend := match kind with | .atomic _ (some r) => AMap.ins (regKey r) num x.eng.pend | _ => x.eng.pend
    { x with eng := { x.eng with journal := x.eng.journal ++ [e], post := (x.eng.post + 1) % 2 ^ 32, pend := pend } }

/-- Step 3: remote stores, atomics and REL updates are posted in LSID order; FENCE, REL and release AMOs hold them
back (R89, R144, R147, R276). The accumulator lists the entries posted so far: LSID and sequence. -/
def State.commitPosts (s : State) (k : Nat) (f : Flight) : State :=
  let t := tileOf k
  let fences := f.effs.filterMap fun p => match p.2 with | .fence l kd rect => some (l, kd, rect) | _ => none
  (f.byLsid.foldl (fun (acc : List (Nat × Nat) × State) p =>
    let s := acc.2
    let j := (s.ts k).eng.journal
    let mine (q : Nat) : Option Nat := (acc.1.find? fun x => x.2 == q).map Prod.fst
    let fenced := (j.filter fun e => match mine e.seq with
      | some l => fences.any fun c => decide (c.1 < p.1) && decide (l < c.1) && s.fenceCovers t c.2.1 c.2.2 e
      | none => false).map JEntry.seq
    let next := (p.1, (s.ts k).eng.post) :: acc.1
    match p.2 with
    | .rstore _ a n bs => (next, s.post k a n bs (if space a = 4 then .csr else .store) false fenced (boundTo f.snap.binds a n))
    | .amoRemote _ a o r =>
      let rel := decide (o.ord = 2)
      (next, s.post k a o.bytes [] (.atomic o r) rel (if rel then j.map JEntry.seq else fenced) (boundTo f.snap.binds a o.bytes))
    | .relUpd _ a =>
      let bound := (j.filter fun e => (mine e.seq).isSome && e.objs.contains a).map JEntry.seq
      (next, s.post k a 8 [] .rel true (fenced ++ bound) [])
    | _ => acc) ([], s)).2

/-- Step 4: sends in index order; a split of the remaining slices; repair packets follow (R89, R301). -/
def State.commitSends (s : State) (k : Nat) (f : Flight) : State :=
  let s := f.effs.foldl (fun s p => match p.2 with
    | .send o h a => s.commitSend k o h a
    | .spawn h0 h1 a => s.commitSpawn k h0 h1 a
    | .eos o => s.commitEos k o
    | .steal n => s.commitSteal k n f.snap.remain
    | _ => s) s
  f.effs.foldl (fun s p => match p.2 with | .resume i w v => s.commitResume k i w v | _ => s) s

/-- Changes a stream slot of a tile. -/
def State.updSlot (s : State) (t n : Nat) (g : Slot → Slot) : State :=
  s.updTile t fun x => { x with slots := AMap.modify n g x.slots }
/-- One pop: POS advances past the group, and END is set with the last element (R161). -/
def Slot.pop (z : Slot) : Slot :=
  let n := z.desc.groupLen z.pos
  { z with ready := z.ready.drop 1, pos := z.pos + n, ended := z.ended || decide (z.desc.length ≤ z.pos + n) }
/-- Step 5, pops and appends (R89, R161, R162): the flags that the appends raise. -/
def State.commitStreams (s : State) (k : Nat) (f : Flight) : State × BitVec 7 :=
  let t := tileOf k
  let s := f.effs.foldl (fun s p => match p.2 with | .popped n _ => s.updSlot t n Slot.pop | _ => s) s
  f.effs.foldl (fun (a : State × BitVec 7) p => match p.2 with
    | .wr r (.vector v nulls) =>
      match (regSlot r).bind fun n => (a.1.slotOf k n).map fun z => (n, z) with
      | some (n, z) =>
        let (z, fl) := z.append v nulls
        (a.1.updSlot t n fun _ => z, a.2 ||| fl)
      | none => a
    | _ => a) (s, 0)

/-- SBIND at commit (R161, R162, R283). -/
def State.commitSbind (s : State) (k n : Nat) (d : StreamDesc) : State :=
  let z : Slot := ⟨k, d, 0, decide (d.length = 0), false, false, [], [], []⟩
  (s.delayLine (tileOf k) d).updTile (tileOf k) fun x => { x with slots := AMap.ins n z x.slots }
/-- SUNBIND at commit (R284): the appends are written, and the slot is free; a refusal stops the thread set at the
boundary that follows the commit (R140, R163). -/
def State.commitSunbind (s : State) (k n : Nat) : State :=
  let t := tileOf k
  let s := match s.slotOf k n with
    | some z => (z.toWrite.foldl (fun (s : State) (p : Nat × List Byte) => s.writeAppend t n z true p.1 p.2) s).delayLine t z.desc
    | none => s
  s.updTile t fun x => { x with slots := AMap.del n x.slots }
/-- SSKIP at commit (R284). -/
def Slot.skip (z : Slot) (n : Nat) : Slot :=
  let p := min (z.pos + n) z.desc.length
  { z with pos := p, ready := [], ended := z.ended || decide (p = z.desc.length) }
/-- The SCTL effects (R284). -/
def State.commitSctl (s : State) (k : Nat) (e : Effect) : State :=
  match e with
  | .sunbind n => s.commitSunbind k n
  | .sskip n m => s.updSlot (tileOf k) n fun z => z.skip m
  | .sflush n => s.updSlot (tileOf k) n fun z => if z.desc.out then z else { z with ready := [] }
  | _ => s

/-- COPY at commit (R170): it joins the open batch. -/
def Engines.accept (e : Engines) (tile : Nat) (d : CopyDesc) : Engines :=
  { e with copies := e.copies ++ [⟨e.copyIds, none, tile, d, [], 0, [], [], 0⟩], copyIds := e.copyIds + 1, fed := true }
/-- CSEAL at commit (R154, R286): the open batch is numbered; one that has had no copy completes with those below it,
one whose copies are all finished is complete. -/
def Engines.seal (e : Engines) : Engines :=
  let n := e.sealed + 1
  ({ e with sealed := n, copies := e.copies.map (fun c => if c.batch.isNone then { c with batch := some n } else c),
            hollow := if e.fed then e.hollow else e.hollow ++ [n], fed := false } : Engines).retireBatches
/-- A matrix record at commit (R179, R182, R289): it joins the queue; a zero record takes its tile. -/
def State.commitRec (s : State) (k : Nat) (r : MRec) : State :=
  let fmt := match r.body with | .weight _ b _ _ _ _ _ _ => some b | _ => (s.ts k).eng.bfmt
  let s := s.updTs k fun a => { a with eng := { a.eng with recs := a.eng.recs ++ [r], issued := a.eng.issued + 1, bfmt := fmt } }
  match r.body with
  | .zero n => s.updTile (tileOf k) fun x => { x with mx := { x.mx with owner := AMap.ins n (tsNum k) x.mx.owner } }
  | _ => s
/-- LWARM at commit (R280): TARGET is written, COUNT cleared. -/
def State.commitLwarm (s : State) (k off : Nat) (n : Word) : State :=
  ((s.charge (tileOf k) (s.ctxOf (tileOf k)) 7 2).putNum (poolKey (tileOf k) off) 8 n.toNat).putNum (poolKey (tileOf k) (off + 8)) 8 0
/-- FENCE.LOCAL at commit (R141, R161): fetched groups and the delay line are given up. -/
def State.commitFenceLocal (s : State) (k : Nat) : State :=
  s.updTile (tileOf k) fun x => { x with slots := x.slots.map fun p =>
    (p.1, if p.2.ts = k ∧ p.2.desc.out = false then { p.2 with ready := [], line := [] } else p.2) }

/-- Step 5: a unit effect other than those of streams (R89). -/
def State.commitUnit (s : State) (k : Nat) (e : Effect) : State :=
  match e with
  | .fence _ 0 _ => s.commitFenceLocal k
  | .mbpop => s.commitMbpop k
  | .mbhw w => s.commitMbhw k w
  | .bindE _ _ _ | .unbindE _ _ => s.updTs k fun a => { a with eng := { a.eng with binds := bindStep a.eng.binds e } }
  | .lwarm off w => s.commitLwarm k off w
  | .sbind n d => s.commitSbind k n d
  | .copy d => s.updTs k fun a => { a with eng := a.eng.accept (tileOf k) d }
  | .cseal => s.updTs k fun a => { a with eng := a.eng.seal }
  | .mrec r => s.commitRec k r
  | .csrw n v => s.commitCsrw k n v
  | .wake j => s.commitWake j
  | .ctx sv c a w => s.commitCtx k sv c a w
  | .slotw t w => s.commitSlotw t.toNat w
  | .pwrset w => s.commitPwr k w
  | .bkpt c => s.commitBkpt k c
  | .pmark w => s.commitPmark k w
  | .trc g w => s.commitTrc k g w
  | _ => s

/-- Step 6 (R89, R103, R104, R228): STATW's clears, the block's flags, then the defaults of the highest-indexed
STATW that sets them. -/
def Regs.commitFlags (x : Regs) (f : Flight) (fl : BitVec 7) : Regs :=
  let any (p : Effect → Bool) : Bool := f.effs.any fun q => p q.2
  let x := if any fun e => match e with | .statw cf _ _ _ _ => cf | _ => false then { x with flags := clearFlags x.flags } else x
  let x := if any fun e => match e with | .statw _ cm _ _ _ => cm | _ => false then { x with mexc := 0 } else x
  let x := { x with flags := mergeFlags x.flags fl }
  f.effs.foldl (fun x p => match p.2 with
    | .statw _ _ true drm dsat => { x with flags := setDefaults x.flags (BitVec.ofNat 2 drm) dsat }
    | _ => x) x

/-- Step 7 (R89, R238 to R242). -/
def State.commitExit (s : State) (k ix : Nat) (f : Flight) (kd : ExitKind) (dest link : Word) : State :=
  let goto (s : State) : State := s.updTs k fun a => { a with regs := { a.regs with bpc := dest, blr := link }, kindOk := 0 }
  match kd with
  | .goto | .call => goto s
  | .done =>
    match (s.ts k).task with
    | some a => match a.epi with
      | some (owner, _, _) => s.epilogueDone k owner
      | none => s.endTask k true
    | none => s
  | .yield => s.yieldTask k
  | .trap code =>
    (s.updTs k fun a => { a with regs := { a.regs with bpc := f.next }, kindOk := 0 }).takeFault k ⟨.trap, ix, 0, word code, 0, 0⟩

/-- The sampled record of a commit (R420, R421). -/
def State.traceCommit (s : State) (k : Nat) (f : Flight) : State :=
  let t := tileOf k
  let samp := field (csrOf (s.region (s.rgnOf t)).csr 0x310) 4 4
  let seq := match (s.ts k).task with | some a => if a.epi.isSome then 0 else h0Seq a.h0 | none => 0
  let n := (s.ts k).commits + 1
  let s := s.updTs k fun a => { a with commits := n }
  if n % 2 ^ samp = 0 then s.traceTile t 1 (tsNum k) f.base.toNat (f.counts.countP fun p => decide (p.1 < 512)) seq else s

/-- Bytes of the tile's pool that the block stores to: offset and length of each run. -/
def Flight.stored (f : Flight) : List (Nat × Bytes) :=
  f.effs.filterMap fun p => match p.2 with
    | .store _ off bs => some (off, bs)
    | .amoLocal _ off o _ => some (off, List.replicate o.bytes (some 0))
    | .lwarm off _ => some (off, List.replicate 16 (some 0))
    | _ => none
/-- Whether a written byte lies in a run of loaded bytes. -/
def storeHits (st : Nat × Bytes) (ld : Nat × Nat) : Bool :=
  st.2.zipIdx.any fun p => p.1.isSome && decide (ld.1 ≤ st.1 + p.2) && decide (st.1 + p.2 < ld.1 + ld.2)
/-- Re-execution (R94, R96): blocks of the tile's other thread sets that have loaded bytes now stored start again;
REXCNT counts them. -/
def State.reexecute (s : State) (k : Nat) (st : List (Nat × Bytes)) : State :=
  let t := tileOf k
  (List.range 4).foldl (fun s i =>
    let j := 4 * t + i
    match s.flight j with
    | some g =>
      if j ≠ k ∧ g.loads.any (fun ld => st.any fun x => storeHits x ld) then
        ((s.discard j).updTile t fun x => { x with csr := csrPut x.csr 0x308 (word (min (2 ^ 32 - 1) ((csrOf x.csr 0x308).toNat + 1))) }).settle j
      else s
    | none => s) s

/-- The commit (R89): one indivisible step, its acts in the order of the rule. -/
def State.commitBlock (s : State) (k : Nat) (f : Flight) (ix : Nat) (kd : ExitKind) (dest link : Word) : State :=
  let t := tileOf k
  let r := s.rgnOf t
  let s := (s.commitKinds k f).foldl (fun s e => s.ticket r t (tsNum k) e) s
  let s := (s.chargeFlight k f).dropFlight k
  let s := (((s.commitWrites k f).commitLocal k f).commitPosts k f).commitSends k f
  let (s, fl) := s.commitStreams k f
  let s := f.effs.foldl (fun s p => s.commitUnit k p.2) s
  let s := f.effs.foldl (fun s p => s.commitSctl k p.2) s
  let s := s.updTs k fun a => { a with regs := a.regs.commitFlags f (f.raised ||| fl), roundDone := decide (s.mode r = 3) }
  let s := s.traceCommit k f
  let s := s.updTile t fun x => { x with lastTs := some (tsNum k) }
  let s := if s.mode r = 1 ∨ s.mode r = 2 then s.updRegion r fun g => { g with chunk := AMap.upd 0 k (· + 1) g.chunk } else s
  let s := s.commitExit k ix f kd dest link
  let s := s.settle k
  let s := ((s.reexecute k f.stored).stepCommitted k).wakeAll
  if s.chunkOver k then s.diverge r else s

/-- Whether the block of a thread set can come to its end: it has settled, its field's clocks run (R398), and a commit has
what it waits for. -/
def State.canCommit (s : State) (k : Nat) : Bool :=
  match s.flight k with
  | none => false
  | some f =>
    (f.settled || f.freeze.isSome) && !(s.fieldRec (fieldOf (tileOf k))).gated && (match s.verdict k f with
      | .commit _ _ _ _ => s.releaseStuck k f ||
          (s.commitRoom k f && s.releaseReady k f && s.myTurn k &&
            s.ticketsFree (s.rgnOf (tileOf k)) ((s.commitKinds k f).map fun e => (tileOf k, tsNum k, e)))
      | _ => true)
/-- The block from its start, with what this attempt has found of the instructions that are nulled (R289). -/
def State.startAgain (s : State) (k : Nat) (f : Flight) : Flight :=
  { (mkFlight f.base f.header f.body (s.inputSlot k) (s.snapshot k)).sweep with nulls := (f.order.map Prod.fst).filter f.blank }
/-- BLOCK_COMMIT (R88, R89, R91): the block commits, faults or is frozen; when what it was checked against no longer
stands, or it waits for what will never come (R140), it is discarded and starts again. -/
def State.blockCommit (s : State) (k : Nat) : State :=
  match s.flight k with
  | none => s
  | some f =>
    match s.verdict k f with
    | .freeze c => s.freezeTs k c
    | .fault i => s.takeFault k i
    | .again =>
      if f.miscounted then (s.discard k).setFlight k (s.startAgain k f)
      else (s.discard k).settle k
    | .commit ix kd a l =>
      if s.stands k f && !s.releaseStuck k f then s.commitBlock k f ix kd a l
      else (s.discard k).settle k
/-- BLOCK_COMMIT. -/
def execBlockCommit (ts : Nat) (s : State) : Res := whenEnabled "BLOCK_COMMIT" (s.canCommit ts) (s.blockCommit ts)

end Sys2Proof.Machine
end

