-- ==== Sys2Proof/Machine/Saves.lean ====
section
/-! DEFINITION. Context save and restore, core dumps and the watchdog (R306, R382 to R388): the layout of a
save area in DRAM, the save and the restore of a region, what the watchdog does, and the deadline of a save. -/

namespace Sys2Proof.Machine

open Sys2Proof

/-! ## The save area (R382, R383) -/

/-- Number of tile sections: the coordinates of the region, Potting shed included. -/
def Region.sections (g : Region) : Nat := 16 * g.cw * g.ch
/-- Address of tile section i of a save area (R382). -/
def sectionAt (a n i : Nat) : Nat := a + 0x1000 + ((n + 7) / 8 + 4095) / 4096 * 4096 + i * 0x30000

/-- Writes 8-byte numbers one after the other. -/
def State.putWords (s : State) : Nat → List Nat → State
  | _, [] => s
  | a, w :: ws => (s.putNum a 8 w).putWords (a + 8) ws

/-- SFLAGS of a header (R382). -/
def saveFlags (resumable dump wdx late : Bool) : Nat := resumable.toNat + 2 * dump.toNat + 4 * wdx.toNat + 8 * late.toNat

/-- Writes the header of a save area (R382). -/
def State.saveHeader (s : State) (r a flags : Nat) : State :=
  let g := s.region r
  let t := g.tilesOf.headD (g.physOf 0)
  let s := ((((s.putNum a 4 0x41564153).putNum (a + 4) 2 1).putNum (a + 6) 2 flags).putNum (a + 8) 2 g.ctx).putNum (a + 10) 4 g.sections
  let s := s.putWords (a + 0x10) (g.geom.toNat :: (List.range 12).map fun i => (s.csrValue t (0x40 + i)).toNat)
  s.putWords (a + 0x78) [(csrOf g.csr 0x004).toNat, g.colour.toNat + 2 ^ 16 * (g.cut.sent % 2 ^ 48)]

/-- A register frame (R110). -/
def Regs.frame (x : Regs) : List Nat :=
  (List.range 32).map (fun i => if i = 0 then 0 else (AMap.get 0 i x.s).toNat) ++
    (List.range 32).flatMap (fun i => laneList.map fun l => ((AMap.get Vec.zero i x.v).get l).toNat) ++
    (List.range 4).map (fun i => (AMap.get 0 i x.ox).toNat) ++
    [x.bpc.toNat, x.blr.toNat, x.flags.toNat, x.mexc.toNat]
/-- Reads a register frame back (R99, R104, R110): BPC is a block's address (R77), MEXC has 48 bits. -/
def State.readFrame (s : State) (a : Nat) : Regs :=
  let w (o : Nat) : Word := word (s.num (a + o) 8)
  { s := (List.range 31).foldl (fun m i => AMap.put 0 (i + 1) (w (8 * (i + 1))) m) [],
    v := (List.range 32).foldl (fun m i => AMap.put Vec.zero i (Vec.ofFn fun l => w (0x100 + 64 * i + 8 * l)) m) [],
    ox := (List.range 4).foldl (fun m i => AMap.put 0 i (w (0x900 + 8 * i)) m) [],
    bpc := w 0x920 &&& 0xFFFFFFFFFFFFFFF0, blr := w 0x928, flags := w 0x930 &&& 0x7007F, mexc := w 0x938 &&& 0xFFFFFFFFFFFF }

/-- The carry half that an element shows: any that leaves a sum half of 56 bits, the same until an op changes it
(R126). -/
def AccElem.shown (x : AccElem) (split : Nat) : Nat :=
  let lo : Int := max (-(2 ^ 55)) (x.m - (2 ^ 55 - 1))
  let hi : Int := min (2 ^ 55 - 1) (x.m + 2 ^ 55)
  x.cs.getD (toBits 56 (lo + Config.accSplit split % (hi - lo + 1)))
/-- The 16 bytes of an accumulator element (R126). -/
def AccElem.image (x : AccElem) : List Nat :=
  let cs := x.cs.getD 0
  let ss := toBits 56 (x.m - sintN 56 cs)
  [ss + cs % 256 * 2 ^ 56,
   cs / 256 + toBits 12 x.e * 2 ^ 48 + x.inv.toNat * 2 ^ 60 + x.ovf.toNat * 2 ^ 61 + x.sat.toNat * 2 ^ 62 + x.nan.toNat * 2 ^ 63]

/-- The element of 16 bytes (R126). -/
def accOf (lo hi : Nat) : AccElem :=
  let cs := lo / 2 ^ 56 % 256 + hi % 2 ^ 48 * 256
  { nan := hi / 2 ^ 63 % 2 == 1, sat := hi / 2 ^ 62 % 2 == 1, ovf := hi / 2 ^ 61 % 2 == 1, inv := hi / 2 ^ 60 % 2 == 1,
    e := sintN 12 (hi / 2 ^ 48), m := sintN 56 cs + sintN 56 lo, cs := some cs }
/-- Fixes the split of each element of a tile that none has shown yet (R126). -/
def State.showAccs (s : State) (t : Nat) : State :=
  let base := s.fresh
  { s.updTile t fun x => { x with mx := { x.mx with accs := x.mx.accs.map fun p =>
      (p.1, p.2.zipIdx.map fun e => { e.1 with cs := some (e.1.shown (base + 64 * p.1 + e.2)) }) } } with fresh := base + 2048 }
/-- Reads the accumulator tiles of a pool image (R109, R126). -/
def State.readAccs (s : State) (a : Nat) (p : Word) : AMap (List AccElem) :=
  (List.range (field p 8 5)).foldl (fun m j =>
    AMap.put (List.replicate 64 AccElem.zero) j ((List.range 64).map fun i =>
      let b := a + accBase p + 1024 * j + 16 * i
      accOf (s.num b 8) (s.num (b + 8) 8)) m) []

/-- BODY of a matrix record (R181). -/
def RecBody.image : RecBody → Nat
  | .op idx bf af acc ast ab =>
    at_ 0 17 ab + at_ 17 17 ast + at_ 34 4 acc + at_ 38 5 af + at_ 43 5 bf +
      ((List.range 8).foldl (fun n i => n + at_ (64 + 8 * i) 8 ((idx.getD i none).getD 0)) 0)
  | .weight kph bf zst zb sst sb bcs bb =>
    at_ 0 17 bb + at_ 17 17 bcs + at_ 34 17 sb + at_ 51 17 sst + at_ 68 17 zb + at_ 85 17 zst + at_ 102 5 bf + at_ 107 7 kph
  | .drain da dst cse csb drm dsat down epe epih dsend df acc =>
    at_ 0 4 acc + at_ 4 5 df + at_ 9 1 dsend.toNat + at_ 10 6 epih + at_ 16 1 epe.toNat + at_ 17 1 down.toNat +
      at_ 18 1 dsat.toNat + at_ 19 2 drm + at_ 21 17 csb + at_ 38 1 cse.toNat + at_ 39 20 (toBits 20 dst) + at_ 64 64 da.toNat
  | .zero acc => at_ 0 4 acc
/-- RTYPE of a record (R180). -/
def RecBody.rtype : RecBody → Nat
  | .op _ _ _ _ _ _ => 0
  | .weight _ _ _ _ _ _ _ _ => 1
  | .drain _ _ _ _ _ _ _ _ _ _ _ _ => 2
  | .zero _ => 3
/-- The four words of a record (R180). -/
def MRec.image (r : MRec) : List Nat :=
  let b := r.body.image
  [at_ 0 32 r.num + at_ 41 17 r.deplw + at_ 58 2 r.depk + at_ 60 4 r.body.rtype, r.depv % 2 ^ 64, b % 2 ^ 64, b / 2 ^ 64]

/-- BODY and RTYPE of a record as a restore reads them (R180, R181). -/
def recBodyOf (rtype b : Nat) : RecBody :=
  let f (lo n : Nat) : Nat := b / 2 ^ lo % 2 ^ n
  match rtype with
  | 0 => .op ((List.range 8).map fun i => some (f (64 + 8 * i) 8)) (f 43 5) (f 38 5) (f 34 4) (f 17 17) (f 0 17)
  | 1 => .weight (f 107 7) (f 102 5) (f 85 17) (f 68 17) (f 51 17) (f 34 17) (f 17 17) (f 0 17)
  | 2 => .drain (word (f 64 64)) (sintN 20 (f 39 20)) (f 38 1 == 1) (f 21 17) (f 19 2) (f 18 1 == 1) (f 17 1 == 1) (f 16 1 == 1) (f 10 6) (f 9 1 == 1)
      (f 4 5) (f 0 4)
  | _ => .zero (f 0 4)
/-- A record of a queue image (R180): the one that was kept where the image is still its own, which has more than the image shows;
otherwise what the four words say. -/
def recOf (kept : Option MRec) (ws : List Nat) : MRec :=
  match kept.filter fun r => r.image == ws with
  | some r => r
  | none =>
    let h := ws.getD 0 0
    { num := h % 2 ^ 32, depk := h / 2 ^ 58 % 4, deplw := h / 2 ^ 41 % 2 ^ 17, depv := ws.getD 1 0,
      body := recBodyOf (h / 2 ^ 60) (ws.getD 2 0 + 2 ^ 64 * ws.getD 3 0),
      csat := false, crm := 0, row := 0, epi := none, epiOn := false, flt := false, tally := [0, 0, 0, 0] }
/-- The fault cause of a code (R367). -/
def causeOf (n : Nat) : Option Cause :=
  [.blockFetch, .malformed, .operandType, .streamDirection, .branchTarget, .exit, .multipleExit, .incomplete, .address, .alignment,
    .privilege, .poolProtection, .remoteAccess, .dramAccess, .atomicOrdering, .scope, .binding, .landing, .timeline, .streamDescriptor,
    .streamBounds, .streamSlot, .copyDescriptor, .copyBatch, .matrixFormat, .matrixRecord, .matrixOwnership, .matrixContext, .epilogue,
    .stageOutput, .send, .mailbox, .range, .csr, .regionBounds, .dataError, .trap, .storeRefused, .appendRefused, .copyFault, .matrixData,
    .packetFormat, .lateEos, .deadlock, .landingOverrun, .dramReply, .staleRepair, .repairRefused, .landingRefused].find? fun c => c.code == n
/-- The pending registers that a section marks (R107, R382), each with the entry of the restored journal whose reply it waits for. -/
def readPend (marks : Nat) (kept : AMap Nat) (journal : List JEntry) : AMap Nat :=
  (List.range 72).filterMap fun k => if marks.testBit k then
      (match journal.find? fun e => e.state == .pending && (match e.kind with | .atomic _ (some r) => regKey r == k | _ => false) with
        | some e => some (k, e.num)
        | none => (AMap.find k kept).map fun n => (k, n))
    else none

/-- STATE of a journal entry in a save area (R383). -/
def JState.image : JState → Nat
  | .held | .pending | .lost => 1
  | .done | .acked => 2
  | .refused _ _ => 3
  | .withheld => 4
/-- Kind, size and AMO bytes of a journal entry (R383). -/
def JEntry.image (e : JEntry) : List Byte :=
  let b (n : Nat) : Byte := BitVec.ofNat 8 n
  let (kind, mid, reg, data) := match e.kind with
    | .store => ((0 : Nat), (0 : Nat), (0 : Nat), e.bytes.map (·.getD 0))
    | .atomic o r => (1, o.op + 16 * o.ord, (r.map regKey).getD 0, (if o.op = 9 then leBytes 8 o.cmp else []) ++ leBytes 8 o.b)
    | .rel => (2, 0, 0, leBytes 8 1)
    | .csr => (3, 0, 0, e.bytes.map (·.getD 0))
  leBytes 8 e.addr.toNat ++ leBytes 4 e.seq ++ [b e.state.image, b kind, b (Nat.log2 e.size), b mid, b reg] ++ leBytes 15 0 ++ data
/-- The register of a key. -/
def regOfKey (n : Nat) : Option Reg :=
  if n = 0 then none else if n < 32 then some (.s (BitVec.ofNat 5 n)) else if n < 64 then some (.v (BitVec.ofNat 5 (n - 32))) else some (.ox (BitVec.ofNat 2 (n - 64)))
/-- Entry `num` of a saved journal as a restore reads it (R383, R385): the entry that was kept where the area holds its image
still, which R383 leaves without its bindings and null lanes; otherwise what the 96 bytes say. -/
def journalOf (kept : Option JEntry) (num : Nat) (bs : List Byte) : Option JEntry :=
  let at' (o n : Nat) : Nat := ofBytes ((bs.drop o).take n)
  let whole (e : JEntry) : Bool := (e.image ++ List.replicate (96 - e.image.length) 0) == bs
  let st := at' 12 1
  if st = 0 then none
  else if kept.any whole then kept
  else
    let size := 2 ^ min 6 (at' 14 1)
    let op := at' 15 1 % 16
    let kind : JKind := match at' 13 1 with
      | 1 => .atomic ⟨op, size == 8, at' 15 1 / 16 % 4, at' (if op = 9 then 40 else 32) 8, if op = 9 then at' 32 8 else 0⟩ (regOfKey (at' 16 1))
      | 2 => .rel
      | 3 => .csr
      | _ => .store
    some { num := num, seq := at' 8 4, addr := word (at' 0 8), size := size, bytes := ((bs.drop 32).take size).map some, kind := kind,
           state := match st with | 1 => .lost | 2 => .acked | 3 => .refused 0 true | _ => .withheld, after := [], objs := [], old := 0,
           said := word (at' 0 8), missed := false, dram := false, ahead := 0 }

/-- A value of a B latch as WF64 (R187). -/
def MVal.wf : MVal → Word
  | .fin sig e => (roundSigned sig e false).1
  | .inf neg => wInf neg
  | .nan _ => qNaN

/-- The per-thread-set record of a section (R382): counters, issued and sealed counts, the open batch, pending
marks, drain status and fault stop, with the context's meter in that of TS0. -/
def ThreadSet.image (a : ThreadSet) (meter : Nat) : List Nat :=
  let marks := a.eng.pend.foldl (fun n p => n ||| 2 ^ p.1) 0
  [a.eng.ce, a.eng.me, a.eng.issued, a.eng.sealed, a.eng.copies.countP (fun c => c.batch.isNone), marks % 2 ^ 64, marks / 2 ^ 64,
   a.eng.drain.toNat] ++
  (match a.stops.fault with
    | some (n, f) => [n + 2 ^ 32, f.cause.code + 256 * f.index + 2 ^ 16 * f.sub, f.fw2.toNat, f.fw3.toNat, f.fw4.toNat]
    | none => [0, 0, 0, 0, 0]) ++ List.replicate 17 0 ++ [meter, 0]

/-- The tile record of a section (R382). -/
def State.tileImage (s : State) (t : Nat) : List Nat :=
  let x := s.tile t
  [x.mbox.head, x.mbox.tail, at_ 0 6 x.mbox.hwm + at_ 7 17 x.mbox.spBase + at_ 24 15 x.mbox.spSize, x.mbox.spills, x.mbox.ring.length,
   x.mx.table.toNat] ++
  (List.range 16).map (fun i => match AMap.find i x.mx.owner with | some k => k + 1 | none => 0) ++
  (List.range 4).map fun i => match (s.ts (4 * t + i)).eng.recs with | r :: _ => r.num | [] => 0

/-- Writes the pool image of a tile (R109, R382): the pool's bytes, with the frames, the accumulators and the
queue as the hardware holds them. -/
def State.savePool (s : State) (t a : Nat) : State :=
  let p := (s.tile t).conf.part
  let n := partTs p
  let s := (s.showAccs t).copyRange (poolKey t 0) a 0x20000
  let s := (List.range n).foldl (fun s i => s.putWords (a + 0x20000 - 2368 * (i + 1)) (s.ts (4 * t + i)).regs.frame) s
  let s := (List.range (field p 8 5)).foldl (fun s j =>
    s.putWords (a + accBase p + 1024 * j) (((s.tile t).acc j).flatMap AccElem.image)) s
  let recs := (List.range n).flatMap fun i => (s.ts (4 * t + i)).eng.recs
  s.putWords (a + queueBase p) (recs.flatMap MRec.image)

/-- The work of the save engines on a tile's pool, at the cost of context 0 (R402). -/
def State.chargeSave (s : State) (t : Nat) : State := s.charge t 0 7 (units8 0x20000)
/-- Writes the section of a tile (R382): what no record fills reads as zero, a free journal entry with STATE 0. -/
def State.saveSection (s : State) (ctx t a : Nat) : State :=
  let s := ((s.savePool t a).zeroRange (a + 0x20000) 0x10000).chargeSave t
  let s := (List.range 4).foldl (fun s i =>
    let e := (s.ts (4 * t + i)).eng
    let s := e.journal.foldl (fun s j => s.putAll (a + 0x20000 + 3072 * i + 96 * j.num) j.image) s
    s.putWords (a + 0x23000 + 192 * i) (e.binds.flatMap fun b => [b.1.toNat, b.2.1.toNat, b.2.2])) s
  let s := (List.range 8).foldl (fun s n => match AMap.find n (s.tile t).slots with
    | some z => ((s.putAll (a + 0x23400 + 128 * n) z.desc.raw).putNum (a + 0x23440 + 128 * n) 8 (s.slotStatus z.ts n).toNat).putNum
        (a + 0x23448 + 128 * n) 8 (tsNum z.ts)
    | none => s) s
  let m := (AMap.get ⟨0, false⟩ ctx (s.tile t).meters).word.toNat
  let s := (List.range 4).foldl (fun s i => s.putWords (a + 0x23800 + 256 * i) ((s.ts (4 * t + i)).image (if i = 0 then m else 0))) s
  let s := s.putWords (a + 0x23C00) (s.tileImage t)
  (List.range 4).foldl (fun s i => s.putWords (a + 0x24000 + 6144 * i) ((s.ts (4 * t + i)).eng.latch.map fun v => v.wf.toNat)) s

/-- Clears the header and SECTDONE, then writes sections and their bits, in the order given (R382); a withdrawn coordinate has
no tile to write. -/
def State.saveSections (s : State) (r a : Nat) (is : List Nat) : State :=
  let g := s.region r
  let s := s.zeroRange a (sectionAt 0 g.sections 0)
  is.foldl (fun s i =>
    let s := match g.tileAt? (g.coords.getD i 0) with
      | some t => s.saveSection g.ctx t (sectionAt a g.sections i)
      | none => s
    let k := a + 0x1000 + i / 8
    s.putByte k (s.byte k ||| BitVec.ofNat 8 (2 ^ (i % 8)))) s

/-- The tiles of a region as they are kept beside the image. -/
def State.savedTiles (s : State) (r : Nat) : List SavedTile :=
  let g := s.region r
  g.coords.filterMap fun c => (g.tileAt? c).map fun t =>
    { coord := c, tile := s.tile t, tss := (List.range 4).map fun i => s.ts (4 * t + i) }

/-! ## Save (R384, R387, R388) -/

/-- Posts the arrival that ends a save or restore (R306, R384). -/
def State.saveArrival (s : State) (w : SaveWork) (flt : Bool) : State :=
  match w.lw with
  | some (t, off) => { s with landings := s.landings ++ [⟨t, off, 8, flt, false, none⟩] }
  | none => s

/-- Writes a completion entry of a host queue (R350): CTAG, STATUS, the phase bit and RESULT. A queue that has been disabled since
gets none (R351). -/
def State.pushCompletion (s : State) (q tag status : Nat) (result : Word) : State :=
  let z := s.queue q
  if !bitAt z.qcfg 0 then s
  else
    let lg := field z.qcfg 4 4
    let a := hostKey (z.cqbase.toNat + 16 * z.ctail)
    let s := ((((s.putNum a 4 tag).putNum (a + 4) 1 status).putNum (a + 5) 1 z.phase.toNat).putNum (a + 6) 2 0).putNum (a + 8) 8 result.toNat
    s.updQueue q fun z => { z with ctail := (z.ctail + 1) % 2 ^ lg, phase := if (z.ctail + 1) % 2 ^ lg = 0 then !z.phase else z.phase }
/-- A command completes: its changes and the new position of the completion ring are one update of the front end (R364, R440). -/
def State.hostComplete (s : State) (q tag status : Nat) (result : Word) : State := (s.pushCompletion q tag status result).commitUpdate
/-- Ends the command that a queue is executing. A number from 64 up stands for a queue that has been disabled since (R351). -/
def State.endCommand (s : State) (q tag status : Nat) (result : Word) : State :=
  if 64 ≤ q then s.commitUpdate
  else ((s.pushCompletion q tag status result).updQueue q fun z =>
    { z with busy := false, head := (z.head + 1) % 2 ^ field z.qcfg 4 4 }).commitUpdate

/-- Whether a field of a region is thermally gated (R398). -/
def State.regionGated (s : State) (r : Nat) : Bool := (s.region r).tilesOf.any fun t => (s.fieldRec (fieldOf t)).gated
/-- Whether no acknowledgement, refusal or arrival of a region is in flight and every accepted copy has completed
(R384 steps 2 and 3). -/
def State.saveQuiet (s : State) (r : Nat) : Bool :=
  (s.region r).tilesOf.all (fun t => (List.range 4).all fun i =>
    let e := (s.ts (4 * t + i)).eng
    e.copies.isEmpty && e.journal.all fun j => match j.state with | .done => false | .refused _ rep => rep | _ => true) &&
  s.landings.all fun l => s.rgnOf l.tile ≠ r || l.copy.isNone

/-- A tile gives up the context that it held (R327): clocks and registers of the tile stay. -/
def State.vacateTile (s : State) (ctx t : Nat) : State :=
  let s := (List.range 4).foldl (fun s i => (s.dropFlight (4 * t + i)).setTs (4 * t + i) ThreadSet.init) s
  s.updTile t fun x => { Tile.init with
    cycle := x.cycle, csr := x.csr, meters := AMap.put ⟨0, false⟩ ctx ⟨0, false⟩ x.meters, cap := x.cap, entry := x.entry,
    mx := { MatrixUnit.init with lastOp := x.mx.lastOp } }
/-- The save engines give up what they have accepted for a region: a CTXSV or CTXRS among it has its arrival, with FLT, and a
PREEMPT ends with STATUS 5. -/
def State.dropSaves (s : State) (r : Nat) : State :=
  let g := s.region r
  (g.saving.toList ++ g.saveNext).foldl (fun s w => match w.host with
    | some (q, tag) => s.endCommand q tag 5 0
    | none => s.saveArrival w true) (s.updRegion r fun g => { g with saving := none, saveNext := [] })
/-- A region stops being resident (R327). -/
def State.vacate (s : State) (r : Nat) : State :=
  let s := (s.dropSaves r).closeBoundary r
  let g := s.region r
  let s := g.tilesOf.foldl (fun s t => s.vacateTile g.ctx t) s
  { s with regions := AMap.del r s.regions, tlb := s.tlb.filter fun e => e.ctx ≠ g.ctx,
           landings := s.landings.filter fun l => !(g.tilesOf.contains l.tile) }

/-- The requests that a save has held are discarded (R384 step 5): their entries wait for a restore. -/
def State.discardHeld (s : State) (r : Nat) : State :=
  (s.region r).tilesOf.foldl (fun s t => (List.range 4).foldl (fun s i =>
    s.updTs (4 * t + i) fun a => { a with eng := { a.eng with journal := a.eng.journal.map fun e =>
      if e.state = .pending ∨ e.state = .held then { e with state := .lost } else e } }) s) s

/-- Whether a save can come about: accepted, and for a host command or a dump the cut has closed; the engines
are quiet, or the cut is not closed and the work is refused (R384 step 1). -/
def State.canSave (s : State) (r : Nat) : Bool :=
  match (s.region r).saving with
  | some w =>
    s.hasRegion r && w.save && (w.host.isNone || s.frontEnd) &&
      (if (s.region r).cut.phase = 2 then s.saveQuiet r else w.lw.isSome)
  | none => false
/-- CONTEXT_SAVE (R384, R387, R388): sections and header are written, the arrival is posted. A region that the
host pre-empts is then resident no more, and its command completes; a core dump is not resumable. -/
def State.contextSave (s : State) (r : Nat) : State :=
  match (s.region r).saving with
  | none => s
  | some w =>
    let s := s.updRegion r Region.nextSave
    if (s.region r).cut.phase ≠ 2 then s.saveArrival w true
    else
      let g := s.region r
      let keep : Saved := ⟨w.host.isSome, { g with st := if w.host.isSome then .saved else g.st, saving := none, saveNext := [] }, s.savedTiles r⟩
      let s := (s.saveSections r w.area (List.range g.sections)).saveHeader r w.area (saveFlags (!w.dump) w.dump w.wdx false)
      let s : State := if w.dump then s else { s with saves := AMap.ins w.area keep s.saves }
      match w.host with
      | some (q, tag) => (s.vacate r).endCommand q tag 0 0
      | none => (s.discardHeld r).saveArrival w false
/-- CONTEXT_SAVE. -/
def execContextSave (rgn : Nat) (s : State) : Res := whenEnabled "CONTEXT_SAVE" (s.canSave rgn) (s.contextSave rgn)

/-- Whether a save is in progress whose deadline can pass: the cut has closed (R384, R387), and no field of the region is
gated (R398). -/
def State.canExpire (s : State) (r : Nat) : Bool :=
  match (s.region r).saving with
  | some w => s.hasRegion r && w.save && (w.host.isNone || s.frontEnd) && decide ((s.region r).cut.phase = 2) && !s.regionGated r
  | none => false
/-- SAVE_DEADLINE_EXPIRY (R306, R387): the sections completed so far (bit i of the choice for section i) are marked, the
header is not resumable, the region is frozen where it stands with a record that names them at the manager core of its first
field, and the arrival carries FLT. The spec names no STATUS for a PREEMPT that ends so: it is a free value. -/
def State.saveDeadline (s : State) (r : Nat) : State :=
  match (s.region r).saving with
  | none => s
  | some w =>
    let (n, s) := s.choose
    let g := s.region r
    let done := (List.range g.sections).filter fun i => n.testBit i
    let s := (s.saveSections r w.area done).saveHeader r w.area (saveFlags false w.dump w.wdx true)
    let f : FaultInfo := ⟨.deadlock, 255, 0, word w.area, word done.length, 0⟩
    let s := s.trace r 5 0 0 0 (faultWord0 ⟨r, 0, 0, 0, 0, false⟩ f 2 g.serial) w.area done.length
    let s := s.fwRecord g.firstField (.save r w.area done)
    let s := s.updRegion r fun g => { g.nextSave with st := .ended, outcome := .failed }
    match w.host with
    | some (q, tag) => let (v, s) := s.free
      s.endCommand q tag (field v 0 8) 0
    | none => s.saveArrival w true
/-- SAVE_DEADLINE_EXPIRY. -/
def execSaveDeadlineExpiry (rgn : Nat) (s : State) : Res :=
  whenEnabled "SAVE_DEADLINE_EXPIRY" (s.canExpire rgn) (s.saveDeadline rgn)

/-! ## Restore (R385) -/

/-- The entries of a saved journal after a restore: what was in flight or held is posted again (R385). -/
def JEntry.reposted (e : JEntry) : JEntry :=
  match e.state with
  | .lost => { e with state := .pending }
  | _ => e
/-- The journal of thread set i of a section, read back (R383). -/
def State.readJournal (s : State) (a i : Nat) (kept : List JEntry) : List JEntry :=
  let read (e : Option JEntry) (n : Nat) : Option JEntry := journalOf e n (s.bytes (a + 0x20000 + 3072 * i + 96 * n) 96)
  let new := ((List.range 32).filter fun n => kept.all fun e => e.num != n).filterMap (read none)
  ((kept.filterMap fun e => read (some e) e.num) ++ new.mergeSort (fun x y => decide (x.seq ≤ y.seq))).map JEntry.reposted
/-- The faults that the resume after a restore reports (R385): one for each withheld REL update, and one for each refused entry
for which none is recorded yet; the area names no cause of a refusal. -/
def State.restoredFaults (s : State) (known : List FaultInfo) (es : List JEntry) : List FaultInfo × State :=
  es.foldl (fun (p : List FaultInfo × State) e => match e.state with
    | .withheld => (p.1 ++ [refusalInfo e 0 false], p.2)
    | .refused sub _ =>
      if known.any fun f => f.fw3 == (refusalInfo e sub false).fw3 then p
      else if sub = 0 then let (w, s) := p.2.free; (p.1 ++ [refusalInfo e (field w 0 8) false], s) else (p.1 ++ [refusalInfo e sub false], p.2)
    | _ => p) (known, s)
/-- The stream slots of a section, read back (R164, R382): the slot that was kept where the area says the same of it. -/
def State.readSlot (s : State) (a t : Nat) (n : Nat) (kept : Option Slot) (tss : List ThreadSet) : Option Slot :=
  let b := a + 0x23400 + 128 * n
  let raw := s.bytes b 64
  let w := word (s.num (b + 0x40) 8)
  let i := s.num (b + 0x48) 8 % 4
  if !bitAt w 63 then none
  else
    let regs := ((tss[i]?).getD ThreadSet.init).regs
    let desc := match kept with
      | some z => if z.desc.raw = raw then z.desc else streamOf (ofBytes raw) raw (AMap.get 0 1 regs.ox) regs.flags (AMap.get 0 3 regs.ox)
      | none => streamOf (ofBytes raw) raw (AMap.get 0 1 regs.ox) regs.flags (AMap.get 0 3 regs.ox)
    let old := kept.getD ⟨4 * t + i, desc, 0, false, false, false, [], [], []⟩
    some { old with ts := 4 * t + i, desc := desc, pos := field w 0 48, ended := bitAt w 61, xovr := bitAt w 60, flt := bitAt w 59, ready := [] }
/-- The B latches of thread set i of a section, read back (R187). -/
def State.readLatch (s : State) (a i : Nat) (kept : List MVal) : List MVal :=
  kept.zipIdx.map fun v =>
    let w := word (s.num (a + 0x24000 + 6144 * i + 8 * v.2) 8)
    if v.1.wf = w then v.1 else mvalOf (wfVal w)

/-- Restores the section of a tile (R385): what R382 gives a place comes from the area; an epilogue's owner is the thread set of
that number on this tile. The records follow one another by thread set, as many as it has issued and not retired (R109, R180). Cap,
entry and the moment of the last op are the tile's own (R391, R392, R396). -/
def State.restoreTile (s : State) (r ctx a t : Nat) (z : SavedTile) : State :=
  let s := (s.copyRange a (poolKey t 0) 0x20000).chargeSave t
  let p := z.tile.conf.part
  let s := z.tss.zipIdx.foldl (fun s q =>
    let k := 4 * t + q.2
    let regs := if q.2 < partTs p then s.readFrame (a + 0x20000 - 2368 * (q.2 + 1)) else q.1.regs
    let binds := (List.range q.1.eng.binds.length).map fun i =>
      let b := a + 0x23000 + 192 * q.2 + 24 * i
      (word (s.num b 8), word (s.num (b + 8) 8), s.num (b + 16) 8)
    let journal := s.readJournal a q.2 q.1.eng.journal
    let (faults, s) := s.restoredFaults q.1.stops.pendingFaults journal
    let c (i : Nat) : Nat := s.num (a + 0x23800 + 256 * q.2 + 8 * i) 8
    let stop := if (c 8) / 2 ^ 32 % 2 = 0 then none
      else ((causeOf (c 9 % 256)).or (q.1.stops.fault.map fun f => f.2.cause)).map fun k =>
        (c 8 % 2 ^ 32, (⟨k, field (word (c 9)) 8 8, field (word (c 9)) 16 8, word (c 10), word (c 11), word (c 12)⟩ : FaultInfo))
    let open' (i : Nat) : Nat := min 256 ((s.num (a + 0x23800 + 256 * i + 16) 8 + 2 ^ 64 - s.num (a + 0x23808 + 256 * i) 8) % 2 ^ 64)
    let first := ((List.range q.2).map open').sum
    let recs := (List.range (open' q.2)).map fun i =>
      recOf (q.1.eng.recs[i]?) ((List.range 4).map fun w => s.num (a + queueBase p + 32 * (first + i) + 8 * w) 8)
    s.setTs k { q.1 with
      regs := regs,
      task := q.1.task.map fun a => { a with epi := a.epi.map fun e => (4 * t + tsNum e.1, e.2) },
      stops := { q.1.stops with cut := true, trellis := s.trellised t, fault := stop, pendingFaults := faults },
      eng := { q.1.eng with journal := journal, binds := binds, ce := c 0, me := c 1, issued := c 2, sealed := c 3,
                            drain := word (c 7) &&& 0xFFFFFFFF8FFFFFFF, pend := readPend (c 5 + 2 ^ 64 * c 6) q.1.eng.pend journal, recs := recs,
                            latch := s.readLatch a q.2 q.1.eng.latch } }) s
  let y := s.tile t
  let w := word (s.num (a + 0x238F0) 8)
  let m : Meter := ⟨field w 0 48 * 16 + field w 48 4, bitAt w 63⟩
  let mine := AMap.get ⟨0, false⟩ ctx y.meters
  s.setTile t { z.tile with
    rgn := some r, cycle := y.cycle, csr := y.csr, fwds := y.fwds, stopping := true, stopped := true, cap := y.cap, entry := y.entry,
    slots := (List.range 8).filterMap (fun n => (s.readSlot a t n (AMap.find n z.tile.slots) ((List.range 4).map fun i => s.ts (4 * t + i))).map fun x => (n, x)),
    mx := { z.tile.mx with
      lastOp := y.mx.lastOp, accs := s.readAccs a p, table := word (s.num (a + 0x23C28) 8),
      owner := (List.range 16).filterMap fun i => match s.num (a + 0x23C30 + 8 * i) 8 with | 0 => none | k + 1 => some (i, tsNum k) },
    mbox := { (if s.mode r = 3 then z.tile.mbox else z.tile.mbox.reclocked z.tile.cycle y.cycle) with
      head := s.num (a + 0x23C00) 8, tail := s.num (a + 0x23C08) 8, hwm := s.num (a + 0x23C10) 8 % 64,
      spBase := s.num (a + 0x23C10) 8 / 2 ^ 7 % 2 ^ 17, spSize := s.num (a + 0x23C10) 8 / 2 ^ 24 % 2 ^ 15, spills := s.num (a + 0x23C18) 8 % 2 ^ 32 },
    cycMark := y.cycle, moved := [],
    meters := AMap.put ⟨0, false⟩ ctx (if mine.sat then mine else m) y.meters }

/-- Whether a byte of a save area with n sections is reserved (R382, R383): what follows the header, the end of each section, and
bytes 17 to 31 of each journal entry. -/
def reservedAt (a n k : Nat) : Bool :=
  let q := (k - sectionAt a n 0) % 0x30000
  (decide (a + 0x88 ≤ k) && decide (k < a + 0x1000)) ||
    (decide (sectionAt a n 0 ≤ k) && decide (k < sectionAt a n n) &&
      (decide (0x2A000 ≤ q) || (decide (0x20000 ≤ q) && decide (q < 0x23000) && decide (17 ≤ (q - 0x20000) % 96) && decide ((q - 0x20000) % 96 < 32))))
/-- Whether a save area can be restored into a region of a size (R385); a reserved byte that is not zero makes it none (R11). -/
def State.resumable (s : State) (a : Nat) (g : Region) : Bool :=
  let gw := word (s.num (a + 0x10) 8)
  let flags := s.num (a + 6) 2
  decide (s.num a 4 = 0x41564153) && decide (s.num (a + 4) 2 = 1) && decide (flags % 2 = 1) && decide (flags < 16) &&
    decide (field gw 16 8 = g.cw) && decide (field gw 24 8 = g.ch) && decide (field gw 32 32 = 0) &&
    s.mem.all fun p => !reservedAt a g.sections p.1

/-- What a save area holds beside the fields to which R382 gives a place (assumption 109): what was kept when an area of that
size was saved at the address, or else when the context of the header was; for a context that no save has kept, what the
region holds. -/
def State.keptFor (s : State) (r a : Nat) : Saved :=
  let g := s.region r
  let fits (z : Saved) : Bool := z.region.cw == g.cw && z.region.ch == g.ch
  match (AMap.find a s.saves).filter fits with
  | some z => z
  | none => match s.saves.find? fun p => decide (p.2.region.ctx = s.num (a + 8) 2) && fits p.2 with
    | some p => p.2
    | none => ⟨false, g, s.savedTiles r⟩
/-- The fault tokens that a halt of a region by its Potting shed has left undelivered (R370), with their tiles. -/
def State.recordedTokens (s : State) (r : Nat) : List (Nat × Mail) :=
  if (s.region r).shedStop then
    (s.region r).tilesOf.flatMap fun t => ((s.tile t).mbox.mails.filter fun m => m.kind = .fault && !m.taken).map fun m => (t, m)
  else []
/-- Recorded fault tokens are delivered again after a relaunch or a restore (R370). -/
def State.deliverTokens (s : State) (l : List (Nat × Mail)) : State :=
  l.foldl (fun s p => let (pos, s) := s.nextPos p.1; s.putMailFor 0 p.1 { p.2 with pos := pos }) s
/-- Writes a saved context back into a resident region (R385): its record keeps number, geometry and
substitutions, and stays stopped by the cut. Tokens that a halt had recorded are delivered (R370). -/
def State.restoreInto (s : State) (r a : Nat) : State :=
  let z := s.keptFor r a
  let tokens := s.recordedTokens r
  let g := s.region r
  let csr := (0x004, 0x78) :: ((List.range 10).map fun i => (0x40 + i, 0x18 + 8 * i)) |>.foldl
    (fun m p => csrPut m p.1 (word (s.num (a + p.2) 8 &&& csrMask p.1))) z.region.csr
  let s := s.updRegion r fun g => { z.region with
    ctx := g.ctx, geom := g.geom, subst := g.subst, st := g.st, saving := g.saving, saveNext := g.saveNext, csr := csr, cut := { g.cut with phase := 2 },
    energyAt := g.energyAt, shedStop := false }
  State.deliverTokens (z.tiles.foldl (fun s q => match g.tileAt? q.coord with
    | some t => s.restoreTile r g.ctx (sectionAt a g.sections (cy q.coord * (4 * g.cw) + cx q.coord)) t q
    | none => s) s) tokens

/-- Whether a restore has been accepted. -/
def State.canRestore (s : State) (r : Nat) : Bool :=
  match (s.region r).saving with | some w => s.hasRegion r && !w.save && (w.host.isNone || s.frontEnd) | none => false
/-- CONTEXT_RESTORE (R385): without a resumable area of that size only the arrival is posted, with FLT. A RESUME
command goes on to release the region. -/
def State.contextRestore (s : State) (r : Nat) : State :=
  match (s.region r).saving with
  | none => s
  | some w =>
    let ok := s.resumable w.area (s.region r)
    let s := s.updRegion r Region.nextSave
    let s := if ok then s.restoreInto r w.area else s
    match w.host with
    | none => s.saveArrival w (!ok)
    | some (q, tag) =>
      if ok then
        let s : State := { s with saves := (AMap.del w.area s.saves).filter fun p => !(p.2.away && p.2.region.ctx == (s.region r).ctx) }
        ((s.updRegion r fun g => { g with st := .running, modeOn := g.rplMode, calm := true }).cutResume r).endCommand q tag 0 0
      else (s.vacate r).endCommand q tag 2 0
/-- CONTEXT_RESTORE. -/
def execContextRestore (rgn : Nat) (s : State) : Res :=
  whenEnabled "CONTEXT_RESTORE" (s.canRestore rgn) (s.contextRestore rgn)

/-! ## Watchdog (R386, R387) -/

/-- Whether the watchdog of a region can expire: it is enabled, the region is running, and neither a gated field nor a
halted cluster of the region makes it pause (R386, R398, R414). -/
def State.canWatch (s : State) (r : Nat) : Bool :=
  s.hasRegion r && bitAt (csrOf (s.region r).csr 0x106) 16 && decide ((s.region r).st = .running) && !s.regionGated r &&
    (s.region r).tilesOf.all fun t => !s.trellised t
/-- WATCHDOG_EXPIRY (R386, R387): the region is halted; a save in progress goes on and is marked; with DUMPADDR
nonzero a cut is taken and a core dump saved there. -/
def State.watchdog (s : State) (r : Nat) : State :=
  let s := s.haltRegion r 4
  match (s.region r).saving with
  | some w => s.updRegion r fun g => { g with saving := some { w with wdx := true } }
  | none =>
    let a := csrOf (s.region r).csr 0x108
    if a = 0 then s
    else
      let s := s.updRegion r fun g => { g with saving := some ⟨true, a.toNat, none, true, false, none⟩ }
      if (s.region r).cut.phase = 0 then s.cutRequest r 3 else s
/-- WATCHDOG_EXPIRY. -/
def execWatchdogExpiry (rgn : Nat) (s : State) : Res :=
  whenEnabled "WATCHDOG_EXPIRY" (s.canWatch rgn) (s.watchdog rgn)

end Sys2Proof.Machine
end

