-- ==== Sys2Proof/Machine/Launch.lean ====
section
/-! DEFINITION. Seed images, launches and launch deltas (R345 to R349, R352 to R354): reading and checking an
image, starting a configuration, the records of a sequencing program, and the steps of a delta. -/

namespace Sys2Proof.Machine

open Sys2Proof

/-! ## Reading an image (R345, R346) -/

/-- Memory key of a byte that a host command names (R345, R67): host memory, or the context's DRAM. -/
def State.imageKey (s : State) (r : Nat) (a : Word) (i : Nat) : Option Nat :=
  let n := field a 0 (if space a = 8 then 52 else 57) + i
  if space a = 8 then some (hostKey n)
  else if space a ≠ 3 then none
  else match s.walk r n with
    | .leaf e bits =>
      let p := field e 8 38 * 256 + n % 2 ^ bits
      if leafAllows e .read && !bitAt e 45 && s.owner p == (s.region r).ctx && !s.poisoned p 1 then some p else none
    | .bad _ _ => none
/-- n bytes of an image, when all of them can be read. -/
def State.imageBytes (s : State) (r : Nat) (a : Word) (n : Nat) : Option (List Byte) :=
  (List.range n).mapM fun i => (s.imageKey r a i).map s.byte

/-- A section of an image (R346). -/
structure Section where
  kind  : Nat
  index : Nat
  off   : Nat
  len   : Nat
  deriving DecidableEq, Repr

/-- A little-endian number inside a byte string. -/
def numAt (bs : List Byte) (o n : Nat) : Nat := ofBytes ((bs.drop o).take n)
/-- The section table (R346). -/
def sectionsOf (bs : List Byte) : List Section :=
  (List.range (numAt bs 6 2)).map fun i =>
    let e := 0x80 + 16 * i
    ⟨numAt bs (e + 11) 1, numAt bs (e + 8) 2, numAt bs e 8, numAt bs (e + 12) 4⟩
/-- Whether two sections overlap. -/
def Section.meets (x y : Section) : Bool := decide (x.off < y.off + y.len) && decide (y.off < x.off + x.len)
/-- Whether each section is apart from those after it. -/
def apart : List Section → Bool
  | [] => true
  | x :: l => l.all (fun y => !x.meets y) && apart l
/-- The checks of R345 and R347 on header and table, reserved bytes among them (R11). -/
def headerChecks (bs : List Byte) : Bool :=
  let n := numAt bs 6 2
  decide (numAt bs 0 4 = 0x44454553) && decide (numAt bs 4 2 = 1) && decide (1 ≤ n ∧ n ≤ 1024) && decide (numAt bs 8 8 = bs.length) &&
    decide (numAt bs 0x40 64 = 0) && (List.range n).all (fun i => decide (numAt bs (0x80 + 16 * i + 10) 1 = 0)) &&
    (bs.drop 0x10).take 48 == sha384 (bs.drop 0x80) &&
    (sectionsOf bs).all (fun x => decide (1 ≤ x.kind ∧ x.kind ≤ 5) && decide (x.off + x.len ≤ bs.length)) && apart (sectionsOf bs)

/-- The bytes of a section. -/
def Section.bytes (x : Section) (bs : List Byte) : List Byte := (bs.drop x.off).take x.len
/-- The sections of a KIND by number, each read by `f`; none when one cannot be read. -/
def readSections {β : Type} (bs : List Byte) (kind : Nat) (f : List Byte → Option β) : Option (AMap β) :=
  ((sectionsOf bs).filter fun x => x.kind = kind).foldl
    (fun m x => match m, f (x.bytes bs) with | some m, some v => some (AMap.ins x.index v m) | _, _ => none) (some [])
/-- The words of a port-binding table (R348). -/
def bindWords (bs : List Byte) : List Word := (List.range (bs.length / 8)).map fun i => word (numAt bs (8 * i) 8)
/-- Whether a port-binding entry has its reserved fields zero, and EPORT or OPORT where EK does not use it (R11, R348). -/
def bindOk (w : Word) : Bool :=
  field w 45 18 == 0 && field w 0 12 == 0 && (if bitAt w 63 then field w 36 9 == 0 else field w 32 4 == 0)
/-- A sequencing program (R349): (OP, COND, ARG) of each record; none when an OP or COND is reserved or a reserved byte is
not zero (R11). -/
def progOf (bs : List Byte) : Option (List (Nat × Nat × Nat)) :=
  let l := (List.range (bs.length / 16)).map fun i => (numAt bs (16 * i) 1, numAt bs (16 * i + 1) 1, numAt bs (16 * i + 8) 8)
  if (l.all fun p => decide (p.1 ≤ 5) && decide (p.2.1 ≤ 2)) && (List.range (bs.length / 16)).all fun i => numAt bs (16 * i + 2) 6 == 0 then
    some l
  else none

/-- Whether the port-binding table binds the output port of an edge: a tile's own, or that of a stage by a replica's
coordinate (R318, R348). -/
def boundPort (bound : List (Nat × Nat)) (stages : AMap Stage) (e : Nat) (d : EdgeConf) : Bool :=
  (match d.src with | some t => bound.contains (t, d.oport) | none => false) ||
    stages.any fun p => p.2.outs.any fun o => o.2 == e && p.2.replicas.any fun c => bound.contains (c, o.1)
/-- An edge whose output port is bound leads to DRAM (R318, R348). -/
def EdgeConf.bind (d : EdgeConf) (bound : Bool) : EdgeConf := if bound then { d with dst := .dram } else d
/-- The output ports that the port-binding table binds lead to DRAM (R318, R348). -/
def ConfImage.bindPorts (bound : List (Nat × Nat)) (c : ConfImage) : ConfImage :=
  { c with edges := c.edges.zipIdx.map fun p => p.1.bind (boundPort bound c.stages p.2 p.1) }
/-- The edges of a delta as the configuration that runs has them (R318, R348, R354): one leads to DRAM when the table binds its
output port, or when it takes the place of an edge that leads there from the same port. -/
def bindDelta (bound : List (Nat × Nat)) (edges : AMap Edge) (d : List TileConf × AMap EdgeConf) : List TileConf × AMap EdgeConf :=
  (d.1, d.2.map fun p => (p.1, p.2.bind (boundPort bound [] p.1 p.2 ||
    (match AMap.find p.1 edges with | some e => e.dst == .dram && e.src == p.2.src && e.oport == p.2.oport | none => false))))

/-- An image as the front end reads it: none when header, table or a section is not in order. -/
def readImage (bs : List Byte) : Option Image :=
  if !headerChecks bs then none
  else match readSections bs 1 Config.decodeConf, readSections bs 3 progOf, readSections bs 4 Config.decodeDelta, readSections bs 5 Config.decodeData with
    | some cs, some ps, some ds, some xs =>
      let ws := ((sectionsOf bs).filter fun x => x.kind = 2).flatMap fun x => bindWords (x.bytes bs)
      let bound := (ws.filter fun w => bitAt w 63).map fun w => (packXY (field w 12 10) (field w 22 10), field w 32 4)
      if !ws.all bindOk then none
      else some
           { confs := cs.map fun p => (p.1, p.2.bindPorts bound), bound := bound, ports := (ws.filter fun w => !bitAt w 63).map fun w => field w 36 9,
             progs := ps, deltas := ds, datas := xs.map Prod.snd }
    | _, _, _, _ => none

/-! ## Checks of a configuration (R347) -/

/-- The node that feeds an edge of a configuration: a stage, a tile, or neither (host). -/
def ConfImage.source (c : ConfImage) (e : Nat) (d : EdgeConf) : Option Nat :=
  match c.stages.find? fun p => p.2.outs.any fun o => o.2 == e with
  | some p => some (2 ^ 20 + p.1)
  | none => d.src
/-- The node that an edge feeds. -/
def EdgeConf.sink (d : EdgeConf) : Option Nat :=
  match d.dst with | .tile c _ => some c | .stage n => some (2 ^ 20 + n) | .dram => none
/-- Removes the edges that start where nothing arrives; what is left after as many passes as there are edges is a
cycle. -/
def cyclic : Nat → List (Nat × Nat) → Bool
  | 0, l => !l.isEmpty
  | n + 1, l => cyclic n (l.filter fun e => l.any fun d => d.2 == e.1)
/-- Whether every static cycle holds an initial token (R68). -/
def ConfImage.cyclesOk (c : ConfImage) : Bool :=
  let l := c.edges.zipIdx.filterMap fun p => if p.1.initial ≠ 0 then none
    else match c.source p.2 p.1, p.1.sink with | some a, some b => some (a, b) | _, _ => none
  !cyclic l.length l
/-- Bytes that a tile's ports reserve (R39). -/
def TileConf.reserve (x : TileConf) (edges : List EdgeConf) : Nat :=
  x.ports.foldl (fun n p => match p.2.edge.bind (edges[·]?) with | some d => n + d.depth * (d.len + 1) * 16 | _ => n) 0
/-- Whether a coordinate lies in a region's user rectangle (R347). -/
def Region.userCoord (g : Region) (c : Nat) : Bool := decide (cx c < 4 * g.cw) && decide (cy c < 4 * g.ch) && !inShed c
/-- Whether a record configures a tile of the Potting shed (R369): a supervisor actor, which has no place in the user graph
(R23; assumption 89). -/
def TileConf.shed (x : TileConf) : Bool :=
  inShed x.coord && x.outs.isEmpty && x.ports.all (fun p => p.2.edge.isNone) && decide (x.actor ≠ some .stateless) && decide (x.actor ≠ some .range)
/-- The checks of R347 on one tile of a configuration. -/
def TileConf.ok (x : TileConf) (g : Region) (edges : List EdgeConf) (stages : AMap Stage) : Bool :=
  partLegal x.part && (g.userCoord x.coord || x.shed) && decide (x.reserve edges ≤ mboxSize x.part) &&
    (match x.actor with
      | some .stateful => true
      | some _ => stages.any fun p => p.2.replicas.contains x.coord
      | _ => true)
/-- The limits of R37 and R39 on a tile's tables: handlers, input ports with their sink counts, output ports. -/
def TileConf.inLimits (x : TileConf) : Bool :=
  (x.handlers ++ x.epilogues).all (fun p => decide (p.1 ≤ 63)) && x.outs.all (fun p => decide (p.1 ≤ 15)) &&
    x.ports.all fun p => decide (p.1 ≤ 4095) && (match p.2.sink with | some n => decide (1 ≤ n ∧ n < 2 ^ 32) | _ => true)
/-- The limits of R37 and R39 on an edge: depth, initial tokens, LENGTH and ports. -/
def EdgeConf.inLimits (d : EdgeConf) : Bool :=
  decide (1 ≤ d.depth ∧ d.depth ≤ 256) && decide (d.initial ≤ d.depth) && decide (1 ≤ d.len ∧ d.len ≤ 15) && decide (d.oport ≤ 15) &&
    decide (d.port ≤ 4095)
/-- The limits of R37 and R70 on a stage: output ports, replicas, a minimum of at least 1 and at most the maximum, slice size. -/
def Stage.inLimits (x : Stage) : Bool :=
  x.outs.all (fun p => decide (p.1 ≤ 15)) && decide (1 ≤ x.replicas.length ∧ x.replicas.length ≤ 4096) && decide (1 ≤ x.minR ∧ x.minR ≤ x.maxR ∧ x.maxR ≤ 4096) &&
    (decide (x.kind ≠ .range) || decide (1 ≤ x.slice ∧ x.slice ≤ 2 ^ 32))
/-- Whether a configuration lies within the limits of R37, R39 and R70. -/
def ConfImage.inLimits (c : ConfImage) : Bool :=
  c.tiles.all TileConf.inLimits && c.edges.all EdgeConf.inLimits && c.stages.all fun p => decide (p.1 ≤ 63) && p.2.inLimits
/-- The checks of R37, R108 and R347 on a configuration. -/
def ConfImage.ok (c : ConfImage) (g : Region) : Bool :=
  c.tiles.all (fun x => x.ok g c.edges c.stages) && c.cyclesOk && cmplOk c.cmpl && c.inLimits &&
    c.edges.all (fun d => !(d.dst == .dram && decide (d.initial ≠ 0))) &&
    c.stages.all fun p => partLegal p.2.conf.part && p.2.replicas.all g.userCoord
/-- Whether the edges of a configuration image keep to the region's user rectangle (R347); a delta may leave an edge that
does not (R342). -/
def ConfImage.inside (c : ConfImage) (g : Region) : Bool :=
  c.edges.all fun d => (match d.dst with | .tile t _ => g.userCoord t | _ => true) && (match d.src with | some t => g.userCoord t | none => true)
/-- The sections that a program names are present (R347). -/
def Image.namesOk (i : Image) : Bool :=
  i.progs.all fun p => p.2.all fun q =>
    (decide (q.1 ≠ 1) || (AMap.find q.2.2 i.confs).isSome) && (decide (q.1 ≠ 3) || (AMap.find q.2.2 i.deltas).isSome)
/-- All checks of R347 that concern a region. -/
def Image.ok (i : Image) (g : Region) (deadPorts : List Nat) : Bool :=
  !i.ports.isEmpty && i.ports.all (fun p => !deadPorts.contains p) && i.namesOk && i.confs.all fun c => c.2.ok g && c.2.inside g

/-! ## A launch (R352) -/

/-- An edge as a launch sets it up (R39, R311): its initial tokens are its first sends. -/
def EdgeConf.edge (d : EdgeConf) : Edge :=
  { Edge.init with dst := d.dst, port := d.port, depth := d.depth, initial := d.initial, len := d.len, credits := d.depth - d.initial,
                   next := d.initial, src := d.src, oport := d.oport }

/-- Writes bytes of a data image to the context's DRAM line by line (R352); what cannot be written is reported
as a failed access is (R176), one whose page has no translation once for the lines of the page (R340). The fuel is the number of
bytes. -/
def State.writeDram (s : State) (r a : Nat) (bs : List Byte) (bad : Option Nat) : Nat → State
  | 0 => s
  | k + 1 =>
    if bs.isEmpty then s
    else
      let n := min bs.length (64 - a % 64)
      let s := match s.portFor r ((s.region r).physOf 0) with
        | none => s
        | some p => match s.dramKey r p a n .write with
          | (.key q, s) => s.putAll q (bs.take n)
          | (.remote d b, s) => match s.boderAsk p (remoteAsk d (s.region r).ctx 1 b n ((bs.take n).map some)) with
            | (0, s) => s
            | (c, s) => s.dramRefused false false r p c false a
          | (.refused c m w, s) => s.dramRefused (bad == some (a / 65536)) w r p c m a
      let failed := match s.portFor r ((s.region r).physOf 0) with | some p => (s.frameOf r p a).isNone | none => false
      s.writeDram r (a + n) (bs.drop n) (if failed then some (a / 65536) else none) k

/-- An input port at which nothing has happened. -/
def Port.fresh (p : Port) : Port := { p with next := 0, counted := 0, reported := false }
/-- A tile's configuration at the start of a launch: nothing has arrived at its ports (R58, R66). -/
def TileConf.fresh (x : TileConf) : TileConf := { x with ports := x.ports.map fun p => (p.1, p.2.fresh) }
/-- The tile of a region as a launch sets it up (R352 steps 1, 4 and 6). -/
def State.launchTile (s : State) (r : Nat) (conf : ConfImage) (c t : Nat) : State :=
  let g := s.region r
  let tc := ((conf.tiles.find? fun x => x.coord == c).getD { TileConf.none with coord := c }).fresh
  let s := (List.range 4).foldl (fun s i => (s.dropFlight (4 * t + i)).setTs (4 * t + i)
    { ThreadSet.init with stops := { Stops.none with trellis := s.trellised t } }) s
  s.updTile t fun x => { Tile.init with
    rgn := some r, coord := c, conf := tc, mx := { MatrixUnit.init with table := csrOf g.csr 0x046, lastOp := x.mx.lastOp }, cycle := x.cycle, cycMark := x.cycle,
    colour := g.colour, live := true, meters := x.meters, csr := x.csr, cap := x.cap, entry := x.entry }

/-- Writes bytes of an image to a tile's pool, at the cost of context 0 (R352, R402). -/
def State.placeBytes (s : State) (t : Nat) (d : Nat × List Byte) : State :=
  (s.putAll (poolKey t d.1) d.2).charge t 0 7 (units8 d.2.length)
/-- Places the initial tokens of an edge (R311), at the cost of context 0 (R402). -/
def State.placeInitial (s : State) (r e : Nat) : State :=
  let g := s.region r
  let d := g.edge e
  (List.range d.initial).foldl (fun s i =>
    let h0 := mkH0 1 0 (s.portHandler r e) 1 0 false 0 i
    let h1 (c : Nat) : Word := mkH1 c (d.src.getD 0) g.ctx d.port
    match d.dst with
    | .tile c _ => match g.translate c true with
      | .at t => let (pos, s) := s.nextPos t
        s.putMailFor 0 t (mkMail .edge d.port h0 (h1 c) zero16 pos (s.clock t) false (some e))
      | _ => s
    | .stage n => s.updStage r n fun x => { x with inbox := AMap.ins i (h0, h1 x.lead, zero16) x.inbox }
    | .dram => s) s

/-- A stage as a launch sets it up: what the image declares of it (R346), nothing dealt, counted or classified yet (R56,
R358), its replicas in row-major order (R443), its read-only data from the data images (R323). -/
def Stage.launched (x : Stage) (n interval : Nat) (datas : List (DataDst × List Byte)) : Stage :=
  { Stage.init with
    kind := x.kind, pipe := x.pipe, minR := x.minR, maxR := x.maxR, slice := x.slice, conf := x.conf.fresh, inEdge := x.inEdge, outs := x.outs,
    replicas := x.replicas.mergeSort (fun a b => decide (a ≤ b)),
    moves := x.replicas.foldl (fun m c => AMap.ins c interval m) [],
    roData := datas.filterMap fun d => match d.1 with | .stage m off => if m = n then some (off, d.2) else none | _ => none }
/-- Writes a data image to DRAM or to a tile (R352 step 2). -/
def State.placeData (s : State) (r : Nat) (d : DataDst × List Byte) : State :=
  match d.1 with
  | .dram a => s.writeDram r a d.2 none d.2.length
  | .tile c off => match (s.region r).tileAt? c with | some t => s.placeBytes t (off, d.2) | none => s
  | .stage _ _ => s
/-- Firmware's default handler stands in where no Potting shed tile of a region has an actor (R369). -/
def State.defaultShed (s : State) (r : Nat) : State :=
  let none := (s.region r).coords.all fun c => !inShed c || (match (s.region r).tileAt? c with | some t => (s.tile t).conf.actor.isNone | none => true)
  s.updRegion r fun g => { g with shedDef := none }
/-- The steps of R352 that a RUN performs on a region. Fault tokens that a halt has recorded are delivered (R370). -/
def State.runConf (s : State) (r : Nat) (conf : ConfImage) (datas : List (DataDst × List Byte)) : State :=
  let s := s.closeBoundary r
  let kept := s.recordedTokens r
  let held (p : Flying) : Bool := (s.region r).shedStop && h0Kind p.h0 == 5
  let s : State := { s with
    net := s.net.filter fun p => decide (field p.h1 12 12 ≠ (s.region r).ctx) || held p,
    landings := s.landings.filter fun l => !((s.region r).tilesOf.contains l.tile) }
  let energy := s.energySoFar r
  let s := s.updRegion r fun g => { g with
    energyAt := energy, st := .running, ran := true, outcome := .pending, dead := false, shedStop := false, modeOn := g.rplMode, calm := true,
    intv := field (csrOf g.csr 0x040) 0 24, freezes := [], cut := Cut.none, stuck := [],
    edges := conf.edges.zipIdx.map fun p => (p.2, p.1.edge),
    stages := conf.stages.map fun p => (p.1, p.2.launched p.1 g.interval datas),
    reports := 0, dorm := (0, 0, 0), portSent := (0, 0), portRecv := (0, 0), order := 0, chunk := [], round := 0,
    csr := csrPut (csrPut (csrPut g.csr 0x043 0) 0x048 conf.lid) 0x049 conf.cmpl }
  let g := s.region r
  let tiles := g.coords.filterMap fun c => (g.tileAt? c).map fun t => (c, t)
  let s := (tiles.foldl (fun s p => s.launchTile r conf p.1 p.2) (s.zeroPools (tiles.map Prod.snd))).defaultShed r
  let s := datas.foldl (fun s d => s.placeData r d) s
  let s := g.stages.foldl (fun s p => p.2.replicas.foldl (fun s c => match g.tileAt? c with
    | some t => p.2.roData.foldl (fun s d => s.placeBytes t d) s
    | none => s) s) s
  let s := ((g.edges.map Prod.fst).foldl (fun s e => s.placeInitial r e) s).feedSources r
  s.deliverTokens kept

/-! ## Deltas (R354) -/

/-- Whether a delta leaves a legal configuration (R354 step 1): the checks of R347 on the region after it. -/
def State.deltaOk (s : State) (r : Nat) (d : List TileConf × AMap EdgeConf) : Bool :=
  let g := s.region r
  let old : List (Nat × EdgeConf) := g.edges.map fun p =>
    (p.1, { dst := p.2.dst, port := p.2.port, depth := p.2.depth, initial := p.2.initial, len := p.2.len, src := p.2.src, oport := p.2.oport })
  let m := d.2.foldl (fun (m : AMap EdgeConf) p => AMap.ins p.1 p.2 m) old
  let edges := (List.range ((m.map Prod.fst).foldl max 0 + 1)).map fun e => AMap.get ⟨.dram, 0, 1, 0, 1, none, 0⟩ e m
  let kept := (g.tilesOf.map fun t => (s.tile t).conf).filter fun x => x.actor.isSome && !d.1.any (fun y => y.coord == x.coord)
  (ConfImage.ok { tiles := d.1 ++ kept, edges := edges, stages := g.stages, lid := 0, cmpl := 3 * 2 ^ 60 } g)

/-- Whether an edge enters an affected tile. -/
def Region.entersDelta (g : Region) (tiles : List TileConf) (e : Edge) : Bool :=
  match e.dst with
  | .tile c _ => tiles.any fun x => x.coord == c
  | .stage n => (g.stage n).replicas.any fun c => tiles.any fun x => x.coord == c
  | .dram => false
/-- Withholds or releases the credits of every edge into the affected tiles (R354 steps 2 and 4). -/
def State.withhold (s : State) (r : Nat) (tiles : List TileConf) (b : Bool) : State :=
  s.updRegion r fun g => { g with edges := g.edges.map fun p => if g.entersDelta tiles p.2 then (p.1, { p.2 with withheld := b }) else p }
/-- Whether no move of the Transplanter to an affected tile is still under way (R354). -/
def Region.movesDone (g : Region) (tiles : List TileConf) : Bool := tiles.all fun x => g.stages.all fun p => !p.2.joining.contains x.coord
/-- Step 2 of R354: a delta withholds the credits into its tiles. -/
def State.deltaBegin (s : State) (r : Nat) : State :=
  match (s.region r).delta with
  | some d => (s.updRegion r fun g => { g with delta := some { d with begun := true } }).withhold r d.tiles true
  | none => s
/-- A delta that has passed step 1 of R354 is in progress; a move that has already begun finishes before step 2. -/
def State.deltaStart (s : State) (r : Nat) (d : List TileConf × AMap EdgeConf) (queue : Option (Nat × Nat)) : State :=
  let s := s.updRegion r fun g => { g with delta := some ⟨d.1, d.2, queue, false⟩, dead := false }
  if (s.region r).movesDone d.1 then s.deltaBegin r else s
/-- Whether a delta in progress can go on to step 2 of R354. -/
def State.deltaPends (s : State) (r : Nat) : Bool :=
  match (s.region r).delta with
  | some d => !d.begun && (s.region r).movesDone d.tiles
  | none => false

/-- Whether an affected tile has drained (R354 step 3). -/
def State.tileDrained (s : State) (t : Nat) : Bool :=
  let x := s.tile t
  x.mbox.mails.isEmpty && x.mbox.ring.isEmpty && s.tileIdle t && (List.range 4).all fun i =>
    let e := (s.ts (4 * t + i)).eng
    e.copies.isEmpty && e.recs.isEmpty && e.journal.isEmpty
/-- Whether every affected tile of a delta has drained. -/
def State.deltaDrained (s : State) (r : Nat) (d : Delta) : Bool :=
  d.tiles.all fun x => match (s.region r).tileAt? x.coord with | some t => s.tileDrained t | none => true

/-- A port keeps its place in the SEQ order when its edge stays (R58). -/
def keepPorts (old new : AMap Port) : AMap Port :=
  new.map fun p => match AMap.find p.1 old with
    | some q => if q.edge = p.2.edge then (p.1, { p.2 with next := q.next, counted := q.counted, reported := q.reported }) else (p.1, p.2.fresh)
    | none => (p.1, p.2.fresh)
/-- Replaces the records of an affected tile (R354 step 4). Its thread sets, which run no task, keep their counters
(R104, R105); where the partition word changes the pool is zeroed, with the register frames and the accumulators in it
(R109), and the read-only data of the tile's stage is written again (R38, R323). -/
def State.deltaTile (s : State) (c : TileConf) (t : Nat) : State :=
  let x := s.tile t
  let s := if c.part = x.conf.part then s
    else
      let s := (List.range 4).foldl (fun s i => s.updTs (4 * t + i) fun a => { a with regs := Regs.zero }) s
      ((s.zeroPools [t]).updTile t fun y => { y with mx := { y.mx with accs := [] } }).putRoData t
        ((s.region (s.rgnOf t)).stage c.stage).roData
  s.updTile t fun x => { x with conf := { c with ports := keepPorts x.conf.ports c.ports } }
/-- Replaces the record of an edge: credits in use stay in use. -/
def Edge.replaced (e : Edge) (d : EdgeConf) : Edge :=
  { e with dst := d.dst, port := d.port, depth := d.depth, initial := d.initial, len := d.len, credits := d.depth - (e.depth - e.credits),
           src := d.src, oport := d.oport }
/-- Whether a PREEMPT of a region is under way. -/
def Region.preempted (g : Region) : Bool := (g.saving.toList ++ g.saveNext).any fun w => w.host.isSome && w.save
/-- A waiting PREEMPT takes its cut once a delta has ended (R354). -/
def State.cutAfterDelta (s : State) (r : Nat) : State :=
  if (s.region r).preempted && decide ((s.region r).cut.phase = 0) then s.cutRequest r 1 else s
/-- A delta is applied (R354 step 4); an edge that it adds starts with its initial tokens (R311). -/
def State.deltaApply (s : State) (r : Nat) (d : Delta) : State :=
  let g := s.region r
  let s := s.withhold r d.tiles false
  let s := s.updRegion r fun g => { g with
    delta := none, edges := d.edges.foldl (fun m p => AMap.ins p.1 (match AMap.find p.1 m with | some e => e.replaced p.2 | none => p.2.edge) m) g.edges }
  let s := (d.tiles.foldl (fun s c => match g.tileAt? c.coord with | some t => s.deltaTile c t | none => s) s).defaultShed r
  let s := d.edges.foldl (fun s p => if (AMap.find p.1 g.edges).isNone then s.placeInitial r p.1 else s) s
  ((s.feedSources r).cutAfterDelta r).wakeAll
/-- A delta is aborted (R354): credits flow again and every tile keeps its records. -/
def State.deltaAbort (s : State) (r : Nat) : State :=
  match (s.region r).delta with
  | none => s
  | some d => ((((s.withhold r d.tiles false).updRegion r fun g => { g with delta := none }).feedSources r).cutAfterDelta r).wakeAll

/-- How a delta that is draining ends now: applied, aborted (status 6), or not yet. -/
def State.deltaEnd (s : State) (r : Nat) : Option (Nat × State) :=
  match (s.region r).delta with
  | none => none
  | some d => if d.begun && s.deltaDrained r d then some (0, s.deltaApply r d) else if (s.region r).dead then some (6, s.deltaAbort r) else none

/-! ## Sequencing (R349, R353) -/

/-- The current record of a region's program: END past the end (R349). -/
def Region.record (g : Region) : Nat × Nat × Nat :=
  match g.image with
  | some i => (AMap.get [] g.progIx i.progs).getD g.seqPos (0, 0, 0)
  | none => (0, 0, 0)
/-- Whether a region's program is at a record with an OP. -/
def State.seqOpen (s : State) (r op : Nat) : Bool :=
  let g := s.region r
  s.hasRegion r && s.frontEnd && !s.links.boot.minimal && g.seqOn && !g.hold && decide (g.record.1 = op)
/-- Whether a region's program is at a record with an OP and may go on: no save of the region is under way. -/
def State.seqAt (s : State) (r op : Nat) : Bool := s.seqOpen r op && (s.region r).saving.isNone
/-- Goes to a record. -/
def State.seqTo (s : State) (r n : Nat) : State := (s.updRegion r fun g => { g with seqPos := n }).commitUpdate
/-- Goes to the next record. -/
def State.seqNext (s : State) (r : Nat) : State := s.seqTo r ((s.region r).seqPos + 1)

/-- Whether every store of a region is performed that can be (R433): none is posted, at an entry port or on its way to one, and no
engine has a copy to do. -/
def State.storesOver (s : State) (r : Nat) : Bool :=
  let reads (body : List Byte) : Bool := field (word (ofBytes ((body.drop 8).take 8))) 60 4 == 0
  (s.dreqs.all fun d => d.rgn != r || reads d.body) &&
    (s.net.all fun f => !(s.toPort f && h0Kind f.h0 == 3 && s.rgnOfCtx (field f.h1 12 12) == r) || reads f.body) &&
    (s.region r).tilesOf.all fun t => (List.range 4).all fun i =>
      let e := (s.ts (4 * t + i)).eng
      (e.copies.isEmpty || !s.engineOn t) &&
        e.journal.all fun j => !(j.state == .pending || j.state == .held) || s.never (4 * t + i) j
/-- Whether the completion entry of the launch may be written when the program ends: every store of a RUN that has ended is
performed (R433). -/
def State.launchDone (s : State) (r : Nat) : Bool := decide ((s.region r).outcome = .pending) || s.storesOver r
/-- The sequence ends (R349, R353): the launch command completes, with a status of its own when a delta failed, at once or, with
`now` false, when the region's stores are performed (R433). -/
def State.seqFinish (s : State) (r : Nat) (status : Option Nat) (now : Bool := true) : State :=
  let g := s.region r
  let s := s.updRegion r fun g => { g with
    seqOn := false, hold := false, launchBy := none, st := if g.st = .running ∧ g.outcome ≠ .pending then .ended else g.st }
  match g.launchBy with
  | some (q, tag, w, st) =>
    if now then s.hostComplete q tag (status.getD st) w
    else (s.updRegion r fun g => { g with endings := g.endings ++ [(q, tag, w, status.getD st)] }).commitUpdate
  | none => s.commitUpdate
/-- The completion entries of a region's ended programs are written. -/
def State.answerEndings (s : State) (r : Nat) : State :=
  (s.region r).endings.foldl (fun s e => s.hostComplete e.1 e.2.1 e.2.2.2 e.2.2.1) (s.updRegion r fun g => { g with endings := [] })
/-- Whether LAUNCH commands whose program was ended complete now (R433). -/
def State.canAnswer (s : State) (r : Nat) : Bool := s.hasRegion r && s.frontEnd && !(s.region r).endings.isEmpty && s.storesOver r
/-- SEQ_END (R349, R433): the program ends at END, or the stores of one that a command has ended are performed. -/
def execSeqEnd (rgn : Nat) (s : State) : Res :=
  whenEnabled "SEQ_END" (s.canAnswer rgn || (s.seqAt rgn 0 && s.launchDone rgn))
    (if s.canAnswer rgn then s.answerEndings rgn else s.seqFinish rgn none)

/-- Whether every copy and record of a region has finished and every journal entry that can be is acknowledged or refused
(R353 step 2). -/
def State.runQuiet (s : State) (r : Nat) : Bool :=
  (s.region r).tilesOf.all fun t => (List.range 4).all fun i =>
    let e := (s.ts (4 * t + i)).eng
    e.copies.isEmpty && e.recs.isEmpty && e.journal.all fun j =>
      (match j.state with | .held | .pending | .done => s.never (4 * t + i) j | _ => true)
/-- Whether a RUN record can make progress: no delta is in progress; the earlier run has an outcome, and what R353
clears has been cleared so far. -/
def State.canRun (s : State) (r : Nat) : Bool :=
  let g := s.region r
  s.seqAt r 1 && g.delta.isNone &&
    (!g.ran || (decide (g.outcome ≠ .pending) && (decide (g.cut.why ≠ 2) || (decide (g.cut.phase ≠ 1) && s.runQuiet r))))
/-- SEQ_RUN (R352, R353). The first time after an outcome the region is RUNNING again and every thread set halts, then, once the
engines are quiet, it takes a cut, and when the cut has closed it starts the configuration. Tiles that a cut of before has left
stopped are so no more when it begins to clear. -/
def State.seqRun (s : State) (r : Nat) : State :=
  let g := s.region r
  match g.image.bind fun i => (AMap.find g.record.2.2 i.confs).map fun c => (c, i.datas) with
  | none => s.seqNext r
  | some (c, ds) =>
    if !g.ran || (g.cut.why == 2 && g.cut.phase == 2) then (s.runConf r c ds).seqNext r
    else if g.cut.why ≠ 2 then
      let s := if g.cut.phase = 0 then s else s.cutEnd r
      ((g.tilesOf.foldl (fun s t => (List.range 4).foldl (fun s i => s.haltTs (4 * t + i)) s) s).updRegion r fun g =>
        { g with st := .running, cut := { g.cut with why := 2 } }).commitUpdate
    else s.cutRequest r 2
/-- SEQ_RUN. -/
def execSeqRun (rgn : Nat) (s : State) : Res := whenEnabled "SEQ_RUN" (s.canRun rgn) (s.seqRun rgn)

/-- SEQ_AWAIT (R349): the last RUN has an outcome. -/
def execSeqAwait (rgn : Nat) (s : State) : Res :=
  whenEnabled "SEQ_AWAIT" (s.seqAt rgn 2 && (!(s.region rgn).ran || decide ((s.region rgn).outcome ≠ .pending))) (s.seqNext rgn)

/-- A delta of a region's image by its index. -/
def Region.deltaNo (g : Region) (n : Nat) : Option (List TileConf × AMap EdgeConf) :=
  g.image.bind fun i => (AMap.find n i.deltas).map (bindDelta i.bound g.edges)
/-- The delta that a region's current record names. -/
def Region.namedDelta (g : Region) : Option (List TileConf × AMap EdgeConf) := g.deltaNo g.record.2.2
/-- Whether an APPLY record can make progress: its delta can begin, no save being under way, or the one in progress can go on or end,
for which a PREEMPT waits (R354). -/
def State.canApply (s : State) (r : Nat) : Bool :=
  s.seqOpen r 3 && s.launchDone r && (match (s.region r).delta with
    | none => (s.region r).saving.isNone
    | some d => d.queue.isNone && (s.deltaPends r || (s.deltaEnd r).isSome))
/-- SEQ_APPLY (R349, R354): a delta that fails ends the sequence, and the launch completes with its status. -/
def State.seqApply (s : State) (r : Nat) : State :=
  let g := s.region r
  if s.deltaPends r then s.deltaBegin r
  else match s.deltaEnd r with
  | some (0, s) => s.seqNext r
  | some (n, s) => s.seqFinish r (some n)
  | none => match g.namedDelta with
    | some d => if s.deltaOk r d then s.deltaStart r d none else s.seqFinish r (some 4)
    | none => s.seqFinish r (some 4)
/-- SEQ_APPLY. -/
def execSeqApply (rgn : Nat) (s : State) : Res := whenEnabled "SEQ_APPLY" (s.canApply rgn) (s.seqApply rgn)

/-- Whether a COND holds (R349). -/
def Region.cond (g : Region) (c : Nat) : Bool :=
  match c with
  | 0 => true
  | 1 => g.ran && decide (g.outcome = .completed)
  | _ => g.ran && decide (g.outcome = .failed)
/-- SEQ_BRANCH (R349). -/
def execSeqBranch (rgn : Nat) (s : State) : Res :=
  whenEnabled "SEQ_BRANCH" (s.seqAt rgn 4)
    (let g := s.region rgn
     if g.cond g.record.2.1 then s.seqTo rgn g.record.2.2 else s.seqNext rgn)
/-- SEQ_HOLD (R349): the program waits for a RESUME command. -/
def execSeqHold (rgn : Nat) (s : State) : Res :=
  whenEnabled "SEQ_HOLD" (s.seqAt rgn 5) (s.updRegion rgn fun g => { g with hold := true }).commitUpdate

end Sys2Proof.Machine
end

