-- ==== Sys2Proof/Machine/Host.lean ====
section
/-! DEFINITION. The host's command queues (R342, R350 to R352, R354, R355, R440) and the lead lease (R364, R365). -/

namespace Sys2Proof.Machine

open Sys2Proof

/-! ## Submission entries (R350) -/

/-- A submission entry. -/
structure Entry where
  op   : Nat
  pad  : Nat
  tag  : Nat
  ctx  : Nat
  args : List Nat
  deriving DecidableEq, Repr

/-- The entry at the head of a queue; the arguments are 8-byte words from byte 16 (assumption 39). -/
def State.entry (s : State) (q : Nat) : Entry :=
  let z := s.queue q
  let a := hostKey (z.sqbase.toNat + 64 * z.head)
  ⟨s.num a 1, s.num (a + 1) 3, s.num (a + 4) 4, s.num (a + 8) 2, (List.range 6).map fun i => s.num (a + 16 + 8 * i) 8⟩
/-- An argument as a word. -/
def Entry.arg (e : Entry) (i : Nat) : Word := word (e.args.getD i 0)

/-- Whether the front end can take or go on with a command of a queue (R342, R351, R352). -/
def State.queueOn (s : State) (q : Nat) : Bool :=
  let z := s.queue q
  s.frontEnd && s.links.ports.any (fun p => p.up) && decide (q < 64) && (decide (q = 0) || !s.links.boot.minimal) && bitAt z.qcfg 0 && !z.frozen && decide (z.head ≠ z.tail)
/-- Whether it is a queue's turn: the front end takes one command per queue and pass, by ascending number (R352). Of the
queues that hold a command to begin, the first after the one that it took last is next. -/
def State.atTurn (s : State) (q : Nat) : Bool :=
  let far (p : Nat) : Nat := (p + 63 - s.links.turn) % 64
  s.queueOn q && !(s.queue q).busy &&
    s.links.queues.all fun p => !(s.queueOn p.1 && !p.2.busy) || decide (far q ≤ far p.1)
/-- The front end takes the command at the head of a queue: the pass of the queues goes on from there. -/
def State.took (s : State) (q : Nat) : State := (s.updLinks fun l => { l with turn := q }).commitUpdate
/-- Whether the next command of a queue has an opcode and is still to be begun. -/
def State.cmdAt (s : State) (q op : Nat) : Bool := s.atTurn q && decide ((s.entry q).op = op)

/-- Whether a queue's grant covers a context (R350): queue 0's covers every one. -/
def HostQueue.grants (z : HostQueue) (q ctx : Nat) : Bool :=
  decide (q = 0) || (decide (field z.qcfg 16 12 ≤ ctx) && decide (ctx ≤ field z.qcfg 32 12))
/-- A command outside the grant: STATUS 8, and the queue freezes with a record (R342, R343, R350). -/
def State.outsideGrant (s : State) (q : Nat) : State :=
  let e := s.entry q
  let s := (s.endCommand q e.tag 8 0).updQueue q fun z => { z with frozen := true }
  let r := s.rgnOfCtx e.ctx
  (s.freezeRecord r (s.masterField r) 2 q 0 0 0).2

/-- What a command does, or the STATUS and RESULT with which it ends at once. -/
abbrev Cmd := Entry → State → Nat × Word × State

/-- Runs a command that ends at once: the grant, minimal mode, and the reserved bytes come first (R350, R440). -/
def State.command (s : State) (q : Nat) (minimal : Bool) (f : Cmd) : State :=
  let e := s.entry q
  let s := s.took q
  if !(s.queue q).grants q e.ctx then s.outsideGrant q
  else if s.links.boot.minimal && !minimal then s.endCommand q e.tag 5 0
  else if e.pad ≠ 0 ∨ 4096 ≤ e.ctx then s.endCommand q e.tag 2 0
  else
    let (st, w, s) := f e s
    s.endCommand q e.tag st w
/-- An entry whose opcode no command has (R350). -/
def State.reservedCommand (s : State) (q : Nat) : State := s.command q false fun _ s => (2, 0, s)
/-- Whether the head of a queue is such an entry. -/
def State.canReserved (s : State) (q : Nat) : Bool :=
  s.atTurn q && decide ((s.entry q).op = 0 ∨ 10 < (s.entry q).op)

/-- The save area that holds a context which is not resident: SAVED, or ENDED by a KILL since (R352). -/
def State.savedArea (s : State) (ctx : Nat) : Option Nat := (s.saves.find? fun p => p.2.region.ctx == ctx && p.2.away).map Prod.fst
/-- The resident region of a context that a command names. -/
def State.rgnFor (s : State) (ctx : Nat) : Option Nat := (s.regions.find? fun p => p.1 ≠ 256 && p.2.ctx == ctx).map Prod.fst
/-! ## CREATE and DESTROY -/

/-- Whether every cluster of a geometry lies in present fields (R23). -/
def geomPresent (g : Word) : Bool :=
  let ok (v : Nat) (w : Nat) : Bool := decide (v + w ≤ 180)
  ok (field g 0 8) (field g 16 8) && ok (field g 8 8) (field g 24 8) &&
    (List.range (field g 16 8)).all fun i => (List.range (field g 24 8)).all fun j =>
      fieldPresent ((field g 0 8 + i) / 18) ((field g 8 8 + j) / 18)
/-- Whether two intervals [a, a+n) and [b, b+m) meet. -/
def spanMeets (a n b m : Nat) : Bool := decide (a < b + m) && decide (b < a + n)
/-- Whether a geometry is free: it overlaps no resident region and holds no substitute in use (R23, R332). -/
def State.geomFree (s : State) (g : Word) : Bool :=
  s.regions.all fun p => p.1 == 256 ||
    (!(spanMeets (field g 0 8) (field g 16 8) (field p.2.geom 0 8) p.2.cw && spanMeets (field g 8 8) (field g 24 8) (field p.2.geom 8 8) p.2.ch) &&
      p.2.subst.all fun e => !bitAt e.2 63 || field e.2 61 2 == 2 ||
        !(spanMeets (field g 0 8) (field g 16 8) (field e.2 20 10 / 4) 1 && spanMeets (field g 8 8) (field g 24 8) (field e.2 30 10 / 4) 1))
/-- The lowest region number not in use (R23, R327). -/
def State.freeNumber (s : State) : Option Nat := (List.range 256).find? fun n => !s.hasRegion n

/-- Firmware substitutes a dead tile of a new region (R22, R332): by the tile that the schedule's choice names when
it may serve, else the coordinate is withdrawn. -/
def State.substitute (s : State) (r c : Nat) : State :=
  let g := s.region r
  let row := cy c / 4
  let ent := ((List.range 64).find? fun n => (AMap.find (64 * row + n) g.subst).isNone).getD 0
  let (t, s) := s.choose
  let base := at_ 63 1 1 + at_ 0 10 (cx c) + at_ 10 10 (cy c)
  let e := word (base + at_ 20 10 (tileX t) + at_ 30 10 (tileY t))
  let w := if s.substOk r (64 * row + ent) e then e else word (base + at_ 61 2 2)
  s.updRegion r fun g => { g with subst := AMap.ins (64 * row + ent) w g.subst }
/-- Dead tiles of a geometry that nothing maps elsewhere. -/
def State.deadCoords (s : State) (x : Region) : List Nat := x.coords.filter fun c => s.map.dead.contains (x.physOf c) && (x.substOf c).isNone
/-- Whether the substitution list has an entry for every dead tile: 64 for a cluster row (R22, R332). -/
def State.deadFit (s : State) (x : Region) : Bool :=
  let ds := (s.deadCoords x).map fun c => cy c / 4
  (List.range x.ch).all fun row => decide (ds.count row + (x.subst.countP fun p => p.1 / 64 = row) ≤ 64)
/-- Firmware gives frames of DRAM to a context (R338): how many and which is the schedule's choice. -/
def State.giveFrames (s : State) (ctx : Nat) : Nat → State
  | 0 => s
  | n + 1 =>
    let (f, s) := s.choose
    State.giveFrames { s with owners := if AMap.get 0 f s.owners = 0 ∧ physOk (65536 * f) 1 then AMap.put 0 f ctx s.owners else s.owners } ctx n
/-- A tile of a new region. -/
def State.ownTile (s : State) (r c t : Nat) : State := s.updTile t fun x => { x with rgn := some r, coord := c, conf := { TileConf.none with coord := c } }

/-- The substitutions of a region that is resident again (R332): an entry whose substitute may serve no longer, since
another region holds it or it is dead, is chosen anew, and so are those of tiles that have died since. -/
def State.resubstitute (s : State) (r : Nat) : State :=
  let g := s.region r
  let bad := g.subst.filter fun p => bitAt p.2 63 && decide (field p.2 61 2 ≠ 2) && !s.substOk r p.1 p.2
  let s := s.updRegion r fun g => { g with subst := g.subst.filter fun p => !bad.any fun q => q.1 == p.1 }
  (bad.map (fun p => packXY (field p.2 0 10) (field p.2 10 10)) ++ s.deadCoords (s.region r)).eraseDups.foldl (fun s c => s.substitute r c) s
/-- Whether an image's entry ports are bound by no other resident region (R348). -/
def State.portsFree (s : State) (r : Nat) (ports : List Nat) : Bool :=
  s.regions.all fun p => p.1 == r || (match p.2.image with | some i => i.ports.all fun x => !ports.contains x | none => true)
/-- Makes a region resident again under the lowest free number, if its tiles and entry ports are free (R23, R348). -/
def State.readmit (s : State) (g : Region) : Nat ⊕ (Nat × State) :=
  if !s.geomFree g.geom ∨ !s.deadFit g then .inl 3
  else if !s.portsFree 256 (match g.image with | some i => i.ports | none => []) then .inl 7
  else match s.freeNumber with
    | none => .inl 9
    | some r =>
      let s := { s with regions := AMap.ins r g s.regions }
      let s := s.resubstitute r
      .inr (r, (s.region r).coords.foldl (fun s c => match (s.region r).tileAt? c with | some t => s.ownTile r c t | none => s) s)
/-- A region that a KILL has ended while it was saved, as it comes back: nothing of the earlier run is left (assumption 110). -/
def Region.emptied (g : Region) : Region := { g with cut := Cut.none, portSent := (0, 0), portRecv := (0, 0), edges := [], stages := [], delta := none }
/-- A command on a region in one of the states that accept it; otherwise STATUS 5, or 2 for a context that the module does not
know. A region that has ended while it was saved becomes resident again first, unless the command fails, which changes nothing. -/
def State.onRegion (s : State) (e : Entry) (ok : Region → Bool) (f : Nat → State → Nat × Word × State) : Nat × Word × State :=
  match s.rgnFor e.ctx with
  | some r => if ok (s.region r) then f r s else (5, 0, s)
  | none => match (s.savedArea e.ctx).bind fun a => (AMap.find a s.saves).map fun z => (a, z) with
    | none => (2, 0, s)
    | some (a, z) =>
      if !ok z.region then (5, 0, s)
      else match s.readmit z.region.emptied with
        | .inl n => (n, 0, s)
        | .inr (r, u) => match f r { u with saves := AMap.del a u.saves } with
          | (0, w, u) => (0, w, u)
          | (n, w, _) => (n, w, s)
/-- Ends the program of a region when the host loads, launches or destroys anew before it has come to its end (R352 accepts that
in LOADED and ENDED): its LAUNCH completes, once its stores are performed (R433), with a STATUS that the spec does not give
(assumption 111). -/
def State.endProgram (s : State) (r : Nat) : State :=
  if (s.region r).seqOn then let (v, s) := s.free; s.seqFinish r (some (field v 0 8)) (s.launchDone r) else s

/-- CREATE (R22, R23, R327, R328, R350, R352). A geometry with more than 64 dead tiles in a cluster row, for which the
substitution list has no room, is answered as one without tiles (assumption 43). -/
def cmdCreate : Cmd := fun e s =>
  let g := e.arg 0
  if e.ctx = 0 ∨ field g 32 32 ≠ 0 ∨ 7 < (e.arg 1).toNat ∨ field g 16 8 < 2 ∨ field g 24 8 < 2 then (2, 0, s)
  else if (s.rgnFor e.ctx).isSome || (s.savedArea e.ctx).isSome then (7, 0, s)
  else if !(geomPresent g && s.geomFree g) then (3, 0, s)
  else match s.freeNumber with
    | none => (9, 0, s)
    | some r =>
      let x : Region := { Region.init with ctx := e.ctx, geom := g, csr := csrPut [] 0x047 (e.arg 1) }
      if !s.deadFit x then (3, 0, s)
      else
      let dead := s.deadCoords x
      let s := { s with regions := AMap.ins r x s.regions }
      let s := dead.foldl (fun s c => s.substitute r c) s
      let s := (s.region r).coords.foldl (fun s c => match (s.region r).tileAt? c with | some t => s.ownTile r c t | none => s) s
      let (n, s) := s.choose
      (0, word r, s.giveFrames e.ctx n)
/-- CMD_CREATE. -/
def execCmdCreate (q : Nat) (s : State) : Res := whenEnabled "CMD_CREATE" (s.cmdAt q 1) (s.command q false cmdCreate)

/-- DESTROY (R352, R408): the final harvest, and the region is resident no more. -/
def cmdDestroy : Cmd := fun e s =>
  match (s.savedArea e.ctx).bind fun a => (AMap.find a s.saves).map fun z => (a, z.region.st) with
  | some (a, RState.ended) => (0, 0, { s with saves := AMap.del a s.saves })
  | _ => s.onRegion e (fun g => g.st == .empty || g.st == .loaded || g.st == .ended)
    fun r s => (0, 0, (((s.endProgram r).harvest r true).answerEndings r).vacate r)
/-- CMD_DESTROY. -/
def execCmdDestroy (q : Nat) (s : State) : Res := whenEnabled "CMD_DESTROY" (s.cmdAt q 10) (s.command q false cmdDestroy)

/-! ## LOADIMG and LAUNCH -/

/-- LOADIMG (R347, R348, R352): a rejected image changes no state. -/
def cmdLoadimg : Cmd := fun e s =>
  s.onRegion e (fun g => g.st == .empty || g.st == .loaded || g.st == .ended) fun r s =>
    let a := e.arg 0
    if field a 0 6 ≠ 0 then (2, 0, s)
    else match (s.imageBytes r a 0x80).bind fun h => s.imageBytes r a (numAt h 8 8) with
      | none => (4, 0, s)
      | some bs => match readImage bs with
        | none => (4, 0, s)
        | some i =>
          if !i.ok (s.region r) s.map.deadPorts then (4, 0, s)
          else if !s.portsFree r i.ports then (7, 0, s)
          else (0, 0, (s.endProgram r).updRegion r fun g => { g with image := some i, st := .loaded })
/-- CMD_LOADIMG. -/
def execCmdLoadimg (q : Nat) (s : State) : Res := whenEnabled "CMD_LOADIMG" (s.cmdAt q 2) (s.command q false cmdLoadimg)

/-- Whether the reserved bits of a power word are zero (R308). -/
def powerOk (w : Word) : Bool := field w 28 36 == 0 && field w 5 3 == 0
/-- LAUNCH (R349, R352, R355): the sequence begins, and the command completes when it ends; the queue goes on. -/
def State.launch (s : State) (q : Nat) : State :=
  let e := s.entry q
  let s := s.took q
  if !(s.queue q).grants q e.ctx then s.outsideGrant q
  else if s.links.boot.minimal then s.endCommand q e.tag 5 0
  else if e.pad ≠ 0 ∨ 4096 ≤ e.ctx then s.endCommand q e.tag 2 0
  else match s.onRegion e (fun g => g.st == .loaded || g.st == .ended) fun r s =>
      let g := s.region r
      if !powerOk (e.arg 1) ∨ (g.image.bind fun i => AMap.find (e.arg 0).toNat i.progs).isNone then (2, 0, s)
      else
        let s := s.endProgram r
        let w := grantOf (e.arg 1) g.granted (s.fluxAdmits r)
        (0, 0, s.updRegion r fun g => { g with
          progIx := (e.arg 0).toNat, seqPos := 0, seqOn := true, hold := false, request := e.arg 1,
          csr := csrPut g.csr 0x04A (setField w 63 1 0), launchBy := some (q, e.tag, w, (bitAt w 63).toNat) }) with
    | (0, _, s) => s.updQueue q fun z => { z with head := (z.head + 1) % 2 ^ field z.qcfg 4 4 }
    | (n, _, s) => s.endCommand q e.tag n 0
/-- CMD_LAUNCH. -/
def execCmdLaunch (q : Nat) (s : State) : Res := whenEnabled "CMD_LAUNCH" (s.cmdAt q 3) (s.launch q)

/-! ## Commands that take time: DELTA, PREEMPT, RESUME -/

/-- Begins a command that ends later: `f` gives the status with which it ends at once, or the state in which the
queue waits for it. -/
def State.begin (s : State) (q : Nat) (f : Entry → State → Nat ⊕ State) : State :=
  let e := s.entry q
  let s := s.took q
  if !(s.queue q).grants q e.ctx then s.outsideGrant q
  else if s.links.boot.minimal then s.endCommand q e.tag 5 0
  else if e.pad ≠ 0 ∨ 4096 ≤ e.ctx then s.endCommand q e.tag 2 0
  else match f e s with
    | .inl n => s.endCommand q e.tag n 0
    | .inr s => s.updQueue q fun z => { z with busy := true }

/-- The region whose delta a queue waits for. -/
def State.deltaOf (s : State) (q : Nat) : Option Nat :=
  (s.regions.find? fun p => match p.2.delta with | some d => d.queue.map Prod.fst == some q | none => false).map Prod.fst
/-- Whether CMD_DELTA can come about: the command begins, or the delta that the queue waits for goes on or ends. -/
def State.canDelta (s : State) (q : Nat) : Bool :=
  s.cmdAt q 4 || (s.frontEnd && match s.deltaOf q with | some r => s.deltaPends r || (s.deltaEnd r).isSome | none => false)
/-- DELTA (R354). -/
def State.cmdDelta (s : State) (q : Nat) : State :=
  match s.deltaOf q with
  | some r => if s.deltaPends r then s.deltaBegin r else match (s.region r).delta.bind (·.queue), s.deltaEnd r with
    | some (_, tag), some (n, s) => s.endCommand q tag n 0
    | _, _ => s
  | none => s.begin q fun e s =>
    match s.rgnFor e.ctx with
    | none => .inl (if (s.savedArea e.ctx).isSome then 5 else 2)
    | some r =>
      let g := s.region r
      if g.st ≠ .running ∨ g.delta.isSome ∨ g.preempted then .inl 5
      else match g.deltaNo (e.arg 0).toNat with
        | none => .inl 2
        | some d => if s.deltaOk r d then .inr (s.deltaStart r d (some (q, e.tag))) else .inl 4
/-- CMD_DELTA. -/
def execCmdDelta (q : Nat) (s : State) : Res := whenEnabled "CMD_DELTA" (s.canDelta q) (s.cmdDelta q)

/-- PREEMPT (R352, R354, R378, R384): the cut is requested, after a delta in progress; the save completes the
command. -/
def State.cmdPreempt (s : State) (q : Nat) : State :=
  s.begin q fun e s =>
    match s.rgnFor e.ctx with
    | none => .inl (if (s.savedArea e.ctx).isSome then 5 else 2)
    | some r =>
      let g := s.region r
      let a := (e.arg 0).toNat
      if g.st ≠ .running then .inl 5
      else if a % 4096 ≠ 0 ∨ !physOk a (sectionAt 0 g.sections g.sections) then .inl 2
      else
        let s := s.updRegion r fun g => g.takeSave ⟨true, a, none, false, false, some (q, e.tag)⟩
        .inr (if g.delta.isSome ∨ g.cut.phase ≠ 0 then s else s.cutRequest r 1)
/-- CMD_PREEMPT. -/
def execCmdPreempt (q : Nat) (s : State) : Res := whenEnabled "CMD_PREEMPT" (s.cmdAt q 5) (s.cmdPreempt q)

/-- The context that is not resident and that a RESUME from a save area names: the area may be a copy of the one that was saved. -/
def State.savedFor (s : State) (ctx a : Nat) : Option Saved :=
  let mine (z : Saved) : Bool := z.region.ctx == ctx && z.away
  match (AMap.find a s.saves).filter mine with
  | some z => some z
  | none => if s.num (a + 8) 2 = ctx then (s.saves.find? fun p => mine p.2).map Prod.snd else none
/-- RESUME (R349, R352, R385): address 0 continues a HOLD of a RUNNING region; otherwise the context of that save area becomes
resident again, stopped, with its restore accepted. Both make a new replay mode take effect (R426). -/
def State.cmdResume (s : State) (q : Nat) : State :=
  let e := s.entry q
  if e.arg 0 = 0 then
    s.command q false fun e s => s.onRegion e (fun g => g.st == .running && g.seqOn && g.hold) fun r s =>
      (0, 0, (s.updRegion r fun g => { g with hold := false, modeOn := g.rplMode }).seqNext r)
  else s.begin q fun e s =>
    if (s.rgnFor e.ctx).isSome then .inl 5
    else match s.savedFor e.ctx (e.arg 0).toNat with
      | some z =>
        if z.region.st = .saved then
          match s.readmit { z.region with saving := some ⟨false, (e.arg 0).toNat, none, false, false, some (q, e.tag)⟩, cut := { z.region.cut with phase := 2 } } with
          | .inl n => .inl n
          | .inr (_, s) => .inr s
        else .inl (if (s.savedArea e.ctx).any (fun a => (AMap.find a s.saves).any fun z => z.region.st == .ended) then 5 else 2)
      | none => .inl 2
/-- CMD_RESUME. -/
def execCmdResume (q : Nat) (s : State) : Res := whenEnabled "CMD_RESUME" (s.cmdAt q 6) (s.cmdResume q)

/-! ## KILL, GRANT and QUERY -/

/-- A killed region (R352 to R354, R408, R423): halted, its delta and its save given up, its program ended; its LAUNCH completes
once its stores are performed (R433). -/
def State.killRegion (s : State) (r : Nat) : State :=
  let g := s.region r
  let s := s.haltRegion r 1
  let s := match g.delta.bind (·.queue) with
    | some (q, tag) => (s.deltaAbort r).endCommand q tag 6 0
    | none => s.deltaAbort r
  let s := (s.dropSaves r).harvest r true
  (s.seqFinish r none (s.storesOver r)).updRegion r fun g => { g with st := .ended, outcome := .failed, cut := { g.cut with why := 0 } }
/-- The number under which the record of a context that is not resident stands while a command works on it. -/
def away : Nat := 257
/-- Ends the trace session of a saved context (R423). -/
def State.endTraceAway (s : State) (a : Nat) (z : Saved) (reason : Nat) : State :=
  let s := State.endTrace { s with regions := AMap.ins away z.region s.regions } away reason
  { s with regions := AMap.del away s.regions, saves := AMap.ins a { z with region := s.region away } s.saves }
/-- A saved context is killed (R352, R408, R423): its trace session ends, the meters in its save area are harvested, its program
ends, and it is ENDED, still without tiles. -/
def State.killSaved (s : State) (a : Nat) (z : Saved) : State :=
  let s : State := { s with regions := AMap.ins away z.region s.regions }
  let s := s.endTrace away 1
  let s := z.tiles.foldl (fun s q =>
    let w := word (s.num (sectionAt a z.region.sections (cy q.coord * (4 * z.region.cw) + cx q.coord) + 0x238F0) 8)
    let (nj, lost, _) := (⟨field w 0 48 * 16 + field w 48 4, bitAt w 63⟩ : Meter).harvest true
    s.updRegion away (Region.harvested nj lost)) s
  let s := ((s.seqFinish away none).answerEndings away).updRegion away fun g => { g with st := .ended, outcome := .failed }
  { s with regions := AMap.del away s.regions, saves := AMap.ins a { z with region := s.region away } s.saves }
/-- KILL (R352). -/
def cmdKill : Cmd := fun e s =>
  match (s.savedArea e.ctx).bind fun a => (AMap.find a s.saves).map fun z => (a, z) with
  | some (a, z) => if z.region.st = .saved then (0, 0, s.killSaved a z) else (5, 0, s)
  | none => s.onRegion e (fun g => g.st == .running) fun r s => (0, 0, s.killRegion r)
/-- CMD_KILL. -/
def execCmdKill (q : Nat) (s : State) : Res := whenEnabled "CMD_KILL" (s.cmdAt q 7) (s.command q false cmdKill)

/-- GRANT (R355): fields that now exceed it are lowered at the next Transplanter interval. -/
def cmdGrant : Cmd := fun e s =>
  if !powerOk (e.arg 0) then (2, 0, s)
  else s.onRegion e (fun g => g.st == .empty || g.st == .loaded || g.st == .running) fun r s =>
    (0, 0, s.updRegion r fun g => { g with granted := e.arg 0 })
/-- CMD_GRANT. -/
def execCmdGrant (q : Nat) (s : State) : Res := whenEnabled "CMD_GRANT" (s.cmdAt q 8) (s.command q false cmdGrant)

/-- The code of a region state in RESULT: the order of R352's table (assumption 39). -/
def RState.code : RState → Nat
  | .empty => 0
  | .loaded => 1
  | .running => 2
  | .saved => 3
  | .ended => 4
/-- QUERY (R350). -/
def cmdQuery : Cmd := fun e s =>
  match s.rgnFor e.ctx, s.savedArea e.ctx with
  | some r, _ => (0, word (at_ 0 8 (s.region r).st.code + at_ 8 16 (s.region r).seqPos), s)
  | none, some a => (0, (match AMap.find a s.saves with | some z => word (at_ 0 8 z.region.st.code + at_ 8 16 z.region.seqPos) | none => 0), s)
  | none, none => (2, 0, s)
/-- CMD_QUERY. -/
def execCmdQuery (q : Nat) (s : State) : Res := whenEnabled "CMD_QUERY" (s.cmdAt q 9) (s.command q true cmdQuery)

/-! ## Queue registers (R350, R351) -/

/-- The submission tail and the completion head that the host writes (R350). -/
def State.doorbell (s : State) (q : Nat) (val : Word) : State :=
  s.updQueue q fun z => { z with tail := field val 0 16 % 2 ^ field z.qcfg 4 4, chead := field val 16 16 }
/-- DOORBELL_WRITE (R350, R433). -/
def execDoorbellWrite (q : Nat) (val : Word) (s : State) : Res := whenEnabled "DOORBELL_WRITE" (decide (q < 64)) (s.doorbell q val)

/-- Contexts for which a queue holds commands (R351, R423): in the ring, and in execution. -/
def State.heldContexts (s : State) (q : Nat) : List Nat :=
  let z := s.queue q
  let n := 2 ^ field z.qcfg 4 4
  ((List.range ((z.tail + n - z.head) % n)).map fun i => s.num (hostKey (z.sqbase.toNat + 64 * ((z.head + i) % n)) + 8) 2) ++
    (s.regions.filter fun p => match p.2.launchBy with | some (k, _, _, _) => k == q | none => false).map fun p => p.2.ctx
/-- QCFG_DISABLE (R351): commands in the ring are discarded, commands in execution run on without a completion
entry (they pass to a number from 64 up, which is no queue), and trace sessions of the contexts concerned end (R423). -/
def State.qcfgDisable (s : State) (q : Nat) : State :=
  let cs := s.heldContexts q
  let s := s.regions.foldl (fun (s : State) (p : Nat × Region) => if p.1 ≠ 256 ∧ cs.contains p.2.ctx then s.endTrace p.1 2 else s) s
  let s := s.saves.foldl (fun (s : State) (p : Nat × Saved) => if p.2.away ∧ cs.contains p.2.region.ctx then s.endTraceAway p.1 p.2 2 else s) s
  let pass (r : Nat) (p : Nat × Nat) : Nat × Nat := if p.1 = q then (64 + r, p.2) else p
  let drop (r : Nat) (g : Region) : Region := { g with
    launchBy := (match g.launchBy with | some (k, t, w, n) => if k = q then none else some (k, t, w, n) | none => none),
    delta := g.delta.map fun d => { d with queue := d.queue.map (pass r) },
    endings := g.endings.filter fun e => e.1 ≠ q,
    saving := g.saving.map fun w => { w with host := w.host.map (pass r) },
    saveNext := g.saveNext.map fun w => { w with host := w.host.map (pass r) } }
  let s : State := { s with regions := s.regions.map fun p => (p.1, drop p.1 p.2) }
  (s.updQueue q fun z =>
    { z with qcfg := setField z.qcfg 0 1 0, busy := false, head := 0, tail := 0 }).commitUpdate
/-- QCFG_DISABLE. -/
def execQcfgDisable (q : Nat) (s : State) : Res :=
  whenEnabled "QCFG_DISABLE" (decide (q < 64) && bitAt (s.queue q).qcfg 0) (s.qcfgDisable q)

/-- What QCFG holds after a write, with EN (R350): queue 0's grant fields cover every context. -/
def qcfgKept (q : Nat) (val : Word) (en : Nat) : Word :=
  let keep := if q = 0 then setField (setField val 16 12 0) 32 12 0xFFF else val
  word (at_ 0 1 en + at_ 4 4 (field keep 4 4) + at_ 16 12 (field keep 16 12) + at_ 32 12 (field keep 32 12))
/-- QCFG_ENABLE (R350, R351): the ring addresses and the grant that the host has written while EN was 0 take
effect; head, completion tail and phase start anew. Queue 0's grant fields are read-only. -/
def State.qcfgEnable (s : State) (q : Nat) (val sqb cqb : Word) : State :=
  (s.updQueue q fun z => { z with
    sqbase := sqb, cqbase := cqb, qcfg := qcfgKept q val 1,
    head := 0, ctail := 0, tail := 0, chead := 0, phase := true, busy := false }).commitUpdate
/-- QCFG_ENABLE. -/
def execQcfgEnable (q : Nat) (val sqb cqb : Word) (s : State) : Res :=
  whenEnabled "QCFG_ENABLE" (decide (q < 64) && !bitAt (s.queue q).qcfg 0 && decide (4 ≤ field val 4 4 ∧ field val 4 4 ≤ 12) &&
    field sqb 0 6 == 0 && field cqb 0 4 == 0 && (decide (q = 0) || !s.links.boot.minimal)) (s.qcfgEnable q val sqb cqb)

/-! ## The lead lease (R364, R365) -/

/-- LEASE_RENEWAL (R364, R365): the cores that the renewal reaches are known to live and hold every committed update; one that it
misses lives on with the copy that it has, and stores no update until a renewal reaches it. -/
def State.renew (s : State) (reached : List Nat) : State :=
  (List.range 84).foldl (fun s f =>
    let x := s.fieldRec f
    if reached.contains f || s.links.lease.lead == some f then
      if x.alive && x.current && !x.missed then s else s.updField f fun x => { x with alive := true, current := true, missed := false }
    else if x.missed then s else s.updField f fun x => { x with missed := true }) s
/-- LEASE_RENEWAL: by the acting lead, except in minimal mode (R440). -/
def execLeaseRenewal (reached : List Nat) (s : State) : Res :=
  whenEnabled "LEASE_RENEWAL" (s.links.lease.lead.isSome && s.links.lease.acting && !s.links.boot.minimal &&
    reached.all fun f => decide (f < 84)) (s.renew reached)
/-- LEAD_STOPS_ACTING (R365): 9.9 ms have passed since the last renewal that reached two cores. -/
def execLeadStopsActing (s : State) : Res :=
  whenEnabled "LEAD_STOPS_ACTING" (s.links.lease.lead.isSome && s.links.lease.acting && !s.links.boot.minimal)
    (s.updLinks fun l => { l with lease := { l.lease with acting := false } })
/-- The core that takes over: the live core with a current copy that has the lowest field number. -/
def State.successor (s : State) : Option Nat :=
  (List.range 84).find? fun f => (s.fieldRec f).alive && (s.fieldRec f).current && s.links.lease.lead ≠ some f
/-- A delta that was not committed is executed again from step 1 of R354 (R365). -/
def State.deltaAgain (s : State) (r : Nat) : State :=
  match (s.region r).delta with
  | none => s
  | some d =>
    if s.deltaOk r (d.tiles, d.edges) then s.deltaStart r (d.tiles, d.edges) d.queue
    else
      let s := s.deltaAbort r
      match d.queue with
      | some (q, tag) => s.endCommand q tag 4 0
      | none => s.seqFinish r (some 4)
/-- LEASE_LAPSE (R365): the core takes over and continues from the committed state. A command of this model is one committed
update, but for a delta, which is executed again. The new lead knows of no core yet that it does not reach. -/
def State.lapse (s : State) (core : Nat) : State :=
  let s := match s.links.lease.lead with | some f => s.updField f fun x => { x with alive := false } | none => s
  let s : State := { s with fields := s.fields.map fun p => (p.1, { p.2 with missed := false }) }
  let s := s.updLinks fun l => { l with lease := { l.lease with lead := some core, acting := true } }
  (s.regions.map Prod.fst).foldl State.deltaAgain s
/-- LEASE_LAPSE. -/
def execLeaseLapse (core : Nat) (s : State) : Res :=
  whenEnabled "LEASE_LAPSE" (!s.links.lease.acting && s.links.lease.lead.isSome && s.successor == some core) (s.lapse core)

end Sys2Proof.Machine
end

