-- ==== Sys2Proof/Machine/Links.lean ====
section
/-! DEFINITION. CXL.mem, Boder, the management messages and SPDM (R430 to R438, R441, R442). -/

namespace Sys2Proof.Machine

open Sys2Proof

/-! ## CXL.mem (R430, R432, R433) -/

/-- Bytes of a stack (R336). -/
def stackBytes : Nat := 36 * 10 ^ 9
/-- A CXL port. -/
def State.cxl (s : State) (p : Nat) : HostPort := s.links.ports.getD p HostPort.init
/-- The physical DRAM address of a host physical address at a port (R432): the range that its HDM decoder is given maps from 0
upwards, without the holes of R336; none outside the range or beyond the last stack. -/
def State.hdmAddr (s : State) (p a : Nat) : Option Nat :=
  let h := s.cxl p
  let o := a - h.hdmBase
  if a < h.hdmBase ∨ h.hdmSize ≤ o ∨ 32 * stackBytes ≤ o then none else some (o / stackBytes * 2 ^ 36 + o % stackBytes)
/-- Whether n bytes at a host address are DRAM that firmware has marked host-visible. -/
def State.hostVisible (s : State) (p a n : Nat) : Bool :=
  match s.hdmAddr p a, s.hdmAddr p (a + n - 1) with
  | some p, some q => AMap.get false (p / 2 ^ 30) s.links.hdm && AMap.get false (q / 2 ^ 30) s.links.hdm && decide (q = p + (n - 1))
  | _, _ => false
/-- Whether a CXL.mem access can come: the port is up and the access has a line's length at most. -/
def State.cxlOk (s : State) (p n : Nat) : Bool := decide (p < 2) && (s.cxl p).up && decide (1 ≤ n ∧ n ≤ 64)
/-- What the module sends back over a link. -/
def State.answer (s : State) (bs : List Byte) : State := s.updLinks fun l => { l with answers := l.answers ++ [bs] }
/-- An access outside the grant freezes the port's CXL.mem requester, once, with a record at firmware that names the
port as requester 64 + port (R342, R432). -/
def State.freezeHost (s : State) (p : Nat) : State :=
  if (s.cxl p).frozen then s
  else
    let s := s.updLinks fun l => { l with ports := l.ports.zipIdx.map fun q => if q.2 = p then { q.1 with frozen := true } else q.1 }
    (s.freezeRecord 256 (s.masterField 256) 2 (64 + p) 0 0 0).2
/-- The answer to a read: 0 and the data, or 1 for poison. -/
def State.cxlRead (s : State) (p a n : Nat) : State :=
  if (s.cxl p).frozen || !s.hostVisible p a n then (s.freezeHost p).answer [1]
  else match s.hdmAddr p a with
    | some k => if s.poisoned k n then s.answer [1] else s.answer (0 :: s.bytes k n)
    | none => s.answer [1]
/-- CXL_MEM_READ (R430, R432): data, or poison outside the grant and for a poisoned line. -/
def execCxlMemRead (port addr len : Nat) (s : State) : Res := whenEnabled "CXL_MEM_READ" (s.cxlOk port len) (s.cxlRead port addr len)
/-- A write is performed at the owning stack, or discarded (R432, R433). -/
def State.cxlWrite (s : State) (p a : Nat) (bs : List Byte) : State :=
  if (s.cxl p).frozen || !s.hostVisible p a bs.length then s.freezeHost p
  else match s.hdmAddr p a with | some k => s.putAll k bs | none => s
/-- CXL_MEM_WRITE. -/
def execCxlMemWrite (port addr : Nat) (data : List Byte) (s : State) : Res :=
  whenEnabled "CXL_MEM_WRITE" (s.cxlOk port data.length) (s.cxlWrite port addr data)
/-- CXL_PORT_DOWN (R430): queues and completions go on through the other port; an SPDM session of the port ends. -/
def execCxlPortDown (port : Nat) (s : State) : Res :=
  whenEnabled "CXL_PORT_DOWN" (decide (port < 2) && (s.cxl port).up)
    (s.updLinks fun l => { l with ports := l.ports.zipIdx.map fun q => if q.2 = port then { q.1 with up := false, spdm := 0, session := false } else q.1 })

/-! ## CXL.io: the BAR of a port (R350, R431) -/

/-- Bytes of the boot record (R440). -/
def Boot.bytes (b : Boot) : List Byte :=
  leBytes 4 0x544F4F42 ++ leBytes 1 b.mode ++ leBytes 1 b.fails ++ leBytes 1 b.nextEnt ++ leBytes 1 0 ++ leBytes 8 b.starts ++
    (List.range 8).flatMap fun i => match AMap.find i b.entries with
      | some (reason, stp, fld, detail, start) => leBytes 1 reason ++ leBytes 1 stp ++ leBytes 1 fld ++ leBytes 1 0 ++ leBytes 4 detail ++ leBytes 8 start
      | none => leBytes 16 0
/-- The identity page: the serial number, the count of tiles that are good or marginal, and the Boder id (R22, R431). -/
def State.identity (s : State) : List Byte := leBytes 16 s.links.serialNo ++ leBytes 4 (435456 - s.map.dead.length) ++ leBytes 1 s.links.boderId
/-- The register block of a queue (R350). -/
def HostQueue.bytes (z : HostQueue) : List Byte :=
  leBytes 8 z.sqbase.toNat ++ leBytes 8 z.cqbase.toNat ++ leBytes 8 z.qcfg.toNat ++ leBytes 8 (at_ 0 16 z.tail + at_ 16 16 z.chead)
/-- A byte of the BAR; elsewhere it reads as zero (R431). -/
def State.barByte (s : State) (off : Nat) : Byte :=
  if off < 0x1000 then s.identity.getD off 0
  else if off < 0x1800 then (s.queue ((off - 0x1000) / 32)).bytes.getD (off % 32) 0
  else if off < 0x100000 then 0
  else s.links.boot.bytes.getD (off - 0x100000) 0
/-- Whether an access to the BAR of a port can come: the port is up, and n bytes lie in the 16 MiB. -/
def State.barOk (s : State) (p off n : Nat) : Bool := decide (p < 2) && (s.cxl p).up && decide (1 ≤ n ∧ n ≤ 8 ∧ off + n ≤ 2 ^ 24)
/-- A read of the BAR: the bytes go back to the host. -/
def State.barRead (s : State) (off n : Nat) : State := s.answer ((List.range n).map fun i => s.barByte (off + i))
/-- A write of QCFG (R350, R351): setting and clearing EN enables and disables the queue; its grant and size are kept while EN
is 0, and otherwise the write is ignored. -/
def State.writeQcfg (s : State) (q : Nat) (val : Word) : State :=
  let z := s.queue q
  if bitAt z.qcfg 0 then (if bitAt val 0 then s else s.qcfgDisable q)
  else if !bitAt val 0 then s.updQueue q fun z => { z with qcfg := qcfgKept q val 0 }
  else match execQcfgEnable q val z.sqbase z.cqbase s with
    | .next t => t
    | _ => s
/-- A write of 8 bytes to the BAR (R350, R431): it acts on a queue's registers; elsewhere it is discarded. -/
def State.barWrite (s : State) (off : Nat) (val : Word) : State :=
  if off < 0x1000 ∨ 0x1800 ≤ off ∨ off % 8 ≠ 0 then s
  else
    let q := (off - 0x1000) / 32
    let still := !bitAt (s.queue q).qcfg 0
    match off % 32 / 8 with
    | 0 => if still then s.updQueue q fun z => { z with sqbase := setField val 0 6 0 } else s
    | 1 => if still then s.updQueue q fun z => { z with cqbase := setField val 0 4 0 } else s
    | 2 => s.writeQcfg q val
    | _ => s.doorbell q val
/-- The oldest access that a host has yet to make comes about; one that cannot, since the port is down or it lies outside the
BAR, has no effect. The opcode table has no row for it: it is an input of the machine (R431, assumption 113). -/
def State.barAccess (s : State) : State :=
  match s.links.bar with
  | [] => s
  | a :: rest =>
    let s := s.updLinks fun l => { l with bar := rest }
    match a with
    | .read p off n => if s.barOk p off n then s.barRead off n else s
    | .write p off v => if s.barOk p off 8 then s.barWrite off v else s
/-- A host's access to the BAR of a port. -/
def execBarAccess (s : State) : Res := whenEnabled "BAR" (!s.links.bar.isEmpty) s.barAccess

/-! ## Boder (R434 to R436) -/

/-- Whether a request's tag is one of R434: a context id. -/
def remoteOk (q : RemoteReq) : Bool := decide (q.tag < 4096) && decide (q.origin < 256)
/-- BODER_FLIT_RECEIVE (R434): a CRC error asks for replay from that sequence number; a flit out of sequence is
ignored; a good one is taken, with the request that it carries. -/
def State.boderFlit (s : State) (p seq : Nat) (crcOk : Bool) (req : Option RemoteReq) : State :=
  if !crcOk then s.updBoder p fun b => { b with replay := true }
  else if seq % 65536 ≠ (s.boderPort p).expect then s
  else
    let s := s.updBoder p fun b => { b with expect := (b.expect + 1) % 65536, replay := false }
    match req with
    | some q => s.updLinks fun l => { l with remotes := l.remotes ++ [q] }
    | none => s
/-- BODER_FLIT_RECEIVE. -/
def execBoderFlitReceive (port seq : Nat) (crcOk : Bool) (req : Option RemoteReq) (s : State) : Res :=
  whenEnabled "BODER_FLIT_RECEIVE" (decide (port < 128) && (s.boderPort port).up) (s.boderFlit port seq crcOk req)

/-- The local context of a pairing (R435). -/
def State.paired (s : State) (q : RemoteReq) : Option Nat :=
  (s.links.pairing.find? fun p => p.2.1 == q.origin && p.2.2.1 == q.tag).map fun p => p.2.2.2
/-- Bytes that a request is for. -/
def remoteBytes (q : RemoteReq) : Nat := if q.op = 1 then q.data.length else q.size
/-- Whether a request is served before another one: both come from one thread set and touch one 64-byte line, and it has the lower
posting sequence (R138, R435). -/
def remoteBefore (p q : RemoteReq) : Bool :=
  p.origin == q.origin && p.tag == q.tag && p.poster == q.poster && seqBefore p.seq q.seq &&
    decide (p.addr / 64 ≤ (q.addr + remoteBytes q - 1) / 64) && decide (q.addr / 64 ≤ (p.addr + remoteBytes p - 1) / 64)
/-- What a served request gives: CAUSE 0 and data, or CAUSE 2 where the pairing or a check fails, 3 for a poisoned
line. Operation 2 is an atomic. -/
def State.serveRemote (s : State) (q : RemoteReq) : Nat × List Byte × State :=
  match (s.paired q).bind fun c => s.rgnFor c with
  | none => (2, [], s)
  | some r =>
    let n := remoteBytes q
    let want := if q.op = 0 then Want.read else if q.op = 1 then Want.write else Want.both
    if !remoteOk q || !addrFormOk (word (3 * 2 ^ 60 + q.addr)) then (2, [], s)
    else match s.portFor r ((s.region r).physOf 0) with
      | none => (2, [], s)
      | some p => match s.dramKey r p q.addr n want with
        | (.key k, s) =>
          let old := s.bytes k n
          let s := match q.op with
            | 0 => s
            | 1 => s.putBytes k q.data
            | _ => s.putNum k n (amoNew (8 * n) q.minor (ofBytes old) q.b q.cmp)
          (0, if q.op = 1 then [] else old, if q.op = 2 ∧ q.minor = 0 then s.collAdded r p q.addr false else s)
        | (.remote _ _, s) => (2, [], s)
        | (.refused c _ _, s) => (if c = 3 then 3 else 2, [], s)
/-- Whether a request can be served: none that is there comes before it (R138, R435), by whichever port. -/
def State.canServeRemote (s : State) (n : Nat) : Bool :=
  match s.links.remotes[n]? with
  | some q => s.links.remotes.all fun p => !remoteBefore p q
  | none => false
/-- What a served request costs (R402 to R404, R409), in sixteenths of a pJ: the flits that travel between the Boder port and
the entry port, and the DRAM lines of one that is not refused, at the ratio of the port's tile. -/
def State.remoteCost (s : State) (q : RemoteReq) (entry : Nat) (cause : Nat) : Nat :=
  let t := portTile entry
  let n := remoteBytes q
  let away := match s.boderVia entry q.origin with | some b => Config.boderDistance entry b | none => 0
  let lines := if cause = 0 then (n + 63) / 64 else 0
  (s.weight t 13 * lines + s.weight t 8 * (Config.requestFlits n * away)) * ratioF (field (csrOf (s.cluster (clusterOf t)).csr 0x201) 0 2)
/-- BODER_REMOTE_REQUEST (R409, R435, R436): the request is served through the pairing table and the context's
tables, its energy is billed back, and the answer leaves by the nearest port that reaches the origin. -/
def State.remoteRequest (s : State) (n : Nat) : State :=
  match s.links.remotes[n]? with
  | none => s
  | some q =>
    let entry := (((s.paired q).bind fun c => s.rgnFor c).bind fun r => s.portFor r ((s.region r).physOf 0)).getD 0
    let (cause, data, s) := s.serveRemote q
    let s := s.updLinks fun l => { l with
      remotes := l.remotes.eraseIdx n,
      bills := AMap.put 0 (q.origin * 4096 + q.tag) (AMap.get 0 (q.origin * 4096 + q.tag) l.bills + s.remoteCost q entry cause) l.bills }
    match s.boderVia entry q.origin with
    | some b => s.boderSend b { remoteAsk q.origin q.tag 4 q.addr data.length (data.map some) with cause := cause }
    | none => s
/-- BODER_REMOTE_REQUEST. -/
def execBoderRemoteRequest (n : Nat) (s : State) : Res :=
  whenEnabled "BODER_REMOTE_REQUEST" (s.canServeRemote n) (s.remoteRequest n)

/-- BODER_PORT_FAILURE (R435): traffic moves to the next working port that reaches the same peer, with that port's sequence
numbers; without one what is still to leave is lost, and requests return CAUSE 5 (`State.boderAsk`). -/
def State.boderFail (s : State) (p : Nat) : State :=
  let s := s.updBoder p fun b => { b with up := false }
  let moved := s.links.outbox.filter fun o => o.port == p
  let next (target : Nat) : Option Nat := ((s.boderPorts target).find? fun q => decide (p < q)).or (s.boderTo target)
  moved.foldl (fun s o => match next o.target with | some q => s.boderSend q o | none => s)
    (s.updLinks fun l => { l with outbox := l.outbox.filter fun o => o.port != p })
/-- BODER_PORT_FAILURE. -/
def execBoderPortFailure (port : Nat) (s : State) : Res :=
  whenEnabled "BODER_PORT_FAILURE" (decide (port < 128) && (s.boderPort port).up) (s.boderFail port)

/-! ## Management messages (R438) -/

/-- Whether the management port answers: firmware runs (R439). -/
def State.managed (s : State) : Bool := decide (4 ≤ s.links.boot.step)
/-- The error answer to a message: nothing changes. -/
def State.badMessage (s : State) (port : Nat) : State := s.answer (Config.wireAnswer 255 port [])

/-- The clusters of the module: those of present fields (R20). -/
def allClusters : List Nat := (List.range 32400).filter fun c => fieldPresent (c % 180 / 18) (c / 180 / 18)
/-- What TELEM reports (R400, R438): the current of each field's rail, the TEMP of every cluster, and the coolant. -/
def State.telemetry (s : State) : List Nat :=
  (List.range 84).map (fun f => Config.railCurrent f (field (csrOf (s.fieldRec f).csr 0x200) 0 6) s.fresh) ++
    allClusters.map (fun c => field (csrOf (s.cluster c).csr 0x205) 0 16) ++ [s.links.inlet, s.links.outlet, s.links.flow]
/-- TELEM (R400, R438). -/
def execTelem (s : State) : Res :=
  whenEnabled "TELEM" s.managed ({ s with fresh := s.fresh + 1 }.answer (Config.wireAnswer 1 2 s.telemetry))

/-- BOOTREC (R438, R440). -/
def execBootrec (s : State) : Res := whenEnabled "BOOTREC" s.managed (s.answer s.links.boot.bytes)

/-- What a characterisation finds: a choice names a tile of the field, and a further one its limit entries at the three ratios,
4 bits each (R2, R22); entries of 15 make it a good tile. The fuel is the number of tiles that differ from the earlier one. -/
def State.characterise (s : State) (f : Nat) : Nat → State
  | 0 => s
  | n + 1 =>
    let (t, s) := s.choose
    let (e, s) := s.choose
    let l := (e % 16, e / 16 % 16, e / 256 % 16)
    let s : State := if isTile t && decide (fieldOf t = f) && !s.map.dead.contains t then
        { s with map := { s.map with limits := if l = (15, 15, 15) then AMap.del t s.map.limits else AMap.ins t l s.map.limits } }
      else s
    s.characterise f n
/-- RECHAR (R395, R438): the field is characterised anew, and UVDIS is cleared. Its clocks are gated until THERMAL_RELEASE
(assumption 112). A field number out of range returns an error. -/
def State.rechar (s : State) (f : Nat) : State :=
  if 84 ≤ f then s.badMessage 2
  else
    let (n, s) := s.choose
    ((s.characterise f n).updField f fun x =>
      { x with gated := true, errs := 0, csr := csrPut x.csr 0x207 (setField (csrOf x.csr 0x207) 1 1 0) }).answer (Config.wireAnswer 3 2 [f])
/-- RECHAR. -/
def execRechar (fld : Nat) (s : State) : Res := whenEnabled "RECHAR" s.managed (s.rechar fld)

/-- COLL (R435, R436, R438): declares or removes a collective, or writes a pairing entry; a bad argument returns an
error. -/
def State.coll (s : State) : CollMsg → State
  | .declare id addr m rgn =>
    if m < 2 ∨ 64 < m ∨ addr % 8 ≠ 0 ∨ 2 ^ 57 ≤ addr ∨ 256 ≤ rgn ∨ !s.hasRegion rgn ∨ s.links.colls.any (fun c => c.id == id) then s.badMessage 2
    else (s.updLinks fun l => { l with colls := l.colls ++ [⟨id, addr, m, rgn, 0, s.portClock rgn, [], []⟩] }).answer (Config.wireAnswer 4 2 [id])
  | .remove id =>
    if s.links.colls.any (fun c => c.id == id) then
      (s.updLinks fun l => { l with colls := l.colls.filter fun c => c.id ≠ id }).answer (Config.wireAnswer 4 2 [id])
    else s.badMessage 2
  | .pair ent origin tag ctx =>
    if 4096 ≤ ent ∨ 256 ≤ origin ∨ 4096 ≤ tag ∨ 4096 ≤ ctx then s.badMessage 2
    else (s.updLinks fun l => { l with pairing := AMap.ins ent (origin, tag, ctx) l.pairing }).answer (Config.wireAnswer 4 2 [ent])
  | .bad => s.badMessage 2
/-- COLL. -/
def execColl (msg : CollMsg) (s : State) : Res := whenEnabled "COLL" s.managed (s.coll msg)

/-- The verification of R441 against NVM: 0 when the image passes, else DETAIL. -/
def imageVerdict (i : FwImage) (nvmSvn : Nat) : Nat := if !i.chainOk then 1 else if !i.sigOk then 2 else if i.svn < nvmSvn then 3 else 0
/-- FWUPD (R438, R441): an image that passes is staged for the next start. -/
def State.fwupd (s : State) (i : FwImage) : State :=
  if imageVerdict i s.links.boot.nvmSvn = 0 then
    (s.updLinks fun l => { l with boot := { l.boot with staged := some i } }).answer (Config.wireAnswer 5 2 [])
  else s.badMessage 2
/-- FWUPD. -/
def execFwupd (img : FwImage) (s : State) : Res := whenEnabled "FWUPD" s.managed (s.fwupd img)

/-! ## SPDM (R442) -/

/-- The responder of a port: 0 and 1 are the CXL ports, 2 the management port. -/
def State.responder (s : State) (p : Nat) : HostPort := if p = 2 then s.links.mgmt else s.cxl p
/-- Whether a port answers SPDM. -/
def State.answers (s : State) (p : Nat) : Bool := if p = 2 then s.managed else decide (p < 2) && (s.cxl p).up
/-- Changes a responder. -/
def State.updResponder (s : State) (p : Nat) (f : HostPort → HostPort) : State :=
  if p = 2 then s.updLinks fun l => { l with mgmt := f l.mgmt }
  else s.updLinks fun l => { l with ports := l.ports.zipIdx.map fun q => if q.2 = p then f q.1 else q.1 }
/-- Answers an SPDM request: with a message when the exchange has come far enough, otherwise with an error. Versions,
capabilities and algorithms come first, in this order (assumption 47). -/
def State.spdm (s : State) (p need code : Nat) (ok : Bool) (facts : List Nat) (f : HostPort → HostPort) : State :=
  if (s.responder p).spdm < need || !ok then s.badMessage p else (s.updResponder p f).answer (Config.wireAnswer code p facts)

/-- GET_VERSION (R442): SPDM 1.2; an exchange and session begun before are over. -/
def execGetVersion (port : Nat) (s : State) : Res :=
  whenEnabled "GET_VERSION" (s.answers port) (s.spdm port 0 0x84 true [0x12] fun h => { h with spdm := 1, algs := false, session := false })
/-- GET_CAPABILITIES (R442). -/
def execGetCapabilities (port : Nat) (s : State) : Res :=
  whenEnabled "GET_CAPABILITIES" (s.answers port) (s.spdm port 1 0xE1 true [] fun h => { h with spdm := max h.spdm 2 })
/-- NEGOTIATE_ALGORITHMS (R442): ECDSA P-384, SHA-384 and AES-256-GCM only. -/
def execNegotiateAlgorithms (port : Nat) (s : State) : Res :=
  whenEnabled "NEGOTIATE_ALGORITHMS" (s.answers port) (s.spdm port 2 0xE3 true [384, 384, 256] fun h => { h with spdm := max h.spdm 3, algs := true })
/-- GET_DIGESTS (R442): of the one slot, slot 0. -/
def execGetDigests (port : Nat) (s : State) : Res :=
  whenEnabled "GET_DIGESTS" (s.answers port) (s.spdm port 3 0x81 true [0] id)
/-- GET_CERTIFICATE (R442). -/
def execGetCertificate (port slot : Nat) (s : State) : Res :=
  whenEnabled "GET_CERTIFICATE" (s.answers port) (s.spdm port 3 0x82 (slot == 0) [0] id)
/-- CHALLENGE (R442). -/
def execChallenge (port slot : Nat) (s : State) : Res :=
  whenEnabled "CHALLENGE" (s.answers port) (s.spdm port 3 0x83 (slot == 0) [0] id)
/-- GET_MEASUREMENTS (R442): indices 1 to 4, as taken at step 9 or on entry to minimal mode. -/
def execGetMeasurements (port index : Nat) (s : State) : Res :=
  whenEnabled "GET_MEASUREMENTS" (s.answers port)
    (s.spdm port 3 0xE0 (decide (1 ≤ index ∧ index ≤ 4)) [s.links.boot.meas.getD (index - 1) 0] id)
/-- KEY_EXCHANGE (R442). -/
def execKeyExchange (port : Nat) (s : State) : Res :=
  whenEnabled "KEY_EXCHANGE" (s.answers port) (s.spdm port 3 0xE4 true [] fun h => { h with spdm := 4 })
/-- FINISH (R442): the session of this port is open; IDE keys of the port may be set in it. -/
def execFinish (port : Nat) (s : State) : Res :=
  whenEnabled "FINISH" (s.answers port) (s.spdm port 4 0xE5 true [] fun h => { h with spdm := 5, session := true })

end Sys2Proof.Machine
end

