-- ==== Sys2Proof/Machine/Boot.lean ====
section
/-! DEFINITION. Power-on, reset and bring-up (R22, R339 to R341, R364, R439 to R442). What self-test, link training
and the sensors find is an input of the machine, read from `choices`: 0 stands for a pass. -/

namespace Sys2Proof.Machine

open Sys2Proof

/-- Changes the boot record or module NVM. -/
def State.updBoot (s : State) (f : Boot → Boot) : State := s.updLinks fun l => { l with boot := f l.boot }

/-- The image that a start runs: a staged one takes effect at the next start (R438). -/
def Boot.startImage (b : Boot) : FwImage := b.staged.getD b.image

/-- The four measurements of R442, of a tile map and a firmware image. -/
def Boot.measured (b : Boot) (map : TileMap) (i : FwImage) : List Nat :=
  [Config.romDigest, i.digest * 2 ^ 32 + i.svn, Config.mapDigest map, b.fails * 256 + b.mode]

/-- What NVM keeps over a reset, at the beginning of a new start (R440): the start is counted, and with three failures
behind it firmware enters minimal mode and takes its measurements. -/
def Boot.restarted (b : Boot) (map : TileMap) : Boot :=
  let c := { b with step := 1, mode := if b.fails = 3 then 1 else 2, starts := b.starts + 1, minimal := decide (b.fails = 3) }
  { c with meas := if b.fails = 3 then c.measured map c.startImage else [] }

/-- Power-on or reset (R439): the machine as reset leaves it. The inputs, what the host's memory holds, the tile map and
module NVM stay. -/
def State.powerOn (s : State) : State :=
  let r := State.reset
  { r with
    agenda := s.agenda, schedule := s.schedule, choices := s.choices, fresh := s.fresh, map := s.map,
    mem := s.mem.filter fun p => decide (2 ^ 61 ≤ p.1),
    links := { r.links with sources := s.links.sources, bar := s.links.bar, boderId := s.links.boderId, serialNo := s.links.serialNo, boot := s.links.boot.restarted s.map } }

/-- POWER_ON_RESET (R439). Bring-up itself follows step by step (`State.bringup`). -/
def execPowerOnReset (s : State) : Res := .next s.powerOn

/-- RESET (R438, R440): resets the module, or clears the count of failed starts and resets it. -/
def execReset (clear : Bool) (s : State) : Res :=
  whenEnabled "RESET" s.managed (State.powerOn (if clear then s.updBoot fun b => { b with fails := 0 } else s))

/-- A failed start (R440): entry NEXT is written, the count goes up to 3 at most, and the module resets. -/
def State.failStart (s : State) (reason fld detail : Nat) : State :=
  State.powerOn (s.updBoot fun b => { b with
    entries := AMap.ins b.nextEnt (reason, b.step, fld, detail, b.starts) b.entries,
    nextEnt := (b.nextEnt + 1) % 8, fails := min 3 (b.fails + 1) })

/-- The next step of bring-up begins. -/
def State.bootStep (s : State) : State := s.updBoot fun b => { b with step := b.step + 1 }

/-- The manager cores that run: those that passed self-test, in field order. -/
def State.liveCores (s : State) : List Nat := (List.range 84).filter fun f => (s.fieldRec f).alive

/-- Step 1: bit f of the choice is set when core f fails its self-test. -/
def State.selfTest (s : State) : State :=
  let (bad, s) := s.choose
  let s := (List.range 84).foldl (fun (s : State) (f : Nat) =>
    if bad / 2 ^ f % 2 = 1 then s.updField f fun x => { x with alive := false, current := false } else s) s
  if s.liveCores = [] then s.failStart 1 255 0 else s.bootStep
/-- Cores take no further part in a start. -/
def State.stopCores (s : State) (fs : List Nat) : State :=
  fs.foldl (fun (s : State) (f : Nat) => s.updField f fun x => { x with alive := false, current := false }) s
/-- Step 2: each core verifies the image (R441), a staged one where there is one; bit f of the choice is set when the copy that
core f reads fails, and a further choice gives DETAIL when all fail so. Minimal mode goes on with the lowest-numbered core that
verifies (R440). -/
def State.verifyImage (s : State) : State :=
  let i := s.links.boot.startImage
  let v := imageVerdict i s.links.boot.nvmSvn
  let (bad, s) := s.choose
  let good := s.liveCores.filter fun f => !bad.testBit f
  if v ≠ 0 then s.failStart 2 255 v
  else if good = [] then let (d, s) := s.choose; s.failStart 2 255 (d % 3 + 1)
  else
    let keep := if s.links.boot.minimal then good.take 1 else good
    ((s.stopCores (s.liveCores.filter fun f => !keep.contains f)).updBoot fun b => { b with image := i, staged := none }).bootStep
/-- Step 3: the lowest-numbered core leads; three must have passed, except in minimal mode (R440). -/
def State.elect (s : State) : State :=
  if s.liveCores.length < 3 ∧ !s.links.boot.minimal then s.failStart 3 255 0
  else (s.updLinks fun l => { l with lease := ⟨s.liveCores.head?, 0, true⟩, mgmt := { l.mgmt with up := true } }).bootStep
/-- Step 4: the digest of the tile map, and the count of R22, which minimal mode does not check. -/
def State.loadMap (s : State) : State :=
  let (bad, s) := s.choose
  if bad ≠ 0 then s.failStart 4 255 0
  else if 435456 - s.map.dead.length < 425000 ∧ !s.links.boot.minimal then s.failStart 5 255 0
  else s.bootStep
/-- Step 5: inlet, outlet and flow are read; then the verdict: 0, 1 for the coolant, or 2 + f for the rail of field f. The
rails take the code of R393: all of them, or in minimal mode that of the lead's field. -/
def State.trimRails (s : State) : State :=
  let (i, s) := s.choose
  let (o, s) := s.choose
  let (w, s) := s.choose
  let (v, s) := s.choose
  let s := s.updLinks fun l => { l with inlet := i, outlet := o, flow := w }
  if v = 1 then s.failStart 0x0A 255 0
  else if v ≠ 0 then s.failStart 6 (if s.links.boot.minimal then s.links.lease.lead.getD 0 else (v - 2) % 84) 0
  else
    let fs := if s.links.boot.minimal then s.links.lease.lead.toList else List.range 84
    (fs.foldl (fun (s : State) (f : Nat) => s.safeUpdate f (s.safeCode f)) s).bootStep
/-- Step 6: a choice n > 0 says that stack n - 1 fails; minimal mode trains no stack. -/
def State.trainStacks (s : State) : State :=
  if s.links.boot.minimal then s.bootStep
  else
    let (v, s) := s.choose
    if v = 0 then s.bootStep else s.failStart 7 255 ((v - 1) % 32)
/-- Step 7: bit p of the choice marks Boder port p down; a further choice for each port that is up names its peer, and one
gives this module's Boder id (R434). -/
def State.trainBoder (s : State) : State :=
  if s.links.boot.minimal then s.bootStep
  else
    let (bad, s) := s.choose
    let (me, s) := s.choose
    let s := s.updLinks fun l => { l with boderId := me % 256 }
    ((List.range 128).foldl (fun (s : State) (p : Nat) =>
      if bad / 2 ^ p % 2 = 1 then s
      else
        let (q, s) := s.choose
        s.updBoder p fun b => { b with up := true, peer := q % 256 }) s).bootStep
/-- The pseudo-region of the manager cores (R327, R403): it holds their registers of region scope. -/
def State.firmwareRegion (s : State) : State := { s with regions := AMap.ins 256 Region.init s.regions }
/-- Step 9: the count of failures is cleared, the security version number of the running image goes to NVM, the
measurements are taken, and the front end accepts commands. In minimal mode the count stands (R440). -/
def State.openFrontEnd (s : State) : State :=
  if s.links.boot.minimal then (s.updBoot fun b => { b with step := 9 }).firmwareRegion
  else
    (s.updBoot fun b =>
      let c := { b with step := 9, mode := 0, fails := 0, nvmSvn := max b.nvmSvn b.image.svn }
      { c with meas := c.measured s.map c.image }).firmwareRegion
/-- Step 8: bits 0 and 1 of the choice mark CXL ports down; one port must come up. Minimal mode brings up port 0, or
port 1 when port 0 does not train, and no HBM. The host then gives each port's HDM decoder a range, and firmware marks each GiB
of physical DRAM host-visible or not (R432): of each port's range base and size in GiB, and a mask, are choices. -/
def State.bringUpCxl (s : State) : State :=
  let (bad, s) := s.choose
  let (b0, s) := s.choose
  let (n0, s) := s.choose
  let (b1, s) := s.choose
  let (n1, s) := s.choose
  let (seen, s) := s.choose
  let up0 := decide (bad % 2 = 0)
  let up1 := decide (bad / 2 % 2 = 0) && !(s.links.boot.minimal && up0)
  if !up0 && !up1 then s.failStart 9 255 0
  else
    let s := s.updLinks fun l => { l with
      ports := [{ HostPort.init with up := up0, hdmBase := b0 * 2 ^ 30, hdmSize := n0 * 2 ^ 30 },
                { HostPort.init with up := up1, hdmBase := b1 * 2 ^ 30, hdmSize := n1 * 2 ^ 30 }],
      hdm := if s.links.boot.minimal then [] else ((List.range 2048).filter fun g => seen.testBit g).map fun g => (g, true) }
    s.openFrontEnd

/-- One step of bring-up (R439). -/
def State.bringup (s : State) : State :=
  match s.links.boot.step with
  | 1 => s.selfTest
  | 2 => s.verifyImage
  | 3 => s.elect
  | 4 => s.loadMap
  | 5 => s.trimRails
  | 6 => s.trainStacks
  | 7 => s.trainBoder
  | 8 => s.bringUpCxl
  | _ => s.powerOn

/-- A step of bring-up overruns its time (R439): the start fails with that step's reason. Where a step has two, and which
stack has not trained, a choice says; minimal mode checks no count and trims one rail (R440). Step 7 fails no start: its ports stay
down. -/
def State.stepTimeout (s : State) (stp : Nat) : State :=
  let (c, s) := s.choose
  let small := s.links.boot.minimal
  match stp with
  | 4 => s.failStart (if c % 2 = 0 ∨ small = true then 4 else 5) 255 0
  | 5 => s.failStart (if c = 0 then 0x0A else 6) (if c = 0 then 255 else if small then s.links.lease.lead.getD 0 else (c - 1) % 84) 0
  | 6 => s.failStart 7 255 (c % 32)
  | 7 => s.bootStep
  | 8 => s.failStart 9 255 0
  | n => s.failStart n 255 0
/-- BRINGUP_STEP_TIMEOUT: of a step that is run; minimal mode runs neither 6 nor 7 (R440). -/
def execBringupStepTimeout (stp : Nat) (s : State) : Res :=
  whenEnabled "BRINGUP_STEP_TIMEOUT" (decide (s.links.boot.step = stp) && decide (1 ≤ stp ∧ stp ≤ 8) &&
    !(s.links.boot.minimal && (stp == 6 || stp == 7))) (s.stepTimeout stp)
/-- START_TIMEOUT (R439): the whole sequence exceeds 30 s. -/
def execStartTimeout (s : State) : Res :=
  whenEnabled "START_TIMEOUT" (decide (1 ≤ s.links.boot.step ∧ s.links.boot.step ≤ 8)) (s.failStart 0x0B 255 0)

end Sys2Proof.Machine
end

