-- ==== Sys2Proof/Machine/Functions.lean ====
section
/-! DEFINITION. The six functions of R250 and R251, correctly rounded (R117): each value is enclosed
between two fixed-point numbers, and the result is given when both ends round alike. The enclosure is
made narrower until they do; past the last width the free value `Config.freeFun` says which of the two the result is (see
assumption 10). -/

namespace Sys2Proof.Machine

open Sys2Proof

/-- Half width of every enclosure, in units of the last place of the fixed-point numbers. -/
def slack : Int := 2 ^ 20

/-- 1/1 − x/3 + x²/5 − … or with plus signs, times t, for x = z²: the series of arctangent and of the
inverse hyperbolic tangent. `t` holds z × x^i; `n` is 2i + 1. -/
def oddSeries (p : Nat) (alt : Bool) (x : Int) : Nat → Int → Nat → Int
  | 0, _, _ => 0
  | k + 1, t, n =>
    if t = 0 then 0
    else
      let t' := Int.tdiv (t * x) (2 ^ p : Nat)
      Int.tdiv t (n : Int) + oddSeries p alt x k (if alt then -t' else t') (n + 2)

/-- arctan(1/n) with p fractional bits. -/
def atanInv (p n : Nat) : Int :=
  let one : Int := (2 ^ p : Nat)
  oddSeries p true (one / ((n * n : Nat) : Int)) p (one / (n : Int)) 1

/-- π with p fractional bits, by 16 arctan(1/5) − 4 arctan(1/239). -/
def piFix (p : Nat) : Int := 16 * atanInv p 5 - 4 * atanInv p 239

/-- ln of num/den, between 1 and 2, with p fractional bits: 2 artanh((num − den)/(num + den)). -/
def lnRatio (p : Nat) (num den : Nat) : Int :=
  let z : Int := (((num - den) * 2 ^ p / (num + den) : Nat) : Int)
  2 * oddSeries p false (z * z / (2 ^ p : Nat)) p z 1

/-- ln 2 with p fractional bits. -/
def ln2Fix (p : Nat) : Int := lnRatio p 2 1

/-- Σ t y^i / (n (n+1) …): the series of the exponential; `step` 1 takes every term. -/
def expSeries (p : Nat) (y : Int) : Nat → Int → Nat → Int
  | 0, _, _ => 0
  | k + 1, t, n => if t = 0 then 0 else t + expSeries p y k (t * y / (2 ^ p : Nat) / (n : Int)) (n + 1)

/-- e^y for 0 ≤ y < 1, with p fractional bits. -/
def expFix (p : Nat) (y : Int) : Int := expSeries p y p ((2 ^ p : Nat) : Int) 1

/-- The alternating series of sine and cosine: t − t y/(n(n+1)) + … for y = r². -/
def trigSeries (p : Nat) (y : Int) : Nat → Int → Nat → Int
  | 0, _, _ => 0
  | k + 1, t, n =>
    if t = 0 then 0 else t - trigSeries p y k (t * y / (2 ^ p : Nat) / ((n * (n + 1) : Nat) : Int)) (n + 2)

/-- Sine and cosine of 0 ≤ r ≤ 2 with p fractional bits. -/
def sinFix (p : Nat) (r : Int) : Int := trigSeries p (r * r / (2 ^ p : Nat)) p r 2
/-- Cosine. -/
def cosFix (p : Nat) (r : Int) : Int := trigSeries p (r * r / (2 ^ p : Nat)) p ((2 ^ p : Nat) : Int) 1

/-- A value that lies between two numbers: whether both round alike, and the rounding of each. -/
structure Enclosed where
  same : Bool
  lo   : Word × BitVec 7
  hi   : Word × BitVec 7
  deriving DecidableEq, Repr

/-- The roundings of the ends of an enclosure, in units of 2^-p × 2^e, with OF and UF as R116 gives them; NX stands in any
case, since an enclosed value here is never exact (R251). -/
def encloseAt (p : Nat) (e : Int) (lo hi : Int) : Enclosed :=
  let a := roundSigned lo (e - (p : Int)) false
  let b := roundSigned hi (e - (p : Int)) false
  let x := (a.1, a.2 ||| fNX)
  let y := (b.1, b.2 ||| fNX)
  ⟨decide (0 < lo ∨ hi < 0) && x == y, x, y⟩

/-- Encloses a fixed-point value computed to within the slack. -/
def enclose (p : Nat) (e v : Int) : Enclosed := encloseAt p e (v - slack) (v + slack)

/-- m × 2^e with p fractional bits, rounded down. -/
def fixed (p : Nat) (m : Nat) (e : Int) : Int :=
  let q := e + (p : Int)
  if 0 ≤ q then ((m * 2 ^ q.toNat : Nat) : Int) else ((m / 2 ^ (-q).toNat : Nat) : Int)

/-- A number just below the magnitude m × 2^e: the function's value for arguments so small that its
next term lies below the last bit of 64 more. -/
def justBelow (neg : Bool) (m : Nat) (e : Int) : Word × BitVec 7 := roundWf neg (m * 2 ^ 64 - 1) (e - 64) true

/-- Whether a magnitude is below 2^-60. -/
def tiny (m : Nat) (e : Int) : Bool := decide (e + (bitLen m : Int) ≤ -60)

/-- sin of a magnitude not below 2^-60 with p fractional bits: 2x/π is split into quadrant and rest. -/
def sinAt (p : Nat) (neg : Bool) (m : Nat) (e : Int) : Enclosed :=
  let q := p + 640
  let pi := piFix q
  let x := fixed q m e
  let k := 2 * x / pi
  let r := (2 * x - k * pi) / (2 ^ 641 : Nat)
  let v := match (k % 4).toNat with
    | 0 => sinFix p r
    | 1 => cosFix p r
    | 2 => -(sinFix p r)
    | _ => -(cosFix p r)
  enclose p 0 (if neg then -v else v)

/-- 2^x for a fixed-point x with p fractional bits, as an integer part and 2^fraction. -/
def exp2Fix (p : Nat) (x : Int) : Int × Int :=
  let one : Int := (2 ^ p : Nat)
  (x / one, expFix p (x % one * ln2Fix p / one))

/-- 2^a for a finite a that is no integer. -/
def exp2At (p : Nat) (neg : Bool) (m : Nat) (e : Int) : Enclosed :=
  let f := fixed p m e
  let r := exp2Fix p (if neg then -f else f)
  enclose p r.1 r.2

/-- log2 of m × 2^e, no power of two. -/
def log2At (p : Nat) (m : Nat) (e : Int) : Enclosed :=
  let n := bitLen m - 1
  let one : Int := (2 ^ p : Nat)
  let v := lnRatio p m (2 ^ n) * one / ln2Fix p
  enclose p 0 ((e + (n : Int)) * one + v)

/-- tanh of a magnitude from 2^-60 to 64: (1 − t)/(1 + t) with t = e^(−2x). -/
def tanhAt (p : Nat) (neg : Bool) (m : Nat) (e : Int) : Enclosed :=
  let one : Int := (2 ^ p : Nat)
  let u := 2 * fixed p m e * one / ln2Fix p
  let r := exp2Fix p (-u)
  let t := r.2 / (2 ^ (-r.1).toNat : Nat)
  let v := (one - t) * one / (one + t)
  enclose p 0 (if neg then -v else v)

/-- The result at the first width at which both ends of the enclosure round alike. Past the last width the result, value and
flags, is one of the two roundings: which of them, a free value says (R12; assumption 10). -/
def decideAt (fn : Nat) (a : Word) (f : Nat → Enclosed) : Word × BitVec 7 :=
  let x := f 320
  if x.same then x.lo
  else
    let x := f 640
    if x.same then x.lo
    else
      let x := f 1300
      if x.same || bitAt (Config.freeFun fn a) 0 then x.lo else x.hi

/-- Whether m is a power of two. -/
def isPow2 (m : Nat) : Bool := decide (m = 2 ^ (bitLen m - 1))

/-- FRCP (R251). -/
def frcp (a : Word) : Word × BitVec 7 :=
  match wfVal a with
  | .nan s => nanRes s
  | .zero n => (wInf n, fDZ)
  | .inf n => (wZero n, 0)
  | .fin n m e => divRound n 1 0 m e

/-- FRSQ (R251). -/
def frsq (a : Word) : Word × BitVec 7 :=
  match wfVal a with
  | .nan s => nanRes s
  | .zero n => (wInf n, fDZ)
  | .inf false => (wZero false, 0)
  | .inf true => invalid
  | .fin true _ _ => invalid
  | .fin false m e =>
    let e2 := if e % 2 = 0 then e else e - 1
    let m2 := if e % 2 = 0 then m else 2 * m
    let n := 2 ^ 400 / m2
    let r := isqrt n
    roundWf false r (-(e2 / 2) - 200) (decide (r * r * m2 ≠ 2 ^ 400))

/-- FEXP2 (R251). -/
def fexp2 (a : Word) : Word × BitVec 7 :=
  match wfVal a with
  | .nan s => nanRes s
  | .zero _ => roundWf false 1 0 false
  | .inf n => (if n then wZero false else wInf false, 0)
  | .fin n m e =>
    if 11 < e + (bitLen m : Int) then
      if n then roundWf false 1 (-2000) true else (wInf false, fOF ||| fNX)
    else
      let i := roundInt 1 n m e
      if i.2 then decideAt 4 a fun p => exp2At p n m e
      else roundWf false 1 (signed n i.1) false

/-- FLOG2 (R251). -/
def flog2 (a : Word) : Word × BitVec 7 :=
  match wfVal a with
  | .nan s => nanRes s
  | .zero _ => (wInf true, fDZ)
  | .inf false => (wInf false, 0)
  | .inf true => invalid
  | .fin true _ _ => invalid
  | .fin false m e =>
    if isPow2 m then roundSigned (e + (bitLen m : Int) - 1) 0 false
    else decideAt 5 a fun p => log2At p m e

/-- FTANH (R251). -/
def ftanh (a : Word) : Word × BitVec 7 :=
  match wfVal a with
  | .nan s => nanRes s
  | .zero n => (wZero n, 0)
  | .inf n => roundWf n 1 0 false
  | .fin n m e =>
    if tiny m e then justBelow n m e
    else if 6 < e + (bitLen m : Int) then justBelow n 1 0
    else decideAt 6 a fun p => tanhAt p n m e

/-- FSIN (R251): every finite argument is reduced exactly. -/
def fsin (a : Word) : Word × BitVec 7 :=
  match wfVal a with
  | .nan s => nanRes s
  | .zero n => (wZero n, 0)
  | .inf _ => invalid
  | .fin n m e => if tiny m e then justBelow n m e else decideAt 7 a fun p => sinAt p n m e

end Sys2Proof.Machine
end

