-- ==== Sys2Proof/Machine/Float.lean ====
section
/-! DEFINITION. Floating-point instructions (R244 to R256): each computes lane by lane on WF64 encodings
and raises the flags of R116 for each lane that computes. -/

namespace Sys2Proof.Machine

open Sys2Proof

/-- FADD (R246). -/
def execFadd (pr : Pr) (v : Bool) (t0 t1 : Target) (s : State) : Res :=
  s.lane2 .float (.v v) pr [t0, t1] fadd

/-- FSUB (R246). -/
def execFsub (pr : Pr) (v : Bool) (t0 t1 : Target) (s : State) : Res :=
  s.lane2 .float (.v v) pr [t0, t1] fsub

/-- FMUL (R246). -/
def execFmul (pr : Pr) (v : Bool) (t0 t1 : Target) (s : State) : Res :=
  s.lane2 .float (.v v) pr [t0, t1] fmul

/-- FMA (R247). -/
def execFma (pr : Pr) (v : Bool) (t0 t1 : Target) (s : State) : Res :=
  s.lane3 .float (.v v) pr [t0, t1] fma

/-- FNMA (R247). -/
def execFnma (pr : Pr) (v : Bool) (t0 t1 : Target) (s : State) : Res :=
  s.lane3 .float (.v v) pr [t0, t1] fnma

/-- FDIV (R248). -/
def execFdiv (pr : Pr) (v : Bool) (t0 t1 : Target) (s : State) : Res :=
  s.lane2 .slow (.v v) pr [t0, t1] fdiv

/-- FSQRT (R248). -/
def execFsqrt (pr : Pr) (v : Bool) (t0 t1 : Target) (s : State) : Res :=
  s.lane1 .slow (.v v) pr [t0, t1] fsqrt

/-- FMINMAX.FMIN (R249). -/
def execFmin (pr : Pr) (t0 : Target) (s : State) : Res :=
  s.lane2 .float .free pr [t0] (fminmax false)

/-- FMINMAX.FMAX (R249). -/
def execFmax (pr : Pr) (t0 : Target) (s : State) : Res :=
  s.lane2 .float .free pr [t0] (fminmax true)

/-- FUN.FABS (R250). -/
def execFabs (pr : Pr) (t0 : Target) (s : State) : Res :=
  s.lane1 .float .free pr [t0] (fabsNeg false)

/-- FUN.FNEG (R250). -/
def execFneg (pr : Pr) (t0 : Target) (s : State) : Res :=
  s.lane1 .float .free pr [t0] (fabsNeg true)

/-- FUN.FRCP (R251). -/
def execFrcp (pr : Pr) (t0 : Target) (s : State) : Res :=
  s.lane1 .slow .free pr [t0] frcp

/-- FUN.FRSQ (R251). -/
def execFrsq (pr : Pr) (t0 : Target) (s : State) : Res :=
  s.lane1 .slow .free pr [t0] frsq

/-- FUN.FEXP2 (R251). -/
def execFexp2 (pr : Pr) (t0 : Target) (s : State) : Res :=
  s.lane1 .slow .free pr [t0] fexp2

/-- FUN.FLOG2 (R251). -/
def execFlog2 (pr : Pr) (t0 : Target) (s : State) : Res :=
  s.lane1 .slow .free pr [t0] flog2

/-- FUN.FTANH (R251). -/
def execFtanh (pr : Pr) (t0 : Target) (s : State) : Res :=
  s.lane1 .slow .free pr [t0] ftanh

/-- FUN.FSIN (R251). -/
def execFsin (pr : Pr) (t0 : Target) (s : State) : Res :=
  s.lane1 .slow .free pr [t0] fsin

/-- FCMP.FCMPEQ (R252). -/
def execFcmpeq (pr : Pr) (t0 : Target) (s : State) : Res :=
  s.cmp2 .float pr [t0] (fcmp 0)

/-- FCMP.FCMPLT (R252). -/
def execFcmplt (pr : Pr) (t0 : Target) (s : State) : Res :=
  s.cmp2 .float pr [t0] (fcmp 1)

/-- FCMP.FCMPLE (R252). -/
def execFcmple (pr : Pr) (t0 : Target) (s : State) : Res :=
  s.cmp2 .float pr [t0] (fcmp 2)

/-- FCMP.FCMPUN (R252). -/
def execFcmpun (pr : Pr) (t0 : Target) (s : State) : Res :=
  s.cmp2 .float pr [t0] (fcmp 3)

/-- FCVT.F2I (R253). -/
def execF2i (pr : Pr) (sat : Bool) (rm : BitVec 2) (t0 : Target) (s : State) : Res :=
  s.lane1 .float .free pr [t0] (f2i true sat rm.toNat)

/-- FCVT.F2N (R253). -/
def execF2n (pr : Pr) (sat : Bool) (rm : BitVec 2) (t0 : Target) (s : State) : Res :=
  s.lane1 .float .free pr [t0] (f2i false sat rm.toNat)

/-- FCVT.I2F (R253): SAT has no effect. -/
def execI2f (pr : Pr) (_sat : Bool) (rm : BitVec 2) (t0 : Target) (s : State) : Res :=
  s.lane1 .float .free pr [t0] (i2f true rm.toNat)

/-- FCVT.N2F (R253): SAT has no effect. -/
def execN2f (pr : Pr) (_sat : Bool) (rm : BitVec 2) (t0 : Target) (s : State) : Res :=
  s.lane1 .float .free pr [t0] (i2f false rm.toNat)

/-- FCLASS (R254). -/
def execFclass (pr : Pr) (t0 : Target) (s : State) : Res :=
  s.lane1 .float .free pr [t0] (plain1 fclass)

/-- FSCALE (R255). -/
def execFscale (pr : Pr) (v : Bool) (t0 t1 : Target) (s : State) : Res :=
  s.lane2 .float (.v v) pr [t0, t1] fscale

/-- FRND.RNE (R256). -/
def execFrndRne (pr : Pr) (t0 : Target) (s : State) : Res :=
  s.lane1 .float .free pr [t0] (frnd 0)

/-- FRND.RZ (R256). -/
def execFrndRz (pr : Pr) (t0 : Target) (s : State) : Res :=
  s.lane1 .float .free pr [t0] (frnd 1)

/-- FRND.RU (R256). -/
def execFrndRu (pr : Pr) (t0 : Target) (s : State) : Res :=
  s.lane1 .float .free pr [t0] (frnd 2)

/-- FRND.RD (R256). -/
def execFrndRd (pr : Pr) (t0 : Target) (s : State) : Res :=
  s.lane1 .float .free pr [t0] (frnd 3)

end Sys2Proof.Machine
end

