-- ==== Sys2Proof/Machine/Integer.lean ====
section
/-! DEFINITION. Integer and address instructions (R230 to R236): each computes its function lane by lane
under R218. -/

namespace Sys2Proof.Machine

open Sys2Proof

/-! ## Functions (R231 to R236) -/

/-- MUL.LO: the low 64 bits of the product. -/
def mulLo (a b : Word) : Word := a * b
/-- MUL.HI: bits [127:64] of the signed product. -/
def mulHi (a b : Word) : Word := wordOfInt (a.toInt * b.toInt / (2 ^ 64 : Nat))
/-- MUL.HIU: bits [127:64] of the unsigned product. -/
def mulHiu (a b : Word) : Word := BitVec.ofNat 64 (a.toNat * b.toNat / 2 ^ 64)

/-- Division towards zero (R232); a zero divisor gives 0 and IDZ. -/
def idiv (a b : Word) : Word × Flags := if b = 0 then (0, fIDZ) else (wordOfInt (Int.tdiv a.toInt b.toInt), 0)
/-- Unsigned division (R232). -/
def idivu (a b : Word) : Word × Flags := if b = 0 then (0, fIDZ) else (a / b, 0)
/-- Remainder with the sign of the dividend (R232); a zero divisor gives the dividend and IDZ. -/
def irem (a b : Word) : Word × Flags := if b = 0 then (a, fIDZ) else (wordOfInt (Int.tmod a.toInt b.toInt), 0)
/-- Unsigned remainder (R232). -/
def iremu (a b : Word) : Word × Flags := if b = 0 then (a, fIDZ) else (a % b, 0)

/-- Only bits [5:0] of a shift amount count (R231). -/
def shAmount (b : Word) : Nat := b.toNat % 64
/-- SHL. -/
def shiftL (a : Word) (k : Nat) : Word := a <<< k
/-- SHR. -/
def shiftR (a : Word) (k : Nat) : Word := a >>> k
/-- SAR. -/
def shiftA (a : Word) (k : Nat) : Word := a.sshiftRight k
/-- ROT: left rotation. -/
def rotate (a : Word) (k : Nat) : Word := a.rotateLeft k

/-- Leading zeros of an n-bit tail: the bits below n are still to be seen. -/
def leadFrom (a : Nat) : Nat → Nat
  | 0 => 0
  | n + 1 => if a / 2 ^ n % 2 = 1 then 0 else 1 + leadFrom a n
/-- CLZ; 64 for zero. -/
def clz (a : Word) : Word := BitVec.ofNat 64 (leadFrom a.toNat 64)
/-- BREV: bit i of the result is bit 63 − i. -/
def revFrom (a : Nat) : Nat → Nat
  | 0 => 0
  | n + 1 => a / 2 ^ n % 2 * 2 ^ (63 - n) + revFrom a n
/-- BREV. -/
def brev (a : Word) : Word := BitVec.ofNat 64 (revFrom a.toNat 64)
/-- CTZ; 64 for zero. -/
def ctz (a : Word) : Word := clz (brev a)
/-- Set bits below n. -/
def popFrom (a : Nat) : Nat → Nat
  | 0 => 0
  | n + 1 => a / 2 ^ n % 2 + popFrom a n
/-- POPC. -/
def popc (a : Word) : Word := BitVec.ofNat 64 (popFrom a.toNat 64)
/-- BSWAP: byte i of the result is byte 7 − i. -/
def bswap (a : Word) : Word := BitVec.ofNat 64 (ofBytes (leBytes 8 a.toNat).reverse)

/-- MIN by sint. -/
def imin (a b : Word) : Word := if b.slt a then b else a
/-- MAX by sint. -/
def imax (a b : Word) : Word := if a.slt b then b else a
/-- MINU. -/
def iminu (a b : Word) : Word := if b.ult a then b else a
/-- MAXU. -/
def imaxu (a b : Word) : Word := if a.ult b then b else a

/-- The low n bits, sign-extended. -/
def sextN (n : Nat) (a : Word) : Word := wordOfInt (sintN n a.toNat)
/-- The low n bits, zero-extended. -/
def zextN (n : Nat) (a : Word) : Word := BitVec.ofNat 64 (a.toNat % 2 ^ n)

/-- BFX (R234): the field of w bits at pos; bits above 63 read as zero. -/
def bfxOf (pos w : Nat) (a : Word) : Word := BitVec.ofNat 64 (a.toNat / 2 ^ pos % 2 ^ w)
/-- BFI (R234): b with that field replaced; field bits above 63 are dropped. -/
def bfiOf (pos w : Nat) (a b : Word) : Word :=
  let m : Word := BitVec.ofNat 64 ((2 ^ w - 1) * 2 ^ pos)
  (b &&& ~~~m) ||| ((a <<< pos) &&& m)

/-- LEA (R235). -/
def leaOf (sc : Nat) (a b : Word) : Word := a + (b <<< sc)

/-- CRDPK (R236). -/
def crdpkOf (a b : Word) : Word := BitVec.ofNat 64 (a.toNat % 1024 + b.toNat % 1024 * 1024)
/-- RECT (R236). -/
def rectOf (a b : Word) : Word :=
  let xa := cx a.toNat
  let xb := cx b.toNat
  let ya := cy a.toNat
  let yb := cy b.toNat
  BitVec.ofNat 64 (Nat.min xa xb + Nat.min ya yb * 2 ^ 10 + Nat.max xa xb * 2 ^ 20 + Nat.max ya yb * 2 ^ 30)

/-! ## Meanings -/

/-- ADD (R230, R231). -/
def execAdd (pr : Pr) (v : Bool) (t0 t1 : Target) (s : State) : Res :=
  s.lane2 .int (.v v) pr [t0, t1] (plain2 (fun a b => a + b))

/-- SUB (R230, R231). -/
def execSub (pr : Pr) (v : Bool) (t0 t1 : Target) (s : State) : Res :=
  s.lane2 .int (.v v) pr [t0, t1] (plain2 (fun a b => a - b))

/-- AND (R230, R231). -/
def execAnd (pr : Pr) (v : Bool) (t0 t1 : Target) (s : State) : Res :=
  s.lane2 .int (.v v) pr [t0, t1] (plain2 (fun a b => a &&& b))

/-- OR (R230, R231). -/
def execOr (pr : Pr) (v : Bool) (t0 t1 : Target) (s : State) : Res :=
  s.lane2 .int (.v v) pr [t0, t1] (plain2 (fun a b => a ||| b))

/-- XOR (R230, R231). -/
def execXor (pr : Pr) (v : Bool) (t0 t1 : Target) (s : State) : Res :=
  s.lane2 .int (.v v) pr [t0, t1] (plain2 (fun a b => a ^^^ b))

/-- ADDI (R230, R231). -/
def execAddi (pr : Pr) (imm : BitVec 12) (t0 : Target) (s : State) : Res :=
  s.lane1 .int .free pr [t0] (plain1 fun a => a + sext12 imm)

/-- ANDI (R230, R231). -/
def execAndi (pr : Pr) (imm : BitVec 12) (t0 : Target) (s : State) : Res :=
  s.lane1 .int .free pr [t0] (plain1 fun a => a &&& sext12 imm)

/-- ORI (R230, R231). -/
def execOri (pr : Pr) (imm : BitVec 12) (t0 : Target) (s : State) : Res :=
  s.lane1 .int .free pr [t0] (plain1 fun a => a ||| sext12 imm)

/-- XORI (R230, R231). -/
def execXori (pr : Pr) (imm : BitVec 12) (t0 : Target) (s : State) : Res :=
  s.lane1 .int .free pr [t0] (plain1 fun a => a ^^^ sext12 imm)

/-- MUL.LO (R230, R231). -/
def execMulLo (pr : Pr) (t0 : Target) (s : State) : Res :=
  s.lane2 .mulDiv .free pr [t0] (plain2 mulLo)

/-- MUL.HI (R230, R231). -/
def execMulHi (pr : Pr) (t0 : Target) (s : State) : Res :=
  s.lane2 .mulDiv .free pr [t0] (plain2 mulHi)

/-- MUL.HIU (R230, R231). -/
def execMulHiu (pr : Pr) (t0 : Target) (s : State) : Res :=
  s.lane2 .mulDiv .free pr [t0] (plain2 mulHiu)

/-- DIV.DIV (R230, R232). -/
def execDiv (pr : Pr) (t0 : Target) (s : State) : Res :=
  s.lane2 .mulDiv .free pr [t0] idiv

/-- DIV.DIVU (R230, R232). -/
def execDivu (pr : Pr) (t0 : Target) (s : State) : Res :=
  s.lane2 .mulDiv .free pr [t0] idivu

/-- DIV.REM (R230, R232). -/
def execRem (pr : Pr) (t0 : Target) (s : State) : Res :=
  s.lane2 .mulDiv .free pr [t0] irem

/-- DIV.REMU (R230, R232). -/
def execRemu (pr : Pr) (t0 : Target) (s : State) : Res :=
  s.lane2 .mulDiv .free pr [t0] iremu

/-- SHIFT.SHL (R230, R231). -/
def execShl (pr : Pr) (t0 : Target) (s : State) : Res :=
  s.lane2 .int .free pr [t0] (plain2 fun a b => shiftL a (shAmount b))

/-- SHIFT.SHR (R230, R231). -/
def execShr (pr : Pr) (t0 : Target) (s : State) : Res :=
  s.lane2 .int .free pr [t0] (plain2 fun a b => shiftR a (shAmount b))

/-- SHIFT.SAR (R230, R231). -/
def execSar (pr : Pr) (t0 : Target) (s : State) : Res :=
  s.lane2 .int .free pr [t0] (plain2 fun a b => shiftA a (shAmount b))

/-- SHIFT.ROT (R230, R231). -/
def execRot (pr : Pr) (t0 : Target) (s : State) : Res :=
  s.lane2 .int .free pr [t0] (plain2 fun a b => rotate a (shAmount b))

/-- SHIFTI.SHLI (R230, R231). -/
def execShli (pr : Pr) (n : BitVec 6) (t0 : Target) (s : State) : Res :=
  s.lane1 .int .free pr [t0] (plain1 fun a => shiftL a n.toNat)

/-- SHIFTI.SHRI (R230, R231). -/
def execShri (pr : Pr) (n : BitVec 6) (t0 : Target) (s : State) : Res :=
  s.lane1 .int .free pr [t0] (plain1 fun a => shiftR a n.toNat)

/-- SHIFTI.SARI (R230, R231). -/
def execSari (pr : Pr) (n : BitVec 6) (t0 : Target) (s : State) : Res :=
  s.lane1 .int .free pr [t0] (plain1 fun a => shiftA a n.toNat)

/-- SHIFTI.ROTI (R230, R231). -/
def execRoti (pr : Pr) (n : BitVec 6) (t0 : Target) (s : State) : Res :=
  s.lane1 .int .free pr [t0] (plain1 fun a => rotate a n.toNat)

/-- BITS.CLZ (R230, R231). -/
def execClz (pr : Pr) (t0 : Target) (s : State) : Res :=
  s.lane1 .int .free pr [t0] (plain1 clz)

/-- BITS.CTZ (R230, R231). -/
def execCtz (pr : Pr) (t0 : Target) (s : State) : Res :=
  s.lane1 .int .free pr [t0] (plain1 ctz)

/-- BITS.POPC (R230, R231). -/
def execPopc (pr : Pr) (t0 : Target) (s : State) : Res :=
  s.lane1 .int .free pr [t0] (plain1 popc)

/-- BITS.BREV (R230, R231). -/
def execBrev (pr : Pr) (t0 : Target) (s : State) : Res :=
  s.lane1 .int .free pr [t0] (plain1 brev)

/-- BITS.BSWAP (R230, R231). -/
def execBswap (pr : Pr) (t0 : Target) (s : State) : Res :=
  s.lane1 .int .free pr [t0] (plain1 bswap)

/-- MINMAX.MIN (R230, R231). -/
def execMin (pr : Pr) (t0 : Target) (s : State) : Res :=
  s.lane2 .int .free pr [t0] (plain2 imin)

/-- MINMAX.MAX (R230, R231). -/
def execMax (pr : Pr) (t0 : Target) (s : State) : Res :=
  s.lane2 .int .free pr [t0] (plain2 imax)

/-- MINMAX.MINU (R230, R231). -/
def execMinu (pr : Pr) (t0 : Target) (s : State) : Res :=
  s.lane2 .int .free pr [t0] (plain2 iminu)

/-- MINMAX.MAXU (R230, R231). -/
def execMaxu (pr : Pr) (t0 : Target) (s : State) : Res :=
  s.lane2 .int .free pr [t0] (plain2 imaxu)

/-- CMP.CMPEQ (R230, R233). -/
def execCmpeq (pr : Pr) (t0 : Target) (s : State) : Res :=
  s.cmp2 .int pr [t0] fun a b => (a == b, 0)

/-- CMP.CMPNE (R230, R233). -/
def execCmpne (pr : Pr) (t0 : Target) (s : State) : Res :=
  s.cmp2 .int pr [t0] fun a b => (a != b, 0)

/-- CMP.CMPLT (R230, R233). -/
def execCmplt (pr : Pr) (t0 : Target) (s : State) : Res :=
  s.cmp2 .int pr [t0] fun a b => (a.slt b, 0)

/-- CMP.CMPLE (R230, R233). -/
def execCmple (pr : Pr) (t0 : Target) (s : State) : Res :=
  s.cmp2 .int pr [t0] fun a b => (a.sle b, 0)

/-- CMP.CMPLTU (R230, R233). -/
def execCmpltu (pr : Pr) (t0 : Target) (s : State) : Res :=
  s.cmp2 .int pr [t0] fun a b => (a.ult b, 0)

/-- CMP.CMPLEU (R230, R233). -/
def execCmpleu (pr : Pr) (t0 : Target) (s : State) : Res :=
  s.cmp2 .int pr [t0] fun a b => (a.ule b, 0)

/-- CMPEQI (R230, R233). -/
def execCmpeqi (pr : Pr) (imm : BitVec 12) (t0 : Target) (s : State) : Res :=
  s.cmpImm pr t0 imm fun a b => a == b

/-- CMPLTI (R230, R233). -/
def execCmplti (pr : Pr) (imm : BitVec 12) (t0 : Target) (s : State) : Res :=
  s.cmpImm pr t0 imm fun a b => a.slt b

/-- CMPLTUI (R230, R233). -/
def execCmpltui (pr : Pr) (imm : BitVec 12) (t0 : Target) (s : State) : Res :=
  s.cmpImm pr t0 imm fun a b => a.ult b

/-- EXT.SEXTB (R230, R231). -/
def execSextb (pr : Pr) (t0 : Target) (s : State) : Res :=
  s.lane1 .int .free pr [t0] (plain1 (sextN 8))

/-- EXT.SEXTH (R230, R231). -/
def execSexth (pr : Pr) (t0 : Target) (s : State) : Res :=
  s.lane1 .int .free pr [t0] (plain1 (sextN 16))

/-- EXT.SEXTW (R230, R231). -/
def execSextw (pr : Pr) (t0 : Target) (s : State) : Res :=
  s.lane1 .int .free pr [t0] (plain1 (sextN 32))

/-- EXT.ZEXTB (R230, R231). -/
def execZextb (pr : Pr) (t0 : Target) (s : State) : Res :=
  s.lane1 .int .free pr [t0] (plain1 (zextN 8))

/-- EXT.ZEXTH (R230, R231). -/
def execZexth (pr : Pr) (t0 : Target) (s : State) : Res :=
  s.lane1 .int .free pr [t0] (plain1 (zextN 16))

/-- EXT.ZEXTW (R230, R231). -/
def execZextw (pr : Pr) (t0 : Target) (s : State) : Res :=
  s.lane1 .int .free pr [t0] (plain1 (zextN 32))

/-- BFX (R230, R234): the encoded width is w − 1. -/
def execBfx (pr : Pr) (pos w : BitVec 6) (t0 : Target) (s : State) : Res :=
  s.lane1 .int .free pr [t0] (plain1 (bfxOf pos.toNat (w.toNat + 1)))

/-- BFI (R230, R234). -/
def execBfi (pr : Pr) (pos w : BitVec 6) (t0 : Target) (s : State) : Res :=
  s.lane2 .int .free pr [t0] (plain2 (bfiOf pos.toNat (w.toNat + 1)))

/-- LEA (R230, R235). -/
def execLea (pr : Pr) (sc : BitVec 3) (t0 : Target) (s : State) : Res :=
  s.lane2 .int .free pr [t0] (plain2 (leaOf sc.toNat))

/-- CRD.CRDX (R230, R236). -/
def execCrdx (pr : Pr) (t0 : Target) (s : State) : Res :=
  s.lane1 .int .free pr [t0] (plain1 fun a => BitVec.ofNat 64 (cx a.toNat))

/-- CRD.CRDY (R230, R236). -/
def execCrdy (pr : Pr) (t0 : Target) (s : State) : Res :=
  s.lane1 .int .free pr [t0] (plain1 fun a => BitVec.ofNat 64 (cy a.toNat))

/-- CRD.CRDPK (R230, R236). -/
def execCrdpk (pr : Pr) (t0 : Target) (s : State) : Res :=
  s.lane2 .int .free pr [t0] (plain2 crdpkOf)

/-- CRD.RECT (R230, R236). -/
def execRect (pr : Pr) (t0 : Target) (s : State) : Res :=
  s.lane2 .int .free pr [t0] (plain2 rectOf)

end Sys2Proof.Machine
end

