-- ==== Sys2Proof/Machine/Rounds.lean ====
section
/-! DEFINITION. The divergence of a replay from its log, and the close of a round in deterministic mode (R426, R428, R429). -/

namespace Sys2Proof.Machine

open Sys2Proof

/-- Does something when its condition holds. -/
def State.whenever (s : State) (c : State → Bool) (f : State → State) : State := if c s then f s else s
/-- Repeats an action while its condition holds, at most n times. -/
def State.untilStill (c : State → Bool) (f : State → State) : Nat → State → State
  | 0, s => s
  | n + 1, s => if c s then State.untilStill c f n (f s) else s

/-- The thread sets of a region in the order of R429: tile y, x, TS. -/
def State.inTurn (s : State) (r : Nat) : List Nat :=
  ((s.region r).coords.filterMap (s.region r).tileAt?).flatMap fun t => (List.range 4).map fun i => 4 * t + i

/-- The journal entries of a thread set in posting order. -/
def Engines.posted (e : Engines) : List Nat := (e.journal.mergeSort fun a b => a.seq == b.seq || seqBefore a.seq b.seq).map fun j => j.num
/-- Everything that a thread set has posted is performed and answered, in posting order (R429 step 1). -/
def State.closePosts (s : State) (k : Nat) : State :=
  let s := (s.ts k).eng.posted.foldl (fun s n =>
    ((((((s.whenever (·.canPost k n true) (·.postEntry k n)).whenever (·.canPost k n false) (·.postEntry k n)).whenever
      (·.canPerform k n false) (·.remotePerform k n)).whenever (·.canPerform k n true) (·.remotePerform k n)).whenever
      (·.canAck k n) (·.journalAck k n)).whenever (·.canAmoReply k n) (·.amoReply k n)).whenever (·.canRefuse k n) (·.journalRefusal k n)) s
  match s.flight k with
  | none => s
  | some f => (f.reqs.map Prod.fst).foldl (fun s ix => (s.whenever (·.canLoad k ix) (·.loadService k ix)).whenever (·.canLdrReply k ix) (·.ldrReply k ix)) s

/-- The place in the network of the first packet from a tile that can arrive. -/
def State.arrivalFrom (s : State) (t : Nat) : Option Nat :=
  (List.range s.net.length).find? fun n => (match s.net[n]? with | some f => f.src == t | none => false) && (s.canArrive n || s.canDramreq n)
/-- Places the packets that a tile has sent (R429 step 2). -/
def State.closePackets (s : State) (t : Nat) : State :=
  State.untilStill (fun s => (s.arrivalFrom t).isSome)
    (fun s => match s.arrivalFrom t with
      | some n => if s.canArrive n then s.packetArrival n else s.dramreq n
      | none => s) s.net.length s

/-- The place in the network of the first packet that no tile of a region has sent, a Source's or a manager core's, and that can
arrive at a tile of it, or as a DRAM request of it. -/
def State.arrivalInto (s : State) (r : Nat) : Option Nat :=
  (List.range s.net.length).find? fun n => match s.net[n]? with
    | some f => decide (s.rgnOf f.src ≠ r) && ((s.canArrive n && decide (s.rgnOf f.dst = r)) || (s.canDramreq n && decide (s.rgnOfCtx (field f.h1 12 12) = r)))
    | none => false
/-- Places the packets that come into a region from outside: they have no issuer in the order of R429, and come first
(assumption 106). -/
def State.closeOutside (s : State) (r : Nat) : State :=
  State.untilStill (fun s => (s.arrivalInto r).isSome)
    (fun s => match s.arrivalInto r with
      | some n => if s.canArrive n then s.packetArrival n else s.dramreq n
      | none => s) s.net.length s

/-- The DRAM requests of a region are performed and answered in order (R175). -/
def State.closeDram (s : State) (r : Nat) : State :=
  let mine (s : State) : Option Nat := (List.range s.dreqs.length).find? fun n => match s.dreqs[n]? with | some d => d.rgn == r | none => false
  let rep (s : State) : Option Nat := (List.range s.dreps.length).find? fun n => match s.dreps[n]? with | some d => d.rgn == r && s.canDramrep n | none => false
  let s := State.untilStill (fun s => (mine s).isSome) (fun s => match mine s with
    | some n => (s.whenever (·.canWalk n) (·.translationWalk n)).dramPerform n
    | none => s) s.dreqs.length s
  State.untilStill (fun s => (rep s).isSome) (fun s => match rep s with | some n => s.dramrep n | none => s) s.dreps.length s

/-- Runs the op that is ready on a tile; the round lasts until the slot of the last one is over (R396, R429). -/
def State.closeOp (s : State) (t : Nat) : State :=
  (State.untilStill (fun s => s.anyOp t && decide ((s.tile t).cycle < s.opDue t)) (·.tileCycle t) 24 s).whenever (·.canOp t) (·.matrixOp t)
/-- The arrival at a tile that is next for a thread set's number: the one whose copy has the lowest number, those that no copy
has sent first, as operations of thread set 0 (R429 step 3; assumption 106). -/
def State.nextArrival (s : State) (t i : Nat) : Option Nat :=
  let mine := s.landings.zipIdx.filter fun p => decide (p.1.tile = t) && s.canLand p.2 && decide ((match p.1.copy with | some c => tsNum c.1 | none => 0) = i)
  let key (p : Landing × Nat) : Nat := match p.1.copy with | some c => c.2 + 1 | none => 0
  (mine.foldl (fun (b : Option (Landing × Nat)) p => match b with | some m => if key p < key m then some p else b | none => some p) none).map Prod.snd
/-- The landing arrivals and engine completions of a tile, thread set by thread set and in the order of their operations:
arrivals and copies by copy number, then streams, then the record at the head of the queue (R429 step 3; assumption 106). -/
def State.closeEngines (s : State) (t : Nat) : State :=
  (List.range 4).foldl (fun s i =>
    let k := 4 * t + i
    let s := State.untilStill (fun s => (s.nextArrival t i).isSome) (fun s => match s.nextArrival t i with | some n => s.land n | none => s) s.landings.length s
    let s := (s.ts k).eng.copies.foldl (fun s c => (s.pieceNums t c).foldl (fun s p => s.whenever (·.canPiece k c.id p) (·.copyPiece k c.id p)) s) s
    let s := ((s.tile t).slots.filter fun z => z.2.ts == k).foldl (fun s z =>
      State.untilStill (·.canFetch t z.1) (·.streamFetch t z.1) 8 (State.untilStill (·.canAppend t z.1) (·.appendWrite t z.1) 64 s)) s
    ((((s.whenever (·.canWeight k) (·.weightLoad k)).whenever (fun s => (s.zeroHead k).isSome) (·.zeroRecord k)).closeOp t).whenever
      (fun s => (s.drainHead k).isSome) (·.drainRow k))) s

/-- The distributors and range stages of a region, in stage order. -/
def State.closeStages (s : State) (r : Nat) : State :=
  (s.region r).stages.foldl (fun (s : State) (p : Nat × Stage) =>
    let n := p.1
    let rep (s : State) : Nat := match ((s.region r).stage n).nextPkt with | some (h0, _, _) => h0Seq h0 % max 1 ((s.region r).stage n).replicas.length | none => 0
    let s := State.untilStill (fun s => s.canDeal r n (rep s)) (fun s => s.deal r n (rep s)) p.2.inbox.length s
    let s := ((s.whenever (·.canStageEos r n) (·.stageEos r n)).whenever (·.canTake r n) (·.takeToken r n)).whenever (·.canRangeEos r n) (·.rangeEos r n)
    let s := p.2.replicas.foldl (fun s c => match (s.region r).tileAt? c with
      | some t => (s.whenever (·.canServe t) (·.serve t)).whenever (·.canAsk t) (·.ask t)
      | none => s) s
    (List.range 84).foldl (fun s f => s.whenever (·.canCross r n f) (·.cross r n f)) s) s

/-- Credits, admissions, ageing, yields, tokens and dispatches of a region: the waits that a close resolves. -/
def State.closeWaits (s : State) (r : Nat) : State :=
  let tiles := (s.region r).coords.filterMap (s.region r).tileAt?
  let s := ((s.region r).edges.map Prod.fst).foldl (fun s e => State.untilStill (·.canCredit r e) (·.creditReturn r e) 256 s) s
  let s := tiles.foldl (fun s t =>
    let s := State.untilStill (·.canAdmit t) (·.spawnAdmission t) ((s.tile t).mbox.grants.length) s
    let s := (s.tile t).mbox.mails.foldl (fun s m => s.whenever (·.canAge t m.pos) (·.age t m.pos)) s
    (s.tile t).mbox.mails.foldl (fun s m => s.whenever (·.canReelig t m.pos) (·.reelig t m.pos)) s) s
  (s.inTurn r).foldl (fun s k =>
    let s := State.untilStill (·.canToken k) (·.completionToken k) ((s.ts k).outs.length) s
    ((s.whenever (·.canEpilogue (tileOf k)) (·.epilogueDispatch (tileOf k))).whenever (·.canFaultDispatch k) (·.faultDispatch k)).whenever
      (·.canDispatch k) (·.taskDispatch k)) s
/-- The repairs of a thread set, in the order in which they have come (R374). -/
def State.closeRepairs (s : State) (k : Nat) : State :=
  State.untilStill (fun s => (List.range 6).any (s.canRepair k))
    (fun s => (List.range 6).foldl (fun s a => s.whenever (·.canRepair k a) (fun s => s.withRepair k a fun m s => s.repairAct k m a)) s)
    (s.tile (tileOf k)).mbox.mails.length s

/-- Whether a round of a region closes: deterministic mode, and every thread set has had its part in it (R429). -/
def State.canRound (s : State) (r : Nat) : Bool :=
  s.hasRegion r && decide (s.mode r = 3) && decide ((s.region r).st = .running) && (s.region r).ran && (s.inTurn r).all s.doneRound
/-! ## Replay (R428) -/

/-- The kinds of the interaction points that a thread set comes to one after the other: a dispatch on it, a commit, and an
atomic or an ACQ of a commit. -/
def ownKinds : List Nat := [3, 4, 6]
/-- Whether the next interaction point that a thread set comes to is of a kind, were it not for its ticket. A thread set
without a task can come to a dispatch alone. -/
def State.comesTo (s : State) (k kind : Nat) : Bool :=
  let u := s.updRegion (s.rgnOf (tileOf k)) fun g => { g with modeOn := 0 }
  if kind = 3 then u.canDispatch k || u.canFaultDispatch k || ((u.ts k).task.isNone && (u.flight k).isNone)
  else u.canCommit k && (match u.flight k with | some f => (u.commitKinds k f).head? == some kind | none => false)
/-- Whether an event of a kind of a thread set is there, and only its ticket, or what goes before it, keeps it back: an operation
that is not yet performed or answered, a landing, a record or copy at work, or the interaction point to which the thread set comes. -/
def State.eventThere (s : State) (k kind : Nat) : Bool :=
  let e := (s.ts k).eng
  match kind with
  | 0 => e.journal.any fun j => j.state == .held || j.state == .pending
  | 1 => (e.journal.any fun j => (j.kind matches .atomic _ _) && j.state != .acked && !(j.state matches .refused _ _)) ||
      (match s.flight k with | some f => f.reqs.any fun p => p.2.reply == .asked | none => false)
  | 2 => decide (tsNum k = 0) && ((s.landings.any fun l => l.tile == tileOf k) || (s.dreps.any fun d => d.tile == tileOf k) ||
      (s.dreqs.any fun d => d.tile == tileOf k) || s.net.any fun f => f.src == tileOf k)
  | 5 => !e.recs.isEmpty || !e.copies.isEmpty
  | _ => s.comesTo k kind
/-- Whether a thread set cannot go on before another interaction point than one of a kind has its ticket. -/
def State.stuckAt (s : State) (k kind : Nat) : Bool := ownKinds.any fun e => e != kind && s.comesTo k e
/-- Whether a log entry names an event of a thread set (R427). -/
def State.names (s : State) (w k kind : Nat) : Bool :=
  decide (w % 2 ^ 26 = chunkWord (s.tile (tileOf k)).coord (tsNum k) kind 0 % 2 ^ 26)
/-- Whether the event that a log entry of a region names can still come about: it is there, or the thread set goes on to it. -/
def State.mayCome (s : State) (r w : Nat) : Bool :=
  (s.inTurn r).any fun k => (List.range 7).any fun kind => s.names w k kind && (s.eventThere k kind || !s.stuckAt k kind)
/-- Whether the event of a kind to which a thread set comes differs from the log (R428): its chunk is longer than logged, or the
entry of the next ticket names another event, one of the same thread set to which it does not come, or one that can come about no
more (assumption 133). -/
def State.diverges (s : State) (k kind : Nat) : Bool :=
  let r := s.rgnOf (tileOf k)
  let n := (s.region r).order
  let w := s.logged r n
  s.chunkOver k || (decide (s.num (s.logAddr r n) 8 = n) && decide (kind < 7) && s.eventThere k kind && !s.names w k kind && !s.mayCome r w)
/-- REPLAY_TICKET_WAIT (R428): the event waits for its ticket; one that differs from the log halts the region. -/
def State.ticketWait (s : State) (k kind : Nat) : State := if s.diverges k kind then s.diverge (s.rgnOf (tileOf k)) else s
/-- REPLAY_TICKET_WAIT. -/
def execReplayTicketWait (ts kind : Nat) (s : State) : Res :=
  whenEnabled "REPLAY_TICKET_WAIT" (decide (s.mode (s.rgnOf (tileOf ts)) = 2)) (s.ticketWait ts kind)

/-! ## The close of a round (R429) -/

/-- ROUND_CLOSE (R429). -/
def State.roundClose (s : State) (r : Nat) : State :=
  let s := s.updRegion r fun g => { g with round := g.round + 1, closing := true }
  let s := (s.inTurn r).foldl State.closePosts s
  let s := ((s.region r).tilesOf.foldl State.closePackets (s.closeOutside r)).closeDram r
  let s := (s.region r).tilesOf.foldl State.closeEngines s
  let s := (((s.inTurn r).foldl State.closeRepairs s).closeStages r).closeWaits r
  let s := (s.inTurn r).foldl (fun s k => s.updTs k fun a => { a with roundDone := false }) s
  s.wakeAll.updRegion r fun g => { g with closing := false }
/-- ROUND_CLOSE. -/
def execRoundClose (rgn : Nat) (s : State) : Res := whenEnabled "ROUND_CLOSE" (s.canRound rgn) (s.roundClose rgn)

end Sys2Proof.Machine
end

