-- ==== Sys2Proof/Machine/VectorOps.lean ====
section
/-! DEFINITION. Vector instructions (R257 to R265): moving lanes, the fixed tree of VRED, VSCAN, lane masks
and VIDX. -/

namespace Sys2Proof.Machine

open Sys2Proof

/-! ## Moving lanes (R257 to R261) -/

/-- A vector whose lane i is `f i`; absent lanes are null. -/
def vectorOf (f : Nat → Option Word) : Token := (lanes fun i => (f i).map fun w => (w, 0)).1
/-- Lane i of a token, absent when it is null. -/
def Token.lane? (t : Token) (i : Nat) : Option Word := if t.laneNull i then none else some (t.lane i)

/-- VSHUF (R259). -/
def shuffle (a x : Token) : Token :=
  vectorOf fun i => (x.lane? i).bind fun w => a.lane? (w.toNat % 8)

/-- VSLIDE (R260). -/
def slide (a b : Token) (k : Int) : Token :=
  vectorOf fun i =>
    let j := (i : Int) + k
    if 0 ≤ j ∧ j ≤ 7 then a.lane? j.toNat
    else if 0 < k ∧ j ≤ 15 then b.lane? (j - 8).toNat
    else if k < 0 ∧ -8 ≤ j then b.lane? (j + 8).toNat
    else none

/-- The present lanes of a token in ascending order. -/
def Token.present (t : Token) (m : BitVec 8) : List Word :=
  laneList.filterMap fun i => if maskBit m i then t.lane? i else none

/-- VCOMP (R261). -/
def compact (a : Token) (m : BitVec 8) : Token := vectorOf fun i => (a.present m)[i]?

/-- VBCAST (R258). -/
def execVbcast (pr : Pr) (v : Bool) (t0 t1 : Target) (s : State) : Res :=
  s.fire (mkShape pr true false .none [t0, t1] .plain) .vec false false fun c =>
    match c.left, v with
    | .scalar w, false => Out.tok (.vector (Vec.splat w) 0)
    | _, _ => Out.badType

/-- VEXTR (R258). -/
def execVextr (pr : Pr) (k : BitVec 3) (t0 : Target) (s : State) : Res :=
  s.fire (mkShape pr true false .none [t0] .plain) .vec false false fun c =>
    if c.left.isVector then Out.tok (match c.left.lane? k.toNat with | some w => .scalar w | none => .null)
    else Out.badType

/-- VINS (R258). -/
def execVins (pr : Pr) (k : BitVec 3) (t0 : Target) (s : State) : Res :=
  s.fire (mkShape pr true true .none [t0] .plain) .vec true false fun c =>
    if c.left.isVector && c.right.isScalar then
      Out.tok ((vectorOf fun i => if i = k.toNat then some c.right.word else c.left.lane? i).disable c.en)
    else Out.badType

/-- VSHUF (R259). -/
def execVshuf (pr : Pr) (v : Bool) (t0 t1 : Target) (s : State) : Res :=
  s.fire (mkShape pr true true .none [t0, t1] .plain) .vec true false fun c =>
    if v && c.left.isVector && c.right.isData then Out.tok ((shuffle c.left c.right).disable c.en) else Out.badType

/-- VSLIDE (R260). -/
def execVslide (pr : Pr) (imm : BitVec 12) (t0 : Target) (s : State) : Res :=
  s.fire (mkShape pr true true .none [t0] .plain) .vec true false fun c =>
    if c.left.isVector && c.right.isData then Out.tok ((slide c.left c.right imm.toInt).disable c.en) else Out.badType

/-- VCOMP (R261). -/
def execVcomp (pr : Pr) (v : Bool) (t0 t1 : Target) (s : State) : Res :=
  s.fire (mkShape pr true true .none [t0, t1] .plain) .vec true false fun c =>
    match c.right with
    | .mask m => if v && c.left.isVector then Out.tok ((compact c.left m).disable c.en) else Out.badType
    | _ => Out.badType

/-! ## Reductions and scans (R262, R263) -/

/-- A combination that may raise flags. -/
abbrev Op2 := Word → Word → Word × Flags

/-- `pair` of R262: an absent node gives way to the other. -/
def pairNode (op : Op2) (x y : Option Word × Flags) : Option Word × Flags :=
  match x.1, y.1 with
  | some a, some b => (some (op a b).1, x.2 ||| y.2 ||| (op a b).2)
  | none, _ => (y.1, x.2 ||| y.2)
  | _, none => (x.1, x.2 ||| y.2)

/-- The fixed tree of R262: lanes in pairs, the pairs, the halves. -/
def tree (op : Op2) (n : Nat → Option Word) : Option Word × Flags :=
  let l (i : Nat) : Option Word × Flags := (n i, 0)
  let p := pairNode op
  p (p (p (l 0) (l 1)) (p (l 2) (l 3))) (p (p (l 4) (l 5)) (p (l 6) (l 7)))

/-- VRED (R262): `fin` makes a floating result canonical. -/
def reduce (op : Op2) (fin : Word → Word) (a : Token) (en : BitVec 8) : Token × Flags :=
  let r := tree op fun i => if maskBit en i then a.lane? i else none
  (match r.1 with | some w => .scalar (fin w) | none => .null, r.2)

/-- The prefix combinations of R263 from lane i on; `run` is the running value. -/
def scanFrom (op : Op2) (fin : Word → Word) (a : Token) (en : BitVec 8) : List Nat → Option Word → List (Option (Word × Flags))
  | [], _ => []
  | i :: is, run =>
    match (if maskBit en i then a.lane? i else none) with
    | none => none :: scanFrom op fin a en is run
    | some w =>
      let r := match run with | some x => op x w | none => (w, 0)
      some (fin r.1, r.2) :: scanFrom op fin a en is (some r.1)

/-- VSCAN (R263). -/
def scan (op : Op2) (fin : Word → Word) (a : Token) (en : BitVec 8) : Token × Flags :=
  let r := scanFrom op fin a en laneList none
  lanes fun i => r.getD i none

/-- A reduction or scan of a vector operand. -/
def State.vector1 (s : State) (pr : Pr) (t0 : Target) (f : Token → BitVec 8 → Token × Flags) : Res :=
  s.fire (mkShape pr true false .none [t0] .plain) .vec true false fun c =>
    if c.left.isVector then let r := f c.left c.en; Out.flagged r.1 r.2 else Out.badType

/-- VRED.SUM (R262). -/
def execVredSum (pr : Pr) (t0 : Target) (s : State) : Res := s.vector1 pr t0 (reduce (plain2 fun a b => a + b) id)
/-- VRED.FSUM (R262). -/
def execVredFsum (pr : Pr) (t0 : Target) (s : State) : Res := s.vector1 pr t0 (reduce fadd canon)
/-- VRED.MIN (R262). -/
def execVredMin (pr : Pr) (t0 : Target) (s : State) : Res := s.vector1 pr t0 (reduce (plain2 imin) id)
/-- VRED.MAX (R262). -/
def execVredMax (pr : Pr) (t0 : Target) (s : State) : Res := s.vector1 pr t0 (reduce (plain2 imax) id)
/-- VRED.FMIN (R262). -/
def execVredFmin (pr : Pr) (t0 : Target) (s : State) : Res := s.vector1 pr t0 (reduce (fminmax false) canon)
/-- VRED.FMAX (R262). -/
def execVredFmax (pr : Pr) (t0 : Target) (s : State) : Res := s.vector1 pr t0 (reduce (fminmax true) canon)
/-- VRED.AND (R262). -/
def execVredAnd (pr : Pr) (t0 : Target) (s : State) : Res := s.vector1 pr t0 (reduce (plain2 fun a b => a &&& b) id)
/-- VRED.OR (R262). -/
def execVredOr (pr : Pr) (t0 : Target) (s : State) : Res := s.vector1 pr t0 (reduce (plain2 fun a b => a ||| b) id)
/-- VRED.XOR (R262). -/
def execVredXor (pr : Pr) (t0 : Target) (s : State) : Res := s.vector1 pr t0 (reduce (plain2 fun a b => a ^^^ b) id)
/-- VSCAN.SUM (R263). -/
def execVscanSum (pr : Pr) (t0 : Target) (s : State) : Res := s.vector1 pr t0 (scan (plain2 fun a b => a + b) id)
/-- VSCAN.FSUM (R263). -/
def execVscanFsum (pr : Pr) (t0 : Target) (s : State) : Res := s.vector1 pr t0 (scan fadd canon)

/-! ## Lane masks and indices (R264, R265) -/

/-- A VMASK minor of one operand. -/
def State.mask1 (s : State) (pr : Pr) (t0 : Target) (f : BitVec 8 → Token) : Res :=
  s.fire (mkShape pr true false .none [t0] .plain) .vec false false fun c =>
    match c.left with | .mask m => Out.tok (f m) | _ => Out.badType
/-- A VMASK minor of two operands. -/
def State.mask2 (s : State) (pr : Pr) (t0 : Target) (f : BitVec 8 → BitVec 8 → BitVec 8) : Res :=
  s.fire (mkShape pr true true .none [t0] .plain) .vec false false fun c =>
    match c.left, c.right with | .mask m, .mask n => Out.tok (.mask (f m n)) | _, _ => Out.badType

/-- VMASK.MAND (R264). -/
def execMand (pr : Pr) (t0 : Target) (s : State) : Res := s.mask2 pr t0 fun a b => a &&& b
/-- VMASK.MOR (R264). -/
def execMor (pr : Pr) (t0 : Target) (s : State) : Res := s.mask2 pr t0 fun a b => a ||| b
/-- VMASK.MNOT (R264). -/
def execMnot (pr : Pr) (t0 : Target) (s : State) : Res := s.mask1 pr t0 fun a => .mask (~~~a)
/-- VMASK.MPOPC (R264). -/
def execMpopc (pr : Pr) (t0 : Target) (s : State) : Res :=
  s.mask1 pr t0 fun a => .scalar (BitVec.ofNat 64 (popFrom a.toNat 8))
/-- VMASK.MFIRST (R264). -/
def execMfirst (pr : Pr) (t0 : Target) (s : State) : Res :=
  s.mask1 pr t0 fun a => .scalar (BitVec.ofNat 64 ((laneList.find? (maskBit a)).getD 8))
/-- VMASK.MFROMS (R264). -/
def execMfroms (pr : Pr) (t0 : Target) (s : State) : Res :=
  s.fire (mkShape pr true false .none [t0] .plain) .vec false false fun c =>
    match c.left with | .scalar w => Out.tok (.mask (BitVec.ofNat 8 w.toNat)) | _ => Out.badType
/-- VMASK.MTOS (R264). -/
def execMtos (pr : Pr) (t0 : Target) (s : State) : Res :=
  s.mask1 pr t0 fun a => .scalar (BitVec.ofNat 64 a.toNat)

/-- VIDX (R265). -/
def execVidx (pr : Pr) (imm : BitVec 12) (t0 : Target) (s : State) : Res :=
  s.fire (mkShape pr true false .none [t0] .plain) .vec false false fun c =>
    match c.left with
    | .scalar b => Out.tok (.vector (Vec.ofFn fun i => b + BitVec.ofNat 64 i * sext12 imm) 0)
    | _ => Out.badType

end Sys2Proof.Machine
end

