-- ==== Sys2Proof/Machine/Dispatch.lean ====
section
/-! DEFINITION. The meaning of every instruction and event: one arm per constructor of `Instr`, each a direct call. -/

namespace Sys2Proof.Machine

open Sys2Proof

/-- What an instruction or event does in a state. -/
def exec (i : Instr) (s : State) : Host.Outcome State Fault Refusal :=
  match i with
  | .read r t0 => Sys2Proof.Machine.execRead r t0 s
  | .write r => Sys2Proof.Machine.execWrite r s
  | .mov pr v t0 t1 => Sys2Proof.Machine.execMov pr v t0 t1 s
  | .movi pr imm t0 => Sys2Proof.Machine.execMovi pr imm t0 s
  | .movhi pr imm t0 => Sys2Proof.Machine.execMovhi pr imm t0 s
  | .null pr v t0 t1 => Sys2Proof.Machine.execNull pr v t0 t1 s
  | .sel pr v t0 t1 => Sys2Proof.Machine.execSel pr v t0 t1 s
  | .join pr v t0 t1 => Sys2Proof.Machine.execJoin pr v t0 t1 s
  | .setx pr n pos t0 => Sys2Proof.Machine.execSetx pr n pos t0 s
  | .getx pr n pos t0 => Sys2Proof.Machine.execGetx pr n pos t0 s
  | .getxBlr pr t0 => Sys2Proof.Machine.execGetxBlr pr t0 s
  | .statCoord pr t0 => Sys2Proof.Machine.execStatCoord pr t0 s
  | .statTsid pr t0 => Sys2Proof.Machine.execStatTsid pr t0 s
  | .statStage pr t0 => Sys2Proof.Machine.execStatStage pr t0 s
  | .statSeq pr t0 => Sys2Proof.Machine.execStatSeq pr t0 s
  | .statCycle pr t0 => Sys2Proof.Machine.execStatCycle pr t0 s
  | .statTlcce pr t0 => Sys2Proof.Machine.execStatTlcce pr t0 s
  | .statTlcme pr t0 => Sys2Proof.Machine.execStatTlcme pr t0 s
  | .statFlags pr t0 => Sys2Proof.Machine.execStatFlags pr t0 s
  | .statMexc pr t0 => Sys2Proof.Machine.execStatMexc pr t0 s
  | .statEnergy pr t0 => Sys2Proof.Machine.execStatEnergy pr t0 s
  | .statw pr cf cm sd drm dsat => Sys2Proof.Machine.execStatw pr cf cm sd drm dsat s
  | .add pr v t0 t1 => Sys2Proof.Machine.execAdd pr v t0 t1 s
  | .sub pr v t0 t1 => Sys2Proof.Machine.execSub pr v t0 t1 s
  | .addi pr imm t0 => Sys2Proof.Machine.execAddi pr imm t0 s
  | .mulLo pr t0 => Sys2Proof.Machine.execMulLo pr t0 s
  | .mulHi pr t0 => Sys2Proof.Machine.execMulHi pr t0 s
  | .mulHiu pr t0 => Sys2Proof.Machine.execMulHiu pr t0 s
  | .div pr t0 => Sys2Proof.Machine.execDiv pr t0 s
  | .divu pr t0 => Sys2Proof.Machine.execDivu pr t0 s
  | .rem pr t0 => Sys2Proof.Machine.execRem pr t0 s
  | .remu pr t0 => Sys2Proof.Machine.execRemu pr t0 s
  | .and pr v t0 t1 => Sys2Proof.Machine.execAnd pr v t0 t1 s
  | .or pr v t0 t1 => Sys2Proof.Machine.execOr pr v t0 t1 s
  | .xor pr v t0 t1 => Sys2Proof.Machine.execXor pr v t0 t1 s
  | .andi pr imm t0 => Sys2Proof.Machine.execAndi pr imm t0 s
  | .ori pr imm t0 => Sys2Proof.Machine.execOri pr imm t0 s
  | .xori pr imm t0 => Sys2Proof.Machine.execXori pr imm t0 s
  | .shl pr t0 => Sys2Proof.Machine.execShl pr t0 s
  | .shr pr t0 => Sys2Proof.Machine.execShr pr t0 s
  | .sar pr t0 => Sys2Proof.Machine.execSar pr t0 s
  | .rot pr t0 => Sys2Proof.Machine.execRot pr t0 s
  | .shli pr n t0 => Sys2Proof.Machine.execShli pr n t0 s
  | .shri pr n t0 => Sys2Proof.Machine.execShri pr n t0 s
  | .sari pr n t0 => Sys2Proof.Machine.execSari pr n t0 s
  | .roti pr n t0 => Sys2Proof.Machine.execRoti pr n t0 s
  | .clz pr t0 => Sys2Proof.Machine.execClz pr t0 s
  | .ctz pr t0 => Sys2Proof.Machine.execCtz pr t0 s
  | .popc pr t0 => Sys2Proof.Machine.execPopc pr t0 s
  | .brev pr t0 => Sys2Proof.Machine.execBrev pr t0 s
  | .bswap pr t0 => Sys2Proof.Machine.execBswap pr t0 s
  | .min pr t0 => Sys2Proof.Machine.execMin pr t0 s
  | .max pr t0 => Sys2Proof.Machine.execMax pr t0 s
  | .minu pr t0 => Sys2Proof.Machine.execMinu pr t0 s
  | .maxu pr t0 => Sys2Proof.Machine.execMaxu pr t0 s
  | .cmpeq pr t0 => Sys2Proof.Machine.execCmpeq pr t0 s
  | .cmpne pr t0 => Sys2Proof.Machine.execCmpne pr t0 s
  | .cmplt pr t0 => Sys2Proof.Machine.execCmplt pr t0 s
  | .cmple pr t0 => Sys2Proof.Machine.execCmple pr t0 s
  | .cmpltu pr t0 => Sys2Proof.Machine.execCmpltu pr t0 s
  | .cmpleu pr t0 => Sys2Proof.Machine.execCmpleu pr t0 s
  | .cmpeqi pr imm t0 => Sys2Proof.Machine.execCmpeqi pr imm t0 s
  | .cmplti pr imm t0 => Sys2Proof.Machine.execCmplti pr imm t0 s
  | .cmpltui pr imm t0 => Sys2Proof.Machine.execCmpltui pr imm t0 s
  | .sextb pr t0 => Sys2Proof.Machine.execSextb pr t0 s
  | .sexth pr t0 => Sys2Proof.Machine.execSexth pr t0 s
  | .sextw pr t0 => Sys2Proof.Machine.execSextw pr t0 s
  | .zextb pr t0 => Sys2Proof.Machine.execZextb pr t0 s
  | .zexth pr t0 => Sys2Proof.Machine.execZexth pr t0 s
  | .zextw pr t0 => Sys2Proof.Machine.execZextw pr t0 s
  | .bfx pr pos w t0 => Sys2Proof.Machine.execBfx pr pos w t0 s
  | .bfi pr pos w t0 => Sys2Proof.Machine.execBfi pr pos w t0 s
  | .lea pr sc t0 => Sys2Proof.Machine.execLea pr sc t0 s
  | .crdx pr t0 => Sys2Proof.Machine.execCrdx pr t0 s
  | .crdy pr t0 => Sys2Proof.Machine.execCrdy pr t0 s
  | .crdpk pr t0 => Sys2Proof.Machine.execCrdpk pr t0 s
  | .rect pr t0 => Sys2Proof.Machine.execRect pr t0 s
  | .br pr off => Sys2Proof.Machine.execBr pr off s
  | .call pr off => Sys2Proof.Machine.execCall pr off s
  | .bri pr => Sys2Proof.Machine.execBri pr s
  | .calli pr => Sys2Proof.Machine.execCalli pr s
  | .ret pr => Sys2Proof.Machine.execRet pr s
  | .done pr => Sys2Proof.Machine.execDone pr s
  | .yield pr => Sys2Proof.Machine.execYield pr s
  | .trap pr imm => Sys2Proof.Machine.execTrap pr imm s
  | .fadd pr v t0 t1 => Sys2Proof.Machine.execFadd pr v t0 t1 s
  | .fsub pr v t0 t1 => Sys2Proof.Machine.execFsub pr v t0 t1 s
  | .fmul pr v t0 t1 => Sys2Proof.Machine.execFmul pr v t0 t1 s
  | .fma pr v t0 t1 => Sys2Proof.Machine.execFma pr v t0 t1 s
  | .fnma pr v t0 t1 => Sys2Proof.Machine.execFnma pr v t0 t1 s
  | .fmin pr t0 => Sys2Proof.Machine.execFmin pr t0 s
  | .fmax pr t0 => Sys2Proof.Machine.execFmax pr t0 s
  | .fdiv pr v t0 t1 => Sys2Proof.Machine.execFdiv pr v t0 t1 s
  | .fsqrt pr v t0 t1 => Sys2Proof.Machine.execFsqrt pr v t0 t1 s
  | .fabs pr t0 => Sys2Proof.Machine.execFabs pr t0 s
  | .fneg pr t0 => Sys2Proof.Machine.execFneg pr t0 s
  | .frcp pr t0 => Sys2Proof.Machine.execFrcp pr t0 s
  | .frsq pr t0 => Sys2Proof.Machine.execFrsq pr t0 s
  | .fexp2 pr t0 => Sys2Proof.Machine.execFexp2 pr t0 s
  | .flog2 pr t0 => Sys2Proof.Machine.execFlog2 pr t0 s
  | .ftanh pr t0 => Sys2Proof.Machine.execFtanh pr t0 s
  | .fsin pr t0 => Sys2Proof.Machine.execFsin pr t0 s
  | .fcmpeq pr t0 => Sys2Proof.Machine.execFcmpeq pr t0 s
  | .fcmplt pr t0 => Sys2Proof.Machine.execFcmplt pr t0 s
  | .fcmple pr t0 => Sys2Proof.Machine.execFcmple pr t0 s
  | .fcmpun pr t0 => Sys2Proof.Machine.execFcmpun pr t0 s
  | .f2i pr sat rm t0 => Sys2Proof.Machine.execF2i pr sat rm t0 s
  | .f2n pr sat rm t0 => Sys2Proof.Machine.execF2n pr sat rm t0 s
  | .i2f pr sat rm t0 => Sys2Proof.Machine.execI2f pr sat rm t0 s
  | .n2f pr sat rm t0 => Sys2Proof.Machine.execN2f pr sat rm t0 s
  | .fclass pr t0 => Sys2Proof.Machine.execFclass pr t0 s
  | .fscale pr v t0 t1 => Sys2Proof.Machine.execFscale pr v t0 t1 s
  | .frndRne pr t0 => Sys2Proof.Machine.execFrndRne pr t0 s
  | .frndRz pr t0 => Sys2Proof.Machine.execFrndRz pr t0 s
  | .frndRu pr t0 => Sys2Proof.Machine.execFrndRu pr t0 s
  | .frndRd pr t0 => Sys2Proof.Machine.execFrndRd pr t0 s
  | .vbcast pr v t0 t1 => Sys2Proof.Machine.execVbcast pr v t0 t1 s
  | .vextr pr k t0 => Sys2Proof.Machine.execVextr pr k t0 s
  | .vins pr k t0 => Sys2Proof.Machine.execVins pr k t0 s
  | .vshuf pr v t0 t1 => Sys2Proof.Machine.execVshuf pr v t0 t1 s
  | .vredSum pr t0 => Sys2Proof.Machine.execVredSum pr t0 s
  | .vredFsum pr t0 => Sys2Proof.Machine.execVredFsum pr t0 s
  | .vredMin pr t0 => Sys2Proof.Machine.execVredMin pr t0 s
  | .vredMax pr t0 => Sys2Proof.Machine.execVredMax pr t0 s
  | .vredFmin pr t0 => Sys2Proof.Machine.execVredFmin pr t0 s
  | .vredFmax pr t0 => Sys2Proof.Machine.execVredFmax pr t0 s
  | .vredAnd pr t0 => Sys2Proof.Machine.execVredAnd pr t0 s
  | .vredOr pr t0 => Sys2Proof.Machine.execVredOr pr t0 s
  | .vredXor pr t0 => Sys2Proof.Machine.execVredXor pr t0 s
  | .vscanSum pr t0 => Sys2Proof.Machine.execVscanSum pr t0 s
  | .vscanFsum pr t0 => Sys2Proof.Machine.execVscanFsum pr t0 s
  | .mand pr t0 => Sys2Proof.Machine.execMand pr t0 s
  | .mor pr t0 => Sys2Proof.Machine.execMor pr t0 s
  | .mnot pr t0 => Sys2Proof.Machine.execMnot pr t0 s
  | .mpopc pr t0 => Sys2Proof.Machine.execMpopc pr t0 s
  | .mfirst pr t0 => Sys2Proof.Machine.execMfirst pr t0 s
  | .mfroms pr t0 => Sys2Proof.Machine.execMfroms pr t0 s
  | .mtos pr t0 => Sys2Proof.Machine.execMtos pr t0 s
  | .vidx pr imm t0 => Sys2Proof.Machine.execVidx pr imm t0 s
  | .vslide pr imm t0 => Sys2Proof.Machine.execVslide pr imm t0 s
  | .vcomp pr v t0 t1 => Sys2Proof.Machine.execVcomp pr v t0 t1 s
  | .ldB pr lsid t0 => Sys2Proof.Machine.execLdB pr lsid t0 s
  | .ldH pr lsid t0 => Sys2Proof.Machine.execLdH pr lsid t0 s
  | .ldW pr lsid t0 => Sys2Proof.Machine.execLdW pr lsid t0 s
  | .ldD pr lsid t0 => Sys2Proof.Machine.execLdD pr lsid t0 s
  | .ldL pr lsid t0 => Sys2Proof.Machine.execLdL pr lsid t0 s
  | .stB pr lsid t0 => Sys2Proof.Machine.execStB pr lsid t0 s
  | .stH pr lsid t0 => Sys2Proof.Machine.execStH pr lsid t0 s
  | .stW pr lsid t0 => Sys2Proof.Machine.execStW pr lsid t0 s
  | .stD pr lsid t0 => Sys2Proof.Machine.execStD pr lsid t0 s
  | .stL pr lsid t0 => Sys2Proof.Machine.execStL pr lsid t0 s
  | .ldrB pr lsid t0 => Sys2Proof.Machine.execLdrB pr lsid t0 s
  | .ldrH pr lsid t0 => Sys2Proof.Machine.execLdrH pr lsid t0 s
  | .ldrW pr lsid t0 => Sys2Proof.Machine.execLdrW pr lsid t0 s
  | .ldrD pr lsid t0 => Sys2Proof.Machine.execLdrD pr lsid t0 s
  | .ldrQ pr lsid t0 => Sys2Proof.Machine.execLdrQ pr lsid t0 s
  | .ldrO pr lsid t0 => Sys2Proof.Machine.execLdrO pr lsid t0 s
  | .ldrL pr lsid t0 => Sys2Proof.Machine.execLdrL pr lsid t0 s
  | .strB pr lsid t0 => Sys2Proof.Machine.execStrB pr lsid t0 s
  | .strH pr lsid t0 => Sys2Proof.Machine.execStrH pr lsid t0 s
  | .strW pr lsid t0 => Sys2Proof.Machine.execStrW pr lsid t0 s
  | .strD pr lsid t0 => Sys2Proof.Machine.execStrD pr lsid t0 s
  | .strQ pr lsid t0 => Sys2Proof.Machine.execStrQ pr lsid t0 s
  | .strO pr lsid t0 => Sys2Proof.Machine.execStrO pr lsid t0 s
  | .strL pr lsid t0 => Sys2Proof.Machine.execStrL pr lsid t0 s
  | .amoAadd pr lsid dbl ord t0 => Sys2Proof.Machine.execAmoAadd pr lsid dbl ord t0 s
  | .amoAand pr lsid dbl ord t0 => Sys2Proof.Machine.execAmoAand pr lsid dbl ord t0 s
  | .amoAor pr lsid dbl ord t0 => Sys2Proof.Machine.execAmoAor pr lsid dbl ord t0 s
  | .amoAxor pr lsid dbl ord t0 => Sys2Proof.Machine.execAmoAxor pr lsid dbl ord t0 s
  | .amoAmin pr lsid dbl ord t0 => Sys2Proof.Machine.execAmoAmin pr lsid dbl ord t0 s
  | .amoAmax pr lsid dbl ord t0 => Sys2Proof.Machine.execAmoAmax pr lsid dbl ord t0 s
  | .amoAminn pr lsid dbl ord t0 => Sys2Proof.Machine.execAmoAminn pr lsid dbl ord t0 s
  | .amoAmaxn pr lsid dbl ord t0 => Sys2Proof.Machine.execAmoAmaxn pr lsid dbl ord t0 s
  | .amoAxchg pr lsid dbl ord t0 => Sys2Proof.Machine.execAmoAxchg pr lsid dbl ord t0 s
  | .amoAcas pr lsid dbl ord t0 => Sys2Proof.Machine.execAmoAcas pr lsid dbl ord t0 s
  | .fenceLocal pr lsid t0 => Sys2Proof.Machine.execFenceLocal pr lsid t0 s
  | .fenceRect pr lsid t0 => Sys2Proof.Machine.execFenceRect pr lsid t0 s
  | .fenceCluster pr lsid t0 => Sys2Proof.Machine.execFenceCluster pr lsid t0 s
  | .fenceRegion pr lsid t0 => Sys2Proof.Machine.execFenceRegion pr lsid t0 s
  | .acq pr lsid t0 => Sys2Proof.Machine.execAcq pr lsid t0 s
  | .rel pr lsid t0 => Sys2Proof.Machine.execRel pr lsid t0 s
  | .bind pr t0 => Sys2Proof.Machine.execBind pr t0 s
  | .unbind pr t0 => Sys2Proof.Machine.execUnbind pr t0 s
  | .lwait pr t0 => Sys2Proof.Machine.execLwait pr t0 s
  | .lwarm pr t0 => Sys2Proof.Machine.execLwarm pr t0 s
  | .tcwait pr me t0 => Sys2Proof.Machine.execTcwait pr me t0 s
  | .cwait pr t0 => Sys2Proof.Machine.execCwait pr t0 s
  | .sbind pr k t0 => Sys2Proof.Machine.execSbind pr k t0 s
  | .sunbind pr k t0 => Sys2Proof.Machine.execSunbind pr k t0 s
  | .sskip pr k t0 => Sys2Proof.Machine.execSskip pr k t0 s
  | .sflush pr k t0 => Sys2Proof.Machine.execSflush pr k t0 s
  | .sstat pr k t0 => Sys2Proof.Machine.execSstat pr k t0 s
  | .copyLinear pr t0 => Sys2Proof.Machine.execCopyLinear pr t0 s
  | .copyPlane pr t0 => Sys2Proof.Machine.execCopyPlane pr t0 s
  | .copyTensor pr t0 => Sys2Proof.Machine.execCopyTensor pr t0 s
  | .copyGather pr t0 => Sys2Proof.Machine.execCopyGather pr t0 s
  | .cseal pr t0 => Sys2Proof.Machine.execCseal pr t0 s
  | .mldb pr kph t0 => Sys2Proof.Machine.execMldb pr kph t0 s
  | .mq pr dep acc t0 => Sys2Proof.Machine.execMq pr dep acc t0 s
  | .mdrain pr dep acc t0 => Sys2Proof.Machine.execMdrain pr dep acc t0 s
  | .mzero pr acc t0 => Sys2Proof.Machine.execMzero pr acc t0 s
  | .mfence pr t0 => Sys2Proof.Machine.execMfence pr t0 s
  | .mstat pr t0 => Sys2Proof.Machine.execMstat pr t0 s
  | .send pr oport t0 => Sys2Proof.Machine.execSend pr oport t0 s
  | .spawn pr t0 => Sys2Proof.Machine.execSpawn pr t0 s
  | .mbpop pr t0 => Sys2Proof.Machine.execMbpop pr t0 s
  | .mbpeek pr t0 => Sys2Proof.Machine.execMbpeek pr t0 s
  | .mbhw pr t0 => Sys2Proof.Machine.execMbhw pr t0 s
  | .eos pr oport t0 => Sys2Proof.Machine.execEos pr oport t0 s
  | .stealSplit pr t0 => Sys2Proof.Machine.execStealSplit pr t0 s
  | .stealRange pr t0 => Sys2Proof.Machine.execStealRange pr t0 s
  | .csrr pr t0 => Sys2Proof.Machine.execCsrr pr t0 s
  | .csrw pr t0 => Sys2Proof.Machine.execCsrw pr t0 s
  | .resume pr t0 => Sys2Proof.Machine.execResume pr t0 s
  | .resumeVal pr t0 => Sys2Proof.Machine.execResumeVal pr t0 s
  | .halt pr t0 => Sys2Proof.Machine.execHalt pr t0 s
  | .haltRegion pr t0 => Sys2Proof.Machine.execHaltRegion pr t0 s
  | .wake pr t0 => Sys2Proof.Machine.execWake pr t0 s
  | .ctxsv pr t0 => Sys2Proof.Machine.execCtxsv pr t0 s
  | .ctxrs pr t0 => Sys2Proof.Machine.execCtxrs pr t0 s
  | .xlati pr t0 => Sys2Proof.Machine.execXlati pr t0 s
  | .slotw pr t0 => Sys2Proof.Machine.execSlotw pr t0 s
  | .pwrq pr t0 => Sys2Proof.Machine.execPwrq pr t0 s
  | .pwrqSet pr t0 => Sys2Proof.Machine.execPwrqSet pr t0 s
  | .bkpt pr code t0 => Sys2Proof.Machine.execBkpt pr code t0 s
  | .pmark pr t0 => Sys2Proof.Machine.execPmark pr t0 s
  | .trc pr tag t0 => Sys2Proof.Machine.execTrc pr tag t0 s
  | .compactNop => Sys2Proof.Machine.execCompactNop s
  | .compactMov t0 => Sys2Proof.Machine.execCompactMov t0 s
  | .compactAdd t0 => Sys2Proof.Machine.execCompactAdd t0 s
  | .compactSub t0 => Sys2Proof.Machine.execCompactSub t0 s
  | .compactAnd t0 => Sys2Proof.Machine.execCompactAnd t0 s
  | .compactOr t0 => Sys2Proof.Machine.execCompactOr t0 s
  | .compactXor t0 => Sys2Proof.Machine.execCompactXor t0 s
  | .compactShl t0 => Sys2Proof.Machine.execCompactShl t0 s
  | .compactShr t0 => Sys2Proof.Machine.execCompactShr t0 s
  | .not t0 => Sys2Proof.Machine.execNot t0 s
  | .neg t0 => Sys2Proof.Machine.execNeg t0 s
  | .compactFadd t0 => Sys2Proof.Machine.execCompactFadd t0 s
  | .compactFmul t0 => Sys2Proof.Machine.execCompactFmul t0 s
  | .compactJoin t0 => Sys2Proof.Machine.execCompactJoin t0 s
  | .compactNull t0 => Sys2Proof.Machine.execCompactNull t0 s
  | .blockStart ts => Sys2Proof.Machine.execBlockStart ts s
  | .blockCommit ts => Sys2Proof.Machine.execBlockCommit ts s
  | .packetArrival n => Sys2Proof.Machine.execPacketArrival n s
  | .taskDispatch ts => Sys2Proof.Machine.execTaskDispatch ts s
  | .packetAgeing tile pos => Sys2Proof.Machine.execPacketAgeing tile pos s
  | .yieldReeligible tile pos => Sys2Proof.Machine.execYieldReeligible tile pos s
  | .completionToken ts => Sys2Proof.Machine.execCompletionToken ts s
  | .creditReturn rgn n => Sys2Proof.Machine.execCreditReturn rgn n s
  | .distributorDeal rgn stg rep => Sys2Proof.Machine.execDistributorDeal rgn stg rep s
  | .stageEos rgn stg => Sys2Proof.Machine.execStageEos rgn stg s
  | .rangeTokenTake rgn stg => Sys2Proof.Machine.execRangeTokenTake rgn stg s
  | .stealRequest tile => Sys2Proof.Machine.execStealRequest tile s
  | .stealService tile => Sys2Proof.Machine.execStealService tile s
  | .crossFieldSplit rgn stg fld => Sys2Proof.Machine.execCrossFieldSplit rgn stg fld s
  | .rangeStageEos rgn stg => Sys2Proof.Machine.execRangeStageEos rgn stg s
  | .spawnAdmission tile => Sys2Proof.Machine.execSpawnAdmission tile s
  | .regionCompletion rgn => Sys2Proof.Machine.execRegionCompletion rgn s
  | .dormancyRound rgn => Sys2Proof.Machine.execDormancyRound rgn s
  | .remoteStorePerform ts ent => Sys2Proof.Machine.execRemoteStorePerform ts ent s
  | .remoteAtomicPerform ts ent => Sys2Proof.Machine.execRemoteAtomicPerform ts ent s
  | .remoteLoadService ts ix => Sys2Proof.Machine.execRemoteLoadService ts ix s
  | .journalAck ts ent => Sys2Proof.Machine.execJournalAck ts ent s
  | .journalRefusal ts ent => Sys2Proof.Machine.execJournalRefusal ts ent s
  | .ldrReply ts ix => Sys2Proof.Machine.execLdrReply ts ix s
  | .amoReply ts ent => Sys2Proof.Machine.execAmoReply ts ent s
  | .relUpdatePost ts ent => Sys2Proof.Machine.execRelUpdatePost ts ent s
  | .releaseAmoPost ts ent => Sys2Proof.Machine.execReleaseAmoPost ts ent s
  | .landingArrival n => Sys2Proof.Machine.execLandingArrival n s
  | .streamFetch tile slot => Sys2Proof.Machine.execStreamFetch tile slot s
  | .streamAppendWrite tile slot => Sys2Proof.Machine.execStreamAppendWrite tile slot s
  | .copyPiece ts cp pc => Sys2Proof.Machine.execCopyPiece ts cp pc s
  | .dramreq n => Sys2Proof.Machine.execDramreq n s
  | .translationWalk n => Sys2Proof.Machine.execTranslationWalk n s
  | .dramRequestPerform n => Sys2Proof.Machine.execDramRequestPerform n s
  | .dramrep n => Sys2Proof.Machine.execDramrep n s
  | .matrixOp tile => Sys2Proof.Machine.execMatrixOp tile s
  | .weightLoad ts => Sys2Proof.Machine.execWeightLoad ts s
  | .zeroRecord ts => Sys2Proof.Machine.execZeroRecord ts s
  | .drainRow ts => Sys2Proof.Machine.execDrainRow ts s
  | .epilogueDispatch tile => Sys2Proof.Machine.execEpilogueDispatch tile s
  | .faultTokenDispatch ts => Sys2Proof.Machine.execFaultTokenDispatch ts s
  | .repairResume ts => Sys2Proof.Machine.execRepairResume ts s
  | .repairResumeWithValue ts => Sys2Proof.Machine.execRepairResumeWithValue ts s
  | .repairSkipBlock ts => Sys2Proof.Machine.execRepairSkipBlock ts s
  | .repairKillTask ts => Sys2Proof.Machine.execRepairKillTask ts s
  | .repairMigrate ts => Sys2Proof.Machine.execRepairMigrate ts s
  | .repairHaltRegion ts => Sys2Proof.Machine.execRepairHaltRegion ts s
  | .frzctlConvert rgn serial => Sys2Proof.Machine.execFrzctlConvert rgn serial s
  | .frzctlKill rgn serial => Sys2Proof.Machine.execFrzctlKill rgn serial s
  | .subdataWrite rgn val => Sys2Proof.Machine.execSubdataWrite rgn val s
  | .csrWrite tile num val => Sys2Proof.Machine.execCsrWrite tile num val s
  | .tileStopped tile => Sys2Proof.Machine.execTileStopped tile s
  | .cutClose rgn => Sys2Proof.Machine.execCutClose rgn s
  | .liveMigration src dst => Sys2Proof.Machine.execLiveMigration src dst s
  | .forwardingEntryEnd tile => Sys2Proof.Machine.execForwardingEntryEnd tile s
  | .contextSave rgn => Sys2Proof.Machine.execContextSave rgn s
  | .contextRestore rgn => Sys2Proof.Machine.execContextRestore rgn s
  | .watchdogExpiry rgn => Sys2Proof.Machine.execWatchdogExpiry rgn s
  | .saveDeadlineExpiry rgn => Sys2Proof.Machine.execSaveDeadlineExpiry rgn s
  | .uncorrectableError frame n => Sys2Proof.Machine.execUncorrectableError frame n s
  | .cmdCreate q => Sys2Proof.Machine.execCmdCreate q s
  | .cmdLoadimg q => Sys2Proof.Machine.execCmdLoadimg q s
  | .cmdLaunch q => Sys2Proof.Machine.execCmdLaunch q s
  | .cmdDelta q => Sys2Proof.Machine.execCmdDelta q s
  | .cmdPreempt q => Sys2Proof.Machine.execCmdPreempt q s
  | .cmdResume q => Sys2Proof.Machine.execCmdResume q s
  | .cmdKill q => Sys2Proof.Machine.execCmdKill q s
  | .cmdGrant q => Sys2Proof.Machine.execCmdGrant q s
  | .cmdQuery q => Sys2Proof.Machine.execCmdQuery q s
  | .cmdDestroy q => Sys2Proof.Machine.execCmdDestroy q s
  | .doorbellWrite q val => Sys2Proof.Machine.execDoorbellWrite q val s
  | .qcfgDisable q => Sys2Proof.Machine.execQcfgDisable q s
  | .qcfgEnable q val sqb cqb => Sys2Proof.Machine.execQcfgEnable q val sqb cqb s
  | .seqEnd rgn => Sys2Proof.Machine.execSeqEnd rgn s
  | .seqRun rgn => Sys2Proof.Machine.execSeqRun rgn s
  | .seqAwait rgn => Sys2Proof.Machine.execSeqAwait rgn s
  | .seqApply rgn => Sys2Proof.Machine.execSeqApply rgn s
  | .seqBranch rgn => Sys2Proof.Machine.execSeqBranch rgn s
  | .seqHold rgn => Sys2Proof.Machine.execSeqHold rgn s
  | .transplanterInterval rgn => Sys2Proof.Machine.execTransplanterInterval rgn s
  | .leaseRenewal reached => Sys2Proof.Machine.execLeaseRenewal reached s
  | .leaseLapse core => Sys2Proof.Machine.execLeaseLapse core s
  | .railStep fld => Sys2Proof.Machine.execRailStep fld s
  | .safeUpdate fld code => Sys2Proof.Machine.execSafeUpdate fld code s
  | .undervoltWindow fld => Sys2Proof.Machine.execUndervoltWindow fld s
  | .tempUpdate clu temp => Sys2Proof.Machine.execTempUpdate clu temp s
  | .thermalGate fld => Sys2Proof.Machine.execThermalGate fld s
  | .thermalRelease fld => Sys2Proof.Machine.execThermalRelease fld s
  | .coolantInletLimit inlet => Sys2Proof.Machine.execCoolantInletLimit inlet s
  | .slackInterval rgn => Sys2Proof.Machine.execSlackInterval rgn s
  | .energyHarvest rgn => Sys2Proof.Machine.execEnergyHarvest rgn s
  | .billbackHarvest => Sys2Proof.Machine.execBillbackHarvest s
  | .billbackReceive ctx nj => Sys2Proof.Machine.execBillbackReceive ctx nj s
  | .trlctlHalt clu => Sys2Proof.Machine.execTrlctlHalt clu s
  | .trlctlResume clu => Sys2Proof.Machine.execTrlctlResume clu s
  | .crossTrigger clu => Sys2Proof.Machine.execCrossTrigger clu s
  | .trellisHalted clu => Sys2Proof.Machine.execTrellisHalted clu s
  | .stepGo clu val => Sys2Proof.Machine.execStepGo clu val s
  | .stepDone clu => Sys2Proof.Machine.execStepDone clu s
  | .traceSessionOpen rgn val => Sys2Proof.Machine.execTraceSessionOpen rgn val s
  | .traceSessionEnd rgn reason => Sys2Proof.Machine.execTraceSessionEnd rgn reason s
  | .rootTracerGo rgn val => Sys2Proof.Machine.execRootTracerGo rgn val s
  | .replayTicketWait ts kind => Sys2Proof.Machine.execReplayTicketWait ts kind s
  | .roundClose rgn => Sys2Proof.Machine.execRoundClose rgn s
  | .cxlMemRead port addr len => Sys2Proof.Machine.execCxlMemRead port addr len s
  | .cxlMemWrite port addr data => Sys2Proof.Machine.execCxlMemWrite port addr data s
  | .cxlPortDown port => Sys2Proof.Machine.execCxlPortDown port s
  | .boderFlitReceive port seq crcOk req => Sys2Proof.Machine.execBoderFlitReceive port seq crcOk req s
  | .boderRemoteRequest n => Sys2Proof.Machine.execBoderRemoteRequest n s
  | .boderPortFailure port => Sys2Proof.Machine.execBoderPortFailure port s
  | .telem => Sys2Proof.Machine.execTelem s
  | .bootrec => Sys2Proof.Machine.execBootrec s
  | .rechar fld => Sys2Proof.Machine.execRechar fld s
  | .coll msg => Sys2Proof.Machine.execColl msg s
  | .fwupd img => Sys2Proof.Machine.execFwupd img s
  | .reset clear => Sys2Proof.Machine.execReset clear s
  | .getVersion port => Sys2Proof.Machine.execGetVersion port s
  | .getCapabilities port => Sys2Proof.Machine.execGetCapabilities port s
  | .negotiateAlgorithms port => Sys2Proof.Machine.execNegotiateAlgorithms port s
  | .getDigests port => Sys2Proof.Machine.execGetDigests port s
  | .getCertificate port slot => Sys2Proof.Machine.execGetCertificate port slot s
  | .challenge port slot => Sys2Proof.Machine.execChallenge port slot s
  | .getMeasurements port index => Sys2Proof.Machine.execGetMeasurements port index s
  | .keyExchange port => Sys2Proof.Machine.execKeyExchange port s
  | .finish port => Sys2Proof.Machine.execFinish port s
  | .powerOnReset => Sys2Proof.Machine.execPowerOnReset s
  | .bringupStepTimeout stp => Sys2Proof.Machine.execBringupStepTimeout stp s
  | .startTimeout => Sys2Proof.Machine.execStartTimeout s
  | .tileCycle tile => Sys2Proof.Machine.execTileCycle tile s
  | .correctableError fld => Sys2Proof.Machine.execCorrectableError fld s
  | .leadStopsActing => Sys2Proof.Machine.execLeadStopsActing s

end Sys2Proof.Machine
end

