-- ==== Sys2Proof/Machine/Schedule.lean ====
section
/-! DEFINITION. What comes next: the moves that the units of the machine can make by themselves, the events that
register writes have started, and those of the agenda. The spec has no device-wide time: it orders blocks and events only
as its rules say. So which of the enabled moves comes next is an input (`schedule`, `agenda`). What is the world's, and
what a timer brings about, comes through the agenda alone. -/

namespace Sys2Proof.Machine

open Sys2Proof

/-! ## A block in flight -/

/-- The instruction at the cursor of a thread set's block. -/
def State.nextInstr (s : State) (k : Nat) : Option Instr :=
  match s.flight k with
  | none => none
  | some f => match f.cursor with
    | none => none
    | some ix => AMap.find ix (bodyInstrs 0 f.body)
/-- Fires the instruction at the cursor of a thread set's block (R81). -/
def fireNext (k : Nat) (s : State) : Res :=
  match s.nextInstr k with
  | some i => if s.runnable k then exec i { s with focus := k } else .refused .noBlock
  | none => .refused .noBlock

/-! ## The moves of the units -/

/-- A move: what it does, or a refusal when it cannot come about. -/
abbrev Move := State → Res

/-- The moves of a block in flight. -/
def blockMoves (k : Nat) : List Move := [fireNext k, execBlockCommit k]
/-- A replay that differs from its log (R428). -/
def divergeMove (k kind : Nat) (s : State) : Res :=
  whenEnabled "REPLAY_TICKET_WAIT" (decide (s.mode (s.rgnOf (tileOf k)) = 2) && s.diverges k kind) (s.ticketWait k kind)
/-- The moves of a thread set's engines. -/
def State.tsMoves (s : State) (k : Nat) : List Move :=
  let e := (s.ts k).eng
  [execCompletionToken k, execFaultTokenDispatch k, execRepairResume k, execRepairResumeWithValue k, execRepairSkipBlock k,
    execRepairKillTask k, execRepairMigrate k, execRepairHaltRegion k, execWeightLoad k, execZeroRecord k, execDrainRow k] ++ ownKinds.map (divergeMove k) ++
  e.journal.flatMap (fun j => [execRelUpdatePost k j.num, execReleaseAmoPost k j.num, execRemoteStorePerform k j.num,
    execRemoteAtomicPerform k j.num, execJournalAck k j.num, execAmoReply k j.num, execJournalRefusal k j.num]) ++
  e.copies.flatMap (fun c => (s.pieceNums (tileOf k) c).map fun p => execCopyPiece k c.id p) ++
  (match s.flight k with
    | none => []
    | some f => f.reqs.flatMap fun q => [execRemoteLoadService k q.1, execLdrReply k q.1])
/-- The moves of a tile's units. -/
def State.tileMoves (s : State) (t : Nat) : List Move :=
  let x := s.tile t
  [execTileStopped t, execSpawnAdmission t, execMatrixOp t, execEpilogueDispatch t, execStealService t, execStealRequest t] ++
  x.slots.flatMap (fun z => [execStreamAppendWrite t z.1, execStreamFetch t z.1]) ++
  x.mbox.mails.flatMap (fun m => [execYieldReeligible t m.pos, execPacketAgeing t m.pos])
/-- The moves of a region's distributors, sequencer and save engines. -/
def State.regionMoves (s : State) (r : Nat) : List Move :=
  let g := s.region r
  [execCutClose r, execContextSave r, execContextRestore r, execRegionCompletion r, execRoundClose r, execSeqEnd r, execSeqRun r,
    execSeqAwait r, execSeqApply r, execSeqBranch r, execSeqHold r] ++
  (match g.walkAt with | some v => [execRootTracerGo r v] | none => []) ++
  g.edges.map (fun p => execCreditReturn r p.1) ++
  g.stages.flatMap fun p =>
    (List.range p.2.replicas.length).map (fun i => execDistributorDeal r p.1 i) ++
    [execStageEos r p.1, execRangeTokenTake r p.1, execRangeStageEos r p.1] ++
    ((p.2.replicas.map g.fieldAt).eraseDups).map fun f => execCrossFieldSplit r p.1 f
/-- The moves of the network, the entry ports and the stacks. -/
def State.netMoves (s : State) : List Move :=
  (List.range s.net.length).flatMap (fun n => [execPacketArrival n, execDramreq n]) ++
  (List.range s.landings.length).map (fun n => execLandingArrival n) ++
  (List.range s.dreqs.length).flatMap (fun n => [execTranslationWalk n, execDramRequestPerform n]) ++
  (List.range s.dreps.length).map (fun n => execDramrep n) ++
  (List.range s.links.remotes.length).map fun n => execBoderRemoteRequest n
/-- An entry whose opcode no command has is taken (R350). -/
def takeReserved (q : Nat) (s : State) : Res := whenEnabled "CMD_QUERY" (s.canReserved q) (s.reservedCommand q)
/-- The commands of a queue. -/
def queueMoves (q : Nat) : List Move :=
  [execCmdCreate q, execCmdLoadimg q, execCmdLaunch q, execCmdDelta q, execCmdPreempt q, execCmdResume q, execCmdKill q,
    execCmdGrant q, execCmdQuery q, execCmdDestroy q, takeReserved q]
/-- The numbers from 64 up under which deltas of disabled queues run on (R351). -/
def State.passedDeltas (s : State) : List Nat :=
  s.regions.filterMap fun p => ((p.2.delta.bind fun d => d.queue).map Prod.fst).filter fun q => decide (64 ≤ q)
/-- The moves of fields and clusters. -/
def State.fieldMoves (s : State) : List Move :=
  s.fields.flatMap (fun p => [execRailStep p.1, execThermalGate p.1, execThermalRelease p.1]) ++
  s.clusters.flatMap fun p => [execTrellisHalted p.1, execStepDone p.1]
/-- The next step of bring-up: power-on before the first, nothing once it is over (R439). -/
def bringUpNext (s : State) : Res :=
  if s.links.boot.step = 0 then execPowerOnReset s
  else whenEnabled "POWER_ON_RESET" (decide (s.links.boot.step < 9)) s.bringup

/-- The thread sets of the tiles that hold something. -/
def State.threadSets (s : State) : List Nat := s.tiles.flatMap fun p => (List.range 4).map fun i => 4 * p.1 + i
/-- Those after the one that fired last, then the others. -/
def State.rotated (s : State) : List Nat :=
  s.threadSets.filter (fun k => decide (s.focus < k)) ++ s.threadSets.filter fun k => decide (k ≤ s.focus)
/-- The tile in use that is behind the others in its own cycles. -/
def State.slowest (s : State) : List Nat :=
  (s.tiles.filter fun p => p.2.live && !(s.fieldRec (fieldOf p.1)).gated).foldl (fun (a : List Nat) (p : Nat × Tile) =>
    match a with
    | [] => [p.1]
    | t :: _ => if p.2.cycle < (s.tile t).cycle then [p.1] else a) []

/-- All moves, in the order in which they are tried when nothing else is asked for: the block that fired last, the other
blocks in flight, the units, new blocks and tasks, the clock of a tile, and bring-up. -/
def State.moves (s : State) : List Move :=
  blockMoves s.focus ++ s.flights.flatMap (fun p => blockMoves p.1) ++ s.netMoves ++ s.threadSets.flatMap s.tsMoves ++
  s.tiles.flatMap (fun p => s.tileMoves p.1) ++ s.regions.flatMap (fun p => s.regionMoves p.1) ++
  s.links.queues.flatMap (fun p => queueMoves p.1) ++ s.passedDeltas.map (fun q => execCmdDelta q) ++ [execBarAccess] ++ s.fieldMoves ++
  s.rotated.map (fun k => execBlockStart k) ++ s.rotated.map (fun k => execTaskDispatch k) ++
  s.slowest.map (fun t => execTileCycle t) ++ [bringUpNext]

/-- What the first move that can come about gives. -/
def firstMove : List Move → State → Res
  | [], _ => .fault .quiescent
  | m :: ms, s => match m s with
    | .refused _ => firstMove ms s
    | r => r
/-- What the move of a number gives, among those that can come about. -/
def nthMove : Nat → List Move → State → Res
  | _, [], _ => .fault .quiescent
  | n, m :: ms, s => match m s with
    | .refused _ => nthMove n ms s
    | r => match n with
      | 0 => r
      | n + 1 => nthMove n ms s

/-! ## Events that are asked for -/

/-- The event that has been started. -/
def runTrigger (t : Trigger) (s : State) : Res :=
  match t with
  | .frzConvert r n => execFrzctlConvert r n s
  | .frzKill r n => execFrzctlKill r n s
  | .crossTrigger c => execCrossTrigger c s

/-- The next event of the agenda; an instruction that has an encoding fires in a block only (R81). -/
def deliverNext (s : State) : Res :=
  match s.agenda with
  | [] => firstMove s.moves s
  | i :: rest =>
    match encode i with
    | some _ => .refused .noBlock
    | none => exec i { s with agenda := rest }

/-- What comes next (see the head of this file). An event that a register write has started and that finds nothing to act
on changes nothing. -/
def State.advance (s : State) : Res :=
  match s.started with
  | t :: rest =>
    match runTrigger t { s with started := rest } with
    | .refused _ => .next { s with started := rest }
    | r => r
  | [] => match s.schedule with
    | 0 :: rest => deliverNext { s with schedule := rest }
    | (n + 1) :: rest => nthMove n s.moves { s with schedule := rest }
    | [] => deliverNext s

/-! ## Placing an instruction where the next step runs it -/

/-- A tile that a program is placed on for `State.withFetchWord`: the first of the region's Potting shed. -/
def probeTile : Nat := tileAt 144 0
/-- A block whose first slot holds a word; every operand that the word can ask for has arrived. -/
def probeFlight (w : BitVec 32) (snap : Snapshot) : Flight :=
  let one : Nat := match decodeSlot w with
    | .ok (.one i) => (match i.shape with | some sh => if sh.pr = .onTrue then 1 else 0 | none => 0)
    | .ok (.pair _ _) => 0
    | .error _ => 0
  { base := 3 * 2 ^ 60, header := 0, body := [w], order := [(0, [])], named := [], stat := [],
    toks := [(0, .scalar 0), (1, .scalar 0), (2, .scalar (word one)), (3, .scalar 0)], effs := [], faults := [], freeze := none,
    raised := 0, loads := [], reqs := [], counts := [], pops := [], snap := snap, split := false, late := [], seen := [], nulls := [] }

end Sys2Proof.Machine
end

