-- ==== Sys2Proof/Machine/Step.lean ====
section
/-! DEFINITION. One step of the machine, and the placing of an instruction where the next step runs it. -/

namespace Sys2Proof.Machine

open Sys2Proof

/-- One step: an instruction of a block in flight fires, or an event comes about. -/
def step (s : State) : Host.Outcome State Fault Refusal := s.advance

/-- The state with an instruction at the cursor of the block that the next step goes on with. The machine has no place
that simply is fetched: blocks are loaded with an image, started by a task, and fire in dataflow order (assumption 7);
this stands for all of it. A 16-bit word is the first half of its slot; the second half is the compact NOP. -/
def State.withFetchWord (s : State) (nbits w : Nat) : State :=
  let t := probeTile
  let k := 4 * t
  let slot : BitVec 32 := if nbits = 16 then BitVec.ofNat 32 (w % 65536 + 0x83FF0000) else BitVec.ofNat 32 w
  let r : State := { s with
    agenda := [], started := [], schedule := [], focus := k,
    tiles := AMap.ins t { Tile.init with rgn := some 0, live := true } s.tiles,
    tss := AMap.del k s.tss,
    regions := AMap.ins 0 { Region.init with ctx := 1, geom := word (at_ 0 8 36 + at_ 16 8 2 + at_ 24 8 2), st := .running, ran := true } s.regions }
  let r := r.updField (fieldOf t) fun f => { f with gated := false }
  { r with flights := AMap.ins k (probeFlight slot (r.snapshot k)) s.flights }

end Sys2Proof.Machine
end

