-- ==== Sys2Proof/Safety.lean ====
section
/-! DEFINITION. The terms that statements about the machine are made in: what the instruction at the cursor of a block
sees, the state after a firing, the canonical form of memory, and what counts as a safe run. -/

namespace Sys2Proof.Machine

open Sys2Proof

/-! ## Firings -/

/-- What the instruction at the cursor of the block on the thread set in focus sees when its predicate lets it go ahead
(R81, R83); `pr` is its predication. -/
def State.view (s : State) (pr : Pr) : Option Fire :=
  match s.flight s.focus with
  | none => none
  | some f => match f.cursor with
    | none => none
    | some ix => match predicate pr (f.token ix 2) with
      | .go en m => some ⟨s, s.focus, f, ix, f.token ix 0, f.token ix 1, f.token ix 3, en, m⟩
      | _ => none

/-- The state after a firing that delivers a token to its targets: class charged, flags raised, and what the block does at
its commit or has read, if anything. Nothing but the block in flight changes (R89). -/
def Fire.after (c : Fire) (cls : Nat) (ts : List Target) (t : Token) (fl : BitVec 7 := 0) (e : Option Effect := none)
    (ld : Option (Nat × Nat) := none) : State :=
  let f := c.fl
  let g : Flight := { f with
    stat := AMap.ins c.ix .fired f.stat,
    toks := ts.foldl (deliver t) f.toks,
    raised := f.raised ||| fl,
    effs := match e with | some e => AMap.ins c.ix e f.effs | none => f.effs,
    loads := match ld with | some p => p :: f.loads | none => f.loads,
    seen := match ld with | some p => c.s.bytes (poolKey (tileOf c.k) p.1) p.2 :: f.seen | none => f.seen,
    counts := AMap.ins c.ix (cls + 1) (match ld with | some p => AMap.ins (512 + c.ix) (units8 p.2) f.counts | none => f.counts) }
  { c.s with flights := AMap.ins c.k g.sweep c.s.flights }

/-- The state after a firing that is nulled: a token, null but for a store, to every target and nothing else (R83, R84,
R95). -/
def State.nulled (s : State) (f : Flight) (ix cls : Nat) (ts : List Target) (t : Token) : State :=
  let g : Flight := { f with
    stat := AMap.ins ix .nulled f.stat, toks := ts.foldl (deliver t) f.toks, effs := AMap.del ix f.effs,
    counts := AMap.ins ix (cls + 1) f.counts }
  { s with flights := AMap.ins s.focus g.sweep s.flights }

/-- The state after a firing that faults: nothing is delivered, and the fault is kept until the block has settled (R91). -/
def Fire.faulted (c : Fire) (cls : Nat) (cause : Cause) (sub : Nat) (a : Word) : State :=
  let f := c.fl
  let g : Flight := { f with
    stat := AMap.ins c.ix .faulted f.stat, faults := AMap.ins c.ix ⟨cause, c.ix, sub, a, 0, 0⟩ f.faults,
    counts := AMap.ins c.ix (cls + 1) f.counts }
  { c.s with flights := AMap.ins c.k g.sweep c.s.flights }

/-- Whether a token carries data, and its lane mask does not clash: what a lane-wise instruction takes (R82, R83). -/
def computes (ts : List Token) : Bool := ts.all Token.isData && ts.any Token.isVector

/-- Whether lane i of a result is absent: disabled, or null in an operand (R83, R218). -/
def Fire.absent (c : Fire) (ts : List Token) (i : Nat) : Bool := !maskBit c.en i || ts.any fun t => t.laneNull i

/-! ## Memory -/

/-- Memory is in its canonical form: keys strictly rise, and no entry equals what an unlisted byte reads as. -/
abbrev Memory.wf (m : AMap Byte) : Bool := AMap.wf 0 m

/-! ## Runs -/

/-- Whether a step goes on. -/
def State.goesOn (s : State) : Bool := match step s with | .next _ => true | _ => false

/-- The state after n steps, if none of them stops. -/
def State.after : Nat → State → Option State
  | 0, s => some s
  | n + 1, s => match step s with
    | .next t => State.after n t
    | _ => none

/-- A run of n steps is safe: every step goes on. -/
def State.safeFor (n : Nat) (s : State) : Bool := (State.after n s).isSome

end Sys2Proof.Machine
end

