-- ==== Sys2Proof/Certificates/Slice0/Obligations.lean ====
section
/-! DEFINITION. The statements about the model. The tables at the head of each part say, in the spec's own arithmetic, what
the instructions of one shape compute; a statement quantifies over the rows of such a table. `s.view pr = some c` says that
a block in flight stands at an instruction whose operands have arrived and whose predicate lets it go ahead; `c.mask` is
false when that predicate is a scalar or there is none. -/

open Sys2Proof Sys2Proof.Machine

namespace Sys2Proof.Claims

/-! ## Tables of lane-wise instructions -/

/-- A lane-wise instruction: its constructor from V, an immediate, predication and targets; whether it has two targets; the
energy class of a scalar result (R403); and its function of the immediate and the operands, with the flags it raises. -/
structure Row where
  instr : Bool → Nat → Pr → Target → Target → Instr
  two : Bool
  cls : Nat
  fn  : Nat → Word → Word → Word → Word × BitVec 7

/-- The targets of a row. -/
def Row.targets (r : Row) (t u : Target) : List Target := if r.two then [t, u] else [t]
/-- The class of a vector result: plumbing counts as plumbing, everything else as vector work (R403). -/
def wide (cls : Nat) : Nat := if cls = 0 then 0 else 5
/-- A function without flags. -/
def pure2 (f : Word → Word → Word) (_ : Nat) (a b _ : Word) : Word × BitVec 7 := (f a b, 0)
/-- A function of one operand without flags. -/
def pure1 (f : Word → Word) (_ : Nat) (a _ _ : Word) : Word × BitVec 7 := (f a, 0)
/-- Rotates left by k below 64. -/
def rotl (a : Word) (k : Nat) : Word := (a <<< k) ||| (a >>> (64 - k))
/-- The low n bits as a signed number, on 64 bits. -/
def sextOf (n : Nat) (a : Word) : Word := (a.setWidth n).signExtend 64
/-- The low n bits as an unsigned number, on 64 bits. -/
def zextOf (n : Nat) (a : Word) : Word := (a.setWidth n).setWidth 64
/-- A sign-extended 12-bit immediate. -/
def imm12 (n : Nat) : Word := (BitVec.ofNat 12 n).signExtend 64
/-- A 6-bit immediate. -/
def imm6 (n : Nat) : BitVec 6 := BitVec.ofNat 6 n
/-- The flag IDZ of R103. -/
def idz : BitVec 7 := 0x40#7
/-- 2^64 − 1 at most: the bits of a field of w bits at pos. -/
def maskOf (pos w : Nat) : Word := BitVec.ofNat 64 ((2 ^ w - 1) * 2 ^ pos)

/-- Integer and address instructions with two operands (R230 to R236). -/
def integerPairs : List Row := [
  ⟨fun v _ p t u => .add p v t u, true, 1, pure2 fun a b => a + b⟩,
  ⟨fun v _ p t u => .sub p v t u, true, 1, pure2 fun a b => a - b⟩,
  ⟨fun v _ p t u => .and p v t u, true, 1, pure2 fun a b => a &&& b⟩,
  ⟨fun v _ p t u => .or p v t u, true, 1, pure2 fun a b => a ||| b⟩,
  ⟨fun v _ p t u => .xor p v t u, true, 1, pure2 fun a b => a ^^^ b⟩,
  ⟨fun _ _ p t _ => .mulLo p t, false, 2, pure2 fun a b => a * b⟩,
  ⟨fun _ _ p t _ => .mulHi p t, false, 2, pure2 fun a b => (a.signExtend 128 * b.signExtend 128).extractLsb' 64 64⟩,
  ⟨fun _ _ p t _ => .mulHiu p t, false, 2, pure2 fun a b => (a.setWidth 128 * b.setWidth 128).extractLsb' 64 64⟩,
  ⟨fun _ _ p t _ => .div p t, false, 2, fun _ a b _ => if b = 0 then (0, idz) else (a.sdiv b, 0)⟩,
  ⟨fun _ _ p t _ => .divu p t, false, 2, fun _ a b _ => if b = 0 then (0, idz) else (a.udiv b, 0)⟩,
  ⟨fun _ _ p t _ => .rem p t, false, 2, fun _ a b _ => if b = 0 then (a, idz) else (a.srem b, 0)⟩,
  ⟨fun _ _ p t _ => .remu p t, false, 2, fun _ a b _ => if b = 0 then (a, idz) else (a.umod b, 0)⟩,
  ⟨fun _ _ p t _ => .shl p t, false, 1, pure2 fun a b => a <<< (b.toNat % 64)⟩,
  ⟨fun _ _ p t _ => .shr p t, false, 1, pure2 fun a b => a >>> (b.toNat % 64)⟩,
  ⟨fun _ _ p t _ => .sar p t, false, 1, pure2 fun a b => a.sshiftRight (b.toNat % 64)⟩,
  ⟨fun _ _ p t _ => .rot p t, false, 1, pure2 fun a b => rotl a (b.toNat % 64)⟩,
  ⟨fun _ _ p t _ => .min p t, false, 1, pure2 fun a b => if a.toInt ≤ b.toInt then a else b⟩,
  ⟨fun _ _ p t _ => .max p t, false, 1, pure2 fun a b => if a.toInt ≤ b.toInt then b else a⟩,
  ⟨fun _ _ p t _ => .minu p t, false, 1, pure2 fun a b => if a.toNat ≤ b.toNat then a else b⟩,
  ⟨fun _ _ p t _ => .maxu p t, false, 1, pure2 fun a b => if a.toNat ≤ b.toNat then b else a⟩,
  ⟨fun _ n p t _ => .bfi p (imm6 n) (imm6 (n / 64)) t, false, 1, fun n a b _ =>
    let m := maskOf (n % 64) (n / 64 % 64 + 1)
    ((b &&& ~~~m) ||| ((a <<< (n % 64)) &&& m), 0)⟩,
  ⟨fun _ n p t _ => .lea p (BitVec.ofNat 3 n) t, false, 1, fun n a b _ => (a + (b <<< (n % 8)), 0)⟩,
  ⟨fun _ _ p t _ => .crdpk p t, false, 1, pure2 fun a b => ((b.extractLsb' 0 10) ++ (a.extractLsb' 0 10)).setWidth 64⟩,
  ⟨fun _ _ p t _ => .rect p t, false, 1, pure2 fun a b =>
    let lo (x y : BitVec 10) : BitVec 10 := if x ≤ y then x else y
    let hi (x y : BitVec 10) : BitVec 10 := if x ≤ y then y else x
    let ax := a.extractLsb' 0 10
    let ay := a.extractLsb' 10 10
    let bx := b.extractLsb' 0 10
    let by_ := b.extractLsb' 10 10
    (hi ay by_ ++ hi ax bx ++ lo ay by_ ++ lo ax bx).setWidth 64⟩]

/-- Integer and address instructions with one operand (R222, R230, R231, R234, R236). -/
def integerSingles : List Row := [
  ⟨fun _ n p t _ => .addi p (BitVec.ofNat 12 n) t, false, 1, fun n a _ _ => (a + imm12 n, 0)⟩,
  ⟨fun _ n p t _ => .andi p (BitVec.ofNat 12 n) t, false, 1, fun n a _ _ => (a &&& imm12 n, 0)⟩,
  ⟨fun _ n p t _ => .ori p (BitVec.ofNat 12 n) t, false, 1, fun n a _ _ => (a ||| imm12 n, 0)⟩,
  ⟨fun _ n p t _ => .xori p (BitVec.ofNat 12 n) t, false, 1, fun n a _ _ => (a ^^^ imm12 n, 0)⟩,
  ⟨fun _ n p t _ => .movhi p (BitVec.ofNat 12 n) t, false, 0, fun n a _ _ => ((a <<< 12) ||| BitVec.ofNat 64 (n % 4096), 0)⟩,
  ⟨fun _ n p t _ => .shli p (imm6 n) t, false, 1, fun n a _ _ => (a <<< (n % 64), 0)⟩,
  ⟨fun _ n p t _ => .shri p (imm6 n) t, false, 1, fun n a _ _ => (a >>> (n % 64), 0)⟩,
  ⟨fun _ n p t _ => .sari p (imm6 n) t, false, 1, fun n a _ _ => (a.sshiftRight (n % 64), 0)⟩,
  ⟨fun _ n p t _ => .roti p (imm6 n) t, false, 1, fun n a _ _ => (rotl a (n % 64), 0)⟩,
  ⟨fun _ _ p t _ => .clz p t, false, 1, pure1 fun a => BitVec.ofNat 64 (((List.range 64).find? fun i => a.getLsbD (63 - i)).getD 64)⟩,
  ⟨fun _ _ p t _ => .ctz p t, false, 1, pure1 fun a => BitVec.ofNat 64 (((List.range 64).find? a.getLsbD).getD 64)⟩,
  ⟨fun _ _ p t _ => .popc p t, false, 1, pure1 fun a => BitVec.ofNat 64 ((List.range 64).countP a.getLsbD)⟩,
  ⟨fun _ _ p t _ => .brev p t, false, 1, pure1 fun a => a.reverse⟩,
  ⟨fun _ _ p t _ => .bswap p t, false, 1, pure1 fun a =>
    a.extractLsb' 0 8 ++ a.extractLsb' 8 8 ++ a.extractLsb' 16 8 ++ a.extractLsb' 24 8 ++ a.extractLsb' 32 8 ++
      a.extractLsb' 40 8 ++ a.extractLsb' 48 8 ++ a.extractLsb' 56 8⟩,
  ⟨fun _ _ p t _ => .sextb p t, false, 1, pure1 (sextOf 8)⟩,
  ⟨fun _ _ p t _ => .sexth p t, false, 1, pure1 (sextOf 16)⟩,
  ⟨fun _ _ p t _ => .sextw p t, false, 1, pure1 (sextOf 32)⟩,
  ⟨fun _ _ p t _ => .zextb p t, false, 1, pure1 (zextOf 8)⟩,
  ⟨fun _ _ p t _ => .zexth p t, false, 1, pure1 (zextOf 16)⟩,
  ⟨fun _ _ p t _ => .zextw p t, false, 1, pure1 (zextOf 32)⟩,
  ⟨fun _ n p t _ => .bfx p (imm6 n) (imm6 (n / 64)) t, false, 1, fun n a _ _ => ((a >>> (n % 64)) &&& maskOf 0 (n / 64 % 64 + 1), 0)⟩,
  ⟨fun _ _ p t _ => .crdx p t, false, 1, pure1 fun a => (a.extractLsb' 0 10).setWidth 64⟩,
  ⟨fun _ _ p t _ => .crdy p t, false, 1, pure1 fun a => (a.extractLsb' 10 10).setWidth 64⟩]

/-- Compact arithmetic with two scalars (R201, R202). -/
def compactPairs : List (Target → Instr × Nat × (Word → Word → Word × BitVec 7)) := [
  fun t => (.compactAdd t, 1, fun a b => (a + b, 0)),
  fun t => (.compactSub t, 1, fun a b => (a - b, 0)),
  fun t => (.compactAnd t, 1, fun a b => (a &&& b, 0)),
  fun t => (.compactOr t, 1, fun a b => (a ||| b, 0)),
  fun t => (.compactXor t, 1, fun a b => (a ^^^ b, 0)),
  fun t => (.compactShl t, 1, fun a b => (a <<< (b.toNat % 64), 0)),
  fun t => (.compactShr t, 1, fun a b => (a >>> (b.toNat % 64), 0)),
  fun t => (.compactFadd t, 3, fadd),
  fun t => (.compactFmul t, 3, fmul)]

/-- Compares (R233, R252): the constructor, the class, and the relation of the operands with the flags it raises. -/
def compares : List ((Pr → Target → Instr) × Nat × (Word → Word → Bool × BitVec 7)) := [
  (fun p t => .cmpeq p t, 1, fun a b => (decide (a = b), 0)),
  (fun p t => .cmpne p t, 1, fun a b => (decide (a ≠ b), 0)),
  (fun p t => .cmplt p t, 1, fun a b => (decide (a.toInt < b.toInt), 0)),
  (fun p t => .cmple p t, 1, fun a b => (decide (a.toInt ≤ b.toInt), 0)),
  (fun p t => .cmpltu p t, 1, fun a b => (decide (a.toNat < b.toNat), 0)),
  (fun p t => .cmpleu p t, 1, fun a b => (decide (a.toNat ≤ b.toNat), 0))]
/-- Compares of WF64 (R252). -/
def floatCompares : List ((Pr → Target → Instr) × Nat × (Word → Word → Bool × BitVec 7)) := [
  (fun p t => .fcmpeq p t, 3, fcmp 0),
  (fun p t => .fcmplt p t, 3, fcmp 1),
  (fun p t => .fcmple p t, 3, fcmp 2),
  (fun p t => .fcmpun p t, 3, fcmp 3)]
/-- Compares with an immediate (R233). -/
def immediateCompares : List ((Pr → BitVec 12 → Target → Instr) × (Word → Word → Bool)) := [
  (fun p i t => .cmpeqi p i t, fun a b => decide (a = b)),
  (fun p i t => .cmplti p i t, fun a b => decide (a.toInt < b.toInt)),
  (fun p i t => .cmpltui p i t, fun a b => decide (a.toNat < b.toNat))]

/-- A compare of scalars delivers a scalar 1 or 0. -/
def comparesScalars (r : (Pr → Target → Instr) × Nat × (Word → Word → Bool × BitVec 7)) : Prop :=
  ∀ (p : Pr) (t : Target) (s : State) (c : Fire) (a b : Word), s.view p = some c → c.mask = false →
    c.left = .scalar a → c.right = .scalar b →
    exec (r.1 p t) s = .next (c.after r.2.1 [t] (.scalar (if (r.2.2 a b).1 then 1 else 0)) (r.2.2 a b).2)
/-- With a vector operand it delivers a lane mask, whose bit is 1 exactly where the lane computes and its relation holds; the
lanes that compute raise their flags. -/
def comparesVectors (r : (Pr → Target → Instr) × Nat × (Word → Word → Bool × BitVec 7)) : Prop :=
  ∀ (p : Pr) (t : Target) (s : State) (c : Fire), s.view p = some c → computes [c.left, c.right] = true →
    let value (j : Nat) : Bool × BitVec 7 := r.2.2 (c.left.lane j) (c.right.lane j)
    let fl := laneList.foldl (fun a j => if c.absent [c.left, c.right] j then a else a ||| (value j).2) 0
    ∃ m : BitVec 8, exec (r.1 p t) s = .next (c.after 5 [t] (.mask m) fl) ∧
      ∀ j < 8, maskBit m j = (!c.absent [c.left, c.right] j && (value j).1)

/-- The minors of DIV by the spec's arithmetic (R232). -/
def divisions : List Row := [
  ⟨fun _ _ p t _ => .div p t, false, 2, fun _ a b _ => if b = 0 then (0, idz) else (BitVec.ofInt 64 (a.toInt.tdiv b.toInt), 0)⟩,
  ⟨fun _ _ p t _ => .divu p t, false, 2, fun _ a b _ => if b = 0 then (0, idz) else (BitVec.ofNat 64 (a.toNat / b.toNat), 0)⟩,
  ⟨fun _ _ p t _ => .rem p t, false, 2, fun _ a b _ =>
    if b = 0 then (a, idz) else (BitVec.ofInt 64 (a.toInt - b.toInt * a.toInt.tdiv b.toInt), 0)⟩,
  ⟨fun _ _ p t _ => .remu p t, false, 2, fun _ a b _ =>
    if b = 0 then (a, idz) else (BitVec.ofInt 64 ((a.toNat : Int) - b.toNat * (a.toNat / b.toNat : Nat)), 0)⟩]
/-- LEA by the spec's arithmetic (R235). -/
def leaRow : List Row := [
  ⟨fun _ n p t _ => .lea p (BitVec.ofNat 3 n) t, false, 1, fun n a b _ => (BitVec.ofNat 64 (a.toNat + b.toNat * 2 ^ (n % 8)), 0)⟩]

/-- Floating-point instructions with one, two and three operands (R246 to R256). -/
def floatSingles : List Row := [
  ⟨fun v _ p t u => .fsqrt p v t u, true, 4, fun _ a _ _ => fsqrt a⟩,
  ⟨fun _ _ p t _ => .fabs p t, false, 3, fun _ a _ _ => fabsNeg false a⟩,
  ⟨fun _ _ p t _ => .fneg p t, false, 3, fun _ a _ _ => fabsNeg true a⟩,
  ⟨fun _ _ p t _ => .frcp p t, false, 4, fun _ a _ _ => frcp a⟩,
  ⟨fun _ _ p t _ => .frsq p t, false, 4, fun _ a _ _ => frsq a⟩,
  ⟨fun _ _ p t _ => .fexp2 p t, false, 4, fun _ a _ _ => fexp2 a⟩,
  ⟨fun _ _ p t _ => .flog2 p t, false, 4, fun _ a _ _ => flog2 a⟩,
  ⟨fun _ _ p t _ => .ftanh p t, false, 4, fun _ a _ _ => ftanh a⟩,
  ⟨fun _ _ p t _ => .fsin p t, false, 4, fun _ a _ _ => fsin a⟩,
  ⟨fun _ n p t _ => .f2i p (n / 4 % 2 == 1) (BitVec.ofNat 2 n) t, false, 3, fun n a _ _ => f2i true (n / 4 % 2 == 1) (n % 4) a⟩,
  ⟨fun _ n p t _ => .f2n p (n / 4 % 2 == 1) (BitVec.ofNat 2 n) t, false, 3, fun n a _ _ => f2i false (n / 4 % 2 == 1) (n % 4) a⟩,
  ⟨fun _ n p t _ => .i2f p (n / 4 % 2 == 1) (BitVec.ofNat 2 n) t, false, 3, fun n a _ _ => i2f true (n % 4) a⟩,
  ⟨fun _ n p t _ => .n2f p (n / 4 % 2 == 1) (BitVec.ofNat 2 n) t, false, 3, fun n a _ _ => i2f false (n % 4) a⟩,
  ⟨fun _ _ p t _ => .fclass p t, false, 3, pure1 fclass⟩,
  ⟨fun _ _ p t _ => .frndRne p t, false, 3, fun _ a _ _ => frnd 0 a⟩,
  ⟨fun _ _ p t _ => .frndRz p t, false, 3, fun _ a _ _ => frnd 1 a⟩,
  ⟨fun _ _ p t _ => .frndRu p t, false, 3, fun _ a _ _ => frnd 2 a⟩,
  ⟨fun _ _ p t _ => .frndRd p t, false, 3, fun _ a _ _ => frnd 3 a⟩]
/-- See `floatSingles`. -/
def floatPairs : List Row := [
  ⟨fun v _ p t u => .fadd p v t u, true, 3, fun _ a b _ => fadd a b⟩,
  ⟨fun v _ p t u => .fsub p v t u, true, 3, fun _ a b _ => fsub a b⟩,
  ⟨fun v _ p t u => .fmul p v t u, true, 3, fun _ a b _ => fmul a b⟩,
  ⟨fun v _ p t u => .fdiv p v t u, true, 4, fun _ a b _ => fdiv a b⟩,
  ⟨fun v _ p t u => .fscale p v t u, true, 3, fun _ a b _ => fscale a b⟩,
  ⟨fun _ _ p t _ => .fmin p t, false, 3, fun _ a b _ => fminmax false a b⟩,
  ⟨fun _ _ p t _ => .fmax p t, false, 3, fun _ a b _ => fminmax true a b⟩]
/-- See `floatSingles`. -/
def floatTriples : List Row := [
  ⟨fun v _ p t u => .fma p v t u, true, 3, fun _ a b c => fma a b c⟩,
  ⟨fun v _ p t u => .fnma p v t u, true, 3, fun _ a b c => fnma a b c⟩]

/-! ### What WF64 arithmetic delivers (R113 to R116, R246 to R249, R252)

The value of a finite pattern is a multiple of 2^−562; `units` counts these multiples. -/

/-- The canonical quiet NaN (R115). -/
def quietNaN : Word := 0x7FF8000000000000#64
/-- The flags NX, UF, OF, DZ and NV of R103. -/
def nx : BitVec 7 := 1#7
/-- See `nx`. -/
def uf : BitVec 7 := 2#7
/-- See `nx`. -/
def of_ : BitVec 7 := 4#7
/-- See `nx`. -/
def dz : BitVec 7 := 8#7
/-- See `nx`. -/
def nv : BitVec 7 := 16#7
/-- The sign S, the exponent EXP and the significand SIG of a pattern (R113). -/
def negative (w : Word) : Bool := w.getLsbD 63
/-- See `negative`. -/
def expOf (w : Word) : Nat := w.toNat / 2 ^ 53 % 1024
/-- See `negative`. -/
def sigOf (w : Word) : Nat := w.toNat % 2 ^ 53
/-- The classes of R114: a finite number, a zero, an infinity, a NaN, a signalling NaN. -/
abbrev finite (w : Word) : Prop := expOf w < 1023
/-- See `finite`. -/
abbrev isZero (w : Word) : Prop := finite w ∧ sigOf w = 0
/-- See `finite`. -/
abbrev isInf (w : Word) : Prop := expOf w = 1023 ∧ sigOf w = 2 ^ 52
/-- See `finite`. -/
abbrev isNaN (w : Word) : Prop := expOf w = 1023 ∧ sigOf w ≠ 2 ^ 52
/-- See `finite`. -/
abbrev signals (w : Word) : Prop := isNaN w ∧ w.getLsbD 51 = false
/-- A finite pattern is canonical (R114). -/
abbrev canonical (w : Word) : Prop := if expOf w = 0 then sigOf w < 2 ^ 52 else 2 ^ 52 ≤ sigOf w
/-- The value of a finite pattern in units of 2^−562 (R114). -/
def units (w : Word) : Int := (if negative w then -1 else 1) * ((sigOf w * 2 ^ (expOf w - 1) : Nat) : Int)
/-- ±∞ and ±0. -/
def infinity (neg : Bool) : Word := if neg then 0xFFF0000000000000#64 else 0x7FF0000000000000#64
/-- See `infinity`. -/
def zero (neg : Bool) : Word := if neg then 0x8000000000000000#64 else 0#64
/-- The pattern with the other sign. -/
def opposite (w : Word) : Word := w ^^^ 0x8000000000000000#64
/-- A magnitude of k · 2^q units as a result of a sign (R115, R116): its canonical encoding, or ∞ above the largest finite value;
`exact` says that it is the exact magnitude and `tiny` that this lies below 2^−510. -/
def delivers (neg : Bool) (k q : Nat) (exact tiny : Bool) (r : Word × BitVec 7) : Prop :=
  if 2 ^ 1074 ≤ k * 2 ^ q then r = (infinity neg, of_ ||| nx)
  else finite r.1 ∧ canonical r.1 ∧ negative r.1 = neg ∧ (units r.1).natAbs = k * 2 ^ q ∧
    r.2 = if exact then 0 else if tiny then nx ||| uf else nx
/-- `round_wf64` of a nonzero N / D units (R116): to nearest with ties to even, on 53 bits or, below 2^−510, on whole units. -/
def rounds (N : Int) (D : Nat) (r : Word × BitVec 7) : Prop :=
  let M := N.natAbs
  ∃ q k : Nat, (q = 0 ∨ 2 ^ (52 + q) * D ≤ M) ∧ M < 2 ^ (53 + q) * D ∧ 2 * M ≤ (2 * k + 1) * (D * 2 ^ q) ∧
    2 * k * (D * 2 ^ q) ≤ 2 * M + D * 2 ^ q ∧
    (2 * M = (2 * k + 1) * (D * 2 ^ q) ∨ 2 * k * (D * 2 ^ q) = 2 * M + D * 2 ^ q → k % 2 = 0) ∧
    delivers (decide (N < 0)) k q (decide (k * 2 ^ q * D = M)) (decide (M < 2 ^ 52 * D)) r
/-- What an operand that is a NaN comes to (R246). -/
def nanRule (ops : List Word) (r : Word × BitVec 7) : Prop :=
  ((∃ w ∈ ops, signals w) → r = (quietNaN, nv)) ∧ ((∀ w ∈ ops, ¬signals w) → r = (quietNaN, 0))

/-- FADD and FSUB (R116, R246). -/
def addRule : Prop :=
  (∀ a b : Word, isNaN a ∨ isNaN b → nanRule [a, b] (fadd a b)) ∧
  (∀ a b : Word, isInf a → isInf b → fadd a b = if negative a = negative b then (infinity (negative a), 0) else (quietNaN, nv)) ∧
  (∀ a b : Word, isInf a → finite b → fadd a b = (infinity (negative a), 0) ∧ fadd b a = (infinity (negative a), 0)) ∧
  (∀ a b : Word, finite a → finite b → units a + units b = 0 →
    fadd a b = (zero (decide (isZero a ∧ isZero b ∧ negative a = true ∧ negative b = true)), 0)) ∧
  (∀ a b : Word, finite a → finite b → units a + units b ≠ 0 → rounds (units a + units b) 1 (fadd a b)) ∧
  (∀ a b : Word, fsub a b = fadd a (opposite b))
/-- FMUL (R116, R246). -/
def mulRule : Prop :=
  (∀ a b : Word, isNaN a ∨ isNaN b → nanRule [a, b] (fmul a b)) ∧
  (∀ a b : Word, isZero a → isInf b → fmul a b = (quietNaN, nv) ∧ fmul b a = (quietNaN, nv)) ∧
  (∀ a b : Word, isInf a → ¬isNaN b → ¬isZero b →
    fmul a b = (infinity (negative a != negative b), 0) ∧ fmul b a = (infinity (negative a != negative b), 0)) ∧
  (∀ a b : Word, finite a → finite b → (isZero a ∨ isZero b) → fmul a b = (zero (negative a != negative b), 0)) ∧
  (∀ a b : Word, finite a → finite b → ¬isZero a → ¬isZero b → rounds (units a * units b) (2 ^ 562) (fmul a b))
/-- FMA and FNMA (R116, R247): the product is never rounded on its own. -/
def fmaRule : Prop :=
  (∀ a b c : Word, signals a ∨ signals b ∨ signals c → fma a b c = (quietNaN, nv)) ∧
  (∀ a b c : Word, isZero a ∧ isInf b ∨ isInf a ∧ isZero b → fma a b c = (quietNaN, nv)) ∧
  (∀ a b c : Word, ¬signals a → ¬signals b → ¬signals c → ¬(isZero a ∧ isInf b ∨ isInf a ∧ isZero b) → isNaN a ∨ isNaN b ∨ isNaN c →
    fma a b c = (quietNaN, 0)) ∧
  (∀ a b c : Word, ¬isNaN a → ¬isNaN b → ¬isNaN c → ¬(isZero a ∧ isInf b ∨ isInf a ∧ isZero b) → isInf a ∨ isInf b →
    let n := negative a != negative b
    fma a b c = if isInf c ∧ negative c ≠ n then (quietNaN, nv) else (infinity n, 0)) ∧
  (∀ a b c : Word, finite a → finite b → isInf c → fma a b c = (infinity (negative c), 0)) ∧
  (∀ a b c : Word, finite a → finite b → finite c →
    let N := units a * units b + units c * 2 ^ 562
    (N = 0 → fma a b c = (zero (decide ((isZero a ∨ isZero b) ∧ isZero c ∧ (negative a != negative b) = true ∧ negative c = true)), 0)) ∧
    (N ≠ 0 → rounds N (2 ^ 562) (fma a b c))) ∧
  (∀ a b c : Word, fnma a b c = fma (opposite a) b c)
/-- FDIV (R116, R248). -/
def divRule : Prop :=
  (∀ a b : Word, isNaN a ∨ isNaN b → nanRule [a, b] (fdiv a b)) ∧
  (∀ a b : Word, isZero a ∧ isZero b ∨ isInf a ∧ isInf b → fdiv a b = (quietNaN, nv)) ∧
  (∀ a b : Word, isInf a → finite b → fdiv a b = (infinity (negative a != negative b), 0)) ∧
  (∀ a b : Word, (finite a ∧ isInf b ∨ isZero a ∧ finite b ∧ ¬isZero b) → fdiv a b = (zero (negative a != negative b), 0)) ∧
  (∀ a b : Word, finite a → ¬isZero a → isZero b → fdiv a b = (infinity (negative a != negative b), dz)) ∧
  (∀ a b : Word, finite a → finite b → ¬isZero a → ¬isZero b →
    rounds ((if negative a != negative b then -1 else 1) * ((units a).natAbs * 2 ^ 562 : Nat)) (units b).natAbs (fdiv a b))
/-- FSQRT (R116, R248): in units the exact root of V units is √(V · 2^562), and no root lies in the middle between two results. -/
def sqrtRule : Prop :=
  (∀ a : Word, isNaN a → nanRule [a] (fsqrt a)) ∧
  (∀ a : Word, isZero a → fsqrt a = (zero (negative a), 0)) ∧
  (∀ a : Word, ¬isNaN a → ¬isZero a → negative a = true → fsqrt a = (quietNaN, nv)) ∧
  (∀ a : Word, isInf a → negative a = false → fsqrt a = (infinity false, 0)) ∧
  (∀ a : Word, finite a → ¬isZero a → negative a = false →
    let M := (units a).natAbs * 2 ^ 562
    ∃ q k : Nat, 2 ^ (52 + q) * 2 ^ (52 + q) ≤ M ∧ M < 2 ^ (53 + q) * 2 ^ (53 + q) ∧ 4 * M < ((2 * k + 1) * 2 ^ q) * ((2 * k + 1) * 2 ^ q) ∧
      (2 * k * 2 ^ q - 2 ^ q) * (2 * k * 2 ^ q - 2 ^ q) < 4 * M ∧
      delivers false k q (decide (k * 2 ^ q * (k * 2 ^ q) = M)) false (fsqrt a))
/-- The place of a number that is no NaN among the others: its units, infinities beyond all. -/
def place (w : Word) : Int := if expOf w = 1023 then (if negative w then -(2 ^ 2000 : Int) else 2 ^ 2000) else units w
/-- The canonical encoding of the value of a pattern that is no NaN. -/
def encodes (r w : Word) : Prop :=
  (isInf w ∧ r = infinity (negative w)) ∨ (finite w ∧ finite r ∧ canonical r ∧ units r = units w ∧ negative r = negative w)
/-- FMIN and FMAX (R249). -/
def minMaxRule : Prop :=
  ∀ (mx : Bool) (a b : Word),
    ((signals a ∨ signals b) → (fminmax mx a b).2 = nv) ∧ (¬signals a → ¬signals b → (fminmax mx a b).2 = 0) ∧
    (isNaN a → isNaN b → (fminmax mx a b).1 = quietNaN) ∧
    (isNaN a → ¬isNaN b → encodes (fminmax mx a b).1 b) ∧ (¬isNaN a → isNaN b → encodes (fminmax mx a b).1 a) ∧
    (¬isNaN a → ¬isNaN b →
      let below := place a < place b ∨ (place a = place b ∧ negative a = true ∧ negative b = false)
      (below → encodes (fminmax mx a b).1 (if mx then b else a)) ∧ (¬below → encodes (fminmax mx a b).1 (if mx then a else b)))
/-- The compares of WF64 (R252). -/
def compareRule : Prop :=
  ∀ a b : Word,
    let ordered := ¬isNaN a ∧ ¬isNaN b
    (((fcmp 0 a b).1 = true) ↔ ordered ∧ place a = place b) ∧ (((fcmp 1 a b).1 = true) ↔ ordered ∧ place a < place b) ∧
    (((fcmp 2 a b).1 = true) ↔ ordered ∧ place a ≤ place b) ∧ (((fcmp 3 a b).1 = true) ↔ ¬ordered) ∧
    (∀ m, m = 0 ∨ m = 3 → ((signals a ∨ signals b) → (fcmp m a b).2 = nv) ∧ (¬signals a → ¬signals b → (fcmp m a b).2 = 0)) ∧
    (∀ m, m = 1 ∨ m = 2 → (¬ordered → (fcmp m a b).2 = nv) ∧ (ordered → (fcmp m a b).2 = 0))

/-- A row with n operands completes on scalars: the function's value goes to the targets, its flags are raised, and nothing
else happens. -/
def Row.scalars (r : Row) (n : Nat) : Prop :=
  ∀ (i : Nat) (p : Pr) (t u : Target) (s : State) (c : Fire) (x y z : Word), s.view p = some c → c.mask = false →
    c.left = .scalar x → (2 ≤ n → c.right = .scalar y) → (3 ≤ n → c.third = .scalar z) →
    exec (r.instr false i p t u) s = .next (c.after r.cls (r.targets t u) (.scalar (r.fn i x y z).1) (r.fn i x y z).2)

/-- The operands of a row with n operands. -/
def operands (n : Nat) (c : Fire) : List Token := [c.left, c.right, c.third].take n

/-- A row with n operands completes on data with a vector among them (R83, R218): a lane that is null in an operand or that
the predicate disables is null, the others hold the function's value, and only they raise flags. -/
def Row.vectors (r : Row) (n : Nat) : Prop :=
  ∀ (i : Nat) (p : Pr) (t u : Target) (s : State) (c : Fire), s.view p = some c → computes (operands n c) = true →
    let value (j : Nat) : Word × BitVec 7 := r.fn i (c.left.lane j) (c.right.lane j) (c.third.lane j)
    let fl := laneList.foldl (fun a j => if c.absent (operands n c) j then a else a ||| (value j).2) 0
    ∃ (w : Vec) (nulls : BitVec 8), exec (r.instr true i p t u) s = .next (c.after (wide r.cls) (r.targets t u) (.vector w nulls) fl) ∧
      ∀ j < 8, maskBit nulls j = c.absent (operands n c) j ∧ w.get j = if c.absent (operands n c) j then 0 else (value j).1

/-- What a row with n operands does not accept (R82, R83, R196): an operand that is neither scalar nor vector, a lane-mask
predicate over scalars, and a V that the operands do not meet. -/
def Row.rejects (r : Row) (n : Nat) : Prop :=
  ∀ (v : Bool) (i : Nat) (p : Pr) (t u : Target) (s : State) (c : Fire), s.view p = some c →
    (operands n c).all (fun x => !x.isNull) = true →
    ((operands n c).any (fun x => !x.isData) = true ∨ (c.mask = true ∧ (operands n c).any Token.isVector = false) ∨
      (r.two = true ∧ v ≠ (operands n c).any Token.isVector)) →
    exec (r.instr v i p t u) s = .next (c.faulted r.cls .operandType 0 0)

end Sys2Proof.Claims

open Sys2Proof.Claims

/-! ## Integer, address and compare instructions -/

/-- R230 to R236: every integer and address instruction completes on scalars with the value of the spec. -/
def Obligations.IntegerOnScalars : Prop := (∀ r ∈ integerPairs, r.scalars 2) ∧ (∀ r ∈ integerSingles, r.scalars 1)
/-- R218, R83, R82: integer instructions compute lane by lane; null and disabled lanes are null; operands that they do not
accept are the operand-type fault. -/
def Obligations.IntegerLaneWise : Prop :=
  (∀ r ∈ integerPairs, r.vectors 2 ∧ r.rejects 2) ∧ (∀ r ∈ integerSingles, r.vectors 1 ∧ r.rejects 1)
/-- R235: LEA, on scalars and lane by lane; the space of the address is neither checked nor kept. -/
def Obligations.LeaIsShiftedSum : Prop := ∀ r ∈ leaRow, r.scalars 2 ∧ r.vectors 2
/-- R232: the four minors of DIV, with the divisor zero and without, on scalars and lane by lane. -/
def Obligations.Division : Prop := ∀ r ∈ divisions, r.scalars 2 ∧ r.vectors 2
/-- R201, R202: compact arithmetic completes on scalars, and takes the operand-type fault where an operand is a vector or another
token that is no scalar, NOT and NEG too; the compact NOP fires and does nothing. -/
def Obligations.CompactArithmetic : Prop :=
  (∀ r ∈ compactPairs, ∀ (t : Target) (s : State) (c : Fire) (a b : Word), s.view .always = some c →
    c.left = .scalar a → c.right = .scalar b →
    exec (r t).1 s = .next (c.after (r t).2.1 [t] (.scalar ((r t).2.2 a b).1) ((r t).2.2 a b).2)) ∧
  (∀ (t : Target) (s : State) (c : Fire) (a : Word), s.view .always = some c → c.left = .scalar a →
    exec (.not t) s = .next (c.after 1 [t] (.scalar (~~~a))) ∧ exec (.neg t) s = .next (c.after 1 [t] (.scalar (-a)))) ∧
  (∀ r ∈ compactPairs, ∀ (t : Target) (s : State) (c : Fire), s.view .always = some c → c.left ≠ .null → c.right ≠ .null →
    (c.left.isScalar = false ∨ c.right.isScalar = false) → exec (r t).1 s = .next (c.faulted (r t).2.1 .operandType 0 0)) ∧
  (∀ (t : Target) (s : State) (c : Fire), s.view .always = some c → c.left ≠ .null → c.left.isScalar = false →
    exec (.not t) s = .next (c.faulted 1 .operandType 0 0) ∧ exec (.neg t) s = .next (c.faulted 1 .operandType 0 0)) ∧
  (∀ (s : State) (f : Flight) (ix : Nat), s.flight s.focus = some f → f.cursor = some ix →
    exec .compactNop s = .next { s with flights := AMap.ins s.focus { f with stat := AMap.ins ix .fired f.stat } s.flights })
/-- R233: the integer compares, with two operands and with an immediate. -/
def Obligations.IntegerCompares : Prop :=
  (∀ r ∈ compares, comparesScalars r ∧ comparesVectors r) ∧
  (∀ r ∈ immediateCompares, ∀ (p : Pr) (i : BitVec 12) (t : Target) (s : State) (c : Fire), s.view p = some c →
    (∀ a : Word, c.mask = false → c.left = .scalar a →
      exec (r.1 p i t) s = .next (c.after 1 [t] (.scalar (if r.2 a (i.signExtend 64) then 1 else 0)))) ∧
    (computes [c.left] = true →
      ∃ m : BitVec 8, exec (r.1 p i t) s = .next (c.after 5 [t] (.mask m)) ∧
        ∀ j < 8, maskBit m j = (!c.absent [c.left] j && r.2 (c.left.lane j) (i.signExtend 64))))
/-- R252: the compares of WF64, and when each of them holds and raises NV. -/
def Obligations.FloatCompares : Prop := (∀ r ∈ floatCompares, comparesScalars r ∧ comparesVectors r) ∧ compareRule

/-! ## Floating point -/

/-- R246 to R256: every floating-point instruction completes on scalars; R116, R246 to R249: what FADD, FSUB, FMUL, FMA, FNMA, FDIV,
FSQRT, FMIN and FMAX deliver and the flags that they raise, by the exact values of their operands. -/
def Obligations.FloatOnScalars : Prop :=
  (∀ r ∈ floatSingles, r.scalars 1) ∧ (∀ r ∈ floatPairs, r.scalars 2) ∧ (∀ r ∈ floatTriples, r.scalars 3) ∧
    addRule ∧ mulRule ∧ fmaRule ∧ divRule ∧ sqrtRule ∧ minMaxRule
/-- R245, R82: floating-point instructions compute lane by lane; operands that they do not accept are the operand-type
fault. -/
def Obligations.FloatLaneWise : Prop :=
  (∀ r ∈ floatSingles, r.vectors 1 ∧ r.rejects 1) ∧ (∀ r ∈ floatPairs, r.vectors 2 ∧ r.rejects 2) ∧
    (∀ r ∈ floatTriples, r.vectors 3 ∧ r.rejects 3)

/-! ## Registers, plumbing and status -/

/-- R86, R99, R220: READ delivers the register's value at block start; s0 reads as zero. -/
def Obligations.ReadDeliversRegister : Prop :=
  (∀ (r : Reg) (t : Target) (s : State) (c : Fire), s.view .always = some c → c.stream r = none → c.set.pending r = false →
    exec (.read r t) s = .next (c.after 0 [t] (match r with
      | .s n => .scalar (if n = 0 then 0 else AMap.get 0 n.toNat c.set.regs.s)
      | .v n => .vector (AMap.get Vec.zero n.toNat c.set.regs.v) 0
      | .ox n => .scalar (AMap.get 0 n.toNat c.set.regs.ox)))) ∧
  (∀ (r : Reg) (t : Target) (s : State) (c : Fire) (k : Nat) (z : Slot) (v : Vec) (nulls : BitVec 8) (fl : BitVec 7) (m : Nat),
    s.view .always = some c → c.stream r = some (k, z) → z.desc.out = false →
    z.ready[AMap.get 0 c.ix c.fl.pops % 64]? = some (v, nulls, fl, m) → m / 16 % 4 = 0 →
    exec (.read r t) s = .next (c.after 0 [t] (.vector v nulls) fl (some (.popped k 1))))
/-- R221, R102: WRITE keeps its token for the commit; a token of the wrong type is the operand-type fault, and a write to an
input stream the stream-direction fault. -/
def Obligations.WriteKeepsToken : Prop :=
  ∀ (r : Reg) (s : State) (c : Fire), s.view .always = some c → c.left ≠ .null →
    let fits := match r with | .v _ => c.left.isVector | _ => c.left.isScalar
    (fits = true → (∀ k z, c.stream r = some (k, z) → z.desc.out = true) →
      exec (.write r) s = .next (c.after 0 [] .completion 0 (some (.wr r c.left)))) ∧
    (fits = true → ∀ k z, c.stream r = some (k, z) → z.desc.out = false →
      exec (.write r) s = .next (c.faulted 0 .streamDirection 0 0)) ∧
    (fits = false → exec (.write r) s = .next (c.faulted 0 .operandType 0 0))
/-- R222, R202, R196, R217: MOV passes a token of any type on, a completion token too, NULL delivers null, MOVI its sign-extended immediate; a V that the operand
does not meet is the operand-type fault. -/
def Obligations.MovNullMovi : Prop :=
  (∀ (p : Pr) (t u : Target) (s : State) (c : Fire), s.view p = some c → c.mask = false → c.left ≠ .null →
    exec (.mov p c.left.isVector t u) s = .next (c.after 0 [t, u] c.left) ∧
    exec (.null p c.left.isVector t u) s = .next (c.after 0 [t, u] .null) ∧
    exec (.mov p (!c.left.isVector) t u) s = .next (c.faulted 0 .operandType 0 0) ∧
    exec (.null p (!c.left.isVector) t u) s = .next (c.faulted 0 .operandType 0 0)) ∧
  (∀ (t : Target) (s : State) (c : Fire), s.view .always = some c → c.left ≠ .null →
    exec (.compactMov t) s = .next (c.after 0 [t] c.left) ∧ exec (.compactNull t) s = .next (c.after 0 [t] .null)) ∧
  (∀ (p : Pr) (i : BitVec 12) (t : Target) (s : State) (c : Fire), s.view p = some c → c.mask = false →
    exec (.movi p i t) s = .next (c.after 0 [t] (.scalar (i.signExtend 64))))
/-- R223, R224: SEL delivers its left operand where the third operand is nonzero or set, else its right operand, and a null lane where
a vector that selects is null; a lane-mask predicate without a vector operand is the operand-type fault (R83); JOIN delivers
the operand that is not null, of two values the left one, of two vectors the left with its null lanes filled from the right, and
of a vector and a scalar the vector filled with the scalar; a completion token gives way to a value; two nulls null it; a vector
with a lane mask, and a V that the delivered token does not meet, are the operand-type fault. -/
def Obligations.SelAndJoin : Prop :=
  (∀ (p : Pr) (t u : Target) (s : State) (c : Fire) (w : Word), s.view p = some c → c.mask = false →
    c.left.isValue = true → c.right.isValue = true → c.third = .scalar w →
    let x := if w = 0 then c.right else c.left
    exec (.sel p x.isVector t u) s = .next (c.after 0 [t, u] x)) ∧
  (∀ (p : Pr) (t u : Target) (s : State) (c : Fire) (m : BitVec 8), s.view p = some c → c.left.isData = true →
    c.right.isData = true → c.third = .mask m → (c.mask = true → c.left.isVector = true ∨ c.right.isVector = true) →
    ∃ (w : Vec) (nulls : BitVec 8), exec (.sel p true t u) s = .next (c.after 0 [t, u] (.vector w nulls)) ∧
      ∀ j < 8, let x := if maskBit m j then c.left else c.right
        maskBit nulls j = (x.laneNull j || !maskBit c.en j) ∧ (maskBit nulls j = false → w.get j = x.lane j)) ∧
  (∀ (p : Pr) (v : Bool) (t u : Target) (s : State) (c : Fire) (m : BitVec 8), s.view p = some c → c.left.isScalar = true →
    c.right.isScalar = true → c.third = .mask m → c.mask = true →
    exec (.sel p v t u) s = .next (c.faulted 0 .operandType 0 0)) ∧
  (∀ (p : Pr) (t u : Target) (s : State) (c : Fire) (y : Vec) (n : BitVec 8), s.view p = some c → c.left.isData = true →
    c.right.isData = true → c.third = .vector y n →
    ∃ (w : Vec) (nulls : BitVec 8), exec (.sel p true t u) s = .next (c.after 0 [t, u] (.vector w nulls)) ∧
      ∀ j < 8, let x := if y.get j = 0 then c.right else c.left
        maskBit nulls j = (maskBit n j || x.laneNull j || !maskBit c.en j) ∧ (maskBit nulls j = false → w.get j = x.lane j)) ∧
  (∀ (p : Pr) (t u : Target) (s : State) (c : Fire) (x : Token), s.view p = some c → c.mask = false → x ≠ .null →
    (c.left = .null ∧ c.right = x ∨ c.left = x ∧ c.right = .null) →
    exec (.join p x.isVector t u) s = .next (c.after 0 [t, u] x) ∧
    exec (.join p (!x.isVector) t u) s = .next (c.faulted 0 .operandType 0 0)) ∧
  (∀ (t : Target) (s : State) (c : Fire) (x : Token), s.view .always = some c → x ≠ .null →
    (c.left = .null ∧ c.right = x ∨ c.left = x ∧ c.right = .null) →
    exec (.compactJoin t) s = .next (c.after 0 [t] x)) ∧
  (∀ (p : Pr) (t u : Target) (s : State) (c : Fire) (v w : Vec) (m n : BitVec 8), s.view p = some c →
    c.left = .vector v m → c.right = .vector w n →
    ∃ (x : Vec) (nulls : BitVec 8), exec (.join p true t u) s = .next (c.after 0 [t, u] (.vector x nulls)) ∧
      ∀ j < 8, maskBit nulls j = ((maskBit m j && maskBit n j) || !maskBit c.en j) ∧
        (maskBit nulls j = false → x.get j = if maskBit m j then w.get j else v.get j)) ∧
  (∀ (p : Pr) (v : Bool) (t u : Target) (s : State) (c : Fire), s.view p = some c → c.left = .null → c.right = .null →
    exec (.join p v t u) s = .next (s.nulled c.fl c.ix 0 [t, u] .null)) ∧
  (∀ (p : Pr) (t u : Target) (s : State) (c : Fire), s.view p = some c → c.mask = false → c.left.isValue = true → c.left.isVector = false →
    c.right.isValue = true → c.right.isVector = false →
    exec (.join p false t u) s = .next (c.after 0 [t, u] c.left)) ∧
  (∀ (p : Pr) (t u : Target) (s : State) (c : Fire) (v : Vec) (m : BitVec 8) (w : Word), s.view p = some c →
    (c.left = .vector v m ∧ c.right = .scalar w ∨ c.left = .scalar w ∧ c.right = .vector v m) →
    ∃ (x : Vec) (nulls : BitVec 8), exec (.join p true t u) s = .next (c.after 0 [t, u] (.vector x nulls)) ∧
      ∀ j < 8, maskBit nulls j = !maskBit c.en j ∧ (maskBit nulls j = false → x.get j = if maskBit m j then w else v.get j)) ∧
  (∀ (p : Pr) (t u : Target) (s : State) (c : Fire) (x : Token), s.view p = some c → c.mask = false → x.isValue = true ∨ x = .completion →
    (c.left = .completion ∧ c.right = x ∨ c.left = x ∧ c.right = .completion) →
    exec (.join p x.isVector t u) s = .next (c.after 0 [t, u] x)) ∧
  (∀ (p : Pr) (v : Bool) (t u : Target) (s : State) (c : Fire) (x : Vec) (n m : BitVec 8), s.view p = some c →
    (c.left = .vector x n ∧ c.right = .mask m ∨ c.left = .mask m ∧ c.right = .vector x n) →
    exec (.join p v t u) s = .next (c.faulted 0 .operandType 0 0))
/-- R225, R226, R86: SETX replaces the masked bits of an ox register's value at block start by the shifted operand, GETX shifts such a value down
or delivers BLR. -/
def Obligations.SetxGetx : Prop :=
  ∀ (p : Pr) (n : BitVec 4) (pos : BitVec 6) (t : Target) (s : State) (c : Fire), s.view p = some c → c.mask = false →
    (∀ v m : Word, c.left = .scalar v → c.right = .scalar m →
      exec (.setx p n pos t) s = .next (c.after 0 [t] (.scalar ((AMap.get 0 n.toNat c.fl.snap.ox &&& ~~~m) ||| ((v <<< pos.toNat) &&& m))))) ∧
    (c.set.pending (.ox (n.setWidth 2)) = false →
      exec (.getx p n pos t) s = .next (c.after 0 [t] (.scalar (AMap.get 0 n.toNat c.set.regs.ox >>> pos.toNat)))) ∧
    exec (.getxBlr p t) s = .next (c.after 0 [t] (.scalar c.set.regs.blr))
/-- R106, R107, R227: what each STAT delivers; only CYCLE is sampled when it fires, the others are those of block start. -/
def Obligations.StatDelivers : Prop :=
  ∀ (p : Pr) (t : Target) (s : State) (c : Fire), s.view p = some c → c.mask = false →
    let gives (i : Instr) (w : Word) : Prop := exec i s = .next (c.after 0 [t] (.scalar w))
    gives (.statCoord p t) (word c.tileRec.coord) ∧ gives (.statTsid p t) (word (c.k % 4)) ∧
    gives (.statStage p t) (word (field c.h0 32 7)) ∧ gives (.statSeq p t) (word (field c.h0 0 32)) ∧
    gives (.statCycle p t) (word c.tileRec.cycle) ∧ gives (.statTlcce p t) (word c.fl.snap.ce) ∧
    gives (.statTlcme p t) (word c.fl.snap.me) ∧ gives (.statFlags p t) c.fl.snap.flags ∧
    gives (.statMexc p t) c.fl.snap.mexc ∧ gives (.statEnergy p t) (c.fl.snap.energy &&& 0x8000FFFFFFFFFFFF#64)
/-- R228, R89: STATW is kept for the commit; there it clears the flags and counters it names before the block's flags are
merged, and sets the defaults DRM and DSAT after, those of the highest-indexed STATW that sets them. -/
def Obligations.StatwAtCommit : Prop :=
  (∀ (p : Pr) (cf cm sd : Bool) (drm : BitVec 2) (dsat : Bool) (s : State) (c : Fire), s.view p = some c → c.mask = false →
    exec (.statw p cf cm sd drm dsat) s = .next (c.after 0 [] .completion 0 (some (.statw cf cm sd drm.toNat dsat)))) ∧
  (∀ (x : Regs) (f : Flight) (ix : Nat) (fl : BitVec 7) (cf cm sd : Bool) (drm : BitVec 2) (dsat : Bool),
    f.effs = [(ix, .statw cf cm sd drm.toNat dsat)] →
    let y := x.commitFlags f fl
    (∀ n, n < 7 → bitAt y.flags n = (fl.getLsbD n || (!cf && bitAt x.flags n))) ∧
    (cm = true → y.mexc = 0) ∧ (cm = false → y.mexc = x.mexc) ∧ y.s = x.s ∧ y.v = x.v ∧ y.ox = x.ox ∧ y.bpc = x.bpc ∧ y.blr = x.blr ∧
    field y.flags 16 2 = (if sd then drm.toNat else field x.flags 16 2) ∧ bitAt y.flags 18 = (if sd then dsat else bitAt x.flags 18) ∧
    (∀ n, 7 ≤ n → n < 64 → n ≠ 16 → n ≠ 17 → n ≠ 18 → bitAt y.flags n = bitAt x.flags n)) ∧
  (∀ (x : Regs) (f : Flight) (i j : Nat) (fl : BitVec 7) (cf cm sd cf' cm' : Bool) (drm drm' : BitVec 2) (dsat dsat' : Bool),
    f.effs = [(i, .statw cf cm sd drm.toNat dsat), (j, .statw cf' cm' true drm'.toNat dsat')] →
    let y := x.commitFlags f fl
    (∀ n, n < 7 → bitAt y.flags n = (fl.getLsbD n || (!(cf || cf') && bitAt x.flags n))) ∧ y.mexc = (if cm || cm' then 0 else x.mexc) ∧
    field y.flags 16 2 = drm'.toNat ∧ bitAt y.flags 18 = dsat')
/-! ## Vectors -/

/-- R258: VBCAST, VEXTR and VINS; VBCAST takes no V. -/
def Obligations.LaneInAndOut : Prop :=
  (∀ (p : Pr) (t u : Target) (s : State) (c : Fire) (w : Word), s.view p = some c → c.mask = false → c.left = .scalar w →
    exec (.vbcast p false t u) s = .next (c.after 5 [t, u] (.vector ⟨w, w, w, w, w, w, w, w⟩ 0)) ∧
    exec (.vbcast p true t u) s = .next (c.faulted 5 .operandType 0 0)) ∧
  (∀ (p : Pr) (k : BitVec 3) (t : Target) (s : State) (c : Fire) (v : Vec) (n : BitVec 8), s.view p = some c → c.mask = false →
    c.left = .vector v n →
    exec (.vextr p k t) s = .next (c.after 5 [t] (if maskBit n k.toNat then .null else .scalar (v.get k.toNat)))) ∧
  (∀ (p : Pr) (k : BitVec 3) (t : Target) (s : State) (c : Fire) (v : Vec) (n : BitVec 8) (w : Word), s.view p = some c →
    c.left = .vector v n → c.right = .scalar w →
    ∃ (x : Vec) (nulls : BitVec 8), exec (.vins p k t) s = .next (c.after 5 [t] (.vector x nulls)) ∧
      ∀ j < 8, maskBit nulls j = ((decide (j ≠ k.toNat) && maskBit n j) || !maskBit c.en j) ∧
        (maskBit nulls j = false → x.get j = if j = k.toNat then w else v.get j))
/-- R259, R260, R261: VSHUF picks lanes by index, VSLIDE moves lanes across the two operands, VCOMP packs the lanes that a mask
names; a lane that the predicate disables is null (R257). VSHUF and VCOMP want V. -/
def Obligations.LaneMoves : Prop :=
  ∀ (p : Pr) (s : State) (c : Fire) (v : Vec) (n : BitVec 8), s.view p = some c → c.left = .vector v n →
    (∀ t u : Target, c.right ≠ .null →
      exec (.vshuf p false t u) s = .next (c.faulted 5 .operandType 0 0) ∧ exec (.vcomp p false t u) s = .next (c.faulted 5 .operandType 0 0)) ∧
    (∀ t u : Target, c.right.isData = true →
      ∃ (x : Vec) (nulls : BitVec 8), exec (.vshuf p true t u) s = .next (c.after 5 [t, u] (.vector x nulls)) ∧
        ∀ j < 8, let i := (c.right.lane j).toNat % 8
          maskBit nulls j = (c.right.laneNull j || maskBit n i || !maskBit c.en j) ∧ (maskBit nulls j = false → x.get j = v.get i)) ∧
    (∀ (k : BitVec 12) (t : Target), c.right.isData = true →
      ∃ (x : Vec) (nulls : BitVec 8), exec (.vslide p k t) s = .next (c.after 5 [t] (.vector x nulls)) ∧
        (∀ j < 8, maskBit c.en j = false → maskBit nulls j = true) ∧ ∀ j < 8, maskBit c.en j = true →
          let i := (j : Int) + k.toInt
          (0 ≤ i → i ≤ 7 → maskBit nulls j = maskBit n i.toNat ∧ (maskBit nulls j = false → x.get j = v.get i.toNat)) ∧
          (8 ≤ i → i ≤ 15 → maskBit nulls j = c.right.laneNull (i - 8).toNat ∧ (maskBit nulls j = false → x.get j = c.right.lane (i - 8).toNat)) ∧
          (-8 ≤ i → i < 0 → maskBit nulls j = c.right.laneNull (i + 8).toNat ∧ (maskBit nulls j = false → x.get j = c.right.lane (i + 8).toNat)) ∧
          (i < -8 ∨ 15 < i → maskBit nulls j = true)) ∧
    (∀ (m : BitVec 8) (t u : Target), c.right = .mask m →
      let kept := (List.range 8).filter fun i => maskBit m i && !maskBit n i
      ∃ (x : Vec) (nulls : BitVec 8), exec (.vcomp p true t u) s = .next (c.after 5 [t, u] (.vector x nulls)) ∧
        (∀ j < 8, maskBit c.en j = false → maskBit nulls j = true) ∧ ∀ j < 8, maskBit c.en j = true → match kept[j]? with
          | some i => maskBit nulls j = false ∧ x.get j = v.get i
          | none => maskBit nulls j = true)
/-- R265. -/
def Obligations.VidxIsBasePlusMultiple : Prop :=
  (∀ (p : Pr) (i : BitVec 12) (t : Target) (s : State) (c : Fire) (b : Word), s.view p = some c → c.mask = false → c.left = .scalar b →
    ∃ x : Vec, exec (.vidx p i t) s = .next (c.after 5 [t] (.vector x 0)) ∧
      ∀ j < 8, x.get j = BitVec.ofInt 64 (b.toInt + (j : Int) * i.toInt)) ∧
  (∀ (p : Pr) (i : BitVec 12) (t : Target) (s : State) (c : Fire), s.view p = some c → c.mask = true → c.left ≠ .null →
    exec (.vidx p i t) s = .next (c.faulted 5 .operandType 0 0))
/-- R264: lane masks. -/
def Obligations.LaneMasks : Prop :=
  ∀ (p : Pr) (t : Target) (s : State) (c : Fire), s.view p = some c → c.mask = false →
    (∀ m n : BitVec 8, c.left = .mask m → c.right = .mask n →
      exec (.mand p t) s = .next (c.after 5 [t] (.mask (m &&& n))) ∧ exec (.mor p t) s = .next (c.after 5 [t] (.mask (m ||| n)))) ∧
    (∀ m : BitVec 8, c.left = .mask m →
      exec (.mnot p t) s = .next (c.after 5 [t] (.mask (~~~m))) ∧
      exec (.mpopc p t) s = .next (c.after 5 [t] (.scalar (BitVec.ofNat 64 ((List.range 8).countP m.getLsbD)))) ∧
      exec (.mfirst p t) s = .next (c.after 5 [t] (.scalar (BitVec.ofNat 64 (((List.range 8).find? m.getLsbD).getD 8)))) ∧
      exec (.mtos p t) s = .next (c.after 5 [t] (.scalar (m.setWidth 64)))) ∧
    (∀ w : Word, c.left = .scalar w → exec (.mfroms p t) s = .next (c.after 5 [t] (.mask (w.setWidth 8))))

namespace Sys2Proof.Claims

/-- Reductions (R262): the constructor, the combination and what makes the result canonical. -/
def reductions : List ((Pr → Target → Instr) × (Word → Word → Word × BitVec 7) × (Word → Word)) := [
  (fun p t => .vredSum p t, fun a b => (a + b, 0), id),
  (fun p t => .vredFsum p t, fadd, canon),
  (fun p t => .vredMin p t, fun a b => (if a.toInt ≤ b.toInt then a else b, 0), id),
  (fun p t => .vredMax p t, fun a b => (if a.toInt ≤ b.toInt then b else a, 0), id),
  (fun p t => .vredFmin p t, fminmax false, canon),
  (fun p t => .vredFmax p t, fminmax true, canon),
  (fun p t => .vredAnd p t, fun a b => (a &&& b, 0), id),
  (fun p t => .vredOr p t, fun a b => (a ||| b, 0), id),
  (fun p t => .vredXor p t, fun a b => (a ^^^ b, 0), id)]

end Sys2Proof.Claims

/-- R262, R263: VRED combines eight present lanes in the fixed tree, and delivers null when no lane is present; VSCAN combines the
present lanes from lane 0 upwards, and each present lane holds the combination so far. -/
def Obligations.ReductionsAndScans : Prop :=
  (∀ r ∈ reductions, ∀ (p : Pr) (t : Target) (s : State) (c : Fire) (v : Vec) (n : BitVec 8), s.view p = some c → c.left = .vector v n →
      (n = 0 → c.en = 255 →
        let q (a b : Word) : Word := (r.2.1 a b).1
        let w := q (q (q v.l0 v.l1) (q v.l2 v.l3)) (q (q v.l4 v.l5) (q v.l6 v.l7))
        ∃ fl : BitVec 7, exec (r.1 p t) s = .next (c.after 5 [t] (.scalar (r.2.2 w)) fl)) ∧
      ((∀ j < 8, (maskBit n j || !maskBit c.en j) = true) → exec (r.1 p t) s = .next (c.after 5 [t] .null))) ∧
  (∀ (p : Pr) (t : Target) (s : State) (c : Fire) (v : Vec) (n : BitVec 8), s.view p = some c → c.left = .vector v n → n = 0 → c.en = 255 →
      (∃ x : Vec, exec (.vscanSum p t) s = .next (c.after 5 [t] (.vector x 0)) ∧
        x.get 0 = v.get 0 ∧ ∀ j < 7, x.get (j + 1) = x.get j + v.get (j + 1)) ∧
      (∃ (x : Vec) (fl : BitVec 7) (run : Nat → Word), exec (.vscanFsum p t) s = .next (c.after 5 [t] (.vector x 0) fl) ∧
        run 0 = v.get 0 ∧ (∀ j < 7, run (j + 1) = (fadd (run j) (v.get (j + 1))).1) ∧ ∀ j < 8, x.get j = canon (run j)))

/-! ## Exits -/

/-- R238, R239, R240, R241, R242: each exit is kept for the commit with its destination and what BLR becomes; an indirect exit
needs a multiple of 16 in space 3, else it takes the branch-target fault; YIELD in an epilogue takes the epilogue fault. -/
def Obligations.ExitsKeepDestination : Prop :=
  ∀ (p : Pr) (s : State) (c : Fire), s.view p = some c → c.mask = false →
    let leaves (i : Instr) (kd : ExitKind) (dest link : Word) : Prop :=
      exec i s = .next (c.after 0 [] .completion 0 (some (.exit kd dest link)))
    let blr := c.set.regs.blr
    (∀ off : BitVec 20, leaves (.br p off) .goto (c.fl.base + (off.signExtend 64) * 16) blr ∧
      leaves (.call p off) .call (c.fl.base + (off.signExtend 64) * 16) c.fl.next) ∧
    leaves (.ret p) .goto blr blr ∧ leaves (.done p) .done 0 blr ∧
    (∀ code : BitVec 12, leaves (.trap p code) (.trap code.toNat) c.fl.next blr) ∧
    (c.set.inEpilogue = false → leaves (.yield p) .yield 0 blr) ∧
    (c.set.inEpilogue = true → exec (.yield p) s = .next (c.faulted 0 .epilogue 0 0)) ∧
    (∀ a : Word, c.left = .scalar a →
      if a.toNat / 2 ^ 60 = 3 ∧ a.toNat % 16 = 0 then leaves (.bri p) .goto a blr ∧ leaves (.calli p) .call a c.fl.next
      else exec (.bri p) s = .next (c.faulted 0 .branchTarget 0 a) ∧ exec (.calli p) s = .next (c.faulted 0 .branchTarget 0 a))

/-! ## Memory instructions -/

namespace Sys2Proof.Claims

/-- The state after a firing that waits: its effect, if any, is kept, and a request is on its way, if any (R87). -/
def waited (c : Fire) (cls : Nat) (e : Option Effect) (q : Option LoadReq) : State :=
  let f := c.fl
  let g : Flight := { f with
    stat := AMap.ins c.ix .waiting f.stat,
    effs := match e with | some e => AMap.ins c.ix e f.effs | none => f.effs,
    reqs := match q with | some q => AMap.ins c.ix q f.reqs | none => f.reqs,
    counts := AMap.ins c.ix (cls + 1) f.counts }
  { c.s with flights := AMap.ins c.k g.sweep c.s.flights }
/-- A firing that gives a completion token and an effect. -/
def acts (c : Fire) (t : Target) (e : Effect) : State := c.after 6 [t] .completion 0 (some e)

/-- Local loads (R270): the constructor and the size in bytes. -/
def localLoads : List ((Pr → BitVec 5 → Target → Instr) × Nat) := [
  (fun p l t => .ldB p l t, 1), (fun p l t => .ldH p l t, 2), (fun p l t => .ldW p l t, 4), (fun p l t => .ldD p l t, 8),
  (fun p l t => .ldL p l t, 64)]
/-- Remote loads (R271). -/
def remoteLoads : List ((Pr → BitVec 5 → Target → Instr) × Nat) := [
  (fun p l t => .ldrB p l t, 1), (fun p l t => .ldrH p l t, 2), (fun p l t => .ldrW p l t, 4), (fun p l t => .ldrD p l t, 8),
  (fun p l t => .ldrQ p l t, 16), (fun p l t => .ldrO p l t, 32), (fun p l t => .ldrL p l t, 64)]
/-- Local stores (R270). -/
def localStores : List ((Pr → BitVec 5 → Target → Instr) × Nat) := [
  (fun p l t => .stB p l t, 1), (fun p l t => .stH p l t, 2), (fun p l t => .stW p l t, 4), (fun p l t => .stD p l t, 8),
  (fun p l t => .stL p l t, 64)]
/-- Remote stores (R271). -/
def remoteStores : List ((Pr → BitVec 5 → Target → Instr) × Nat) := [
  (fun p l t => .strB p l t, 1), (fun p l t => .strH p l t, 2), (fun p l t => .strW p l t, 4), (fun p l t => .strD p l t, 8),
  (fun p l t => .strQ p l t, 16), (fun p l t => .strO p l t, 32), (fun p l t => .strL p l t, 64)]

/-- A legal address of the tile's own pool by space 0: n bytes at a multiple of n in the scratchpad range, or for a load in the
mailbox (R112, R131, R132). -/
def ownAddress (c : Fire) (a : Word) (n : Nat) (load : Bool) : Prop :=
  a.toNat < 2 ^ 17 ∧ a.toNat % n = 0 ∧ (c.s.inPad c.tile a.toNat n = true ∨ load = true ∧ c.s.inPadOrMbox c.tile a.toNat n = true)
/-- What a loaded value is as a token (R270, R271). -/
def loaded (n : Nat) (bs : List Byte) : Token :=
  if n ≤ 8 then .scalar (word (ofBytes bs))
  else .vector (Vec.ofFn fun i => word (ofBytes ((bs.drop (8 * i)).take 8))) (mask8 fun i => decide (n ≤ 8 * i))
/-- The bytes that a store of n bytes writes (R85, R270): the low bytes of a scalar of up to 8, or lanes, without the null and
the disabled ones. -/
def stored (c : Fire) (n : Nat) (bs : Bytes) : Prop :=
  match c.right with
  | .scalar w => if n ≤ 8 then bs = (List.range n).map (fun i => some (BitVec.ofNat 8 (w.toNat / 256 ^ i)))
      else bs = (List.range n).map fun i => if maskBit c.en (i / 8) then some (BitVec.ofNat 8 (w.toNat / 256 ^ (i % 8))) else none
  | .vector v nulls => 8 < n ∧ bs = (List.range n).map fun i =>
      if maskBit c.en (i / 8) && !maskBit nulls (i / 8) then some (BitVec.ofNat 8 ((v.get (i / 8)).toNat / 256 ^ (i % 8))) else none
  | _ => False

/-- Atomics (R274): the constructor and the operation code. -/
def atomics : List ((Pr → BitVec 5 → Bool → BitVec 2 → Target → Instr) × Nat) := [
  (fun p l d o t => .amoAadd p l d o t, 0), (fun p l d o t => .amoAand p l d o t, 1), (fun p l d o t => .amoAor p l d o t, 2),
  (fun p l d o t => .amoAxor p l d o t, 3), (fun p l d o t => .amoAmin p l d o t, 4), (fun p l d o t => .amoAmax p l d o t, 5),
  (fun p l d o t => .amoAminn p l d o t, 6), (fun p l d o t => .amoAmaxn p l d o t, 7), (fun p l d o t => .amoAxchg p l d o t, 8),
  (fun p l d o t => .amoAcas p l d o t, 9)]
/-- The operand b and the comparison value of an atomic (R274). -/
def atomicArgs (op : Nat) (dbl : Bool) (t : Token) (b cmp : Nat) : Prop :=
  let n : Nat := if dbl then 64 else 32
  match t with
  | .scalar w => if op = 9 then dbl = false ∧ cmp = w.toNat % 2 ^ 32 ∧ b = w.toNat / 2 ^ 32 else b = w.toNat % 2 ^ n ∧ cmp = 0
  | .vector v m => op = 9 ∧ maskBit m 0 = false ∧ maskBit m 1 = false ∧ cmp = v.l0.toNat % 2 ^ n ∧ b = v.l1.toNat % 2 ^ n
  | _ => False

end Sys2Proof.Claims

/-- R93, R132, R270: a load of the tile's own pool delivers the bytes there; in a block without an earlier access to them. -/
def Obligations.LocalLoads : Prop :=
  ∀ r ∈ localLoads ++ remoteLoads, ∀ (p : Pr) (l : BitVec 5) (t : Target) (s : State) (c : Fire) (a : Word), s.view p = some c →
    c.mask = false → c.acquiring = false → c.left = .scalar a → ownAddress c a r.2 true →
    let key := poolKey c.tile a.toNat
    s.poisoned key r.2 = false → c.below l.toNat key r.2 = [] →
    exec (r.1 p l t) s = .next (c.after 6 [t] (loaded r.2 (s.bytes key r.2)) 0 none (some (a.toNat, r.2)))
/-- R93: a load sees the bytes of the only earlier store of its block, when that store covers them. -/
def Obligations.LoadsSeeEarlierStore : Prop :=
  ∀ r ∈ localLoads, ∀ (p : Pr) (l : BitVec 5) (t : Target) (s : State) (c : Fire) (a : Word) (ix lsid : Nat) (bs : List Byte),
    s.view p = some c → c.mask = false → c.acquiring = false → c.left = .scalar a → ownAddress c a r.2 true →
    s.poisoned (poolKey c.tile a.toNat) r.2 = false → bs.length = r.2 → lsid < l.toNat →
    c.fl.effs = [(ix, .store lsid a.toNat (bs.map some))] →
    exec (r.1 p l t) s = .next (c.after 6 [t] (loaded r.2 bs) 0 none (some (a.toNat, r.2)))
/-- R134, R272: a load of another place first asks for its bytes and waits; when the reply has come it delivers them. -/
def Obligations.RemoteLoads : Prop :=
  ∀ r ∈ remoteLoads, ∀ (p : Pr) (l : BitVec 5) (t : Target) (s : State) (c : Fire) (a : Word), s.view p = some c →
    c.mask = false → c.acquiring = false → c.left = .scalar a → checkAddr s c.tile a (remoteSpaces r.2) r.2 r.2 true = none →
    outsideCoord s c.tile a = none → (∀ off, s.destOf c.tile a ≠ .pool c.tile off) →
    c.below l.toNat ((s.destOf c.tile a).key?.getD 0) r.2 = [] →
    (AMap.find c.ix c.fl.reqs = none → (∀ e ∈ c.set.eng.journal, e.state ≠ .withheld) → exec (r.1 p l t) s = .next (waited c 6 none (some ⟨a, r.2, .asked, false, false, false, 0⟩))) ∧
    (∀ q bs, AMap.find c.ix c.fl.reqs = some q → q.here = true → q.reply = .data bs →
      exec (r.1 p l t) s = .next (c.after 6 [t] (loaded r.2 bs)))
/-- R270, R273, R85, R89: a store takes its bytes when it fires and keeps them for the commit; to another place it will post. That a
scalar under a lane-mask predicate is broadcast and masked is the model's choice (assumption 95). -/
def Obligations.StoresKeepBytes : Prop :=
  (∀ r ∈ localStores ++ remoteStores, ∀ (p : Pr) (l : BitVec 5) (t : Target) (s : State) (c : Fire) (a : Word) (bs : Bytes), s.view p = some c →
    (c.mask = true → 8 < r.2) → c.acquiring = false → c.left = .scalar a → ownAddress c a r.2 false → stored c r.2 bs →
    exec (r.1 p l t) s = .next (acts c t (.store l.toNat a.toNat bs))) ∧
  (∀ r ∈ remoteStores, ∀ (p : Pr) (l : BitVec 5) (t : Target) (s : State) (c : Fire) (a : Word) (bs : Bytes), s.view p = some c →
    (c.mask = true → 8 < r.2) → c.acquiring = false → c.left = .scalar a → checkAddr s c.tile a (remoteSpaces r.2) r.2 r.2 false = none →
    outsideCoord s c.tile a = none → (∀ off, s.destOf c.tile a ≠ .pool c.tile off) → stored c r.2 bs →
    exec (r.1 p l t) s = .next (acts c t (.rstore l.toNat a r.2 bs)))
/-- R92, R274, R275: an atomic keeps its operation for the commit, with the register that its target's WRITE names. -/
def Obligations.AtomicsKeepOperation : Prop :=
  ∀ r ∈ atomics, ∀ (p : Pr) (l : BitVec 5) (dbl : Bool) (o : BitVec 2) (t : Target) (s : State) (c : Fire) (a : Word) (b cmp : Nat),
    s.view p = some c → c.mask = false → c.acquiring = false → c.left = .scalar a → atomicArgs r.2 dbl c.right b cmp →
    let n : Nat := if dbl then 8 else 4
    (ownAddress c a n false →
      exec (r.1 p l dbl o t) s =
        .next (c.after 6 [t] (.scalar 0) 0 (some (.amoLocal l.toNat a.toNat ⟨r.2, dbl, o.toNat, b, cmp⟩ (c.fl.amoReg t))))) ∧
    (checkAddr s c.tile a (fun sp => decide (sp < 4)) n n false = none → outsideCoord s c.tile a = none →
      (∀ off, s.destOf c.tile a ≠ .pool c.tile off) →
      exec (r.1 p l dbl o t) s =
        .next (c.after 6 [t] (.scalar 0) 0 (some (.amoRemote l.toNat a ⟨r.2, dbl, o.toNat, b, cmp⟩ (c.fl.amoReg t)))))
/-- R274: what each atomic leaves in memory, on 32 and on 64 bits. -/
def Obligations.AtomicArithmetic : Prop :=
  ∀ n : Nat, n = 32 ∨ n = 64 → ∀ old b cmp : BitVec n,
    let new (op : Nat) : BitVec n := BitVec.ofNat n (amoNew n op old.toNat b.toNat cmp.toNat)
    new 0 = old + b ∧ new 1 = old &&& b ∧ new 2 = old ||| b ∧ new 3 = old ^^^ b ∧
    new 4 = (if b.toInt < old.toInt then b else old) ∧ new 5 = (if old.toInt < b.toInt then b else old) ∧
    new 6 = (if b.toNat < old.toNat then b else old) ∧ new 7 = (if old.toNat < b.toNat then b else old) ∧
    new 8 = b ∧ new 9 = (if old = cmp then b else old)
/-- R141, R143 to R145, R276 to R279: a fence that finds nothing outstanding in its scope resolves at once, else it waits; a
rectangle that is not legal is the scope fault; ACQ loads the object; REL resolves when no earlier bound entry is open, and waits
while one is; BIND and UNBIND change the table at commit, and a range that may not be bound is the binding fault. -/
def Obligations.FencesAndReleases : Prop :=
  (∀ (p : Pr) (l : BitVec 5) (t : Target) (s : State) (c : Fire), s.view p = some c → c.mask = false → c.acquiring = false →
      ((c.tileRec.slots.all fun z => z.2.ts != c.k || z.2.toWrite.isEmpty) = true →
        exec (.fenceLocal p l t) s = .next (acts c t (.fence l.toNat 0 0))) ∧
      ((c.tileRec.slots.any fun z => z.2.ts == c.k && !z.2.toWrite.isEmpty) = true →
        exec (.fenceLocal p l t) s = .next (waited c 6 (some (.fence l.toNat 0 0)) none)) ∧
      (∀ w : Word, c.left = .scalar w → c.rectOk w = true → (∀ e ∈ c.set.eng.journal, s.fenceCovers c.tile 1 w e = true → e.openYet = false) →
        exec (.fenceRect p l t) s = .next (acts c t (.fence l.toNat 1 w))) ∧
      (∀ w : Word, c.left = .scalar w → c.rectOk w = true → (∃ e ∈ c.set.eng.journal, s.fenceCovers c.tile 1 w e = true ∧ e.openYet = true) →
        (∀ e ∈ c.set.eng.journal, e.state ≠ .withheld) → exec (.fenceRect p l t) s = .next (waited c 6 (some (.fence l.toNat 1 w)) none)) ∧
      (∀ w : Word, c.left = .scalar w → c.rectOk w = false → exec (.fenceRect p l t) s = .next (c.faulted 6 .scope 0 0)) ∧
      ((∀ e ∈ c.set.eng.journal, s.fenceCovers c.tile 2 0 e = true → e.openYet = false) →
        exec (.fenceCluster p l t) s = .next (acts c t (.fence l.toNat 2 0))) ∧
      ((∃ e ∈ c.set.eng.journal, s.fenceCovers c.tile 2 0 e = true ∧ e.openYet = true) → (∀ e ∈ c.set.eng.journal, e.state ≠ .withheld) →
        exec (.fenceCluster p l t) s = .next (waited c 6 (some (.fence l.toNat 2 0)) none)) ∧
      ((∀ e ∈ c.set.eng.journal, s.fenceCovers c.tile 3 0 e = true → e.openYet = false) →
        exec (.fenceRegion p l t) s = .next (acts c t (.fence l.toNat 3 0))) ∧
      ((∃ e ∈ c.set.eng.journal, s.fenceCovers c.tile 3 0 e = true ∧ e.openYet = true) → (∀ e ∈ c.set.eng.journal, e.state ≠ .withheld) →
        exec (.fenceRegion p l t) s = .next (waited c 6 (some (.fence l.toNat 3 0)) none))) ∧
  (∀ (p : Pr) (l : BitVec 5) (t : Target) (s : State) (c : Fire) (a w : Word), s.view p = some c → c.mask = false → c.acquiring = false →
      c.left = .scalar a → c.right = .scalar w → c.rectOk w = true → ownAddress c a 8 false →
      (s.poisoned (poolKey c.tile a.toNat) 8 = false → c.below l.toNat (poolKey c.tile a.toNat) 8 = [] →
        exec (.acq p l t) s = .next (c.after 6 [t] (.scalar (word (s.num (poolKey c.tile a.toNat) 8))) 0 none (some (a.toNat, 8)))) ∧
      ((∀ e ∈ c.set.eng.journal, a ∈ e.objs → e.kind ≠ .rel → e.openYet = false) →
        exec (.rel p l t) s = .next (acts c t (.relUpd l.toNat a))) ∧
      ((∃ e ∈ c.set.eng.journal, a ∈ e.objs ∧ e.kind ≠ .rel ∧ e.openYet = true) → (∀ e ∈ c.set.eng.journal, e.state ≠ .withheld) →
        exec (.rel p l t) s = .next (waited c 6 (some (.relUpd l.toNat a)) none))) ∧
  (∀ (p : Pr) (t : Target) (s : State) (c : Fire) (o b : Word), s.view p = some c → c.mask = false → c.left = .scalar o →
      c.right = .scalar b → ownAddress c o 8 false →
      (∀ n : Word, c.third = .scalar n →
        let legal := b.toNat % 64 = 0 ∧ n.toNat % 64 = 0 ∧ 64 ≤ n.toNat ∧ n.toNat ≤ 2 ^ 40 ∧ b.toNat % 2 ^ 60 + n.toNat ≤ 2 ^ 60
        (legal → exec (.bind p t) s = .next (acts c t (.bindE o b n.toNat))) ∧
        (¬legal → exec (.bind p t) s = .next (c.faulted 6 .binding 0 0))) ∧
      exec (.unbind p t) s = .next (acts c t (.unbindE o b)))
/-- R153, R154, R280, R281, R147: while no acquire AMO is unanswered, the waits resolve when their count or generation has been reached, else they wait; a count above
what was issued is the timeline fault; LWARM arms a landing word at commit. -/
def Obligations.WaitsResolve : Prop :=
  ∀ (p : Pr) (t : Target) (s : State) (c : Fire), s.view p = some c → c.mask = false →
    (∀ a g : Word, c.acquiring = false → c.left = .scalar a → c.right = .scalar g → a.toNat < 2 ^ 17 → a.toNat % 8 = 0 → s.inPad c.tile a.toNat 24 = true →
      s.landingTarget c.tile a.toNat ≠ 0 →
      let gen := s.landingGen c.tile a.toNat
      (genReached gen (g.toNat % 2 ^ 32) = true → exec (.lwait p t) s = .next (c.after 6 [t] (.scalar (word gen)) 0 (some .acquire))) ∧
      (genReached gen (g.toNat % 2 ^ 32) = false → exec (.lwait p t) s = .next (waited c 6 (some .acquire) none))) ∧
    (∀ a n : Word, c.acquiring = false → c.left = .scalar a → c.right = .scalar n → a.toNat < 2 ^ 17 → a.toNat % 8 = 0 → s.inPad c.tile a.toNat 24 = true →
      exec (.lwarm p t) s = .next (acts c t (.lwarm a.toNat n))) ∧
    (∀ (me : Bool) (n : Word), c.left = .scalar n →
      let issued := if me then c.fl.snap.issued else c.fl.snap.sealed
      let reached := if me then c.set.eng.me else c.set.eng.ce
      (issued < n.toNat → exec (.tcwait p me t) s = .next (c.faulted 6 .timeline 0 0)) ∧
      (n.toNat ≤ issued → n.toNat ≤ reached → exec (.tcwait p me t) s = .next (c.after 6 [t] (.scalar n) 0 (some .acquire))) ∧
      (n.toNat ≤ issued → reached < n.toNat → exec (.tcwait p me t) s = .next (waited c 6 none none))) ∧
    (∀ n : Word, c.left = .scalar n → n.toNat ≤ c.fl.snap.sealed →
      (c.set.eng.unfinished ≤ n.toNat → exec (.cwait p t) s = .next (c.after 6 [t] (.scalar n) 0 (some .acquire))) ∧
      (n.toNat < c.set.eng.unfinished → exec (.cwait p t) s = .next (waited c 6 none none)))

/-! ## Streams, copies and the matrix engine -/

/-- R156 to R164, R283, R284: SBIND reads a legal descriptor and binds a free slot at commit; the SCTL minors act on a slot of
the issuing thread set, and without one take the stream-slot fault. -/
def Obligations.StreamControl : Prop :=
  ∀ (p : Pr) (k : BitVec 3) (t : Target) (s : State) (c : Fire), s.view p = some c → c.mask = false →
    (∀ a : Word, c.acquiring = false → c.left = .scalar a → ownAddress c a 64 false → s.poisoned (poolKey c.tile a.toNat) 64 = false →
      let bs := s.bytes (poolKey c.tile a.toNat) 64
      let d := streamOf (ofBytes bs) bs (AMap.get 0 1 c.fl.snap.ox) c.fl.snap.flags (AMap.get 0 3 c.fl.snap.ox)
      (streamLegal (ofBytes bs) d = true → AMap.find k.toNat c.tileRec.slots = none → c.boundHere k.toNat = false →
        exec (.sbind p k t) s = .next (c.after 6 [t] .completion 0 (some (.sbind k.toNat d)) (some (a.toNat, 64)))) ∧
      (streamLegal (ofBytes bs) d = false → exec (.sbind p k t) s = .next (c.faulted 6 .streamDescriptor 0 a))) ∧
    (∀ z : Slot, s.slotOf c.k k.toNat = some z →
      exec (.sunbind p k t) s = .next (acts c t (.sunbind k.toNat)) ∧
      (∀ n : Word, c.left = .scalar n → exec (.sskip p k t) s = .next (acts c t (.sskip k.toNat n.toNat))) ∧
      (z.desc.out = false ∨ z.toWrite = [] → exec (.sflush p k t) s = .next (acts c t (.sflush k.toNat)))) ∧
    (s.slotOf c.k k.toNat = none →
      exec (.sunbind p k t) s = .next (c.faulted 6 .streamSlot 0 0) ∧ exec (.sflush p k t) s = .next (c.faulted 6 .streamSlot 0 0)) ∧
    exec (.sstat p k t) s = .next (c.after 6 [t] (.scalar (c.fl.snap.sstat.getD k.toNat 0)))

namespace Sys2Proof.Claims

/-- The minors of COPY (R285). -/
def copies : List ((Pr → Target → Instr) × Nat) := [
  (fun p t => .copyLinear p t, 0), (fun p t => .copyPlane p t, 1), (fun p t => .copyTensor p t, 2), (fun p t => .copyGather p t, 3)]
/-- Whether matrix instructions may be used by the thread set (R183). -/
def matrixUser (c : Fire) : Prop := epiTs c.tileRec.conf.part ≠ some (c.k % 4) ∧ c.s.level c.tile = .user
/-- The record queue has a place for one more record of the block, and the record depends on nothing (R179, R183). -/
def recordFree (c : Fire) : Prop :=
  field c.ox0 13 2 = 0 ∧ c.s.queued c.tile + c.ahead < queueDepth c.tileRec.conf.part

end Sys2Proof.Claims

/-- R166 to R170, R285, R286: a COPY with a legal descriptor is accepted at commit, and CSEAL delivers the number of the batch
it seals. -/
def Obligations.CopiesAndSeals : Prop :=
  (∀ r ∈ copies, ∀ (p : Pr) (t : Target) (s : State) (c : Fire) (a : Word), s.view p = some c → c.mask = false → c.acquiring = false → c.left = .scalar a →
    ownAddress c a 64 false → s.poisoned (poolKey c.tile a.toNat) 64 = false →
    let raw := s.num (poolKey c.tile a.toNat) 64
    let d := copyOf raw (AMap.get 0 2 c.fl.snap.ox)
    (copyFields raw d r.2 = true → spacesOk 4 [d.src, d.dst] = true → spacesOk 3 d.words = true → spacesOk 2 d.idx = true →
      copyAligned d = true → c.wordOk d = true → c.strays ([d.src, d.dst] ++ d.words) = none →
      exec (r.1 p t) s = .next (c.after 6 [t] .completion 0 (some (.copy d)) (some (a.toNat, 64)))) ∧
    (copyFields raw d r.2 = false → exec (r.1 p t) s = .next (c.faulted 6 .copyDescriptor 0 a))) ∧
  (∀ (p : Pr) (t : Target) (s : State) (c : Fire), s.view p = some c → c.mask = false →
    ((∀ e ∈ c.fl.effs, e.2 = .cseal → c.ix ≤ e.1) →
      exec (.cseal p t) s = .next (c.after 6 [t] (.scalar (word (c.fl.snap.sealed + 1))) 0 (some .cseal))) ∧
    ((∃ e ∈ c.fl.effs, e.2 = .cseal ∧ e.1 < c.ix) → exec (.cseal p t) s = .next (c.faulted 6 .copyBatch 0 0)))
/-- R179, R182, R183, R293: MZERO appends a record that takes its accumulator tile; MFENCE resolves when every record issued
before the block has retired; MSTAT delivers the drain status of block start. -/
def Obligations.MatrixControl : Prop :=
  ∀ (p : Pr) (acc : BitVec 4) (t : Target) (s : State) (c : Fire), s.view p = some c → c.mask = false → matrixUser c →
    (acc.toNat < field c.tileRec.conf.part 8 5 →
      (∀ i < 4, i ≠ c.k % 4 → ∀ r ∈ (s.ts (4 * c.tile + i)).eng.recs, r.body.acc? ≠ some acc.toNat) → recordFree c →
      ∃ r : MRec, r.body = .zero acc.toNat ∧ r.num = c.fl.snap.issued + 1 + c.ahead ∧ r.depk = 0 ∧
        exec (.mzero p acc t) s = .next (c.after 6 [t] (.scalar (word r.num)) 0 (some (.mrec r)))) ∧
    (c.fl.snap.issued ≤ c.set.eng.me → exec (.mfence p t) s = .next (c.after 6 [t] .completion 0 (some .acquire))) ∧
    (c.set.eng.me < c.fl.snap.issued → exec (.mfence p t) s = .next (waited c 6 none none)) ∧
    exec (.mstat p t) s = .next (c.after 6 [t] (.scalar c.fl.snap.drain))
/-- R183: outside the user tiles, and on the epilogue thread set, matrix instructions take the matrix-context fault. -/
def Obligations.MatrixContextFault : Prop :=
  ∀ (p : Pr) (acc : BitVec 4) (t : Target) (s : State) (c : Fire), s.view p = some c → c.mask = false →
    (epiTs c.tileRec.conf.part = some (c.k % 4) ∨ s.level c.tile ≠ .user) →
    exec (.mzero p acc t) s = .next (c.faulted 6 .matrixContext 0 0) ∧ exec (.mfence p t) s = .next (c.faulted 6 .matrixContext 0 0) ∧
    exec (.mstat p t) s = .next (c.faulted 6 .matrixContext 0 0) ∧
    (c.left ≠ .null → c.right ≠ .null → (groupOf (field c.ox0 8 5) ≠ 0 → c.right.laneNull 0 = false) →
      (isU4 (field c.ox0 8 5) = true → c.right.laneNull 1 = false) → ∀ kph : BitVec 7, exec (.mldb p kph t) s = .next (c.faulted 6 .matrixContext 0 0)) ∧
    (c.left ≠ .null → c.right ≠ .null →
      exec (.mq p false acc t) s = .next (c.faulted 6 .matrixContext 0 0) ∧
      exec (.mdrain p false acc t) s = .next (c.faulted 6 .matrixContext 0 0))
/-- R179, R183, R289 to R292: MLDB with an ungrouped format, MQ and MDRAIN append their records, numbered after those issued. -/
def Obligations.MatrixRecords : Prop :=
  ∀ (p : Pr) (t : Target) (s : State) (c : Fire), s.view p = some c → c.mask = false → matrixUser c → recordFree c →
    let number := c.fl.snap.issued + 1 + c.ahead
    let appends (i : Instr) (b : RecBody) : Prop :=
      ∃ r : MRec, r.body = b ∧ r.num = number ∧ exec i s = .next (c.after 6 [t] (.scalar (word number)) 0 (some (.mrec r)))
    (∀ (e w : Word), c.left = .scalar e → c.right = .scalar w →
      let b := field c.ox0 8 5
      isA (field c.ox0 0 5) = true → isB b = true → groupOf b = 0 → field e 34 30 = 0 → e.toNat % 16 = 0 →
      (columnBytes b = 192 → field e 17 17 % 2 = 0) →
      c.columnsIn (field e 0 17) (field e 17 17) (columnBytes b) = true →
      appends (.mldb p 0 t) (.weight 0 b 0 0 (field w 17 17) (field w 0 17) (field e 17 17) (field e 0 17))) ∧
    (∀ (acc : BitVec 4) (aw : Word) (v : Vec) (n : BitVec 8), c.left = .scalar aw → c.right = .vector v n →
      let a := field c.ox0 0 5
      let b := field c.ox0 8 5
      let base := aw.toNat % 2 ^ 17
      let stride := aw.toNat / 2 ^ 17 % 2 ^ 17
      isA a = true → isB b = true → pairOk a b = true → c.weightFmt = some b → c.owns acc.toNat = true → aw.toNat < 2 ^ 34 →
      base % 16 = 0 → stride % 16 = 0 →
      (∀ j < 8, maskBit n j = false → s.inPad c.tile (base + (v.get j).toNat % 256 * stride) 96 = true) →
      appends (.mq p false acc t)
        (.op (laneList.map fun j => if maskBit n j then none else some ((v.get j).toNat % 256)) b a acc.toNat stride base)) ∧
    (∀ (acc : BitVec 4) (d w : Word), c.left = .scalar d → c.right = .scalar w →
      let stride := sintN 20 (field w 0 20)
      isA (field c.ox0 0 5) = true → isB (field c.ox0 8 5) = true → c.owns acc.toNat = true → field w 55 9 = 0 → bitAt w 48 = false → bitAt w 47 = false → bitAt w 37 = false →
      (∃ f, fmtOf (field w 38 5) = some f ∧ d.toNat % f.bytes = 0 ∧ stride % (f.bytes : Int) = 0 ∧
        ∀ j < 8, (rowAddr d stride j).toNat < 2 ^ 17 ∧ s.inPad c.tile (rowAddr d stride j).toNat (8 * f.bytes) = true) →
      appends (.mdrain p false acc t)
        (.drain d stride false (field w 20 17) (field w 43 2) (bitAt w 45) (bitAt w 46) false (field w 49 6) false (field w 38 5) acc.toNat))

/-! ## Packets and stages -/

/-- R55, R294 to R297, R299, R147: SEND, SPAWN and EOS leave at commit when the header is legal and a credit or a grant is
free, and wait when it is not; a credit free for a replica is one for the packet with its task's SEQ. -/
def Obligations.SendsLeaveAtCommit : Prop :=
  ∀ (p : Pr) (t : Target) (s : State) (c : Fire), s.view p = some c → c.mask = false →
    (∀ (o : BitVec 4) (a h : Word) (e : Nat), c.acquiring = false → c.left = .scalar a → c.right = .scalar h → s.outEdge c.tile o.toNat = some e →
      headerOk [0, 1, 3] h = true → c.ended e o.toNat = false → h0Len h ≤ (c.region.edge e).len → c.onEpilogue = false →
      a.toNat < 2 ^ 17 → a.toNat % 16 = 0 → s.inPad c.tile a.toNat (bodyLen h) = true → s.poisoned (poolKey c.tile a.toNat) (bodyLen h) = false →
      (c.tileRec.isReplica = true → c.sentOn o.toNat = false) →
      let room := if c.tileRec.isReplica then s.creditKept c.rgn e (match c.set.task with | some q => h0Seq q.h0 | none => 0) else s.creditFree c.rgn e
      (room = true → exec (.send p o t) s = .next (acts c t (.send o.toNat h a))) ∧
      (room = false → exec (.send p o t) s = .next (waited c 6 none none))) ∧
    (∀ (a h g : Word) (d : Nat), c.acquiring = false → c.left = .scalar a → c.right = .scalar h → c.third = .scalar g → headerOk [0] h = true →
      a.toNat < 2 ^ 17 → a.toNat % 16 = 0 → s.inPad c.tile a.toNat (bodyLen h) = true → s.poisoned (poolKey c.tile a.toNat) (bodyLen h) = false →
      c.region.translate (h1Dst g) (decide (s.level c.tile = .user)) = .at d →
      let room := s.grants (s.follow (s.ctxOf c.tile) d) h
      (room = true → exec (.spawn p t) s = .next (acts c t (.spawn h g a))) ∧
      (room = false → exec (.spawn p t) s = .next (waited c 6 none none))) ∧
    (∀ (o : BitVec 4) (e : Nat), c.tileRec.isReplica = false → s.outEdge c.tile o.toNat = some e → c.ended e o.toNat = false →
      c.onEpilogue = false →
      (s.creditFree c.rgn e = true → exec (.eos p o t) s = .next (acts c t (.eos o.toNat))) ∧
      (s.creditFree c.rgn e = false → exec (.eos p o t) s = .next (waited c 6 none none)))
/-- R51, R298, R300: MBPOP, MBPEEK, MBHW and the STEAL minors. -/
def Obligations.MailboxAndSteal : Prop :=
  ∀ (p : Pr) (t : Target) (s : State) (c : Fire), s.view p = some c → c.mask = false →
    (c.onEpilogue = false → exec (.mbpop p t) s = .next (acts c t .mbpop)) ∧
    (c.onEpilogue = true → exec (.mbpop p t) s = .next (c.faulted 6 .mailbox 0 0)) ∧
    (∀ w : Word, c.left = .scalar w →
      exec (.mbpeek p t) s = .next (c.after 6 [t] (.scalar (match c.tileRec.oldest (w.toNat % 4096) with | some m => m.h0 | none => 0)))) ∧
    (∀ w : Word, c.left = .scalar w →
      (c.spillOk w = true → exec (.mbhw p t) s = .next (c.after 6 [t] (.scalar c.fl.snap.spill) 0 (some (.mbhw w)))) ∧
      (c.spillOk w = false → exec (.mbhw p t) s = .next (c.faulted 6 .mailbox 0 0))) ∧
    (c.onSlice = true →
      let n := if c.fl.snap.solo then 0 else c.fl.snap.remain.length / 2
      exec (.stealSplit p t) s = .next (c.after 6 [t] (.scalar (word n)) 0 (some (.steal n))) ∧
      ∀ v, c.fl.snap.range = some v → exec (.stealRange p t) s = .next (c.after 6 [t] (.vector v 0xE0#8))) ∧
    (c.onSlice = false → exec (.stealSplit p t) s = .next (c.faulted 6 .range 0 0) ∧ exec (.stealRange p t) s = .next (c.faulted 6 .range 0 0))

/-! ## Privileged and debug instructions -/

namespace Sys2Proof.Claims

/-- The SYS instructions without PWRQ's and HALT's forms that need no operand, and those that do (R302 to R308). -/
def sysNoOperand : List (Pr → Target → Instr) := [fun p t => .haltRegion p t, fun p t => .pwrq p t]
/-- SYS instructions with a left operand alone. -/
def sysLeft : List (Pr → Target → Instr) := [fun p t => .csrr p t, fun p t => .halt p t, fun p t => .wake p t, fun p t => .pwrqSet p t]
/-- SYS instructions with left and right operands. -/
def sysBoth : List (Pr → Target → Instr) := [fun p t => .csrw p t, fun p t => .resume p t, fun p t => .xlati p t, fun p t => .slotw p t]
/-- SYS instructions with three operands. -/
def sysThree : List (Pr → Target → Instr) := [fun p t => .resumeVal p t, fun p t => .ctxsv p t, fun p t => .ctxrs p t]

end Sys2Proof.Claims

/-- R302: at user level every SYS instruction takes the privilege fault and does nothing else. -/
def Obligations.SysAtUserLevelFaults : Prop :=
  ∀ (p : Pr) (t : Target) (s : State) (c : Fire), s.view p = some c → c.mask = false → s.level c.tile = .user →
    (∀ i ∈ sysNoOperand, exec (i p t) s = .next (c.faulted 6 .privilege 0 0)) ∧
    (c.left ≠ .null → ∀ i ∈ sysLeft, exec (i p t) s = .next (c.faulted 6 .privilege 0 0)) ∧
    (c.left ≠ .null → c.right ≠ .null → ∀ i ∈ sysBoth, exec (i p t) s = .next (c.faulted 6 .privilege 0 0)) ∧
    (c.left ≠ .null → c.right ≠ .null → c.third ≠ .null → ∀ i ∈ sysThree, exec (i p t) s = .next (c.faulted 6 .privilege 0 0))
/-- R303: CSRR delivers the register's value when it fires, CSRW keeps the value for the commit; a number that names no
register is the CSR fault, a register above the level the privilege fault; a value out of range is the CSR fault, and a register
that does not take the value ignores it (R10). -/
def Obligations.CsrAccess : Prop :=
  ∀ (p : Pr) (t : Target) (s : State) (c : Fire) (w : Word), s.view p = some c → c.mask = false → s.level c.tile ≠ .user →
    c.left = .scalar w →
    let n := w.toNat
    (n < 4096 → (csrInfo n).isSome = true → csrReadOk (s.level c.tile) n = true →
      exec (.csrr p t) s = .next (c.after 6 [t] (.scalar (s.csrValue c.tile n)))) ∧
    (n < 4096 → (csrInfo n).isSome = true → csrReadOk (s.level c.tile) n = false →
      exec (.csrr p t) s = .next (c.faulted 6 .privilege 0 0)) ∧
    (4096 ≤ n ∨ csrInfo n = none → exec (.csrr p t) s = .next (c.faulted 6 .csr 0 0)) ∧
    (∀ v : Word, c.right = .scalar v → n < 4096 → (csrInfo n).isSome = true → csrWriteOk (s.level c.tile) n = true →
      let refused := csrWrites (s.level c.tile) n && !c.csrView.csrValueOk (s.level c.tile) c.tile n v
      (refused = false → exec (.csrw p t) s = .next (acts c t (.csrw n v))) ∧
      (refused = true → exec (.csrw p t) s = .next (c.faulted 6 .csr 0 0)))
/-- R304 to R308: the other SYS instructions above user level. HALT stops its thread sets when it fires; XLATI drops the
translations then, of one page or all, and a request that was translated by a dropped one at its port, or by any one where all
are dropped, is to be translated again; the others act at commit. -/
def Obligations.SystemInstructions : Prop :=
  ∀ (p : Pr) (t : Target) (s : State) (c : Fire), s.view p = some c → c.mask = false → s.level c.tile ≠ .user →
    (∀ (i w : Word), c.left = .scalar i → c.right = .scalar w → (c.identity i).isSome = true →
      (repairOk w false = true → exec (.resume p t) s = .next (acts c t (.resume i w none))) ∧
      (∀ v : Word, c.third = .scalar v → repairOk w true = true → exec (.resumeVal p t) s = .next (acts c t (.resume i w (some v))))) ∧
    (∀ (i : Word) (k : Nat), c.left = .scalar i → c.identity i = some k →
      exec (.wake p t) s = .next (acts c t (.wake k)) ∧
      ((s.ts k).eng.pend = [] →
        exec (.halt p t) s = .next ((s.halt k).setFlight s.focus
          ((c.fl.finish c.ix 6 .fired [t] .completion).sweep)))) ∧
    ((∀ k ∈ s.userTss c.rgn, (s.ts k).eng.pend = []) →
      exec (.haltRegion p t) s = .next (((s.userTss c.rgn).foldl State.halt s).setFlight s.focus
        ((c.fl.finish c.ix 6 .fired [t] .completion).sweep))) ∧
    (∀ (x a w : Word), c.left = .scalar x → c.right = .scalar a → c.third = .scalar w → s.level c.tile = .device →
      s.rgnOfCtx (x.toNat % 4096) ≠ 256 → s.allStopped (s.rgnOfCtx (x.toNat % 4096)) = true →
      w.toNat < 2 ^ 17 → w.toNat % 8 = 0 → s.inPad c.tile w.toNat 24 = true →
      exec (.ctxsv p t) s = .next (acts c t (.ctx true (x.toNat % 4096) a w)) ∧
      exec (.ctxrs p t) s = .next (acts c t (.ctx false (x.toNat % 4096) a w))) ∧
    (∀ (a x : Word), c.left = .scalar a → c.right = .scalar x → c.mayActOn (x.toNat % 4096) = true →
      ∃ u : State, exec (.xlati p t) s = .next u ∧
        (∀ d ∈ u.dreqs, a = 0 → (s.region d.rgn).ctx = x.toNat % 4096 → ∀ r, d.phys ≠ .at r) ∧
        (∀ d ∈ u.dreqs, ∀ e ∈ s.tlb, e.ctx = x.toNat % 4096 → e.page = a.toNat % 2 ^ 57 / 2 ^ e.bits → (s.region d.rgn).ctx = e.ctx →
          d.port = e.port → ofBytes (d.body.take 8) % 2 ^ 57 / 2 ^ e.bits = e.page → ∀ r, d.phys ≠ .at r) ∧
        (∀ e ∈ u.tlb, e ∈ s.tlb ∧ ¬(e.ctx = x.toNat % 4096 ∧ (a = 0 ∨ e.page = a.toNat % 2 ^ 57 / 2 ^ e.bits))) ∧ u.mem = s.mem ∧ u.tss = s.tss) ∧
    (∀ (x w : Word) (d : Nat), c.left = .scalar x → c.right = .scalar w → c.named (x.toNat % 2 ^ 20) = some d → w.toNat < 2 ^ 48 →
      exec (.slotw p t) s = .next (acts c t (.slotw (word d) w))) ∧
    exec (.pwrq p t) s = .next (c.after 6 [t] (.scalar (csrOf c.region.csr 0x04A))) ∧
    (∀ w : Word, c.left = .scalar w → w.toNat < 2 ^ 28 → field w 5 3 = 0 →
      exec (.pwrqSet p t) s = .next (c.after 6 [t] (.scalar (grantOf w c.region.granted (s.fluxAdmits c.rgn))) 0 (some (.pwrset w))))
/-- R309: BKPT, PMARK and TRC complete in every mode and act at commit. -/
def Obligations.DebugInstructions : Prop :=
  ∀ (p : Pr) (t : Target) (s : State) (c : Fire), s.view p = some c → c.mask = false →
    let keeps (i : Instr) (e : Effect) : Prop := exec i s = .next (c.after 6 [t] .completion 0 (some e))
    (∀ code : BitVec 8, keeps (.bkpt p code t) (.bkpt code.toNat)) ∧
    (∀ w : Word, c.left = .scalar w → keeps (.pmark p t) (.pmark w)) ∧
    (∀ (tag : BitVec 8) (w : Word), c.left = .scalar w → keeps (.trc p tag t) (.trc tag.toNat w))

/-! ## Events

An event comes about in the states that its rule names; in others it is refused by name. -/

namespace Sys2Proof.Claims

/-- An event comes about exactly when ok holds, and then leads to t. -/
def comes (name : String) (i : Instr) (s : State) (ok : Bool) (t : State) : Prop :=
  (ok = true → exec i s = .next t) ∧ (ok = false → exec i s = .refused (.notEnabled name))

/-- The next command of a queue has an opcode, lies in the queue's grant, is well formed, and the module is not in minimal mode
(R350, R352, R440). -/
def begins (s : State) (q op : Nat) : Prop :=
  s.cmdAt q op = true ∧ (s.queue q).grants q (s.entry q).ctx = true ∧ (s.entry q).pad = 0 ∧ (s.entry q).ctx < 4096 ∧
    s.links.boot.minimal = false
/-- A queue has gone on to its next command (R350). -/
def headMoves (s u : State) (q : Nat) : Prop :=
  (u.queue q).head = ((s.queue q).head + 1) % 2 ^ field (s.queue q).qcfg 4 4 ∧ (u.queue q).busy = false

end Sys2Proof.Claims

/-- R46 to R69, R77, R88: the events of blocks, packets, tasks, stages and completion, each with its condition and its effect;
packets age and become eligible one by one, and a Dormancy round during an open cut starts the count anew (R69). -/
def Obligations.TaskAndStageEvents : Prop :=
  (∀ (ts : Nat) (s : State), comes "BLOCK_START" (.blockStart ts) s (s.canStart ts) (s.blockStart ts)) ∧
  (∀ (ts : Nat) (s : State), comes "BLOCK_COMMIT" (.blockCommit ts) s (s.canCommit ts) (s.blockCommit ts)) ∧
  (∀ (n : Nat) (s : State), comes "PACKET_ARRIVAL" (.packetArrival n) s (s.canArrive n) (s.packetArrival n)) ∧
  (∀ (ts : Nat) (s : State), comes "TASK_DISPATCH" (.taskDispatch ts) s (s.canDispatch ts) (s.taskDispatch ts)) ∧
  (∀ (tile pos : Nat) (s : State), comes "PACKET_AGEING" (.packetAgeing tile pos) s (s.canAge tile pos) (s.age tile pos)) ∧
  (∀ (tile pos : Nat) (s : State), comes "YIELD_REELIGIBLE" (.yieldReeligible tile pos) s (s.canReelig tile pos) (s.reelig tile pos)) ∧
  (∀ (ts : Nat) (s : State),
    comes "COMPLETION_TOKEN" (.completionToken ts) s (s.canToken ts && decide (s.mode (s.rgnOf (tileOf ts)) ≠ 3)) (s.completionToken ts)) ∧
  (∀ (rgn n : Nat) (s : State), comes "CREDIT_RETURN" (.creditReturn rgn n) s (s.canCredit rgn n) (s.creditReturn rgn n)) ∧
  (∀ (rgn stg rep : Nat) (s : State),
    comes "DISTRIBUTOR_DEAL" (.distributorDeal rgn stg rep) s (s.canDeal rgn stg rep && decide (s.mode rgn ≠ 3)) (s.deal rgn stg rep)) ∧
  (∀ (rgn stg : Nat) (s : State), comes "STAGE_EOS" (.stageEos rgn stg) s (s.canStageEos rgn stg && decide (s.mode rgn ≠ 3)) (s.stageEos rgn stg)) ∧
  (∀ (rgn stg : Nat) (s : State),
    comes "RANGE_TOKEN_TAKE" (.rangeTokenTake rgn stg) s (s.canTake rgn stg && decide (s.mode rgn ≠ 3)) (s.takeToken rgn stg)) ∧
  (∀ (tile : Nat) (s : State), comes "STEAL_REQUEST" (.stealRequest tile) s (s.canAsk tile && decide (s.mode (s.rgnOf tile) ≠ 3)) (s.ask tile)) ∧
  (∀ (tile : Nat) (s : State), comes "STEAL_SERVICE" (.stealService tile) s (s.canServe tile && decide (s.mode (s.rgnOf tile) ≠ 3)) (s.serve tile)) ∧
  (∀ (rgn stg fld : Nat) (s : State),
    comes "CROSS_FIELD_SPLIT" (.crossFieldSplit rgn stg fld) s (s.canCross rgn stg fld && decide (s.mode rgn ≠ 3)) (s.cross rgn stg fld)) ∧
  (∀ (rgn stg : Nat) (s : State),
    comes "RANGE_STAGE_EOS" (.rangeStageEos rgn stg) s (s.canRangeEos rgn stg && decide (s.mode rgn ≠ 3)) (s.rangeEos rgn stg)) ∧
  (∀ (tile : Nat) (s : State), comes "SPAWN_ADMISSION" (.spawnAdmission tile) s (s.canAdmit tile) (s.spawnAdmission tile)) ∧
  (∀ (rgn : Nat) (s : State), comes "REGION_COMPLETION" (.regionCompletion rgn) s (s.canComplete rgn) (s.complete rgn)) ∧
  (∀ (rgn : Nat) (s : State), comes "DORMANCY_ROUND" (.dormancyRound rgn) s (s.canDorm rgn) (s.dormancy rgn)) ∧
  -- R381: a packet for a tile that holds a forwarding entry of its context goes on, uncounted.
  (∀ (n : Nat) (s : State) (f : Flying) (e : Forward), s.net[n]? = some f → s.toPort f = false → s.mode (s.rgnOf f.dst) ≠ 3 →
    s.oldestFlying n f = true → (f.vc ≤ 1 → s.heldAt f.src f.dst = false) →
    (s.tile f.dst).fwds.find? (fun e => e.ctx == field f.h1 12 12) = some e →
    ∃ u, exec (.packetArrival n) s = .next u ∧ u.net = s.net.eraseIdx n ++ [{ f with src := f.dst, dst := e.dst, fwd := true }] ∧
      (∀ t, (u.tile t).sent = (s.tile t).sent ∧ (u.tile t).recv = (s.tile t).recv ∧ (u.tile t).mbox = (s.tile t).mbox) ∧ u.mem = s.mem ∧
      u.tss = s.tss) ∧
  -- R47, R49, R369: a fault or repair packet, and a packet on an edge that passes every check, goes to the mailbox.
  (∀ (n : Nat) (s : State) (f : Flying) (p : Port), s.net[n]? = some f → s.toPort f = false → s.mode (s.rgnOf f.dst) ≠ 3 →
    s.oldestFlying n f = true → (f.vc ≤ 1 → s.heldAt f.src f.dst = false) → (s.tile f.dst).fwds = [] → f.stage = none →
    p = AMap.get Port.init (h1Port f.h1) (s.tile f.dst).conf.ports →
    (h0Kind f.h0 = 5 ∨ h0Kind f.h0 = 6 ∨
      (h0Kind f.h0 ≠ 7 ∧ p.edge.isSome = true ∧ isHole f.h0 = false ∧
        f.edge.isSome = true ∧
        rejects (s.tile f.dst).conf (p.edge.map fun e => ((s.region (s.rgnOf f.dst)).edge e).len) false (h1Port f.h1) f.h0 f.body = false)) →
    ∃ u, exec (.packetArrival n) s = .next u ∧ u.net = s.net.eraseIdx n ∧
      ∃ m ∈ (u.tile f.dst).mbox.mails, m.h0 = f.h0 ∧ m.h1 = f.h1 ∧ m.body = f.body) ∧
  -- R50, R52: the chosen packet's handler starts, with the registers that R50 gives it.
  (∀ (ts : Nat) (s : State) (m : Mail), s.freeFor ts = true → s.sliceNext (tileOf ts) = false → s.choice (tileOf ts) = some m →
    m.kind ≠ .fault → s.yieldsToSteal (tileOf ts) = false → s.ticketOk (s.rgnOf (tileOf ts)) (tileOf ts) (tsNum ts) 3 = true →
    h0Kind m.h0 ≠ 2 → ∃ (u : State) (a : Task), exec (.taskDispatch ts) s = .next u ∧ (u.ts ts).task = some a ∧ a.h0 = m.h0 ∧ a.h1 = m.h1 ∧
      AMap.get 0 1 (u.ts ts).regs.s = m.h0 ∧ AMap.get 0 2 (u.ts ts).regs.s = word (m.addr + 16) ∧
      AMap.get 0 3 (u.ts ts).regs.s = word (payloadLen m.h0) ∧ AMap.get 0 4 (u.ts ts).regs.s = m.h1 ∧ AMap.get 0 5 (u.ts ts).regs.s = 0 ∧
      (u.ts ts).regs.blr = 0 ∧ (u.ts ts).regs.flags = 0 ∧
      (u.ts ts).regs.bpc = AMap.get 0 (h0Handler m.h0) (s.tile (tileOf ts)).conf.handlers) ∧
  -- R53: a packet whose wait has passed another 2^16 cycles.
  (∀ (tile : Nat) (s : State) (m : Mail), s.mode (s.rgnOf tile) ≠ 3 → m ∈ (s.tile tile).mbox.mails → m.taken = false → h0Prio m.h0 < 40 →
    m.age < s.waitLevels tile m → ∃ u, exec (.packetAgeing tile m.pos) s = .next u ∧
      (u.tile tile).mbox.mails = (s.tile tile).mbox.mails.map fun y => if y.pos = m.pos then { y with age := y.age + 1 } else y) ∧
  -- R241: a packet that has waited 1,024 cycles since the YIELD.
  (∀ (tile : Nat) (s : State) (m : Mail), s.mode (s.rgnOf tile) ≠ 3 → (s.region (s.rgnOf tile)).modeOn ≠ 3 →
    m ∈ (s.tile tile).mbox.mails → m.begun = true → m.wait = true → m.yieldAt + 1024 ≤ s.clock tile →
    ∃ u, exec (.yieldReeligible tile m.pos) s = .next u ∧
      (u.tile tile).mbox.mails = (s.tile tile).mbox.mails.map fun y => if y.pos = m.pos then { y with wait := false } else y) ∧
  -- R46: the last token of an ended task, for a tile inside the region.
  (∀ (ts d : Nat) (s : State) (o : OutTok), s.mode (s.rgnOf (tileOf ts)) ≠ 3 → (s.ts ts).outs = [o] → s.relClear ts = true →
    (s.tile (tileOf ts)).stopped = false → s.gatedAt (tileOf ts) = false → h0Kind o.h0 < 6 → s.roomFor ts o = true → o.edge = none →
    (s.region (s.rgnOf (tileOf ts))).translate o.dst (decide (s.level (tileOf ts) = .user)) = .at d → d ≠ tileOf ts →
    ∃ (u : State) (f : Flying), exec (.completionToken ts) s = .next u ∧ u.net = s.net ++ [f] ∧ f.src = tileOf ts ∧ f.dst = d ∧ f.body = o.body ∧
      h1Port f.h1 = o.port % 4096) ∧
  -- R39: a credit on its way back reaches the source of its edge.
  (∀ (rgn n q : Nat) (rest : List Nat) (s : State), s.hasRegion rgn = true → s.mode rgn ≠ 3 →
    ((s.region rgn).edge n).returning = q :: rest → ((s.region rgn).edge n).holes = [] →
    (∀ z ∈ s.links.sources, ¬(z.ctx = (s.region rgn).ctx ∧ z.edge = n)) →
    ∃ u, exec (.creditReturn rgn n) s = .next u ∧ ((u.region rgn).edge n).credits = ((s.region rgn).edge n).credits + 1 ∧
      ((u.region rgn).edge n).returning = rest) ∧
  -- R56: a packet that is no hole, no eos and not rejected goes to the chosen replica.
  (∀ (rgn stg rep t : Nat) (h0 h1 : Word) (body : List Byte) (s : State), s.mode rgn ≠ 3 →
    ((s.region rgn).stage stg).nextPkt = some (h0, h1, body) → ((s.region rgn).stage stg).kind = .stateless →
    rep < ((s.region rgn).stage stg).replicas.length → isHole h0 = false → h0Kind h0 ≠ 2 →
    rejects ((s.region rgn).stage stg).conf (some ((s.region rgn).edge ((s.region rgn).stage stg).inEdge).len) false
      ((s.region rgn).edge ((s.region rgn).stage stg).inEdge).port h0 body = false →
    (s.region rgn).tileAt? (((s.region rgn).stage stg).replicas.getD rep 0) = some t → s.shut t = false →
    ∃ u, exec (.distributorDeal rgn stg rep) s = .next u ∧ ∃ m ∈ (u.tile t).mbox.mails, m.h0 = h0 ∧ m.h1 = h1 ∧ m.body = body ∧ m.kind = .edge) ∧
  -- R60: every lower SEQ has ended and each output edge has a credit.
  (∀ (rgn stg seq : Nat) (h0 : Word) (s : State), s.mode rgn ≠ 3 → ((s.region rgn).stage stg).kind = .stateless →
    ((s.region rgn).stage stg).eosIn = some (h0, seq) → ((s.region rgn).stage stg).eosOut = false → ((s.region rgn).stage stg).nextIn = seq →
    ((s.region rgn).stage stg).openSeqs = [] → s.outsReady rgn stg seq = true → (s.tile ((s.region rgn).leadTile stg)).stopped = false →
    ∃ u, exec (.stageEos rgn stg) s = .next u ∧ ((u.region rgn).stage stg).eosOut = true) ∧
  -- R61, R62: the next range token, once every slice of the one before it has been dispatched.
  (∀ (rgn stg : Nat) (h0 h1 : Word) (body : List Byte) (s : State), s.mode rgn ≠ 3 → ((s.region rgn).stage stg).kind = .range →
    ((s.region rgn).stage stg).nextPkt = some (h0, h1, body) → (∀ k, ((s.region rgn).stage stg).tok = some k → k.left = 0) →
    isHole h0 = false → h0Kind h0 ≠ 2 →
    rejects ((s.region rgn).stage stg).conf (some ((s.region rgn).edge ((s.region rgn).stage stg).inEdge).len) true
      ((s.region rgn).edge ((s.region rgn).stage stg).inEdge).port h0 body = false →
    ∃ (u : State) (k : RangeTok), exec (.rangeTokenTake rgn stg) s = .next u ∧ ((u.region rgn).stage stg).tok = some k ∧
      k.lo = ofBytes (body.take 8) ∧ k.hi = ofBytes ((body.drop 8).take 8) ∧
      k.count = (k.hi - k.lo + ((s.region rgn).stage stg).slice - 1) / ((s.region rgn).stage stg).slice ∧ k.left = k.count) ∧
  -- R63: a replica that has run empty asks its ring.
  (∀ (tile : Nat) (s : State), s.canAsk tile = true → s.mode (s.rgnOf tile) ≠ 3 →
    ∃ u, exec (.stealRequest tile) s = .next u ∧
      (s.tile tile).coord ∈ ((u.region (s.rgnOf tile)).stage (s.tile tile).conf.stage).asking) ∧
  -- R63: a request that waits at a replica between slices is answered, and waits no longer.
  (∀ (tile : Nat) (a : Nat × Nat) (s : State), s.mode (s.rgnOf tile) ≠ 3 → (s.tile tile).conf.actor = some .range →
    ((s.region (s.rgnOf tile)).stage (s.tile tile).conf.stage).asks.find? (fun a => a.2 == (s.tile tile).coord) = some a →
    AMap.get 0 (s.tile tile).coord ((s.region (s.rgnOf tile)).stage (s.tile tile).conf.stage).busy = 0 → s.splitInFlight tile = false →
    (s.tile tile).stopped = false → s.gatedAt tile = false →
    ∃ u, exec (.stealService tile) s = .next u ∧
      ((u.region (s.rgnOf tile)).stage (s.tile tile).conf.stage).asks = ((s.region (s.rgnOf tile)).stage (s.tile tile).conf.stage).asks.erase a) ∧
  -- R64: the donor of a dry field keeps the lower half of its slices.
  (∀ (rgn stg fld c : Nat) (s : State), s.mode rgn ≠ 3 → s.canCross rgn stg fld = true →
    (s.region rgn).donor ((s.region rgn).stage stg) fld = some c →
    ∃ u, exec (.crossFieldSplit rgn stg fld) s = .next u ∧
      AMap.get [] c ((u.region rgn).stage stg).rem =
        (AMap.get [] c ((s.region rgn).stage stg).rem).filter fun i => !(((s.region rgn).stage stg).upper c).contains i) ∧
  -- R64: every slice of every token has ended.
  (∀ (rgn stg seq : Nat) (h0 : Word) (s : State), s.mode rgn ≠ 3 → ((s.region rgn).stage stg).kind = .range →
    ((s.region rgn).stage stg).eosIn = some (h0, seq) → ((s.region rgn).stage stg).eosOut = false → ((s.region rgn).stage stg).nextIn = seq →
    ((s.region rgn).stage stg).rem = [] → ((s.region rgn).stage stg).busy = [] → (∀ k, ((s.region rgn).stage stg).tok = some k → k.left = 0) →
    s.outsReady rgn stg (((s.region rgn).stage stg).total % 2 ^ 32) = true → (s.tile ((s.region rgn).leadTile stg)).stopped = false →
    ∃ u, exec (.rangeStageEos rgn stg) s = .next u ∧ ((u.region rgn).stage stg).eosOut = true) ∧
  -- R297: the oldest packet that waits is admitted or spilled.
  (∀ (tile : Nat) (g : Waiting) (rest : List Waiting) (s : State), s.mode (s.rgnOf tile) ≠ 3 → s.shut tile = false → (s.tile tile).mbox.grants = g :: rest →
    (s.admits tile (packetLen g.pkt.1) || s.spillsTo tile (packetLen g.pkt.1)) = true →
    ∃ u, exec (.spawnAdmission tile) s = .next u ∧ (u.tile tile).mbox.grants = rest) ∧
  -- R67: every sink has reported, every posted store is acknowledged, every copy has ended and every append is written.
  (∀ (rgn : Nat) (s : State), s.hasRegion rgn = true → (s.region rgn).st = .running → (s.region rgn).outcome = .pending →
    (s.region rgn).ran = true → s.allReported rgn = true →
    (∀ d ∈ s.dreqs, d.rgn = rgn → field d.ctl 60 4 = 0) →
    (∀ t ∈ (s.region rgn).tilesOf, (∀ p ∈ (s.tile t).slots, p.2.toWrite = []) ∧
      ∀ i < 4, (s.ts (4 * t + i)).eng.journal = [] ∧ (s.ts (4 * t + i)).eng.copies = []) →
    ∃ u, exec (.regionCompletion rgn) s = .next u ∧ (u.region rgn).outcome = .completed ∧
      (u.region rgn).st = if (s.region rgn).seqOn then .running else .ended) ∧
  -- R69: a round during an open cut starts the count anew.
  (∀ (rgn : Nat) (s : State), s.hasRegion rgn = true → (s.region rgn).st = .running → (s.region rgn).ran = true → (s.region rgn).cut.phase = 1 →
    ∃ u, exec (.dormancyRound rgn) s = .next u ∧ (u.region rgn).dorm = (0, 0, 0) ∧ u.mem = s.mem ∧ u.tss = s.tss) ∧
  (∀ (tile pos : Nat) (s u : State), exec (.packetAgeing tile pos) s = .next u →
    (u.tile tile).mbox.mails = (s.tile tile).mbox.mails.map fun m => if m.pos = pos then { m with age := m.age + 1 } else m) ∧
  (∀ (rgn : Nat) (s u : State), exec (.dormancyRound rgn) s = .next u → (s.region rgn).cut.phase = 1 →
    (u.region rgn).dorm = (0, 0, 0) ∧ u.mem = s.mem ∧ u.tss = s.tss)

/-- R134 to R154, R160 to R175, R311 to R325: the events of the journal, of replies, landings, streams, copies and DRAM; posting
a release changes nothing but the entry, which then is pending (R144). -/
def Obligations.MemoryAndStreamEvents : Prop :=
  (∀ (ts ent : Nat) (s : State), comes "REMOTE_STORE_PERFORM" (.remoteStorePerform ts ent) s (s.canPerform ts ent false) (s.remotePerform ts ent)) ∧
  (∀ (ts ent : Nat) (s : State), comes "REMOTE_ATOMIC_PERFORM" (.remoteAtomicPerform ts ent) s (s.canPerform ts ent true) (s.remotePerform ts ent)) ∧
  (∀ (ts ix : Nat) (s : State), comes "REMOTE_LOAD_SERVICE" (.remoteLoadService ts ix) s (s.canLoad ts ix) (s.loadService ts ix)) ∧
  (∀ (ts ent : Nat) (s : State), comes "JOURNAL_ACK" (.journalAck ts ent) s (s.canAck ts ent) (s.journalAck ts ent)) ∧
  (∀ (ts ent : Nat) (s : State), comes "JOURNAL_REFUSAL" (.journalRefusal ts ent) s (s.canRefuse ts ent) (s.journalRefusal ts ent)) ∧
  (∀ (ts ix : Nat) (s : State), comes "LDR_REPLY" (.ldrReply ts ix) s (s.canLdrReply ts ix) (s.ldrReply ts ix)) ∧
  (∀ (ts ent : Nat) (s : State), comes "AMO_REPLY" (.amoReply ts ent) s (s.canAmoReply ts ent) (s.amoReply ts ent)) ∧
  (∀ (ts ent : Nat) (s : State), comes "REL_UPDATE_POST" (.relUpdatePost ts ent) s (s.canPost ts ent true) (s.postEntry ts ent)) ∧
  (∀ (ts ent : Nat) (s : State), comes "RELEASE_AMO_POST" (.releaseAmoPost ts ent) s (s.canPost ts ent false) (s.postEntry ts ent)) ∧
  (∀ (n : Nat) (s : State), comes "LANDING_ARRIVAL" (.landingArrival n) s (s.canLand n) (s.land n)) ∧
  (∀ (tile slot : Nat) (s : State), comes "STREAM_FETCH" (.streamFetch tile slot) s (s.canFetch tile slot) (s.streamFetch tile slot)) ∧
  (∀ (tile slot : Nat) (s : State), comes "STREAM_APPEND_WRITE" (.streamAppendWrite tile slot) s (s.canAppend tile slot) (s.appendWrite tile slot)) ∧
  (∀ (ts cp pc : Nat) (s : State), comes "COPY_PIECE" (.copyPiece ts cp pc) s (s.canPiece ts cp pc) (s.copyPiece ts cp pc)) ∧
  (∀ (n : Nat) (s : State), comes "DRAMREQ" (.dramreq n) s (s.canDramreq n) (s.dramreq n)) ∧
  (∀ (n : Nat) (s : State), comes "TRANSLATION_WALK" (.translationWalk n) s (s.canWalk n) (s.translationWalk n)) ∧
  (∀ (n : Nat) (s : State), comes "DRAM_REQUEST_PERFORM" (.dramRequestPerform n) s (s.canDramPerform n) (s.dramPerform n)) ∧
  (∀ (n : Nat) (s : State), comes "DRAMREP" (.dramrep n) s (s.canDramrep n) (s.dramrep n)) ∧
  -- R136, R138, R140: the oldest posted store to its place, inside the scratchpad range and not poisoned, stores its bytes.
  (∀ (ts ent d off : Nat) (s : State) (e : JEntry), (s.ts ts).entry ent = some e → e.kind = .store → e.state = .pending →
    s.inOrder ts e = true → s.destOf (tileOf ts) e.addr = .pool d off → s.heldAt (tileOf ts) d = false →
    s.ticketOk (s.rgnOf (tileOf ts)) (tileOf ts) (tsNum ts) 0 = true → s.inPad d off e.bytes.length = true →
    s.poisoned (poolKey d off) e.bytes.length = false →
    ∃ u, exec (.remoteStorePerform ts ent) s = .next u ∧ (∀ x ∈ (u.ts ts).eng.journal, x.num = ent → x.state = .done) ∧
      ∀ (i : Nat) (b : Byte), e.bytes[i]? = some (some b) → u.byte (poolKey d off + i) = b) ∧
  -- R138, R140: every entry that may be performed is performed or refused.
  (∀ (ts ent : Nat) (s : State), s.canPerform ts ent false = true →
    ∃ u, exec (.remoteStorePerform ts ent) s = .next u ∧
      ∀ x ∈ (u.ts ts).eng.journal, x.num = ent → x.state = .done ∨ ∃ c, x.state = .refused c false) ∧
  (∀ (ts ent : Nat) (s : State), s.canPerform ts ent true = true →
    ∃ u, exec (.remoteAtomicPerform ts ent) s = .next u ∧
      ∀ x ∈ (u.ts ts).eng.journal, x.num = ent → x.state = .done ∨ ∃ c, x.state = .refused c false) ∧
  -- R135, R274: a remote atomic keeps the old value for its reply and stores amo_new.
  (∀ (ts ent d off : Nat) (s : State) (e : JEntry) (o : AmoOp) (reg : Option Reg), (s.ts ts).entry ent = some e →
    e.kind = .atomic o reg → e.state = .pending → s.inOrder ts e = true → s.destOf (tileOf ts) e.addr = .pool d off →
    s.heldAt (tileOf ts) d = false → s.mode (s.rgnOf (tileOf ts)) = 0 → s.inPad d off o.bytes = true →
    s.poisoned (poolKey d off) o.bytes = false →
    ∃ u, exec (.remoteAtomicPerform ts ent) s = .next u ∧
      (∀ x ∈ (u.ts ts).eng.journal, x.num = ent → x.state = .done ∧ x.old = s.num (poolKey d off) o.bytes) ∧
      u.bytes (poolKey d off) o.bytes =
        leBytes o.bytes (amoNew (8 * o.bytes) o.op (s.num (poolKey d off) o.bytes) o.b o.cmp)) ∧
  -- R139, R272: a remote load behind no entry of its own reads the destination.
  (∀ (ts ix d off : Nat) (s : State) (f : Flight) (q : LoadReq), s.flight ts = some f → AMap.find ix f.reqs = some q → q.reply = .asked →
    s.ownPending ts q.addr q.size = false → s.destOf (tileOf ts) q.addr = .pool d off → s.heldAt (tileOf ts) d = false →
    s.mode (s.rgnOf (tileOf ts)) = 0 → s.inPad d off q.size = true → s.poisoned (poolKey d off) q.size = false →
    ∃ (u : State) (g : Flight), exec (.remoteLoadService ts ix) s = .next u ∧ u.flight ts = some g ∧
      AMap.find ix g.reqs = some { q with reply := .data (s.bytes (poolKey d off) q.size), dram := false }) ∧
  -- R137: the acknowledgement frees the entry.
  (∀ (ts ent : Nat) (s : State) (e : JEntry), (s.ts ts).entry ent = some e → e.state = .done → (∀ o r, e.kind ≠ .atomic o r) →
    (s.ts ts).outs = [] → ∃ u, exec (.journalAck ts ent) s = .next u ∧
      (u.ts ts).eng.journal = (s.ts ts).eng.journal.filter fun x => decide (x.num ≠ ent)) ∧
  -- R137, R140: a refusal that comes between blocks stops the thread set with cause 0x40, and the entry is free.
  (∀ (ts ent c : Nat) (s : State) (e : JEntry), (s.ts ts).entry ent = some e → e.state = .refused c false →
    (s.region (s.rgnOf (tileOf ts))).cut.why ≠ 2 → s.flight ts = none → (s.ts ts).stops.cut = false → (s.ts ts).stops.trellis = false →
    (s.ts ts).stops.fault = none → (s.ts ts).stops.frozen = none → (s.ts ts).stops.pendingFaults = [] →
    ∃ u, exec (.journalRefusal ts ent) s = .next u ∧
      (u.ts ts).stops.fault = some (((s.region (s.rgnOf (tileOf ts))).serial + 1) % 65536, refusalInfo e c (e.old = 1)) ∧
      ∀ x ∈ (u.ts ts).eng.journal, x.num ≠ ent) ∧
  -- R272: the reply of a served load reaches the block.
  (∀ (ts ix : Nat) (s : State) (f : Flight) (q : LoadReq), s.flight ts = some f → AMap.find ix f.reqs = some q → q.reply ≠ .asked →
    q.here = false → ∃ (u : State) (g : Flight), exec (.ldrReply ts ix) s = .next u ∧ u.flight ts = some g ∧
      AMap.find ix g.reqs = some { q with here := true }) ∧
  -- R92, R275: the register that an AMO left pending takes the old value.
  (∀ (ts ent : Nat) (i : BitVec 5) (s : State) (e : JEntry) (o : AmoOp), (s.ts ts).entry ent = some e → e.state = .done →
    e.kind = .atomic o (some (.s i)) → i ≠ 0 → s.ticketOk (s.rgnOf (tileOf ts)) (tileOf ts) (tsNum ts) 1 = true → ∃ u, exec (.amoReply ts ent) s = .next u ∧
      AMap.get 0 i.toNat (u.ts ts).regs.s = word e.old ∧ AMap.find (regKey (.s i)) (u.ts ts).eng.pend = none ∧
      ∀ x ∈ (u.ts ts).eng.journal, x.num ≠ ent) ∧
  -- R144, R147: a held release is posted once everything that it waits for is settled.
  (∀ (ts ent : Nat) (s : State) (e : JEntry), (s.ts ts).entry ent = some e → e.state = .held → e.kind = .rel → (s.ts ts).afterDone e = true →
    s.gatedAt (tileOf ts) = false →
    ∃ u, exec (.relUpdatePost ts ent) s = .next u ∧ u.mem = s.mem ∧
      (u.ts ts).eng.journal = (s.ts ts).eng.journal.map fun x => if x.num = ent then { x with state := .pending } else x) ∧
  (∀ (ts ent : Nat) (s : State) (e : JEntry) (o : AmoOp) (r : Option Reg), (s.ts ts).entry ent = some e → e.state = .held →
    e.kind = .atomic o r → (s.ts ts).afterDone e = true → s.gatedAt (tileOf ts) = false →
    ∃ u, exec (.releaseAmoPost ts ent) s = .next u ∧ u.mem = s.mem ∧
      (u.ts ts).eng.journal = (s.ts ts).eng.journal.map fun x => if x.num = ent then { x with state := .pending } else x) ∧
  -- R152: an arrival that does not end the generation adds to COUNT.
  (∀ (n : Nat) (s : State) (l : Landing), s.landings[n]? = some l → s.mode (s.rgnOf l.tile) = 0 → s.trellised l.tile = false →
    l.copy = none → s.landingTarget l.tile l.off ≠ 0 → s.num (poolKey l.tile l.off + 8) 8 + l.n < s.landingTarget l.tile l.off →
    ∃ u, exec (.landingArrival n) s = .next u ∧ u.landings = s.landings.eraseIdx n ∧
      u.num (poolKey l.tile l.off + 8) 8 = s.num (poolKey l.tile l.off + 8) 8 + l.n) ∧
  -- R161: an input stream with elements left fetches the next group.
  (∀ (tile slot : Nat) (s : State) (z : Slot), AMap.find slot (s.tile tile).slots = some z → z.desc.out = false →
    z.frontier < z.desc.length → z.ready.length < max z.desc.ahead (s.askedGroups z slot) → s.runnable z.ts = true → s.stilled z.ts = false →
    s.mode (s.rgnOf tile) ≠ 3 → (∀ i < z.desc.groupLen z.frontier, s.elemHeld tile z.desc (z.frontier + i) = false) →
    ∃ (u : State) (y : Slot), exec (.streamFetch tile slot) s = .next u ∧
      AMap.find slot (u.tile tile).slots = some y ∧ y.ready.length = z.ready.length + 1) ∧
  -- R162: the oldest committed append leaves the queue.
  (∀ (tile slot : Nat) (s : State) (z : Slot) (p : Nat × List Byte) (rest : List (Nat × List Byte)),
    AMap.find slot (s.tile tile).slots = some z → z.toWrite = p :: rest → (s.fieldRec (fieldOf tile)).gated = false → s.mode (s.rgnOf tile) ≠ 3 →
    s.elemHeld tile z.desc p.1 = false →
    ∃ (u : State) (y : Slot), exec (.streamAppendWrite tile slot) s = .next u ∧ AMap.find slot (u.tile tile).slots = some y ∧ y.toWrite = rest) ∧
  -- R170 to R172: a piece that the engine may do is done once.
  (∀ (ts cp pc : Nat) (s : State) (c : Copy), (s.ts ts).eng.copies.find? (fun c => c.id == cp) = some c → pc ∉ c.finished →
    pc ∈ s.pieceNums (tileOf ts) c → s.stilledCopy ts cp = false → s.pieceHeld (tileOf ts) c pc = false →
    (s.fieldRec (fieldOf (tileOf ts))).gated = false → s.mode (s.rgnOf (tileOf ts)) ≠ 3 →
    (s.pieceEnds (tileOf ts) c pc = true → s.ticketFree (s.rgnOf (tileOf ts)) (tileOf ts) (tsNum ts) 5 = true) →
    (∀ p ∈ s.piecePorts (tileOf ts) c pc, s.portTurn ts c.ahead (.dram p 0) = true) →
    ∃ u, exec (.copyPiece ts cp pc) s = .next u ∧ ∀ x ∈ (u.ts ts).eng.copies, x.id = cp → pc ∈ x.finished) ∧
  -- R177: the entry port takes a request while fewer than 256 pend there.
  (∀ (n : Nat) (s : State) (f : Flying), s.net[n]? = some f → s.toPort f = true → s.mode (s.rgnOfCtx (field f.h1 12 12)) ≠ 3 →
    s.oldestFlying n f = true → (s.dreqs.filter fun d => portTile d.port == f.dst).length < 256 → h0Kind f.h0 = 3 →
    ∃ (u : State) (d : DramReq), exec (.dramreq n) s = .next u ∧ u.net = s.net.eraseIdx n ∧ u.dreqs = s.dreqs ++ [d] ∧ d.tile = f.src ∧
      d.h0 = f.h0 ∧ d.body = f.body ∧ d.phys = .unwalked) ∧
  -- R340: a walk answers a well-formed request.
  (∀ (n : Nat) (s : State) (d : DramReq), s.dreqs[n]? = some d → d.phys = .unwalked → d.wellFormed = true →
    ∃ (u : State) (e : DramReq), exec (.translationWalk n) s = .next u ∧ u.dreqs[n]? = some e ∧ e.phys ≠ .unwalked ∧ e.body = d.body) ∧
  -- R175, R177, R363: a walked or malformed request before which none of its tile and none to its line stands, and which no other
  -- request at the port outranks, gets its reply.
  (∀ (n : Nat) (s : State) (d : DramReq), s.dreqs[n]? = some d → (d.wellFormed = true → d.phys ≠ .unwalked) → s.mode d.rgn ≠ 3 →
    (∀ q ∈ s.dreqs.take n, ¬(q.tile = d.tile ∧ q.port = d.port) ∧ (q.rgn = d.rgn → field q.addr 0 57 / 64 ≠ field d.addr 0 57 / 64)) →
    s.outranked d.port (s.dramRank d) = false →
    ∃ (u : State) (r : DramRep), exec (.dramRequestPerform n) s = .next u ∧ u.dreps = s.dreps ++ [r] ∧ r.tile = d.tile ∧ r.addr = d.addr ∧
      u.dreqs.length + 1 = s.dreqs.length ∧ (d.wellFormed = false → r.cause = 4)) ∧
  -- R175: the oldest reply of a tile arrives.
  (∀ (n : Nat) (s : State) (d : DramRep), s.dreps[n]? = some d → (∀ q ∈ s.dreps.take n, q.tile ≠ d.tile) → s.mode d.rgn ≠ 3 →
    s.shut (s.follow (s.region d.rgn).ctx d.tile) = false → ∃ u, exec (.dramrep n) s = .next u ∧ u.dreps = s.dreps.eraseIdx n) ∧
  (∀ (ts ent : Nat) (s u : State), exec (.relUpdatePost ts ent) s = .next u →
    (u.ts ts).eng.journal.map (fun e => (e.num, e.addr, e.kind)) = (s.ts ts).eng.journal.map (fun e => (e.num, e.addr, e.kind)) ∧
    (∀ e ∈ (u.ts ts).eng.journal, e.num = ent → e.state = .pending) ∧ u.mem = s.mem ∧ ∀ k ≠ ts, u.ts k = s.ts k)

/-- R182 to R190, R366 to R388: the events of the matrix engine, of fault tokens and repairs, of cuts, migration and saves; a
repair whose serial is not that of the open fault is reported stale (R374). The model's choices: that a save or restore is one event
(assumption 33), that the remainder of a context stands by its area (assumption 35), that a region that the host resumes from an area
which is not resumable is resident no more, where R385 changes nothing (assumption 37), the order of a tile's forwarding entries
(assumption 118), and that a SUBDATA write that would move a context from or to a halted cluster does nothing (assumption 132). -/
def Obligations.MatrixFaultAndSaveEvents : Prop :=
  (∀ (tile : Nat) (s : State), comes "MATRIX_OP" (.matrixOp tile) s (s.canOp tile) (s.matrixOp tile)) ∧
  (∀ (ts : Nat) (s : State), comes "WEIGHT_LOAD" (.weightLoad ts) s (s.canWeight ts) (s.weightLoad ts)) ∧
  (∀ (ts : Nat) (s : State), comes "ZERO_RECORD" (.zeroRecord ts) s (s.zeroHead ts).isSome (s.zeroRecord ts)) ∧
  (∀ (ts : Nat) (s : State), comes "DRAIN_ROW" (.drainRow ts) s (s.drainHead ts).isSome (s.drainRow ts)) ∧
  (∀ (tile : Nat) (s : State), comes "EPILOGUE_DISPATCH" (.epilogueDispatch tile) s (s.canEpilogue tile) (s.epilogueDispatch tile)) ∧
  (∀ (ts : Nat) (s : State), comes "FAULT_TOKEN_DISPATCH" (.faultTokenDispatch ts) s (s.canFaultDispatch ts) (s.faultDispatch ts)) ∧
  (∀ (ts : Nat) (s : State), comes "REPAIR_RESUME" (.repairResume ts) s (s.canRepair ts 0) (s.withRepair ts 0 fun _ s => s.resumeTs ts)) ∧
  (∀ (ts : Nat) (s : State),
    comes "REPAIR_RESUME_WITH_VALUE" (.repairResumeWithValue ts) s (s.canRepair ts 1)
      (s.withRepair ts 1 fun m s => s.resumeWith ts m)) ∧
  (∀ (ts : Nat) (s : State), comes "REPAIR_SKIP_BLOCK" (.repairSkipBlock ts) s (s.canRepair ts 2) (s.withRepair ts 2 fun _ s => s.skipBlock ts)) ∧
  (∀ (ts : Nat) (s : State), comes "REPAIR_KILL_TASK" (.repairKillTask ts) s (s.canRepair ts 3) (s.withRepair ts 3 fun _ s => s.killTask ts)) ∧
  (∀ (ts : Nat) (s : State), comes "REPAIR_MIGRATE" (.repairMigrate ts) s (s.canRepair ts 4) (s.withRepair ts 4 fun m s => s.repairMigrate ts m)) ∧
  (∀ (ts : Nat) (s : State),
    comes "REPAIR_HALT_REGION" (.repairHaltRegion ts) s (s.canRepair ts 5)
      (s.withRepair ts 5 fun _ s => s.haltRegion (s.rgnOf (tileOf ts)) 3)) ∧
  (∀ (rgn serial : Nat) (s : State), comes "FRZCTL_CONVERT" (.frzctlConvert rgn serial) s (s.hasRegion rgn) (s.frzConvert rgn serial)) ∧
  (∀ (rgn serial : Nat) (s : State), comes "FRZCTL_KILL" (.frzctlKill rgn serial) s (s.hasRegion rgn) (s.frzKill rgn serial)) ∧
  (∀ (rgn : Nat) (val : Word) (s : State), comes "SUBDATA_WRITE" (.subdataWrite rgn val) s (s.hasRegion rgn) (s.subdataWrite rgn val)) ∧
  (∀ (tile num : Nat) (val : Word) (s : State),
    comes "CSR_WRITE" (.csrWrite tile num val) s ((csrInfo num).isSome && isTile tile)
      (if csrWrites .device num && s.csrValueOk .device tile num val then s.csrWrite tile num val else s)) ∧
  (∀ (tile : Nat) (s : State), comes "TILE_STOPPED" (.tileStopped tile) s (s.canStop tile) (s.tileStopped tile)) ∧
  (∀ (rgn : Nat) (s : State), comes "CUT_CLOSE" (.cutClose rgn) s (s.canClose rgn) (s.cutClose rgn)) ∧
  (∀ (src dst : Nat) (s : State),
    comes "LIVE_MIGRATION" (.liveMigration src dst) s (s.canMigrate src dst)
      ((s.migrate src dst).traceFw (s.rgnOf src) 4 (s.tile src).coord (s.tile src).coord (s.tile dst).coord 0)) ∧
  (∀ (tile : Nat) (s : State),
    comes "FORWARDING_ENTRY_END" (.forwardingEntryEnd tile) s (s.canEndFwd tile)
      (s.updTile tile fun x => { x with fwds := x.fwds.dropLast })) ∧
  (∀ (rgn : Nat) (s : State), comes "CONTEXT_SAVE" (.contextSave rgn) s (s.canSave rgn) (s.contextSave rgn)) ∧
  (∀ (rgn : Nat) (s : State), comes "CONTEXT_RESTORE" (.contextRestore rgn) s (s.canRestore rgn) (s.contextRestore rgn)) ∧
  (∀ (rgn : Nat) (s : State), comes "WATCHDOG_EXPIRY" (.watchdogExpiry rgn) s (s.canWatch rgn) (s.watchdog rgn)) ∧
  (∀ (rgn : Nat) (s : State), comes "SAVE_DEADLINE_EXPIRY" (.saveDeadlineExpiry rgn) s (s.canExpire rgn) (s.saveDeadline rgn)) ∧
  (∀ (frame : Bool) (n : Nat) (s : State),
    comes "UNCORRECTABLE_ERROR" (.uncorrectableError frame n) s (errorPlace frame n) (s.uncorrectable frame n)) ∧
  -- R185, R187: an op that is ready runs when the slot before it is over, and retires.
  (∀ (tile : Nat) (s : State), s.anyOp tile = true → s.opDue tile ≤ (s.tile tile).cycle →
    ∃ (u : State) (i : Nat), i < 4 ∧ exec (.matrixOp tile) s = .next u ∧ s.opReady (4 * tile + i) = true ∧
      (u.ts (4 * tile + i)).eng.me = (s.ts (4 * tile + i)).eng.me + 1 ∧
      (u.ts (4 * tile + i)).eng.recs = (s.ts (4 * tile + i)).eng.recs.tail) ∧
  -- R186: the latch holds the eight columns, and the record retires.
  (∀ (ts : Nat) (s : State) (r : MRec) (kph b zst zb sst sb bcs bb : Nat), s.headReady ts = some r →
    r.body = .weight kph b zst zb sst sb bcs bb → s.poison = [] →
    ∃ u, exec (.weightLoad ts) s = .next u ∧ (u.ts ts).eng.me = (s.ts ts).eng.me + 1 ∧ (u.ts ts).eng.recs = (s.ts ts).eng.recs.tail ∧
      (u.ts ts).eng.latch = (List.range 8).flatMap fun j => s.bColumn (tileOf ts) b kph (bb + j * bcs) (sb + j * sst) (zb + j * zst)) ∧
  -- R126, R182: every element of the tile becomes zero.
  (∀ (ts a : Nat) (s : State), s.zeroHead ts = some a → ∃ u, exec (.zeroRecord ts) s = .next u ∧
    (u.tile (tileOf ts)).acc a = List.replicate 64 AccElem.zero ∧ (u.ts ts).eng.me = (s.ts ts).eng.me + 1 ∧
    (u.ts ts).eng.recs = (s.ts ts).eng.recs.tail) ∧
  -- R188: a row of a drain to memory; the drain goes on to the next, and retires after row 7.
  (∀ (ts : Nat) (s : State) (r : MRec) (d : Word) (st : Int) (cse : Bool) (csb drm : Nat) (ds dn epe : Bool) (eh df acc : Nat),
    s.drainHead ts = some r → r.body = .drain d st cse csb drm ds dn epe eh false df acc →
    ∃ u, exec (.drainRow ts) s = .next u ∧
      (r.row = 7 → (u.ts ts).eng.me = (s.ts ts).eng.me + 1 ∧ (u.ts ts).eng.recs = (s.ts ts).eng.recs.tail) ∧
      (r.row ≠ 7 → ∃ q, (u.ts ts).eng.recs = q :: (s.ts ts).eng.recs.tail ∧ q.row = r.row + 1)) ∧
  -- R76, R188: the epilogue thread set starts with the row in v0 and the row's number and the record's in s1 and s2.
  (∀ (tile k e : Nat) (s : State) (r : MRec), s.epilogueHead tile = some (k, r) → s.freeEpilogue tile = some e →
    ∃ (u : State) (a : Task), exec (.epilogueDispatch tile) s = .next u ∧ (u.ts e).kindOk = 2 ∧ (u.ts e).task = some a ∧
      a.epi = some (k, r.row, r.num) ∧ AMap.get Vec.zero 0 (u.ts e).regs.v = (s.drainVals tile r).1 ∧
      AMap.get 0 1 (u.ts e).regs.s = word r.row ∧ AMap.get 0 2 (u.ts e).regs.s = word (r.num % 2 ^ 32)) ∧
  -- R369: the oldest fault token of a Potting shed tile starts the handler of its class.
  (∀ (ts : Nat) (s : State) (m : Mail), s.freeFor ts = true → s.choice (tileOf ts) = some m → m.kind = .fault →
    s.sliceNext (tileOf ts) = false → s.mode (s.rgnOf (tileOf ts)) ≠ 3 → (s.region (s.rgnOf (tileOf ts))).shedDef = false →
    s.ticketFree (s.rgnOf (tileOf ts)) (tileOf ts) (tsNum ts) 3 = true →
    ∃ (u : State) (a : Task), exec (.faultTokenDispatch ts) s = .next u ∧ (u.ts ts).task = some a ∧ a.h0 = m.h0 ∧ a.h1 = m.h1 ∧
      (u.ts ts).regs.bpc = AMap.get 0 (h0Handler m.h0) (s.tile (tileOf ts)).conf.handlers) ∧
  -- R373, action 0: the thread set restarts at its BPC.
  (∀ (ts : Nat) (s : State) (m : Mail) (f : FaultInfo), s.repairMail ts 0 = some m → s.mode (s.rgnOf (tileOf ts)) ≠ 3 → (s.region (s.rgnOf (tileOf ts))).cut.phase = 0 →
    s.trellised (tileOf ts) = false → (s.ts ts).stops.fault = some (field m.repairWord 0 16, f) →
    ∃ u, exec (.repairResume ts) s = .next u ∧ (u.ts ts).stops.fault = none ∧ (u.ts ts).regs = (s.ts ts).regs) ∧
  -- R372, R373, action 1: a scalar register takes the value first.
  (∀ (ts : Nat) (i : BitVec 5) (s : State) (m : Mail) (f : FaultInfo), s.repairMail ts 1 = some m → s.mode (s.rgnOf (tileOf ts)) ≠ 3 →
    (s.region (s.rgnOf (tileOf ts))).cut.phase = 0 → s.trellised (tileOf ts) = false →
    (s.ts ts).stops.fault = some (field m.repairWord 0 16, f) → repairReg m.repairWord = .s i → i ≠ 0 →
    ∃ u, exec (.repairResumeWithValue ts) s = .next u ∧ (u.ts ts).stops.fault = none ∧ AMap.get 0 i.toNat (u.ts ts).regs.s = m.repairValue ∧
      (u.ts ts).regs.bpc = (s.ts ts).regs.bpc) ∧
  -- R373, action 2: after a precise fault other than a trap or a block fetch the next block follows; after any other stop BPC stands.
  (∀ (ts : Nat) (s : State) (m : Mail) (f : FaultInfo) (bs : List Byte), s.repairMail ts 2 = some m → s.mode (s.rgnOf (tileOf ts)) ≠ 3 →
    (s.region (s.rgnOf (tileOf ts))).cut.phase = 0 → s.trellised (tileOf ts) = false →
    (s.ts ts).stops.fault = some (field m.repairWord 0 16, f) → f.cause.cls = 0 → f.cause ≠ .trap → f.cause ≠ .blockFetch →
    ((s.dropMail (tileOf ts) m.pos).fetchCode (tileOf ts) (s.ts ts).regs.bpc 8).1 = .bytes bs →
    ∃ u, exec (.repairSkipBlock ts) s = .next u ∧ (u.ts ts).stops.fault = none ∧ (u.ts ts).kindOk = 0 ∧
      (u.ts ts).regs.bpc = nextBlock (s.ts ts).regs.bpc (field (word (ofBytes bs)) 53 7)) ∧
  (∀ (ts : Nat) (s : State) (m : Mail) (f : FaultInfo), s.repairMail ts 2 = some m → s.mode (s.rgnOf (tileOf ts)) ≠ 3 → (s.region (s.rgnOf (tileOf ts))).cut.phase = 0 →
    s.trellised (tileOf ts) = false → (s.ts ts).stops.fault = some (field m.repairWord 0 16, f) → f.cause.cls ≠ 0 ∨ f.cause = .trap →
    ∃ u, exec (.repairSkipBlock ts) s = .next u ∧ (u.ts ts).stops.fault = none ∧ (u.ts ts).regs = (s.ts ts).regs) ∧
  -- R373, action 3: the task ends, and its bindings with it.
  (∀ (ts : Nat) (s : State) (m : Mail) (f : FaultInfo), s.repairMail ts 3 = some m → s.mode (s.rgnOf (tileOf ts)) ≠ 3 → (s.region (s.rgnOf (tileOf ts))).cut.phase = 0 →
    s.trellised (tileOf ts) = false → (s.ts ts).stops.fault = some (field m.repairWord 0 16, f) → (s.ts ts).task.isSome = true →
    (s.ts ts).ending = false → ∃ u, exec (.repairKillTask ts) s = .next u ∧ (u.ts ts).stops.fault = none ∧ (u.ts ts).eng.binds = []) ∧
  -- R373, action 4, R380: the context moves to the spare tile that the repair names, and the thread set restarts there.
  (∀ (ts d : Nat) (s : State) (m : Mail) (f : FaultInfo), s.repairMail ts 4 = some m → (s.region (s.rgnOf (tileOf ts))).cut.phase = 0 →
    s.trellised (tileOf ts) = false → (s.ts ts).stops.fault = some (field m.repairWord 0 16, f) →
    (s.region (s.rgnOf (tileOf ts))).tileAt? (packXY (field m.repairWord 32 10) (field m.repairWord 42 10)) = some d →
    s.spare (s.rgnOf (tileOf ts)) d = true → d ≠ tileOf ts → (s.region (s.rgnOf (tileOf ts))).modeOn = 0 → s.shut d = false →
    ∃ u, exec (.repairMigrate ts) s = .next u ∧ (u.ts (4 * d + tsNum ts)).stops.fault = none ∧
      (u.tile d).conf.actor = (s.tile (tileOf ts)).conf.actor ∧ (u.tile (tileOf ts)).conf.actor = none) ∧
  -- R373, action 5: the region is halted.
  (∀ (ts : Nat) (s : State) (m : Mail) (f : FaultInfo), s.repairMail ts 5 = some m → s.mode (s.rgnOf (tileOf ts)) ≠ 3 → s.hasRegion (s.rgnOf (tileOf ts)) = true →
    (s.region (s.rgnOf (tileOf ts))).cut.phase = 0 → s.trellised (tileOf ts) = false →
    (s.ts ts).stops.fault = some (field m.repairWord 0 16, f) →
    ∃ u, exec (.repairHaltRegion ts) s = .next u ∧ (u.region (s.rgnOf (tileOf ts))).outcome = .failed) ∧
  -- R344: the freeze of that serial is resolved.
  (∀ (rgn serial : Nat) (s : State), s.hasRegion rgn = true →
    ∃ u, exec (.frzctlConvert rgn serial) s = .next u ∧ ∀ x ∈ (u.region rgn).freezes, x.serial ≠ serial) ∧
  (∀ (rgn serial : Nat) (s : State), s.hasRegion rgn = true →
    ∃ u, exec (.frzctlKill rgn serial) s = .next u ∧ (∀ x ∈ (u.region rgn).freezes, x.serial ≠ serial) ∧
      ((∃ x ∈ (s.region rgn).freezes, x.serial = serial) → (u.region rgn).outcome = .failed)) ∧
  -- R333: an illegal entry changes nothing; a legal one stands at the place that SUBIDX selects, where no cluster is halted.
  (∀ (rgn : Nat) (val : Word) (s : State), s.hasRegion rgn = true → s.subdataOk rgn val = false → exec (.subdataWrite rgn val) s = .next s) ∧
  (∀ (rgn : Nat) (val : Word) (s : State), s.hasRegion rgn = true → s.subdataOk rgn val = true → (∀ t, s.shut t = false) →
    ∃ u, exec (.subdataWrite rgn val) s = .next u ∧
      AMap.get 0 (field (csrOf (s.region rgn).csr 0x008) 6 8 * 64 + field (csrOf (s.region rgn).csr 0x008) 0 6) (u.region rgn).subst =
        word (val.toNat - field val 40 21 * 2 ^ 40)) ∧
  -- R10, R303: a write that is not allowed, or of a value out of range, changes nothing; POLICY keeps its low 16 bits.
  (∀ (tile num : Nat) (val : Word) (s : State), (csrInfo num).isSome = true → isTile tile = true →
    csrWrites .device num = false ∨ s.csrValueOk .device tile num val = false → exec (.csrWrite tile num val) s = .next s) ∧
  (∀ (tile : Nat) (val : Word) (s : State), isTile tile = true → s.hasRegion (s.rgnOf tile) = true →
    ∃ u, exec (.csrWrite tile 0x041 val) s = .next u ∧ csrOf (u.region (s.rgnOf tile)).csr 0x041 = val &&& 0xFFFF) ∧
  -- R92, R378: a tile that is asked to stop and holds no pending register stops: no block is left, and the colour flips.
  (∀ (tile : Nat) (s : State), (s.tile tile).stopping = true → (s.tile tile).stopped = false → s.gatedAt tile = false →
    (∀ i < 4, (s.ts (4 * tile + i)).eng.pend = []) → ∃ u, exec (.tileStopped tile) s = .next u ∧ (u.tile tile).stopped = true ∧
      (u.tile tile).colour = !(s.tile tile).colour ∧ ∀ i < 4, u.flight (4 * tile + i) = none ∧ (u.ts (4 * tile + i)).stops.cut = true) ∧
  -- R379: every tile has stopped, the colour's packets are all received, and no entry port owes a reply of it.
  (∀ (rgn : Nat) (s : State), s.hasRegion rgn = true → (s.region rgn).cut.phase = 1 → (∀ t ∈ (s.region rgn).tilesOf, (s.tile t).stopped = true) →
    (s.colourSums rgn (s.region rgn).colour).1 = (s.colourSums rgn (s.region rgn).colour).2 →
    (∀ d ∈ s.dreqs, d.rgn = rgn → d.colour ≠ (s.region rgn).colour) → (∀ d ∈ s.dreps, d.rgn = rgn → d.colour ≠ (s.region rgn).colour) →
    ∃ u, exec (.cutClose rgn) s = .next u ∧ (u.region rgn).cut.phase = 2 ∧ (u.region rgn).colour = !(s.region rgn).colour) ∧
  -- R380, R381: the context moves to the spare tile, and a forwarding entry stays behind.
  (∀ (src dst : Nat) (s : State), s.canMigrate src dst = true → ∃ u, exec (.liveMigration src dst) s = .next u ∧
    (u.tile dst).conf.actor = (s.tile src).conf.actor ∧ (u.tile src).conf.actor = none ∧
    (u.tile src).fwds = ⟨s.ctxOf src, dst, (s.tile src).cycle + 2 ^ 20⟩ :: (s.tile src).fwds) ∧
  (∀ (tile : Nat) (s : State) (f : Forward), (s.tile tile).fwds.getLast? = some f → f.expiry ≤ (s.tile tile).cycle →
    (∀ p ∈ s.net, p.dst = tile → p.edge = none) → ∃ u, exec (.forwardingEntryEnd tile) s = .next u ∧
      (u.tile tile).fwds = (s.tile tile).fwds.dropLast ∧ u.mem = s.mem ∧ u.net = s.net) ∧
  -- R384, R385: the accepted save or restore is carried out, and the engines go on to the next; a region that the host saves, or
  -- that it resumes from an area which is not resumable, is resident no more.
  (∀ (rgn : Nat) (s : State) (w : SaveWork), s.canSave rgn = true → (s.region rgn).saving = some w →
    ∃ u, exec (.contextSave rgn) s = .next u ∧ (w.host = none → (u.region rgn).saving = (s.region rgn).saveNext.head?) ∧
      ((s.region rgn).cut.phase = 2 → w.host.isSome = true → u.hasRegion rgn = false)) ∧
  (∀ (rgn : Nat) (s : State) (w : SaveWork), s.canRestore rgn = true → (s.region rgn).saving = some w →
    ∃ u, exec (.contextRestore rgn) s = .next u ∧
      (w.host = none ∨ s.resumable w.area (s.region rgn) = true → (u.region rgn).saving = (s.region rgn).saveNext.head?) ∧
      (w.host.isSome = true → s.resumable w.area (s.region rgn) = false → u.hasRegion rgn = false)) ∧
  -- R386, R398, R414: the watchdog halts a running region of which no field is gated and no cluster halted.
  (∀ (rgn : Nat) (s : State), s.hasRegion rgn = true → bitAt (csrOf (s.region rgn).csr 0x106) 16 = true → (s.region rgn).st = .running →
    (∀ t ∈ (s.region rgn).tilesOf, (s.fieldRec (fieldOf t)).gated = false ∧ s.trellised t = false) → ∃ u, exec (.watchdogExpiry rgn) s = .next u ∧ (u.region rgn).outcome = .failed) ∧
  -- R387: a save that its deadline overtakes leaves the region ended.
  (∀ (rgn : Nat) (s : State), s.canExpire rgn = true → ∃ u, exec (.saveDeadlineExpiry rgn) s = .next u ∧ (u.region rgn).saving = (s.region rgn).saveNext.head? ∧
    (u.region rgn).st = .ended ∧ (u.region rgn).outcome = .failed) ∧
  -- R375: a line is poisoned; a frame's thread set stops with cause 0x24.
  (∀ (n : Nat) (s : State), errorPlace false n = true → ∃ u, exec (.uncorrectableError false n) s = .next u ∧ n ∈ u.poison) ∧
  (∀ (n : Nat) (s : State), errorPlace true n = true → (s.ts n).stops.fault = none → (s.ts n).stops.frozen = none →
    ∃ (u : State) (q : Nat × FaultInfo), exec (.uncorrectableError true n) s = .next u ∧ (u.ts n).stops.fault = some q ∧
      q.2.cause = .dataError ∧ q.2.index = 255) ∧
  (∀ (ts : Nat) (s u : State) (m : Mail) (n : Nat) (f : FaultInfo), exec (.repairResume ts) s = .next u → s.repairMail ts 0 = some m →
    (s.ts ts).stops.fault = some (n, f) → n ≠ field m.repairWord 0 16 →
    u = (s.dropMail (tileOf ts) m.pos).repairReport ts .staleRepair)

/-- R326 to R365: the events of command queues, sequencers, intervals and the lease; a doorbell moves the tail, and disabling a
queue clears its enable bit (R350). The model's choices: that the queue goes on at a LAUNCH, whose completion comes at END (assumption
40), the places of the arguments and the state codes of QUERY (assumption 39), and which cores live and hold a current copy, with the
lapse only after the lead has stopped acting (assumption 44). -/
def Obligations.HostAndSequencerEvents : Prop :=
  (∀ (q : Nat) (s : State), comes "CMD_CREATE" (.cmdCreate q) s (s.cmdAt q 1) (s.command q false cmdCreate)) ∧
  (∀ (q : Nat) (s : State), comes "CMD_LOADIMG" (.cmdLoadimg q) s (s.cmdAt q 2) (s.command q false cmdLoadimg)) ∧
  (∀ (q : Nat) (s : State), comes "CMD_LAUNCH" (.cmdLaunch q) s (s.cmdAt q 3) (s.launch q)) ∧
  (∀ (q : Nat) (s : State), comes "CMD_DELTA" (.cmdDelta q) s (s.canDelta q) (s.cmdDelta q)) ∧
  (∀ (q : Nat) (s : State), comes "CMD_PREEMPT" (.cmdPreempt q) s (s.cmdAt q 5) (s.cmdPreempt q)) ∧
  (∀ (q : Nat) (s : State), comes "CMD_RESUME" (.cmdResume q) s (s.cmdAt q 6) (s.cmdResume q)) ∧
  (∀ (q : Nat) (s : State), comes "CMD_KILL" (.cmdKill q) s (s.cmdAt q 7) (s.command q false cmdKill)) ∧
  (∀ (q : Nat) (s : State), comes "CMD_GRANT" (.cmdGrant q) s (s.cmdAt q 8) (s.command q false cmdGrant)) ∧
  (∀ (q : Nat) (s : State), comes "CMD_QUERY" (.cmdQuery q) s (s.cmdAt q 9) (s.command q true cmdQuery)) ∧
  (∀ (q : Nat) (s : State), comes "CMD_DESTROY" (.cmdDestroy q) s (s.cmdAt q 10) (s.command q false cmdDestroy)) ∧
  (∀ (q : Nat) (val : Word) (s : State),
    comes "DOORBELL_WRITE" (.doorbellWrite q val) s (decide (q < 64))
      (s.updQueue q fun z => { z with tail := field val 0 16 % 2 ^ field z.qcfg 4 4, chead := field val 16 16 })) ∧
  (∀ (q : Nat) (s : State), comes "QCFG_DISABLE" (.qcfgDisable q) s (decide (q < 64) && bitAt (s.queue q).qcfg 0) (s.qcfgDisable q)) ∧
  (∀ (q : Nat) (val sqb cqb : Word) (s : State),
    comes "QCFG_ENABLE" (.qcfgEnable q val sqb cqb) s (decide (q < 64) && !bitAt (s.queue q).qcfg 0 && decide (4 ≤ field val 4 4 ∧ field val 4 4 ≤ 12) && field sqb 0 6 == 0 && field cqb 0 4 == 0 && (decide (q = 0) || !s.links.boot.minimal)) (s.qcfgEnable q val sqb cqb)) ∧
  (∀ (rgn : Nat) (s : State), comes "SEQ_END" (.seqEnd rgn) s (s.canAnswer rgn || (s.seqAt rgn 0 && s.launchDone rgn))
    (if s.canAnswer rgn then s.answerEndings rgn else s.seqFinish rgn none)) ∧
  (∀ (rgn : Nat) (s : State), comes "SEQ_RUN" (.seqRun rgn) s (s.canRun rgn) (s.seqRun rgn)) ∧
  (∀ (rgn : Nat) (s : State),
    comes "SEQ_AWAIT" (.seqAwait rgn) s (s.seqAt rgn 2 && (!(s.region rgn).ran || decide ((s.region rgn).outcome ≠ .pending)))
      (s.seqNext rgn)) ∧
  (∀ (rgn : Nat) (s : State), comes "SEQ_APPLY" (.seqApply rgn) s (s.canApply rgn) (s.seqApply rgn)) ∧
  (∀ (rgn : Nat) (s : State),
    comes "SEQ_BRANCH" (.seqBranch rgn) s (s.seqAt rgn 4)
    (if (s.region rgn).cond (s.region rgn).record.2.1 then s.seqTo rgn (s.region rgn).record.2.2 else s.seqNext rgn)) ∧
  (∀ (rgn : Nat) (s : State), comes "SEQ_HOLD" (.seqHold rgn) s (s.seqAt rgn 5) (s.updRegion rgn fun g => { g with hold := true }).commitUpdate) ∧
  (∀ (rgn : Nat) (s : State), comes "TRANSPLANTER_INTERVAL" (.transplanterInterval rgn) s (s.canInterval rgn) (s.interval rgn)) ∧
  (∀ (reached : List Nat) (s : State),
    comes "LEASE_RENEWAL" (.leaseRenewal reached) s (s.links.lease.lead.isSome && s.links.lease.acting && !s.links.boot.minimal && reached.all fun f => decide (f < 84)) (s.renew reached)) ∧
  (∀ (core : Nat) (s : State),
    comes "LEASE_LAPSE" (.leaseLapse core) s (!s.links.lease.acting && s.links.lease.lead.isSome && s.successor == some core)
      (s.lapse core)) ∧
  -- R352, R22: CREATE of a free geometry in present fields gives the context a region.
  (∀ (q r : Nat) (s : State), begins s q 1 → (s.entry q).ctx ≠ 0 → field ((s.entry q).arg 0) 32 32 = 0 → ((s.entry q).arg 1).toNat ≤ 7 →
    2 ≤ field ((s.entry q).arg 0) 16 8 → 2 ≤ field ((s.entry q).arg 0) 24 8 → s.rgnFor (s.entry q).ctx = none →
    s.savedArea (s.entry q).ctx = none → geomPresent ((s.entry q).arg 0) = true → s.geomFree ((s.entry q).arg 0) = true →
    s.freeNumber = some r →
    s.deadFit { Region.init with ctx := (s.entry q).ctx, geom := (s.entry q).arg 0, csr := csrPut [] 0x047 ((s.entry q).arg 1) } = true →
    ∃ u, exec (.cmdCreate q) s = .next u ∧ headMoves s u q ∧ (u.region r).ctx = (s.entry q).ctx ∧ (u.region r).geom = (s.entry q).arg 0 ∧
      (u.region r).st = .empty) ∧
  -- R347, R352: LOADIMG of an image that passes every check.
  (∀ (q r : Nat) (bs : List Byte) (i : Image) (s : State), begins s q 2 → s.rgnFor (s.entry q).ctx = some r →
    ((s.region r).st = .empty ∨ (s.region r).st = .loaded ∨ (s.region r).st = .ended) →
    field ((s.entry q).arg 0) 0 6 = 0 →
    ((s.imageBytes r ((s.entry q).arg 0) 0x80).bind fun h => s.imageBytes r ((s.entry q).arg 0) (numAt h 8 8)) = some bs →
    readImage bs = some i → i.ok (s.region r) s.map.deadPorts = true → s.portsFree r i.ports = true →
    ∃ u, exec (.cmdLoadimg q) s = .next u ∧ headMoves s u q ∧ (u.region r).image = some i ∧ (u.region r).st = .loaded) ∧
  -- R349, R352: LAUNCH starts the program that it names, and the queue goes on.
  (∀ (q r : Nat) (i : Image) (s : State), begins s q 3 → s.rgnFor (s.entry q).ctx = some r →
    ((s.region r).st = .loaded ∨ (s.region r).st = .ended) →
    (s.region r).image = some i → (AMap.find ((s.entry q).arg 0).toNat i.progs).isSome = true → powerOk ((s.entry q).arg 1) = true →
    ∃ u, exec (.cmdLaunch q) s = .next u ∧ headMoves s u q ∧ (u.region r).seqOn = true ∧ (u.region r).seqPos = 0 ∧
      (u.region r).progIx = ((s.entry q).arg 0).toNat ∧ (u.region r).request = (s.entry q).arg 1) ∧
  -- R354: DELTA begins on a running region, and the queue waits for it; step 2 waits for the moves that have begun.
  (∀ (q r : Nat) (d : List TileConf × AMap EdgeConf) (s : State), begins s q 4 → s.deltaOf q = none →
    s.rgnFor (s.entry q).ctx = some r → (s.region r).st = .running → (s.region r).delta = none → (s.region r).preempted = false →
    (s.region r).deltaNo ((s.entry q).arg 0).toNat = some d → s.deltaOk r d = true →
    ∃ u, exec (.cmdDelta q) s = .next u ∧ (u.queue q).busy = true ∧
      (u.region r).delta = some ⟨d.1, d.2, some (q, (s.entry q).tag), (s.region r).movesDone d.1⟩) ∧
  -- R352, R378: PREEMPT of a running region with a legal save area accepts the save and requests the cut.
  (∀ (q r : Nat) (s : State), begins s q 5 → s.rgnFor (s.entry q).ctx = some r → (s.region r).st = .running →
    ((s.entry q).arg 0).toNat % 4096 = 0 →
    physOk ((s.entry q).arg 0).toNat (sectionAt 0 (s.region r).sections (s.region r).sections) = true →
    let w : SaveWork := ⟨true, ((s.entry q).arg 0).toNat, none, false, false, some (q, (s.entry q).tag)⟩
    ∃ u, exec (.cmdPreempt q) s = .next u ∧ (u.queue q).busy = true ∧
      ((s.region r).saving = none → (u.region r).saving = some w) ∧
      (∀ v, (s.region r).saving = some v → (u.region r).saving = some v ∧ (u.region r).saveNext = (s.region r).saveNext ++ [w]) ∧
      ((s.region r).delta = none → (s.region r).cut.phase = 0 → (u.region r).cut.phase = 1 ∧ (u.region r).cut.why = 1)) ∧
  -- R349, R426: RESUME of a HOLD goes on with the next record, in the replay mode that RPLCTL names.
  (∀ (q r : Nat) (s : State), begins s q 6 → (s.entry q).arg 0 = 0 → s.rgnFor (s.entry q).ctx = some r →
    (s.region r).st = .running → (s.region r).seqOn = true → (s.region r).hold = true →
    ∃ u, exec (.cmdResume q) s = .next u ∧ headMoves s u q ∧ (u.region r).hold = false ∧ (u.region r).modeOn = (s.region r).rplMode ∧ (u.region r).seqPos = (s.region r).seqPos + 1) ∧
  -- R352, R385: RESUME of a saved context makes it resident, and the queue waits for the restore.
  (∀ (q r : Nat) (z : Saved) (s : State), begins s q 6 → (s.entry q).arg 0 ≠ 0 → s.rgnFor (s.entry q).ctx = none →
    AMap.find ((s.entry q).arg 0).toNat s.saves = some z → z.region.ctx = (s.entry q).ctx → z.away = true → z.region.st = .saved →
    s.geomFree z.region.geom = true → s.deadFit z.region = true →
    s.portsFree 256 (match z.region.image with | some i => i.ports | none => []) = true → s.freeNumber = some r →
    ∃ u, exec (.cmdResume q) s = .next u ∧ (u.queue q).busy = true ∧ (u.region r).ctx = (s.entry q).ctx ∧
      (u.region r).saving = some ⟨false, ((s.entry q).arg 0).toNat, none, false, false, some (q, (s.entry q).tag)⟩) ∧
  -- R352, R353: KILL ends a running region, and a saved context, which stays without tiles.
  (∀ (q r : Nat) (s : State), begins s q 7 → s.savedArea (s.entry q).ctx = none → s.rgnFor (s.entry q).ctx = some r → (s.region r).st = .running →
    ∃ u, exec (.cmdKill q) s = .next u ∧ (u.region r).st = .ended ∧ (u.region r).outcome = .failed ∧ (u.region r).seqOn = false) ∧
  (∀ (q a : Nat) (z : Saved) (s : State), begins s q 7 → s.savedArea (s.entry q).ctx = some a → AMap.find a s.saves = some z →
    z.region.st = .saved → ∃ (u : State) (y : Saved), exec (.cmdKill q) s = .next u ∧ headMoves s u q ∧ AMap.find a u.saves = some y ∧
      y.region.st = .ended ∧ y.region.outcome = .failed ∧ y.region.seqOn = false) ∧
  -- R355: GRANT stores the power word.
  (∀ (q r : Nat) (s : State), begins s q 8 → powerOk ((s.entry q).arg 0) = true → s.rgnFor (s.entry q).ctx = some r →
    ((s.region r).st = .empty ∨ (s.region r).st = .loaded ∨ (s.region r).st = .running) →
    ∃ u, exec (.cmdGrant q) s = .next u ∧ headMoves s u q ∧ (u.region r).granted = (s.entry q).arg 0) ∧
  -- R350: QUERY of a resident region, also in minimal mode: STATUS 0 and the state with the sequence position.
  (∀ (q r : Nat) (s : State), s.cmdAt q 9 = true → (s.queue q).grants q (s.entry q).ctx = true → (s.entry q).pad = 0 → (s.entry q).ctx < 4096 →
    s.rgnFor (s.entry q).ctx = some r →
    ∃ u, exec (.cmdQuery q) s = .next u ∧ headMoves s u q ∧
      u.byte (hostKey ((s.queue q).cqbase.toNat + 16 * (s.queue q).ctail) + 4) = 0 ∧
      u.num (hostKey ((s.queue q).cqbase.toNat + 16 * (s.queue q).ctail) + 8) 8 =
        at_ 0 8 (s.region r).st.code + at_ 8 16 (s.region r).seqPos) ∧
  -- R352: DESTROY of a region that is not running, and of a saved context that a KILL has ended.
  (∀ (q r : Nat) (s : State), begins s q 10 → s.savedArea (s.entry q).ctx = none → s.rgnFor (s.entry q).ctx = some r →
    ((s.region r).st = .empty ∨ (s.region r).st = .loaded ∨ (s.region r).st = .ended) →
    (∀ w ∈ (s.region r).saving.toList ++ (s.region r).saveNext, ∀ p, w.host = some p → p.1 ≠ q) →
    ∃ u, exec (.cmdDestroy q) s = .next u ∧ headMoves s u q ∧ u.hasRegion r = false) ∧
  (∀ (q a : Nat) (z : Saved) (s : State), begins s q 10 → s.savedArea (s.entry q).ctx = some a → AMap.find a s.saves = some z →
    z.region.st = .ended → ∃ u, exec (.cmdDestroy q) s = .next u ∧ headMoves s u q ∧ AMap.find a u.saves = none) ∧
  -- R350: the doorbell of a queue.
  (∀ (q : Nat) (val : Word) (s : State), q < 64 → ∃ u, exec (.doorbellWrite q val) s = .next u ∧
    (u.queue q).tail = field val 0 16 % 2 ^ field (s.queue q).qcfg 4 4 ∧ (u.queue q).chead = field val 16 16) ∧
  -- R351: a queue that is disabled discards its commands; one that is enabled starts anew.
  (∀ (q : Nat) (s : State), q < 64 → bitAt (s.queue q).qcfg 0 = true → ∃ u, exec (.qcfgDisable q) s = .next u ∧
    bitAt (u.queue q).qcfg 0 = false ∧ (u.queue q).head = 0 ∧ (u.queue q).tail = 0 ∧ (u.queue q).busy = false) ∧
  (∀ (q : Nat) (val sqb cqb : Word) (s : State), q < 64 → bitAt (s.queue q).qcfg 0 = false → 4 ≤ field val 4 4 → field val 4 4 ≤ 12 →
    field sqb 0 6 = 0 → field cqb 0 4 = 0 → (q = 0 ∨ s.links.boot.minimal = false) →
    ∃ u, exec (.qcfgEnable q val sqb cqb) s = .next u ∧ bitAt (u.queue q).qcfg 0 = true ∧ field (u.queue q).qcfg 4 4 = field val 4 4 ∧
      (u.queue q).sqbase = sqb ∧ (u.queue q).cqbase = cqb ∧ (u.queue q).head = 0 ∧ (u.queue q).phase = true) ∧
  -- R433: the programs that a command has ended complete once their stores are performed.
  (∀ (rgn : Nat) (s : State), s.canAnswer rgn = true → ∃ u, exec (.seqEnd rgn) s = .next u ∧ (u.region rgn).endings = []) ∧
  -- R349, R352: the records of a program.
  (∀ (rgn : Nat) (s : State), s.canAnswer rgn = false → s.seqAt rgn 0 = true → s.launchDone rgn = true → ∃ u, exec (.seqEnd rgn) s = .next u ∧ (u.region rgn).seqOn = false ∧
    (u.region rgn).launchBy = none) ∧
  (∀ (rgn : Nat) (i : Image) (c : ConfImage) (s : State), s.seqAt rgn 1 = true → (s.region rgn).delta = none → (s.region rgn).ran = false →
    (s.region rgn).image = some i → AMap.find (s.region rgn).record.2.2 i.confs = some c →
    ∃ u, exec (.seqRun rgn) s = .next u ∧ (u.region rgn).st = .running ∧ (u.region rgn).ran = true ∧ (u.region rgn).outcome = .pending ∧
      (u.region rgn).seqPos = (s.region rgn).seqPos + 1) ∧
  (∀ (rgn : Nat) (s : State), s.seqAt rgn 2 = true → ((s.region rgn).ran = false ∨ (s.region rgn).outcome ≠ .pending) →
    ∃ u, exec (.seqAwait rgn) s = .next u ∧ (u.region rgn).seqPos = (s.region rgn).seqPos + 1) ∧
  (∀ (rgn : Nat) (d : List TileConf × AMap EdgeConf) (s : State), s.seqAt rgn 3 = true → s.launchDone rgn = true →
    (s.region rgn).delta = none → (s.region rgn).namedDelta = some d → s.deltaOk rgn d = true →
    ∃ u, exec (.seqApply rgn) s = .next u ∧ (u.region rgn).delta = some ⟨d.1, d.2, none, (s.region rgn).movesDone d.1⟩) ∧
  (∀ (rgn : Nat) (s : State), s.seqAt rgn 4 = true → ∃ u, exec (.seqBranch rgn) s = .next u ∧
    (u.region rgn).seqPos = if (s.region rgn).cond (s.region rgn).record.2.1 then (s.region rgn).record.2.2 else (s.region rgn).seqPos + 1) ∧
  (∀ (rgn : Nat) (s : State), s.seqAt rgn 5 = true → ∃ u, exec (.seqHold rgn) s = .next u ∧ (u.region rgn).hold = true ∧
    (u.region rgn).seqPos = (s.region rgn).seqPos) ∧
  -- R358: an interval of a region whose balancing is off counts, and moves no replica.
  (∀ (rgn : Nat) (s : State), s.hasRegion rgn = true → (s.region rgn).st = .running → bitAt (csrOf (s.region rgn).csr 0x040) 24 = false →
    ∃ u, exec (.transplanterInterval rgn) s = .next u ∧ (u.region rgn).interval = (s.region rgn).interval + 1 ∧
      (u.region rgn).stages.map (fun p => (p.1, p.2.replicas)) = (s.region rgn).stages.map fun p => (p.1, p.2.replicas)) ∧
  -- R364, R365: the lead and the cores that a renewal reaches live and are current, the others keep what they have; a core that takes
  -- over leads.
  (∀ (reached : List Nat) (s : State), s.links.lease.lead.isSome = true → s.links.lease.acting = true → s.links.boot.minimal = false →
    (∀ f ∈ reached, f < 84) → ∃ u, exec (.leaseRenewal reached) s = .next u ∧
      ∀ f < 84, let x := u.fieldRec f
        if reached.contains f = true ∨ s.links.lease.lead = some f then x.alive = true ∧ x.current = true ∧ x.missed = false
        else x.alive = (s.fieldRec f).alive ∧ x.current = (s.fieldRec f).current ∧ x.missed = true) ∧
  (∀ (core : Nat) (s : State), s.links.lease.acting = false → s.links.lease.lead.isSome = true → s.successor = some core →
    ∃ u, exec (.leaseLapse core) s = .next u ∧ u.links.lease.lead = some core ∧ u.links.lease.acting = true) ∧
  (∀ (q : Nat) (v : Word) (s u : State), exec (.doorbellWrite q v) s = .next u →
    (u.queue q).tail < 2 ^ field (s.queue q).qcfg 4 4 ∧ (u.queue q).head = (s.queue q).head ∧ u.mem = s.mem ∧ u.regions = s.regions) ∧
  (∀ (q : Nat) (s u : State), exec (.qcfgDisable q) s = .next u → bitAt (u.queue q).qcfg 0 = false)

/-- R389 to R429: the events of rails, temperatures, energy, Trellis, traces and rounds; a rail moves one step at a time towards
its target, and a new safe code stands in RAIL at once (R389, R393). That TRDROP is 0 in a new session is the model's reading (assumption
18: R419 names TRHEAD and TRTAIL alone), and so is what a replay takes for a difference (assumption 133). -/
def Obligations.PowerAndDebugEvents : Prop :=
  (∀ (fld : Nat) (s : State), comes "RAIL_STEP" (.railStep fld) s ((s.fieldRec fld).moving.isSome) (s.railStep fld)) ∧
  (∀ (fld code : Nat) (s : State), comes "SAFE_UPDATE" (.safeUpdate fld code) s (decide (fld < 84) && decide (code = s.safeCode fld)) (s.safeUpdate fld code)) ∧
  (∀ (fld : Nat) (s : State),
    comes "UNDERVOLT_WINDOW" (.undervoltWindow fld) s (bitAt (csrOf (s.fieldRec fld).csr 0x207) 0 && !bitAt (csrOf (s.fieldRec fld).csr 0x207) 1) (s.undervolt fld)) ∧
  (∀ (clu : Nat) (temp : BitVec 16) (s : State),
    comes "TEMP_UPDATE" (.tempUpdate clu temp) s (clusterOk clu)
      (s.updCluster clu fun c => { c with csr := csrPut c.csr 0x205 (word temp.toNat) })) ∧
  (∀ (fld : Nat) (s : State), comes "THERMAL_GATE" (.thermalGate fld) s (s.canGate fld) (s.gate fld)) ∧
  (∀ (fld : Nat) (s : State), comes "THERMAL_RELEASE" (.thermalRelease fld) s (s.canRelease fld) (s.release fld)) ∧
  (∀ (inlet : Nat) (s : State), comes "COOLANT_INLET_LIMIT" (.coolantInletLimit inlet) s (decide (55 < inlet)) (s.coolant inlet)) ∧
  (∀ (rgn : Nat) (s : State),
    comes "SLACK_INTERVAL" (.slackInterval rgn) s (s.hasRegion rgn && bitAt (csrOf (s.region rgn).csr 0x230) 24 && 
      s.links.colls.any (s.slackDue rgn)) (s.slack rgn)) ∧
  (∀ (rgn : Nat) (s : State),
    comes "ENERGY_HARVEST" (.energyHarvest rgn) s (s.hasRegion rgn && decide (field (csrOf (s.region rgn).csr 0x210) 0 14 ≠ 0))
      (s.harvest rgn false)) ∧
  (∀ (s : State), exec .billbackHarvest s = .next s.billback) ∧
  (∀ (ctx nj : Nat) (s : State), exec (.billbackReceive ctx nj) s = .next (s.billReceive ctx nj)) ∧
  (∀ (clu : Nat) (s : State), comes "TRLCTL_HALT" (.trlctlHalt clu) s (clusterOk clu) (s.trlHalt clu 1)) ∧
  (∀ (clu : Nat) (s : State), comes "TRLCTL_RESUME" (.trlctlResume clu) s (clusterOk clu) (s.trlResume clu)) ∧
  (∀ (clu : Nat) (s : State),
    comes "CROSS_TRIGGER" (.crossTrigger clu) s (clusterOk clu && decide (field (csrOf (s.cluster clu).csr 0x302) 0 8 ≠ 0))
      (s.trlHalt clu 2)) ∧
  (∀ (clu : Nat) (s : State), comes "TRELLIS_HALTED" (.trellisHalted clu) s (s.canTrlHalted clu) (s.trlHalted clu)) ∧
  (∀ (clu : Nat) (val : Word) (s : State), comes "STEP_GO" (.stepGo clu val) s (clusterOk clu && bitAt val 6) (s.stepGo clu val)) ∧
  (∀ (clu : Nat) (s : State), comes "STEP_DONE" (.stepDone clu) s (s.canStepDone clu) (s.stepDone clu)) ∧
  (∀ (rgn : Nat) (val : Word) (s : State), comes "TRACE_SESSION_OPEN" (.traceSessionOpen rgn val) s (s.hasRegion rgn) (s.traceOpen rgn val)) ∧
  (∀ (rgn reason : Nat) (s : State),
    comes "TRACE_SESSION_END" (.traceSessionEnd rgn reason) s (s.hasRegion rgn && decide (reason ≤ 5)) (s.endTrace rgn reason)) ∧
  (∀ (rgn : Nat) (val : Word) (s : State), comes "ROOT_TRACER_GO" (.rootTracerGo rgn val) s (s.hasRegion rgn) (s.rootGo rgn val)) ∧
  (∀ (ts kind : Nat) (s : State),
    comes "REPLAY_TICKET_WAIT" (.replayTicketWait ts kind) s (decide (s.mode (s.rgnOf (tileOf ts)) = 2)) (s.ticketWait ts kind)) ∧
  (∀ (rgn : Nat) (s : State), comes "ROUND_CLOSE" (.roundClose rgn) s (s.canRound rgn) (s.roundClose rgn)) ∧
  (∀ (tile : Nat) (s : State), comes "TILE_CYCLE" (.tileCycle tile) s (isTile tile && !(s.fieldRec (fieldOf tile)).gated) (s.tileCycle tile)) ∧
  (∀ (fld : Nat) (s : State), comes "CORRECTABLE_ERROR" (.correctableError fld) s (decide (fld < 84)) (s.correctable fld)) ∧
  -- R389: a rail that moves takes one step.
  (∀ (fld goal : Nat) (s : State), (s.fieldRec fld).moving = some goal → goal < 64 →
    ∃ u, exec (.railStep fld) s = .next u ∧ field (csrOf (u.fieldRec fld).csr 0x200) 0 6 =
      (if field (csrOf (s.fieldRec fld).csr 0x200) 0 6 < goal then field (csrOf (s.fieldRec fld).csr 0x200) 0 6 + 1
        else field (csrOf (s.fieldRec fld).csr 0x200) 0 6 - (if goal < field (csrOf (s.fieldRec fld).csr 0x200) 0 6 then 1 else 0))) ∧
  -- R393: a new SAFE, and the rail starts for SAFE - UVOFF.
  (∀ (fld code : Nat) (s : State), fld < 84 → code = s.safeCode fld → ∃ u, exec (.safeUpdate fld code) s = .next u ∧
    field (csrOf (u.fieldRec fld).csr 0x200) 8 6 = code ∧
    field (csrOf (u.fieldRec fld).csr 0x200) 16 6 =
      uvoffFor (csrOf (s.fieldRec fld).csr 0x207) code (field (csrOf (s.fieldRec fld).csr 0x200) 16 6)) ∧
  -- R394: a window with errors at the limit lowers UVOFF by one.
  (∀ (fld : Nat) (s : State), bitAt (csrOf (s.fieldRec fld).csr 0x207) 0 = true → bitAt (csrOf (s.fieldRec fld).csr 0x207) 1 = false →
    ∃ u, exec (.undervoltWindow fld) s = .next u ∧ (u.fieldRec fld).errs = 0 ∧
      ((s.fieldRec fld).gated = false → field (csrOf (s.fieldRec fld).csr 0x207) 16 16 ≤ (s.fieldRec fld).errs →
        field (csrOf (u.fieldRec fld).csr 0x200) 16 6 = field (csrOf (s.fieldRec fld).csr 0x200) 16 6 - 1 ∧ (u.fieldRec fld).noRise = 100)) ∧
  -- R400: a cluster's temperature.
  (∀ (clu : Nat) (temp : BitVec 16) (s : State), clusterOk clu = true →
    ∃ u, exec (.tempUpdate clu temp) s = .next u ∧ csrOf (u.cluster clu).csr 0x205 = temp.setWidth 64) ∧
  -- R398: a field is gated at 125.0 °C in one of its clusters, and released below 105.0 °C in all.
  (∀ (fld : Nat) (p : Nat × Cluster) (s : State), (s.fieldRec fld).gated = false → p ∈ s.clusters → fieldOfCluster p.1 = fld → 2000 ≤ p.2.temp →
    ∃ u, exec (.thermalGate fld) s = .next u ∧ (u.fieldRec fld).gated = true ∧ u.tss = s.tss) ∧
  (∀ (fld : Nat) (s : State), (s.fieldRec fld).gated = true → (∀ p ∈ s.clusters, fieldOfCluster p.1 = fld → p.2.temp < 1680) →
    ∃ u, exec (.thermalRelease fld) s = .next u ∧ (u.fieldRec fld).gated = false ∧
      ((∀ p ∈ s.regions, ∀ t ∈ p.2.tilesOf, fieldOf t ≠ fld) → u.tss = s.tss)) ∧
  -- R400: an inlet above 55 °C.
  (∀ (inlet : Nat) (s : State), 55 < inlet → ∃ u, exec (.coolantInletLimit inlet) s = .next u ∧ u.links.inlet = inlet ∧ u.tss = s.tss) ∧
  -- R399: an interval of SLKPER periods of one collective; SLKSTAT shows the mean wait in 1/256 of a period.
  (∀ (rgn : Nat) (s : State), s.hasRegion rgn = true → bitAt (csrOf (s.region rgn).csr 0x230) 24 = true →
    (∃ c ∈ s.links.colls, c.rgn = rgn ∧ field (csrOf (s.region rgn).csr 0x230) 0 6 ≤ c.waits.length) → 0 < ((s.periodsOf rgn).map Prod.snd).sum →
    ∃ u, exec (.slackInterval rgn) s = .next u ∧ (s.periodsOf rgn).length = field (csrOf (s.region rgn).csr 0x230) 0 6 ∧ field (csrOf (u.region rgn).csr 0x231) 0 8 =
      min 255 (((s.periodsOf rgn).map Prod.fst).sum * 256 / ((s.periodsOf rgn).map Prod.snd).sum)) ∧
  -- R408: after a harvest each of the region's meters holds less than one nJ.
  (∀ (rgn : Nat) (s : State), s.hasRegion rgn = true → field (csrOf (s.region rgn).csr 0x210) 0 14 ≠ 0 →
    ∃ u, exec (.energyHarvest rgn) s = .next u ∧
      ∀ t ∈ (s.region rgn).tilesOf, (AMap.get ⟨0, false⟩ (s.region rgn).ctx (u.tile t).meters).units < 16000) ∧
  -- R409: the totals of every account go out; a total joins ENTOT and ENREM of its context.
  (∀ (s : State), (∀ p ∈ s.links.bills, ∃ b < 128, (s.boderPort b).up = true ∧ (s.boderPort b).peer = p.1 / 4096) →
    ∃ u, exec .billbackHarvest s = .next u ∧ (∀ p ∈ u.links.bills, p.2 < 16000) ∧
    u.links.outbox.length = s.links.outbox.length + s.links.bills.length) ∧
  (∀ (ctx nj r : Nat) (s : State), s.hasRegion r = true → r ≠ 256 → (s.region r).ctx = ctx →
    ∃ u, exec (.billbackReceive ctx nj) s = .next u ∧ csrOf (u.region r).csr 0x211 = satAdd64 (csrOf (s.region r).csr 0x211) nj ∧
      csrOf (u.region r).csr 0x212 = satAdd64 (csrOf (s.region r).csr 0x212) nj) ∧
  -- R411: a Trellis halt of a cluster that runs discards its blocks.
  (∀ (clu : Nat) (s : State), clusterOk clu = true → (s.cluster clu).halted = false → (s.cluster clu).halting = none →
    ∃ u, exec (.trlctlHalt clu) s = .next u ∧ (u.cluster clu).halting = some 1 ∧
      ∀ k ∈ clusterTss clu, u.flight k = none ∧ (u.ts k).stops.trellis = true) ∧
  (∀ (clu : Nat) (s : State), clusterOk clu = true → field (csrOf (s.cluster clu).csr 0x302) 0 8 ≠ 0 → (s.cluster clu).halted = false →
    (s.cluster clu).halting = none → ∃ u, exec (.crossTrigger clu) s = .next u ∧ (u.cluster clu).halting = some 2) ∧
  -- R413, R415: halted, once every thread set is between blocks and every append written; and running again.
  (∀ (clu why : Nat) (s : State), (s.cluster clu).halting = some why → (∀ k ∈ clusterTss clu, s.flight k = none ∧ (s.ts k).eng.pend = []) →
    (∀ t ∈ clusterTiles clu, ∀ p ∈ (s.tile t).slots, p.2.toWrite = []) →
    ∃ u, exec (.trellisHalted clu) s = .next u ∧ (u.cluster clu).halted = true ∧ (u.cluster clu).halting = none ∧
      (u.cluster clu).reason = if (clusterTiles clu).any (fun t => decide ((s.region (s.rgnOf t)).cut.phase = 1)) then 6 else why) ∧
  (∀ (clu : Nat) (s : State), clusterOk clu = true → (s.cluster clu).halted = true →
    ∃ u, exec (.trlctlResume clu) s = .next u ∧ (u.cluster clu).halted = false ∧ (u.cluster clu).reason = 0) ∧
  -- R418: the named thread set alone is released, and reported when its block has committed and drained.
  (∀ (clu : Nat) (val : Word) (s : State), clusterOk clu = true → bitAt val 6 = true → (s.cluster clu).halted = true → (s.cluster clu).step = none →
    (s.ts (stepTs clu val)).stops.fault = none → (s.ts (stepTs clu val)).stops.frozen = none →
    ∃ u, exec (.stepGo clu val) s = .next u ∧ (u.cluster clu).step = some (stepTs clu val) ∧ (u.ts (stepTs clu val)).stops.trellis = false) ∧
  (∀ (clu k : Nat) (s : State), (s.cluster clu).step = some k → (s.cluster clu).stepped = true → s.drained k = true →
    ∃ u, exec (.stepDone clu) s = .next u ∧ (u.cluster clu).step = none ∧
      (u.cluster clu).reason = if (s.ts k).stops.pendingFaults.isEmpty && (s.ts k).stops.fault.isNone then 4 else 5) ∧
  -- R419, R423: a session opens with an empty ring, and closes.
  (∀ (rgn : Nat) (val : Word) (s : State), s.hasRegion rgn = true → bitAt (csrOf (s.region rgn).csr 0x310) 0 = false →
    ∃ u, exec (.traceSessionOpen rgn val) s = .next u ∧ bitAt (csrOf (u.region rgn).csr 0x310) 0 = true ∧
      csrOf (u.region rgn).csr 0x313 = 0 ∧ csrOf (u.region rgn).csr 0x314 = 0 ∧ csrOf (u.region rgn).csr 0x315 = 0) ∧
  (∀ (rgn reason : Nat) (s : State), s.hasRegion rgn = true → reason ≤ 5 → bitAt (csrOf (s.region rgn).csr 0x310) 0 = true →
    ∃ u, exec (.traceSessionEnd rgn reason) s = .next u ∧ bitAt (csrOf (u.region rgn).csr 0x310) 0 = false) ∧
  -- R425: at most 16 steps of the Root tracer.
  (∀ (rgn : Nat) (val : Word) (s : State), s.hasRegion rgn = true →
    ((s.region rgn).walkAt = none ∨ (s.region rgn).walkAt = some val) →
    ∃ u, exec (.rootTracerGo rgn val) s = .next u ∧ field (csrOf (u.region rgn).csr 0x322) 1 5 ≤ 16 ∧ u.tss = s.tss) ∧
  -- R428: an event that agrees with the log changes nothing; a difference halts the region, and DIVERGE holds the ticket.
  (∀ (ts kind : Nat) (s : State), s.mode (s.rgnOf (tileOf ts)) = 2 → s.diverges ts kind = false →
    exec (.replayTicketWait ts kind) s = .next s) ∧
  (∀ (ts kind : Nat) (s : State), s.mode (s.rgnOf (tileOf ts)) = 2 → s.diverges ts kind = true → s.hasRegion (s.rgnOf (tileOf ts)) = true →
    ∃ u, exec (.replayTicketWait ts kind) s = .next u ∧ (u.region (s.rgnOf (tileOf ts))).outcome = .failed ∧
      csrOf (u.region (s.rgnOf (tileOf ts))).csr 0x335 = word (s.region (s.rgnOf (tileOf ts))).order) ∧
  -- R429: a round closes once every thread set has had its part in it.
  (∀ (rgn : Nat) (s : State), s.hasRegion rgn = true → s.mode rgn = 3 → (s.region rgn).st = .running → (s.region rgn).ran = true →
    (∀ k ∈ s.inTurn rgn, s.doneRound k = true) → ∃ u, exec (.roundClose rgn) s = .next u ∧ (u.region rgn).closing = false) ∧
  -- R7: a cycle of a tile whose field is not gated.
  (∀ (tile : Nat) (s : State), isTile tile = true → (s.fieldRec (fieldOf tile)).gated = false →
    ∃ u, exec (.tileCycle tile) s = .next u ∧ (u.tile tile).cycle = (s.tile tile).cycle + 1) ∧
  -- R394: a corrected error counts in the window of a field that may be undervolted.
  (∀ (fld : Nat) (s : State), fld < 84 → ∃ u, exec (.correctableError fld) s = .next u ∧
    (u.fieldRec fld).errs = (s.fieldRec fld).errs +
      (if bitAt (csrOf (s.fieldRec fld).csr 0x207) 0 = true ∧ bitAt (csrOf (s.fieldRec fld).csr 0x207) 1 = false then 1 else 0) ∧ u.mem = s.mem) ∧
  (∀ (fld : Nat) (s u : State) (goal : Nat), exec (.railStep fld) s = .next u → (s.fieldRec fld).moving = some goal → goal < 64 →
    let old := field (csrOf (s.fieldRec fld).csr 0x200) 0 6
    field (csrOf (u.fieldRec fld).csr 0x200) 0 6 = if old < goal then old + 1 else old - (if goal < old then 1 else 0)) ∧
  (∀ (fld code : Nat) (s u : State), exec (.safeUpdate fld code) s = .next u → field (csrOf (u.fieldRec fld).csr 0x200) 8 6 = code) ∧
  (∀ (clu : Nat) (temp : BitVec 16) (s u : State), exec (.tempUpdate clu temp) s = .next u →
    csrOf (u.cluster clu).csr 0x205 = temp.setWidth 64)

/-- R430 to R442: the events of CXL, Boder, the management port, SPDM and bring-up; each question that is answered adds one
answer (R441). The model's choices: assumption 6 (how answers stand on the wire), 47 (the order of the SPDM messages and their
levels), 50 (power-on keeps the tile map), 51 (step 7 goes on to step 8 when it overruns its time) and 112 (RECHAR gates the field). -/
def Obligations.LinkAndStartEvents : Prop :=
  (∀ (port addr len : Nat) (s : State), comes "CXL_MEM_READ" (.cxlMemRead port addr len) s (s.cxlOk port len) (s.cxlRead port addr len)) ∧
  (∀ (port addr : Nat) (data : List Byte) (s : State),
    comes "CXL_MEM_WRITE" (.cxlMemWrite port addr data) s (s.cxlOk port data.length) (s.cxlWrite port addr data)) ∧
  (∀ (port : Nat) (s : State),
    comes "CXL_PORT_DOWN" (.cxlPortDown port) s (decide (port < 2) && (s.cxl port).up)
      (s.updLinks fun l => { l with ports := l.ports.zipIdx.map fun q => if q.2 = port then { q.1 with up := false, spdm := 0, session := false } else q.1 })) ∧
  (∀ (port seq : Nat) (crcOk : Bool) (req : Option RemoteReq) (s : State),
    comes "BODER_FLIT_RECEIVE" (.boderFlitReceive port seq crcOk req) s (decide (port < 128) && (s.boderPort port).up)
      (s.boderFlit port seq crcOk req)) ∧
  (∀ (n : Nat) (s : State), comes "BODER_REMOTE_REQUEST" (.boderRemoteRequest n) s (s.canServeRemote n) (s.remoteRequest n)) ∧
  (∀ (port : Nat) (s : State),
    comes "BODER_PORT_FAILURE" (.boderPortFailure port) s (decide (port < 128) && (s.boderPort port).up) (s.boderFail port)) ∧
  (∀ (s : State),
    comes "TELEM" .telem s s.managed ({ s with fresh := s.fresh + 1 }.answer (Config.wireAnswer 1 2 s.telemetry))) ∧
  (∀ (s : State), comes "BOOTREC" .bootrec s s.managed (s.answer s.links.boot.bytes)) ∧
  (∀ (fld : Nat) (s : State), comes "RECHAR" (.rechar fld) s s.managed (s.rechar fld)) ∧
  (∀ (msg : CollMsg) (s : State), comes "COLL" (.coll msg) s s.managed (s.coll msg)) ∧
  (∀ (img : FwImage) (s : State), comes "FWUPD" (.fwupd img) s s.managed (s.fwupd img)) ∧
  (∀ (clear : Bool) (s : State),
    comes "RESET" (.reset clear) s s.managed (State.powerOn (if clear then s.updBoot fun b => { b with fails := 0 } else s))) ∧
  (∀ (port : Nat) (s : State),
    comes "GET_VERSION" (.getVersion port) s (s.answers port)
      (s.spdm port 0 0x84 true [0x12] fun h => { h with spdm := 1, algs := false, session := false })) ∧
  (∀ (port : Nat) (s : State),
    comes "GET_CAPABILITIES" (.getCapabilities port) s (s.answers port)
      (s.spdm port 1 0xE1 true [] fun h => { h with spdm := max h.spdm 2 })) ∧
  (∀ (port : Nat) (s : State),
    comes "NEGOTIATE_ALGORITHMS" (.negotiateAlgorithms port) s (s.answers port)
      (s.spdm port 2 0xE3 true [384, 384, 256] fun h => { h with spdm := max h.spdm 3, algs := true })) ∧
  (∀ (port : Nat) (s : State), comes "GET_DIGESTS" (.getDigests port) s (s.answers port) (s.spdm port 3 0x81 true [0] id)) ∧
  (∀ (port slot : Nat) (s : State), comes "GET_CERTIFICATE" (.getCertificate port slot) s (s.answers port) (s.spdm port 3 0x82 (slot == 0) [0] id)) ∧
  (∀ (port slot : Nat) (s : State), comes "CHALLENGE" (.challenge port slot) s (s.answers port) (s.spdm port 3 0x83 (slot == 0) [0] id)) ∧
  (∀ (port index : Nat) (s : State),
    comes "GET_MEASUREMENTS" (.getMeasurements port index) s (s.answers port)
      (s.spdm port 3 0xE0 (decide (1 ≤ index ∧ index ≤ 4)) [s.links.boot.meas.getD (index - 1) 0] id)) ∧
  (∀ (port : Nat) (s : State), comes "KEY_EXCHANGE" (.keyExchange port) s (s.answers port) (s.spdm port 3 0xE4 true [] fun h => { h with spdm := 4 })) ∧
  (∀ (port : Nat) (s : State),
    comes "FINISH" (.finish port) s (s.answers port) (s.spdm port 4 0xE5 true [] fun h => { h with spdm := 5, session := true })) ∧
  (∀ (s : State), exec .powerOnReset s = .next s.powerOn) ∧
  (∀ (stp : Nat) (s : State),
    comes "BRINGUP_STEP_TIMEOUT" (.bringupStepTimeout stp) s (decide (s.links.boot.step = stp) && decide (1 ≤ stp ∧ stp ≤ 8) &&
      !(s.links.boot.minimal && (stp == 6 || stp == 7))) (s.stepTimeout stp)) ∧
  (∀ (s : State), comes "START_TIMEOUT" .startTimeout s (decide (1 ≤ s.links.boot.step ∧ s.links.boot.step ≤ 8)) (s.failStart 0x0B 255 0)) ∧
  (∀ (s : State),
    comes "LEAD_STOPS_ACTING" .leadStopsActing s (s.links.lease.lead.isSome && s.links.lease.acting && !s.links.boot.minimal)
      (s.updLinks fun l => { l with lease := { l.lease with acting := false } })) ∧
  -- R430, R432: a read of a line that the host may see brings its bytes, a poisoned one the answer for poison.
  (∀ (port addr len p : Nat) (s : State), port < 2 → (s.cxl port).up = true → 1 ≤ len → len ≤ 64 → (s.cxl port).frozen = false →
    s.hostVisible port addr len = true → s.hdmAddr port addr = some p → ∃ u, exec (.cxlMemRead port addr len) s = .next u ∧
      u.links.answers = s.links.answers ++ [if s.poisoned p len then [1] else 0 :: s.bytes p len] ∧ u.mem = s.mem) ∧
  (∀ (port addr p : Nat) (data : List Byte) (s : State), port < 2 → (s.cxl port).up = true → 1 ≤ data.length → data.length ≤ 64 →
    (s.cxl port).frozen = false → s.hostVisible port addr data.length = true → s.hdmAddr port addr = some p →
    ∃ u, exec (.cxlMemWrite port addr data) s = .next u ∧ u.bytes p data.length = data ∧ u.links = s.links) ∧
  -- R430: a port goes down, and its SPDM session with it; the other stays as it is.
  (∀ (port : Nat) (s : State), port < 2 → (s.cxl port).up = true → ∃ u, exec (.cxlPortDown port) s = .next u ∧
    (u.cxl port).up = false ∧ (u.cxl port).session = false ∧ u.cxl (1 - port) = s.cxl (1 - port)) ∧
  -- R434: a good flit in sequence is taken, with its request; a CRC error asks for a replay.
  (∀ (port seq : Nat) (q : RemoteReq) (s : State), port < 128 → (s.boderPort port).up = true → seq % 65536 = (s.boderPort port).expect →
    ∃ u, exec (.boderFlitReceive port seq true (some q)) s = .next u ∧ u.links.remotes = s.links.remotes ++ [q] ∧
      (u.boderPort port).expect = ((s.boderPort port).expect + 1) % 65536 ∧ (u.boderPort port).replay = false) ∧
  (∀ (port seq : Nat) (req : Option RemoteReq) (s : State), port < 128 → (s.boderPort port).up = true →
    ∃ u, exec (.boderFlitReceive port seq false req) s = .next u ∧ (u.boderPort port).replay = true ∧ u.links.remotes = s.links.remotes) ∧
  -- R138, R434, R435: a request before which no other one of its thread set to its line stands is answered once, through a working
  -- port to its origin.
  (∀ (n b : Nat) (q : RemoteReq) (s : State), s.links.remotes[n]? = some q → b < 128 → (s.boderPort b).up = true → (s.boderPort b).peer = q.origin →
    (∀ p ∈ s.links.remotes, remoteBefore p q = false) →
    ∃ (u : State) (o : BoderOut), exec (.boderRemoteRequest n) s = .next u ∧ u.links.remotes = s.links.remotes.eraseIdx n ∧
      u.links.outbox.getLast? = some o ∧ o.op = 4 ∧ o.target = q.origin ∧ o.tag = q.tag ∧ o.addr = q.addr ∧ (s.boderPort o.port).up = true ∧
      (s.boderPort o.port).peer = q.origin ∧ o.seq = (s.boderPort o.port).next) ∧
  -- R435: a port fails; nothing is left to leave through it, and nothing is lost of what another port can carry.
  (∀ (port : Nat) (s : State), port < 128 → (s.boderPort port).up = true → ∃ u, exec (.boderPortFailure port) s = .next u ∧
    (u.boderPort port).up = false ∧ (∀ o ∈ u.links.outbox, o.port ≠ port) ∧
    ((∀ o ∈ s.links.outbox, o.port = port → ∃ q < 128, q ≠ port ∧ (s.boderPort q).up = true ∧ (s.boderPort q).peer = o.target) →
      u.links.outbox.length = s.links.outbox.length)) ∧
  -- R438: while firmware runs each question to the management port gets one answer.
  (∀ (s : State), 4 ≤ s.links.boot.step → ∃ (u : State) (a : List Byte), exec .telem s = .next u ∧ u.links.answers = s.links.answers ++ [a] ∧
    u.mem = s.mem ∧ u.tss = s.tss) ∧
  (∀ (s : State), 4 ≤ s.links.boot.step → ∃ u, exec .bootrec s = .next u ∧ u.links.answers = s.links.answers ++ [s.links.boot.bytes] ∧
    u.mem = s.mem ∧ u.tss = s.tss) ∧
  (∀ (fld : Nat) (s : State), 4 ≤ s.links.boot.step → fld < 84 → ∃ u, exec (.rechar fld) s = .next u ∧
    bitAt (csrOf (u.fieldRec fld).csr 0x207) 1 = false ∧ (u.fieldRec fld).gated = true ∧ u.links.answers.length = s.links.answers.length + 1) ∧
  (∀ (id addr m rgn : Nat) (s : State), 4 ≤ s.links.boot.step → 2 ≤ m → m ≤ 64 → addr % 8 = 0 → addr < 2 ^ 57 → rgn < 256 → s.hasRegion rgn = true →
    (∀ c ∈ s.links.colls, c.id ≠ id) → ∃ u, exec (.coll (.declare id addr m rgn)) s = .next u ∧
      u.links.colls = s.links.colls ++ [⟨id, addr, m, rgn, 0, s.portClock rgn, [], []⟩]) ∧
  (∀ (ent origin tag ctx : Nat) (s : State), 4 ≤ s.links.boot.step → ent < 4096 → origin < 256 → tag < 4096 → ctx < 4096 →
    ∃ u, exec (.coll (.pair ent origin tag ctx)) s = .next u ∧ AMap.find ent u.links.pairing = some (origin, tag, ctx)) ∧
  -- R441: an image that passes is staged; R440: RESET may clear the count of failed starts.
  (∀ (img : FwImage) (s : State), 4 ≤ s.links.boot.step → imageVerdict img s.links.boot.nvmSvn = 0 →
    ∃ u, exec (.fwupd img) s = .next u ∧ u.links.boot.staged = some img) ∧
  (∀ (clear : Bool) (s : State), 4 ≤ s.links.boot.step → ∃ u, exec (.reset clear) s = .next u ∧
    u.links.boot.starts = s.links.boot.starts + 1 ∧ u.links.boot.step = 1 ∧
    u.links.boot.fails = (if clear then 0 else s.links.boot.fails) ∧ u.regions = [] ∧ u.tss = []) ∧
  -- R442: each request of an SPDM exchange that has come far enough is answered.
  (∀ (port : Nat) (s : State), s.answers port = true → 
    ∃ (u : State) (h : HostPort), exec (.getVersion port) s = .next u ∧ u.links.answers = s.links.answers ++ [Config.wireAnswer 0x84 port [0x12]] ∧
      u.responder port = h ∧ h.spdm = 1 ∧ h.session = false) ∧
  (∀ (port : Nat) (s : State), s.answers port = true → 1 ≤ (s.responder port).spdm → 
    ∃ (u : State) (h : HostPort), exec (.getCapabilities port) s = .next u ∧ u.links.answers = s.links.answers ++ [Config.wireAnswer 0xE1 port []] ∧
      u.responder port = h ∧ h.spdm = max (s.responder port).spdm 2) ∧
  (∀ (port : Nat) (s : State), s.answers port = true → 2 ≤ (s.responder port).spdm → 
    ∃ (u : State) (h : HostPort), exec (.negotiateAlgorithms port) s = .next u ∧ u.links.answers = s.links.answers ++ [Config.wireAnswer 0xE3 port [384, 384, 256]] ∧
      u.responder port = h ∧ h.spdm = max (s.responder port).spdm 3 ∧ h.algs = true) ∧
  (∀ (port : Nat) (s : State), s.answers port = true → 3 ≤ (s.responder port).spdm → 
    ∃ (u : State) (h : HostPort), exec (.getDigests port) s = .next u ∧ u.links.answers = s.links.answers ++ [Config.wireAnswer 0x81 port [0]] ∧
      u.responder port = h ∧ h = s.responder port) ∧
  (∀ (port : Nat) (s : State), s.answers port = true → 3 ≤ (s.responder port).spdm → 
    ∃ (u : State) (h : HostPort), exec (.getCertificate port 0) s = .next u ∧ u.links.answers = s.links.answers ++ [Config.wireAnswer 0x82 port [0]] ∧
      u.responder port = h ∧ h = s.responder port) ∧
  (∀ (port : Nat) (s : State), s.answers port = true → 3 ≤ (s.responder port).spdm → 
    ∃ (u : State) (h : HostPort), exec (.challenge port 0) s = .next u ∧ u.links.answers = s.links.answers ++ [Config.wireAnswer 0x83 port [0]] ∧
      u.responder port = h ∧ h = s.responder port) ∧
  (∀ (port index : Nat) (s : State), s.answers port = true → 3 ≤ (s.responder port).spdm → 1 ≤ index → index ≤ 4 → 
    ∃ (u : State) (h : HostPort), exec (.getMeasurements port index) s = .next u ∧ u.links.answers = s.links.answers ++ [Config.wireAnswer 0xE0 port [s.links.boot.meas.getD (index - 1) 0]] ∧
      u.responder port = h ∧ h = s.responder port) ∧
  (∀ (port : Nat) (s : State), s.answers port = true → 3 ≤ (s.responder port).spdm → 
    ∃ (u : State) (h : HostPort), exec (.keyExchange port) s = .next u ∧ u.links.answers = s.links.answers ++ [Config.wireAnswer 0xE4 port []] ∧
      u.responder port = h ∧ h.spdm = 4) ∧
  (∀ (port : Nat) (s : State), s.answers port = true → 4 ≤ (s.responder port).spdm → 
    ∃ (u : State) (h : HostPort), exec (.finish port) s = .next u ∧ u.links.answers = s.links.answers ++ [Config.wireAnswer 0xE5 port []] ∧
      u.responder port = h ∧ h.spdm = 5 ∧ h.session = true) ∧
  -- R439, R440: power-on, a step that overruns its time, and the whole sequence.
  (∀ (s : State), ∃ u, exec .powerOnReset s = .next u ∧ u.links.boot.step = 1 ∧ u.links.boot.starts = s.links.boot.starts + 1 ∧
    u.links.boot.fails = s.links.boot.fails ∧ u.map = s.map ∧ u.regions = [] ∧ u.tss = []) ∧
  (∀ (stp : Nat) (s : State), s.links.boot.step = stp → 1 ≤ stp → stp ≤ 8 → stp ≠ 7 →
    (s.links.boot.minimal = true → stp ≠ 6) →
    ∃ u, exec (.bringupStepTimeout stp) s = .next u ∧ u.links.boot.fails = min 3 (s.links.boot.fails + 1) ∧ u.links.boot.step = 1) ∧
  (∀ (s : State), s.links.boot.step = 7 → s.links.boot.minimal = false → ∃ u, exec (.bringupStepTimeout 7) s = .next u ∧ u.links.boot.step = 8 ∧
    u.links.boot.fails = s.links.boot.fails) ∧
  (∀ (s : State), 1 ≤ s.links.boot.step → s.links.boot.step ≤ 8 → ∃ u, exec .startTimeout s = .next u ∧
    u.links.boot.fails = min 3 (s.links.boot.fails + 1) ∧ u.links.boot.step = 1 ∧
    AMap.find s.links.boot.nextEnt u.links.boot.entries = some (0x0B, s.links.boot.step, 255, 0, s.links.boot.starts)) ∧
  -- R365: a lead whose lease has run out stops acting.
  (∀ (s : State), s.links.lease.lead.isSome = true → s.links.lease.acting = true → s.links.boot.minimal = false →
    ∃ u, exec .leadStopsActing s = .next u ∧ u.links.lease.acting = false ∧ u.links.lease.lead = s.links.lease.lead) ∧
  (∀ (s u : State), exec .bootrec s = .next u → u.links.answers = s.links.answers ++ [s.links.boot.bytes] ∧ u.mem = s.mem)

/-! ## Blocks -/

/-- R81, R77, R192: a step that nothing else is asked of runs the decoded instruction at the cursor of the block in flight, as its
meaning says; a block starts with the words at BPC; a step with an agenda takes its next event. The agenda is the model's own
input (assumption 3). -/
def Obligations.StepRunsDecoded : Prop :=
  (∀ (s u : State) (f : Flight) (ix : Nat) (i : Instr), s.started = [] → s.schedule = [] → s.agenda = [] →
    s.flight s.focus = some f → f.cursor = some ix → AMap.find ix (bodyInstrs 0 f.body) = some i → s.runnable s.focus = true →
    exec i s = .next u → step s = .next u) ∧
  (∀ (n : Nat) (w : BitVec 32) (ws : List (BitVec 32)) (i j : Instr),
    (decodeSlot w = .ok (.one i) → AMap.find (2 * n) (bodyInstrs n (w :: ws)) = some i) ∧
    (decodeSlot w = .ok (.pair i j) → n < 127 → AMap.find (2 * n) (bodyInstrs n (w :: ws)) = some i ∧
      AMap.find (2 * n + 1) (bodyInstrs n (w :: ws)) = some j)) ∧
  (∀ (s s₁ s₂ : State) (k : Nat) (h cs : List Byte), s.canStart k = true →
    let a := (s.ts k).regs.bpc
    let n := nslotOf (word (ofBytes h)) + 1
    space a = 3 → field a 57 3 = 0 → field a 0 4 = 0 → s.fetchAcross (tileOf k) a 8 = (.bytes h, s₁) →
    s₁.fetchAcross (tileOf k) (a + 8) (4 * n) = (.bytes cs, s₂) → blockDefect (s₂.ts k).kindOk (word (ofBytes h)) (slotsOf n cs) = none →
    ∃ (u : State) (f : Flight), exec (.blockStart k) s = .next u ∧ u.flight k = some f ∧ f.base = a ∧ f.header = word (ofBytes h) ∧
      f.body = slotsOf n cs ∧ f.effs = [] ∧ f.toks = [] ∧ u.mem = s₂.mem ∧ u.tss = s₂.tss) ∧
  (∀ (n m : Nat) (cs : List Byte), m < n → 4 * n ≤ cs.length →
    (slotsOf n cs)[m]? = some (BitVec.ofNat 32 (ofBytes ((cs.drop (4 * m)).take 4)))) ∧
  (∀ (s : State) (i : Instr) (rest : List Instr), s.started = [] → s.schedule = [] → s.agenda = i :: rest → encode i = none →
    step s = exec i { s with agenda := rest })

namespace Sys2Proof.Claims

/-- The instructions whose firing may act on more than the block in flight: HALT and XLATI do so at once (R305, R307). -/
def reachesOut : Instr → Bool
  | .halt _ _ | .haltRegion _ _ | .xlati _ _ => true
  | _ => false
/-- The instructions whose firing may wait for a journal entry: for one that it reads behind, that a fence or REL covers, that an
acquire AMO or a pending register has outstanding. Where that entry will never be acknowledged the firing ends its block (R140,
R279). -/
def awaitsEntries : Instr → Bool
  | .read _ _ | .getx _ _ _ _ | .ldB _ _ _ | .ldH _ _ _ | .ldW _ _ _ | .ldD _ _ _ | .ldL _ _ _ | .stB _ _ _ | .stH _ _ _ | .stW _ _ _
  | .stD _ _ _ | .stL _ _ _ | .ldrB _ _ _ | .ldrH _ _ _ | .ldrW _ _ _ | .ldrD _ _ _ | .ldrQ _ _ _ | .ldrO _ _ _ | .ldrL _ _ _
  | .strB _ _ _ | .strH _ _ _ | .strW _ _ _ | .strD _ _ _ | .strQ _ _ _ | .strO _ _ _ | .strL _ _ _ | .amoAadd _ _ _ _ _
  | .amoAand _ _ _ _ _ | .amoAor _ _ _ _ _ | .amoAxor _ _ _ _ _ | .amoAmin _ _ _ _ _ | .amoAmax _ _ _ _ _ | .amoAminn _ _ _ _ _
  | .amoAmaxn _ _ _ _ _ | .amoAxchg _ _ _ _ _ | .amoAcas _ _ _ _ _ | .fenceLocal _ _ _ | .fenceRect _ _ _ | .fenceCluster _ _ _
  | .fenceRegion _ _ _ | .acq _ _ _ | .rel _ _ _ | .lwait _ _ | .lwarm _ _ | .sbind _ _ _ | .copyLinear _ _ | .copyPlane _ _
  | .copyTensor _ _ | .copyGather _ _ | .send _ _ _ | .spawn _ _ => true
  | _ => false
/-- JOIN, which null does not null (R224). -/
def joins : Instr → Bool
  | .join _ _ _ _ | .compactJoin _ => true
  | _ => false

end Sys2Proof.Claims

/-- R79, R89, R97: what every encoded instruction leaves alone when it fires: all but the block in flight of its thread set.
Registers, flags, special registers and memory change at commit only. XLATI leaves memory, the thread sets and the regions alone;
HALT too, where no recorded fault waits for a thread set to stop. -/
def Obligations.FiringFrame : Prop :=
  (∀ (i : Instr) (s u : State), (encode i).isSome = true → reachesOut i = false →
    (awaitsEntries i = true → ∀ e ∈ (s.ts s.focus).eng.journal, e.state ≠ .withheld) → exec i s = .next u →
    (∃ g : Flight, u = { s with flights := AMap.ins s.focus g s.flights }) ∧ (∀ a, u.byte a = s.byte a) ∧
      (∀ k, u.ts k = s.ts k) ∧ (∀ t, u.tile t = s.tile t) ∧ (∀ r, u.region r = s.region r) ∧
      (∀ k ≠ s.focus, u.flight k = s.flight k)) ∧
  (∀ (p : Pr) (t : Target) (s u : State), exec (.xlati p t) s = .next u →
    (∀ a, u.byte a = s.byte a) ∧ (∀ k, (u.ts k).regs = (s.ts k).regs ∧ (u.ts k).eng = (s.ts k).eng) ∧
      (∀ r, u.region r = s.region r) ∧ (∀ f, u.fieldRec f = s.fieldRec f) ∧ u.links = s.links) ∧
  (∀ (p : Pr) (t : Target) (i : Instr) (s u : State), i = .halt p t ∨ i = .haltRegion p t → (∀ k, (s.ts k).stops.pendingFaults = []) →
    exec i s = .next u → (∀ a, u.byte a = s.byte a) ∧ (∀ k, (u.ts k).regs = (s.ts k).regs ∧ (u.ts k).task = (s.ts k).task) ∧
      (∀ r, u.region r = s.region r) ∧ (∀ f, u.fieldRec f = s.fieldRec f) ∧ u.links = s.links ∧ u.net = s.net)
/-- R83, R84, R224, R95: an instruction whose scalar predicate has the opposite value, or that receives null in a required slot
other than an ordering slot, emits null to every target and does nothing else; only JOIN takes a null operand. A store that
resolves so gives its target the completion token of R95 (assumption 65). -/
def Obligations.NulledFirings : Prop :=
  ∀ (i : Instr) (sh : Shape) (s : State) (f : Flight) (ix : Nat), i.shape = some sh → s.flight s.focus = some f →
    f.cursor = some ix →
    ((sh.pr = .onTrue ∧ f.token ix 2 = .scalar 0) ∨ (∃ w, sh.pr = .onFalse ∧ f.token ix 2 = .scalar w ∧ w ≠ 0) ∨
      (sh.pr ≠ .always ∧ f.token ix 2 = .null) ∨
      (joins i = false ∧ ((sh.left = true ∧ f.token ix 0 = .null) ∨ (sh.right = true ∧ f.token ix 1 = .null) ∨
        (sh.third = .data ∧ f.token ix 3 = .null)))) →
    ∃ cls, exec i s = .next (s.nulled f ix cls sh.targets (if sh.role = .store then .completion else .null))

namespace Sys2Proof.Claims

/-- A block that can commit, in a region that runs freely and traces nothing; no thread set has a recorded fault, and no journal an
entry that was refused or is withheld. -/
structure Commits (s : State) (k : Nat) (f : Flight) (ix : Nat) (kd : ExitKind) (dest link : Word) : Prop where
  here : s.flight k = some f
  able : s.canCommit k = true
  verdict : s.verdict k f = .commit ix kd dest link
  free : s.mode (s.rgnOf (tileOf k)) = 0
  dark : bitAt (csrOf (s.region (s.rgnOf (tileOf k))).csr 0x310) 0 = false
  clear : ∀ j, (s.ts j).stops.pendingFaults = []
  whole : ∀ j, ∀ e ∈ (s.ts j).eng.journal, e.state ≠ .withheld ∧ ∀ c, e.state ≠ .refused c true
/-- A block that can commit by a jump or a call, and whose only other effect is e. -/
def commitsSole (s : State) (k : Nat) (f : Flight) (e : Effect) : Prop :=
  ∃ (j ix : Nat) (kd : ExitKind) (dest link : Word), Commits s k f ix kd dest link ∧ (kd = .goto ∨ kd = .call) ∧
    (f.effs = [(j, e), (ix, .exit kd dest link)] ∨ f.effs = [(ix, .exit kd dest link), (j, e)])
/-- A block that can commit, and whose only effect is an exit of a kind. -/
def commitsExit (s : State) (k : Nat) (f : Flight) (kd : ExitKind) : Prop :=
  ∃ (ix : Nat) (dest link : Word), Commits s k f ix kd dest link ∧ f.effs = [(ix, .exit kd dest link)]
/-- The block of a thread set commits, and Q holds after. -/
def commitsTo (s : State) (k : Nat) (Q : State → Prop) : Prop := ∃ u, exec (.blockCommit k) s = .next u ∧ u.flight k = none ∧ Q u
/-- No byte of memory changes. -/
def sameBytes (s u : State) : Prop := ∀ a, u.byte a = s.byte a
/-- The journal of a thread set has one more entry, x, under a free number (R137). -/
def posts (s u : State) (k : Nat) (x : JEntry) : Prop :=
  (u.ts k).eng.journal = (s.ts k).eng.journal ++ [x] ∧ x.num < 32 ∧ (∀ y ∈ (s.ts k).eng.journal, y.num ≠ x.num) ∧ sameBytes s u
/-- The objects of an entry are those to which a range that holds its bytes is bound (R143). -/
def boundBy (binds : List (Word × Word × Nat)) (x : JEntry) : Prop :=
  ∀ o, o ∈ x.objs ↔ ∃ b n, (o, b, n) ∈ binds ∧ b.toNat ≤ x.addr.toNat ∧ x.addr.toNat + x.size ≤ b.toNat + n
/-- A packet of a thread set may leave at once: none waits before it, and no REL update keeps it back (R146). -/
def clearWay (s : State) (k : Nat) : Prop := (s.ts k).outs = [] ∧ s.relClear k = true

/-- What the commit of an effect does to the binding table, stream slots and copies (R141, R143, R161, R162, R170, R277, R283 to R286). -/
def commitBindings : Prop :=
  ∀ (s : State) (k : Nat) (f : Flight),
    (∀ o b n, commitsSole s k f (.bindE o b n) → commitsTo s k fun u => sameBytes s u ∧ (u.ts k).eng.binds =
      if (o, b, n) ∈ (s.ts k).eng.binds then (s.ts k).eng.binds else (s.ts k).eng.binds ++ [(o, b, n)]) ∧
    (∀ o b, commitsSole s k f (.unbindE o b) → commitsTo s k fun u => sameBytes s u ∧
      (u.ts k).eng.binds = (s.ts k).eng.binds.filter fun x => decide (¬(x.1 = o ∧ x.2.1 = b))) ∧
    (∀ n d, commitsSole s k f (.sbind n d) → AMap.find n (s.tile (tileOf k)).slots = none → commitsTo s k fun u =>
      ∃ z, AMap.find n (u.tile (tileOf k)).slots = some z ∧ z.ts = k ∧ z.desc = d ∧ z.pos = 0 ∧ z.ended = decide (d.length = 0) ∧
        z.toWrite = []) ∧
    (∀ n z, commitsSole s k f (.sunbind n) → s.slotOf k n = some z → z.toWrite = [] → commitsTo s k fun u =>
      AMap.find n (u.tile (tileOf k)).slots = none) ∧
    (∀ n m z, commitsSole s k f (.sskip n m) → s.slotOf k n = some z → commitsTo s k fun u => sameBytes s u ∧
      ∃ y, AMap.find n (u.tile (tileOf k)).slots = some y ∧ y.desc = z.desc ∧ y.pos = min (z.pos + m) z.desc.length ∧
        y.ended = (z.ended || decide (z.desc.length ≤ z.pos + m))) ∧
    (∀ n z, commitsSole s k f (.sflush n) → s.slotOf k n = some z → commitsTo s k fun u => sameBytes s u ∧
      ∃ y, AMap.find n (u.tile (tileOf k)).slots = some y ∧ y.desc = z.desc ∧ y.pos = z.pos ∧ (z.desc.out = false → y.ready = [])) ∧
    (∀ n g z, commitsSole s k f (.popped n g) → s.slotOf k n = some z → commitsTo s k fun u => sameBytes s u ∧
      ∃ y, AMap.find n (u.tile (tileOf k)).slots = some y ∧ y.desc = z.desc ∧ y.pos = z.pos + z.desc.groupLen z.pos) ∧
    (∀ (i : BitVec 5) (v : Vec) n z, commitsSole s k f (.wr (.v i) (.vector v 0)) → regSlot (.v i) = some n → s.slotOf k n = some z →
      commitsTo s k fun u => sameBytes s u ∧ AMap.get Vec.zero i.toNat (u.ts k).regs.v = AMap.get Vec.zero i.toNat (s.ts k).regs.v ∧
        ∃ y, AMap.find n (u.tile (tileOf k)).slots = some y ∧ y.desc = z.desc ∧
          (z.pos + 8 ≤ z.desc.length → y.pos = z.pos + 8 ∧
            y.toWrite.map Prod.fst = z.toWrite.map Prod.fst ++ (List.range 8).map fun j => z.pos + j) ∧
          (z.desc.length ≤ z.pos → y.pos = z.pos ∧ y.toWrite = z.toWrite ∧ y.xovr = true ∧ y.ended = true)) ∧
    (∀ l rect, commitsSole s k f (.fence l 0 rect) → commitsTo s k fun u => sameBytes s u ∧
      ∀ p ∈ (u.tile (tileOf k)).slots, p.2.ts = k → p.2.desc.out = false → p.2.ready = [] ∧ p.2.line = []) ∧
    (∀ d, commitsSole s k f (.copy d) → commitsTo s k fun u => sameBytes s u ∧ ∃ c, (u.ts k).eng.copies = (s.ts k).eng.copies ++ [c] ∧
      c.desc = d ∧ c.batch = none ∧ c.home = tileOf k ∧ c.finished = []) ∧
    (commitsSole s k f .cseal → commitsTo s k fun u => sameBytes s u ∧ (u.ts k).eng.sealed = (s.ts k).eng.sealed + 1 ∧
      (u.ts k).eng.copies = (s.ts k).eng.copies.map fun c =>
        { c with batch := some (c.batch.getD ((s.ts k).eng.sealed + 1)) })

/-- What the commit of an effect does to the record queue, the mailbox, the CSRs and the other units (R51, R89, R104, R179, R182, R298,
R303 to R309). -/
def commitUnits : Prop :=
  ∀ (s : State) (k : Nat) (f : Flight),
    let t := tileOf k
    let r := s.rgnOf t
    (∀ m, commitsSole s k f (.mrec m) → s.recordsStand k f = true → commitsTo s k fun u => sameBytes s u ∧
      (u.ts k).eng.recs = (s.ts k).eng.recs ++ [m] ∧ (u.ts k).eng.issued = (s.ts k).eng.issued + 1 ∧
      ∀ a, m.body = .zero a → AMap.find a (u.tile t).mx.owner = some (k % 4)) ∧
    (∀ a, commitsSole s k f .mbpop → (s.ts k).task = some a → commitsTo s k fun u =>
      (∃ b, (u.ts k).task = some b ∧ b.held = false ∧ b.h0 = a.h0 ∧ b.pos = a.pos) ∧
      ∀ m, (s.tile t).mbox.mails.find? (fun m => decide (m.pos = a.pos)) = some m → m.gone = false →
        ∃ y ∈ (u.tile t).mbox.mails, y.pos = a.pos ∧ y.h0 = m.h0 ∧ y.gone = true) ∧
    (∀ w, commitsSole s k f (.mbhw w) → commitsTo s k fun u => sameBytes s u ∧ (u.tile t).mbox.hwm = field w 0 6 ∧
      (u.tile t).mbox.spBase = field w 7 17 ∧ (u.tile t).mbox.spSize = field w 24 15) ∧
    (∀ v, commitsSole s k f (.csrw 0x041 v) → s.hasRegion r = true → s.level t ≠ .user → commitsTo s k fun u => sameBytes s u ∧
      csrOf (u.region r).csr 0x041 = if csrWrites (s.level t) 0x041 then v &&& 0xFFFF else csrOf (s.region r).csr 0x041) ∧
    (∀ n v, commitsSole s k f (.csrw n v) → csrWrites (s.level t) n = false → commitsTo s k fun u => sameBytes s u ∧
      u.regions = s.regions ∧ u.fields = s.fields ∧ ∀ c, (u.cluster c).csr = (s.cluster c).csr) ∧
    (∀ j, commitsSole s k f (.wake j) → (s.ts j).stops.fault = none → commitsTo s k fun u => sameBytes s u ∧
      (u.ts j).stops.halted = false) ∧
    (∀ sv c a w, commitsSole s k f (.ctx sv c a w) → s.hasRegion (s.rgnOfCtx c) = true →
      let x : SaveWork := ⟨sv, a.toNat, some (t, field w 0 17), false, false, none⟩
      commitsTo s k fun u => sameBytes s u ∧
        ((s.region (s.rgnOfCtx c)).saving = none → (u.region (s.rgnOfCtx c)).saving = some x) ∧
        (∀ y, (s.region (s.rgnOfCtx c)).saving = some y → (u.region (s.rgnOfCtx c)).saving = some y ∧
          (u.region (s.rgnOfCtx c)).saveNext = (s.region (s.rgnOfCtx c)).saveNext ++ [x])) ∧
    (∀ (d : Nat) w, commitsSole s k f (.slotw (word d) w) → d < 2 ^ 64 → commitsTo s k fun u => sameBytes s u ∧
      if (s.tile d).mx.slotAt = none then (u.tile d).mx.table = w else (u.tile d).mx.newTable = some w) ∧
    (∀ w, commitsSole s k f (.pwrset w) → s.hasRegion r = true → commitsTo s k fun u => sameBytes s u ∧ (u.region r).request = w) ∧
    (∀ c, commitsSole s k f (.bkpt c) → bitAt (csrOf (s.cluster (clusterOf t)).csr 0x300) 3 = true → (s.cluster (clusterOf t)).halted = false →
      (s.cluster (clusterOf t)).halting = none → commitsTo s k fun u => sameBytes s u ∧ (u.cluster (clusterOf t)).halting = some 3 ∧
        (u.cluster (clusterOf t)).code = c) ∧
    (∀ c, commitsSole s k f (.bkpt c) → bitAt (csrOf (s.cluster (clusterOf t)).csr 0x300) 3 = false → commitsTo s k fun u => sameBytes s u ∧
      (u.cluster (clusterOf t)).halting = (s.cluster (clusterOf t)).halting) ∧
    (∀ w, commitsSole s k f (.pmark w) → commitsTo s k fun u => sameBytes s u ∧ csrOf (u.tile t).csr (0x304 + k % 4) = w) ∧
    (∀ g w, commitsSole s k f (.trc g w) → commitsTo s k fun u => sameBytes s u ∧ (u.ts k).eng = (s.ts k).eng)

/-- What DONE, YIELD and TRAP do at commit (R240 to R242). -/
def commitExits : Prop :=
  ∀ (s : State) (k : Nat) (f : Flight),
    let t := tileOf k
    (∀ a, commitsExit s k f .done → (s.ts k).task = some a → a.epi = none → commitsTo s k fun u =>
      (u.ts k).eng.binds = [] ∧ (∀ m ∈ (u.tile t).mbox.mails, m.pos ≠ a.pos) ∧ (u.ts k).regs.bpc = (s.ts k).regs.bpc ∧
      (a.succ = [] → (s.tile t).isReplica = false → (s.ts k).outs = [] → (s.ts k).eng.pend = [] →
        (u.ts k).task = none ∧ (u.ts k).ending = false)) ∧
    (∀ a owner row num m rest, commitsExit s k f .done → (s.ts k).task = some a → a.epi = some (owner, row, num) →
      (s.ts owner).eng.recs = m :: rest → owner ≠ k → commitsTo s k fun u => sameBytes s u ∧ (u.ts k).eng.binds = [] ∧
        (u.ts owner).eng.recs = { m with epi := some (AMap.get Vec.zero 0 (s.ts k).regs.v), epiOn := false } :: rest) ∧
    (∀ a, commitsExit s k f .yield → (s.ts k).task = some a → commitsTo s k fun u => sameBytes s u ∧ (u.ts k).task = none ∧
      (u.ts k).eng.binds = (s.ts k).eng.binds ∧ u.net = s.net ∧
      (u.tile t).mbox.mails = (s.tile t).mbox.mails.map fun m =>
        if m.pos = a.pos then { m with taken := false, begun := true, wait := true, sent := a.sent, yieldAt := s.clock t } else m) ∧
    (∀ code d, commitsExit s k f (.trap code) → (s.ts k).stops.fault = none → (s.ts k).stops.frozen = none →
      inShed (s.tile t).coord = false →
      (s.tile (((s.region (s.rgnOf t)).tileAt? (s.tile t).coord).getD ((s.region (s.rgnOf t)).physOf (s.tile t).coord))).stopped = false →
      (s.region (s.rgnOf t)).tileAt? (packXY (cx (s.tile t).coord % 4) (cy (s.tile t).coord % 4)) = some d → commitsTo s k fun u =>
        sameBytes s u ∧ (u.ts k).regs.bpc = f.next ∧ (u.ts k).regs.blr = (s.ts k).regs.blr ∧
        (∃ q, (u.ts k).stops.fault = some q ∧ q.1 = ((s.region (s.rgnOf t)).serial + 1) % 65536 ∧ q.2.cause = .trap ∧ q.2.fw2 = word code) ∧
        ∃ p, u.net = s.net ++ [p] ∧ p.dst = d ∧ h0Kind p.h0 = 5 ∧ (p.body.drop 8).take 8 = leBytes 8 f.next.toNat ∧
          (p.body.drop 16).take 8 = leBytes 8 (word code).toNat)

/-- What the commit of a remote access or a release does: it is posted, and performed later (R89, R137, R143, R144, R147, R275, R279). -/
def commitPostings : Prop :=
  ∀ (s : State) (k : Nat) (f : Flight),
    (∀ l a n bs, commitsSole s k f (.rstore l a n bs) → commitsTo s k fun u => ∃ x, posts s u k x ∧ x.addr = a ∧ x.size = n ∧ x.bytes = bs ∧
      x.kind = (if space a = 4 then .csr else .store) ∧ x.state = .pending ∧ boundBy f.snap.binds x) ∧
    (∀ l a o reg, commitsSole s k f (.amoRemote l a o reg) → commitsTo s k fun u => ∃ x, posts s u k x ∧ x.addr = a ∧ x.size = o.bytes ∧
      x.kind = .atomic o reg ∧ boundBy f.snap.binds x ∧
      x.state = (if o.ord = 2 then .held else .pending) ∧
      ∀ g, reg = some g → AMap.find (regKey g) (u.ts k).eng.pend = some x.num) ∧
    (∀ l a, commitsSole s k f (.relUpd l a) → commitsTo s k fun u => ∃ x, posts s u k x ∧ x.addr = a ∧ x.size = 8 ∧ x.kind = .rel ∧
      x.state = .held) ∧
    (∀ l off o reg, commitsSole s k f (.amoLocal l off o reg) → commitsTo s k fun u =>
      let old := s.num (poolKey (tileOf k) off) o.bytes
      u.bytes (poolKey (tileOf k) off) o.bytes = leBytes o.bytes (amoNew (8 * o.bytes) o.op old o.b o.cmp) ∧
        ∀ i : BitVec 5, i ≠ 0 → reg = some (.s i) → AMap.get 0 i.toNat (u.ts k).regs.s = word old) ∧
    (∀ off (n : Word), commitsSole s k f (.lwarm off n) → commitsTo s k fun u =>
      let key := poolKey (tileOf k) off
      u.num key 8 = n.toNat ∧ u.num (key + 8) 8 = 0 ∧ ∀ a, a < key ∨ key + 16 ≤ a → u.byte a = s.byte a)

/-- What the commit of a packet does: it leaves, or waits behind those before it and the REL updates (R55, R146, R240, R294 to R301,
R304). -/
def commitPackets : Prop :=
  ∀ (s : State) (k : Nat) (f : Flight),
    let t := tileOf k
    let r := s.rgnOf t
    (∀ o h a e c p d, commitsSole s k f (.send o h a) → s.hasRegion r = true → s.outEdge t o = some e → clearWay s k →
      ((s.region r).edge e).frozen = none → ((s.region r).edge e).eosLeft = false → ((s.region r).edge e).dst = .tile c p →
      (s.region r).translate c true = .at d → (AMap.find e (s.region r).edges).isSome = true → commitsTo s k fun u =>
        sameBytes s u ∧ ((u.region r).edge e).credits = ((s.region r).edge e).credits - 1 ∧
        ∃ q, u.net = s.net ++ [q] ∧ q.src = t ∧ q.dst = d ∧ q.body = s.bytes (poolKey t (a.toNat % 2 ^ 17)) (bodyLen h) ∧
          h0Kind q.h0 = h0Kind h ∧
          ((s.tile t).isReplica = false → h0Seq q.h0 = ((s.region r).edge e).next % 2 ^ 32) ∧
          ∀ b, (s.ts k).task = some b → (s.tile t).isReplica = true →
            h0Seq q.h0 = (h0Seq b.h0 + ((s.region r).edge e).initial) % 2 ^ 32) ∧
    (∀ o h a, commitsSole s k f (.send o h a) → ¬clearWay s k → commitsTo s k fun u => u.net = s.net ∧
      ∃ q, (u.ts k).outs = (s.ts k).outs ++ [q] ∧ q.edge = s.outEdge t o ∧ q.body = s.bytes (poolKey t (a.toNat % 2 ^ 17)) (bodyLen h)) ∧
    (∀ h g a d, commitsSole s k f (.spawn h g a) → clearWay s k → h0Kind h = 0 → d ≠ t →
      (s.region r).translate (h1Dst g) (decide (s.level t = .user)) = .at d → commitsTo s k fun u => sameBytes s u ∧
        ∃ q, u.net = s.net ++ [q] ∧ q.src = t ∧ q.dst = d ∧ q.body = s.bytes (poolKey t (a.toNat % 2 ^ 17)) (bodyLen h) ∧
          h0Kind q.h0 = 0 ∧ h1Port q.h1 = h1Port g) ∧
    (∀ h g a, commitsSole s k f (.spawn h g a) → ¬clearWay s k → commitsTo s k fun u => sameBytes s u ∧ u.net = s.net ∧
      ∃ q, (u.ts k).outs = (s.ts k).outs ++ [q] ∧ q.edge = none ∧ q.spawn = true ∧ q.dst = h1Dst g ∧ q.port = h1Port g ∧
        h0Kind q.h0 = h0Kind h ∧ q.body = s.bytes (poolKey t (a.toNat % 2 ^ 17)) (bodyLen h)) ∧
    (∀ o e c p d, commitsSole s k f (.eos o) → s.hasRegion r = true → s.outEdge t o = some e → clearWay s k →
      ((s.region r).edge e).frozen = none → ((s.region r).edge e).eosLeft = false → ((s.region r).edge e).dst = .tile c p →
      (s.region r).translate c true = .at d → (AMap.find e (s.region r).edges).isSome = true → commitsTo s k fun u =>
        sameBytes s u ∧ ((u.region r).edge e).closed = true ∧ ((u.region r).edge e).eosLeft = true ∧
        ∃ q, u.net = s.net ++ [q] ∧ q.dst = d ∧ h0Kind q.h0 = 2) ∧
    (∀ o e, commitsSole s k f (.eos o) → s.hasRegion r = true → s.outEdge t o = some e → (AMap.find e (s.region r).edges).isSome = true →
      ¬clearWay s k → commitsTo s k fun u => sameBytes s u ∧ u.net = s.net ∧ ((u.region r).edge e).closed = true ∧
        ∃ q, (u.ts k).outs = (s.ts k).outs ++ [q] ∧ q.edge = some e ∧ h0Kind q.h0 = 2) ∧
    (∀ i w v d, commitsSole s k f (.resume i w v) → clearWay s k → s.systemTile t (field i 0 20) = some d → commitsTo s k fun u =>
      sameBytes s u ∧ ∃ q, u.net = s.net ++ [q] ∧ q.dst = d ∧ h0Kind q.h0 = 6 ∧ h0Prio q.h0 = 47 ∧ h0Handler q.h0 = field i 20 2 ∧
        q.body = leBytes 8 w.toNat ++ leBytes 8 (v.getD 0).toNat) ∧
    (∀ i w v, commitsSole s k f (.resume i w v) → ¬clearWay s k → commitsTo s k fun u => sameBytes s u ∧ u.net = s.net ∧
      ∃ q, (u.ts k).outs = (s.ts k).outs ++ [q] ∧ q.edge = none ∧ q.dst = field i 0 20 ∧ h0Kind q.h0 = 6 ∧ h0Prio q.h0 = 47 ∧
        h0Handler q.h0 = field i 20 2 ∧ q.body = leBytes 8 w.toNat ++ leBytes 8 (v.getD 0).toNat) ∧
    (∀ n, commitsSole s k f (.steal n) →
      let x := s.tile t
      let y := (s.region r).stage x.conf.stage
      let up := f.snap.remain.drop (f.snap.remain.length - n)
      let next := ringNext ((s.region r).ring y ((s.region r).fieldAt x.coord)) x.coord 1
      let left (u : State) : Prop :=
        AMap.get [] x.coord ((u.region r).stage x.conf.stage).rem = (AMap.get [] x.coord y.rem).filter fun i => decide (i ∉ up)
      let sent (u : State) (c : Nat) (use : StealUse) : Prop := clearWay s k → ∀ d, s.systemTile t c = some d →
        ∃ q, u.net = s.net ++ [q] ∧ q.src = t ∧ q.dst = d ∧ h0Kind q.h0 = 7 ∧ h0Handler q.h0 = use.code ∧ q.slices = up
      let waits (u : State) (c : Nat) : Prop := ¬clearWay s k → u.net = s.net ∧
        ∃ q, (u.ts k).outs = (s.ts k).outs ++ [q] ∧ q.dst = c ∧ q.slices = up
      (n = 0 → commitsTo s k fun u => u.regions = s.regions ∧ u.net = s.net) ∧
      (∀ a, n ≠ 0 → y.asks.find? (fun a => a.2 == x.coord) = some a → (∀ i ∈ up, i ∈ AMap.get [] x.coord y.rem) → s.hasRegion r = true →
        (AMap.find x.conf.stage (s.region r).stages).isSome = true → commitsTo s k fun u => sameBytes s u ∧
          ((u.region r).stage x.conf.stage).asks = y.asks.erase a ∧ left u ∧ sent u a.1 .reply ∧ waits u a.1) ∧
      (n ≠ 0 → y.asks.find? (fun a => a.2 == x.coord) = none → (∀ i ∈ up, i ∈ AMap.get [] x.coord y.rem) → s.hasRegion r = true →
        (AMap.find x.conf.stage (s.region r).stages).isSome = true → commitsTo s k fun u => sameBytes s u ∧
          ((u.region r).stage x.conf.stage).asks = y.asks ∧
          (next ≠ x.coord → left u ∧ sent u next .given ∧ waits u next) ∧
          (next = x.coord → u.net = s.net ∧
            AMap.get [] x.coord ((u.region r).stage x.conf.stage).rem = AMap.get [] x.coord y.rem)))
/-- What a register of the register file holds after a WRITE of a token: a null lane leaves the lane as it was (R85). -/
def holds (before after : Regs) (r : Reg) (t : Token) : Prop :=
  match r, t with
  | .s n, .scalar w => AMap.get 0 n.toNat after.s = if n = 0 then AMap.get 0 0 before.s else w
  | .ox n, .scalar w => AMap.get 0 n.toNat after.ox = w
  | .v n, .vector v nulls => ∀ j < 8, (AMap.get Vec.zero n.toNat after.v).get j =
      if maskBit nulls j then (AMap.get Vec.zero n.toNat before.v).get j else v.get j
  | _, _ => True
/-- A register is as it was. -/
def keeps (before after : Regs) : Reg → Prop
  | .s n => AMap.get 0 n.toNat after.s = AMap.get 0 n.toNat before.s
  | .ox n => AMap.get 0 n.toNat after.ox = AMap.get 0 n.toNat before.ox
  | .v n => AMap.get Vec.zero n.toNat after.v = AMap.get Vec.zero n.toNat before.v

end Sys2Proof.Claims

/-- R85, R89, R99, R103, R238: a block of WRITEs and an exit commits: each named register takes its token, the others stay, BPC
and BLR are those of the exit, the raised flags are merged, no byte of memory changes, and no other thread set's registers do.
With another effect alone the block changes the binding table, a stream slot, the copies, the record queue, the mailbox, the unit
that the effect names, or a CSR, of which POLICY and those that ignore writes at the level are stated. Memory stays, but that of
SBIND and SUNBIND, MBPOP and DONE nothing is said of it: the bytes of a delay line (assumption 79) and of a released packet (R51)
are unpredictable then. DONE, YIELD and TRAP do what R240 to R242 say. -/
def Obligations.CommitWritesRegisters : Prop :=
  (∀ (s : State) (k : Nat) (f : Flight) (ix : Nat) (kd : ExitKind) (dest link : Word), Commits s k f ix kd dest link →
    (kd = .goto ∨ kd = .call) →
    (∀ p ∈ f.effs, (∃ r t, p.2 = .wr r t ∧ (regSlot r).bind (s.slotOf k) = none) ∨ ∃ x a l, p.2 = .exit x a l) →
    (∀ p ∈ f.effs, ∀ q ∈ f.effs, ∀ r t t', p.2 = .wr r t → q.2 = .wr r t' → t = t') →
    ∃ u : State, exec (.blockCommit k) s = .next u ∧ u.flight k = none ∧
      (u.ts k).regs.bpc = dest ∧ (u.ts k).regs.blr = link ∧
      (∀ p ∈ f.effs, ∀ r t, p.2 = .wr r t → holds (s.ts k).regs (u.ts k).regs r t) ∧
      (∀ r, (∀ p ∈ f.effs, ∀ t, p.2 ≠ .wr r t) → keeps (s.ts k).regs (u.ts k).regs r) ∧
      (∀ n < 7, bitAt (u.ts k).regs.flags n = (bitAt (s.ts k).regs.flags n || f.raised.getLsbD n)) ∧
      (u.ts k).regs.mexc = (s.ts k).regs.mexc ∧ (∀ a, u.byte a = s.byte a) ∧ ∀ j ≠ k, (u.ts j).regs = (s.ts j).regs) ∧
  commitBindings ∧ commitUnits ∧ commitExits
/-- R85, R89, R92: a block of local stores and atomics and an exit commits: every byte of memory outside the bytes that it stores
to stays, and those of its only store take their values, null lanes apart. The address stored to is the pool byte that the
effect of the store names, which is where its firing found the address to lie. A remote store, atomic or release is posted to the
journal instead, under a free number, and changes no byte yet; that a release is held there until the entries before it are
acknowledged is the model's form of R144 and R147 (assumption 26). LWARM writes TARGET and clears COUNT; SEND, SPAWN, EOS,
STEAL.SPLIT and RESUME send their packets, or they wait behind those before them and behind REL updates; STEAL.SPLIT gives its
slices to a waiting requester, else to the ring's next replica, and keeps them where that is itself (R300). -/
def Obligations.CommitStoresBytes : Prop :=
  (∀ (s : State) (k : Nat) (f : Flight) (ix : Nat) (kd : ExitKind) (dest link : Word), Commits s k f ix kd dest link →
    (kd = .goto ∨ kd = .call) →
    (∀ p ∈ f.effs, (∃ l off bs, p.2 = .store l off bs) ∨ (∃ l off o r, p.2 = .amoLocal l off o r) ∨ ∃ x a l, p.2 = .exit x a l) →
    ∃ u : State, exec (.blockCommit k) s = .next u ∧ u.flight k = none ∧ (u.ts k).regs.bpc = dest ∧
      (∀ a, (∀ st ∈ f.stored, ∀ i b, st.2[i]? = some (some b) → a ≠ poolKey (tileOf k) st.1 + i) → u.byte a = s.byte a) ∧
      (∀ p ∈ f.effs, ∀ l off bs, p.2 = .store l off bs → f.stored = [(off, bs)] →
        ∀ i b, bs[i]? = some (some b) → u.byte (poolKey (tileOf k) off + i) = b) ∧
      (∀ j ≠ k, (u.ts j).regs = (s.ts j).regs)) ∧
  commitPostings ∧ commitPackets
/-- R91, R366, R368, R369: a block whose verdict is a fault is discarded: the thread set stops with its registers, BPC among them,
as they stood, memory stays, and a fault token of cause, index and serial goes to the Potting shed tile of the subject's
coordinate modulo 4, from a tile that is not stopped for a cut (one that is keeps the token until it goes on, R378). -/
def Obligations.TakingAFault : Prop :=
  ∀ (s : State) (k : Nat) (f : Flight) (i : FaultInfo), s.flight k = some f → s.canCommit k = true → s.verdict k f = .fault i →
    (s.ts k).stops.fault = none → (s.ts k).stops.frozen = none → inShed (s.tile (tileOf k)).coord = false →
    let r := s.rgnOf (tileOf k)
    let g := s.region r
    let co := (s.tile (tileOf k)).coord
    let serial := (g.serial + 1) % 65536
    (s.tile ((g.tileAt? co).getD (g.physOf co))).stopped = false → (∀ x, bitAt (csrOf (s.region x).csr 0x310) 0 = false) → ∀ d, g.tileAt? (packXY (cx co % 4) (cy co % 4)) = some d →
    ∃ (u : State) (p : Flying), exec (.blockCommit k) s = .next u ∧ u.flight k = none ∧ (u.ts k).regs = (s.ts k).regs ∧
      (u.ts k).stops.fault = some (serial, i) ∧ (∀ a, u.byte a = s.byte a) ∧ u.net = s.net ++ [p] ∧
      p.dst = d ∧ h0Kind p.h0 = 5 ∧ h0Prio p.h0 = 47 ∧ h0Handler p.h0 = i.cause.cls ∧
      h0Len p.h0 = 3 ∧ h0Seq p.h0 = serial ∧ p.body.length = 48 ∧
      field (word (ofBytes (p.body.take 8))) 56 8 = i.cause.code ∧ field (word (ofBytes (p.body.take 8))) 0 16 = serial ∧
      (p.body.drop 8).take 8 = leBytes 8 (s.ts k).regs.bpc.toNat ∧ ∀ j ≠ k, u.ts j = s.ts j

/-! ## Encodings -/

/-- R192 to R206: decoding the word of a well-formed instruction gives the instruction back, with every operand at every value
that its encoding admits. -/
def Obligations.RoundTrip : Prop :=
  ∀ (i : Instr) (n w : Nat), i.wellFormed = true → encode i = some (n, w) → decodeTableWord n w = some i
/-- R192 to R206: an accepted word is the encoding of what it decodes to, so that no two words mean one instruction, and what it
decodes to is well formed. -/
def Obligations.DecodeThenEncode : Prop :=
  (∀ (w : Nat) (i : Instr), w < 2 ^ 32 → decodeTableWord 32 w = some i → encode i = some (32, w) ∧ i.wellFormed = true) ∧
  (∀ (w : Nat) (i : Instr), w < 2 ^ 16 → decodeTableWord 16 w = some i → encode i = some (16, w) ∧ i.wellFormed = true)

namespace Sys2Proof.Claims

/-- Words written out from the formats of R193 and R196 to R200, most significant field first, and what they stand for. -/
def specWords : List (Nat × Nat × Instr) := [
  (32, (0#1 ++ 0x01#7 ++ 0#2 ++ 5#5 ++ 0#7 ++ 12#10 : BitVec 32).toNat, .read (.s 5) 12),
  (32, (0#1 ++ 0x02#7 ++ 1#2 ++ 31#5 ++ 0#7 ++ 0#10 : BitVec 32).toNat, .write (.v 31)),
  (32, (0#1 ++ 0x10#7 ++ 1#2 ++ 1#1 ++ 0#1 ++ 8#10 ++ 0x3FF#10 : BitVec 32).toNat, .add .onTrue true 8 0x3FF),
  (32, (0#1 ++ 0x04#7 ++ 2#2 ++ 20#10 ++ 0xFFF#12 : BitVec 32).toNat, .movi .onFalse 0xFFF 20),
  (32, (0#1 ++ 0x14#7 ++ 0#2 ++ 3#4 ++ 0#8 ++ 9#10 : BitVec 32).toNat, .remu .always 9),
  (32, (0#1 ++ 0x30#7 ++ 0#2 ++ 1#2 ++ 0xFFFFF#20 : BitVec 32).toNat, .call .always 0xFFFFF),
  (32, (0#1 ++ 0x3B#7 ++ 0#2 ++ 0#1 ++ 0#1 ++ 4#10 ++ 6#10 : BitVec 32).toNat, .fma .always false 4 6),
  (32, (0#1 ++ 0x57#7 ++ 0#2 ++ 16#10 ++ 96#12 : BitVec 32).toNat, .vidx .always 96 16),
  (32, (0#1 ++ 0x5D#7 ++ 0#2 ++ 3#4 ++ 7#5 ++ 0#3 ++ 0x3FF#10 : BitVec 32).toNat, .stD .always 7 0x3FF),
  (32, (0#1 ++ 0x60#7 ++ 0#2 ++ 9#4 ++ 31#5 ++ 1#1 ++ 2#2 ++ 40#10 : BitVec 32).toNat, .amoAcas .always 31 true 2 40),
  (32, (0#1 ++ 0x69#7 ++ 0#2 ++ 3#4 ++ 5#8 ++ 40#10 : BitVec 32).toNat, .sstat .always 5 40),
  (32, (0#1 ++ 0x73#7 ++ 0#2 ++ 2#4 ++ 0#8 ++ 40#10 : BitVec 32).toNat, .mstat .always 40),
  (32, (0#1 ++ 0x76#7 ++ 0#2 ++ 1#4 ++ 0#8 ++ 40#10 : BitVec 32).toNat, .mbpeek .always 40),
  (32, (0#1 ++ 0x7A#7 ++ 0#2 ++ 1#4 ++ 0#8 ++ 0x3FF#10 : BitVec 32).toNat, .csrw .always 0x3FF),
  (16, (1#1 ++ 2#4 ++ 0#1 ++ 33#10 : BitVec 16).toNat, .compactAdd 33),
  (16, (1#1 ++ 0#4 ++ 0#1 ++ 0x3FF#10 : BitVec 16).toNat, .compactNop)]
/-- The reserved majors of R205. -/
def reservedMajors : List Nat := [0x00, 0x0D, 0x0E, 0x0F, 0x28, 0x29, 0x2A, 0x2B, 0x2C, 0x2D, 0x2E, 0x2F, 0x35, 0x36, 0x37, 0x46, 0x47,
  0x48, 0x49, 0x4A, 0x4B, 0x4C, 0x4D, 0x4E, 0x4F, 0x5A, 0x5B, 0x61, 0x6A, 0x6B, 0x6E, 0x6F, 0x79, 0x7B, 0x7D, 0x7E, 0x7F]
/-- The majors of format T2 (R204). -/
def t2Majors : List Nat := [0x03, 0x06, 0x07, 0x08, 0x10, 0x11, 0x15, 0x16, 0x17, 0x38, 0x39, 0x3A, 0x3B, 0x3C, 0x3E, 0x3F, 0x44, 0x50, 0x53, 0x59]

end Sys2Proof.Claims

/-- R193, R196 to R201, R204: words written out from the encoding tables decode to the instructions that they stand for. -/
def Obligations.SpecWords : Prop := ∀ p ∈ specWords, decodeTableWord p.1 p.2.1 = some p.2.2
/-- R205: what is no instruction: the reserved majors, PR 11, M 1 in T2, CLS 11 and the ox registers above 3, nonzero reserved bits
in TR, K 2 and 3, and in a compact half bit 10, COP 15, a NOP with a target and a clear top bit. -/
def Obligations.ReservedEncodings : Prop :=
  (∀ m ∈ reservedMajors, ∀ w, w / 2 ^ 24 = m → decodeTableWord 32 w = none) ∧
  (∀ w, w < 2 ^ 31 → w / 2 ^ 24 ≠ 1 → w / 2 ^ 24 ≠ 2 → w / 2 ^ 22 % 4 = 3 → decodeTableWord 32 w = none) ∧
  (∀ m ∈ t2Majors, ∀ w, w / 2 ^ 24 = m → w / 2 ^ 20 % 2 = 1 → decodeTableWord 32 w = none) ∧
  (∀ w, w / 2 ^ 24 = 1 ∨ w / 2 ^ 24 = 2 → w / 2 ^ 22 % 4 = 3 ∨ (w / 2 ^ 22 % 4 = 2 ∧ 4 ≤ w / 2 ^ 17 % 32) ∨ w / 2 ^ 10 % 128 ≠ 0 →
    decodeTableWord 32 w = none) ∧
  (∀ w, w / 2 ^ 24 = 2 → w % 1024 ≠ 0 → decodeTableWord 32 w = none) ∧
  (∀ w, w / 2 ^ 24 = 0x30 → 2 ≤ w / 2 ^ 20 % 4 → decodeTableWord 32 w = none) ∧
  (∀ w, w < 2 ^ 16 → w < 2 ^ 15 ∨ w / 2 ^ 10 % 2 = 1 ∨ w / 2 ^ 11 % 16 = 15 ∨ (w / 2 ^ 11 % 16 = 0 ∧ w % 1024 ≠ 1023) →
    decodeTableWord 16 w = none)

/-! ## Reset and memory -/

namespace Sys2Proof.Claims

/-- CSRs that the spec gives a nonzero value at reset (R356, R357, R376, R392, R403, R417, R420). -/
def resetValues : List (Nat × Word) := [
  (0x040, 0x1000032), (0x041, 0xA020), (0x106, 0x10064), (0x107, 20), (0x201, 1), (0x208, 81), (0x210, 1000), (0x220, 2), (0x221, 3),
  (0x222, 12), (0x223, 6), (0x224, 20), (0x225, 24), (0x226, 4), (0x227, 2), (0x228, 1), (0x229, 368), (0x22A, 340), (0x22B, 180),
  (0x22C, 30), (0x22D, 400), (0x230, 0x330D08), (0x300, 4), (0x310, 0xA0)]

end Sys2Proof.Claims

/-- What reset leaves: no region, no block, no packet, no request; the special registers hold the values of their tables. That the
general registers, BPC and memory read as zero is the model's choice (assumptions 1 and 2). -/
def Obligations.ResetLeaves : Prop :=
  State.reset.regions = [] ∧ State.reset.flights = [] ∧ State.reset.net = [] ∧ State.reset.dreqs = [] ∧ State.reset.links.boot.step = 0 ∧
  (∀ t n v, (n, v) ∈ resetValues → csrOf (State.reset.tile t).csr n = v ∧ csrOf (State.reset.cluster t).csr n = v ∧
    csrOf (State.reset.fieldRec t).csr n = v ∧ csrOf (State.reset.region t).csr n = v) ∧
  (∀ k n, AMap.get 0 n (State.reset.ts k).regs.s = 0 ∧ (State.reset.ts k).regs.bpc = 0) ∧ (∀ a, State.reset.byte a = 0)
/-- Memory is in its canonical form at reset. -/
def Obligations.MemoryCanonicalAtReset : Prop := Memory.wf State.reset.mem = true
/-- Every step keeps memory in its canonical form, from every state that has it. -/
def Obligations.MemoryCanonicalStep : Prop := ∀ s u : State, Memory.wf s.mem = true → step s = .next u → Memory.wf u.mem = true
end

