-- ==== Sys2Proof/Laws/AMap.lean ====
section
/-! SUPPORT. Laws of finite maps: what is read after a write, and that every operation keeps the canonical form. -/

namespace Sys2Proof.Machine

variable {β : Type}

/-! ## Reading after writing -/

@[simp] theorem AMap.find_nil (k : Nat) : AMap.find k ([] : AMap β) = none := rfl
@[simp] theorem AMap.find_ins_same (k : Nat) (x : β) (m : AMap β) : AMap.find k (AMap.ins k x m) = some x := by
  induction m with
  | nil => simp [AMap.ins, AMap.find]
  | cons p m ih =>
    obtain ⟨j, y⟩ := p
    simp only [AMap.ins]
    split
    · simp [AMap.find]
    · split
      · simp [AMap.find]
      · rename_i h
        simp [AMap.find, ih, Ne.symm h]
theorem AMap.find_ins_of_ne {j k : Nat} (h : j ≠ k) (x : β) (m : AMap β) :
    AMap.find j (AMap.ins k x m) = AMap.find j m := by
  induction m with
  | nil => simp [AMap.ins, AMap.find, Ne.symm h]
  | cons p m ih =>
    obtain ⟨i, y⟩ := p
    simp only [AMap.ins]
    split
    · simp [AMap.find, Ne.symm h]
    · split
      · rename_i e
        subst e
        simp [AMap.find, Ne.symm h]
      · simp [AMap.find, ih]
@[simp] theorem AMap.find_del_same (k : Nat) (m : AMap β) : AMap.find k (AMap.del k m) = none := by
  induction m with
  | nil => rfl
  | cons p m ih =>
    obtain ⟨j, y⟩ := p
    simp only [AMap.del]
    split
    · exact ih
    · rename_i h
      simp [AMap.find, ih, Ne.symm h]
theorem AMap.find_del_of_ne {j k : Nat} (h : j ≠ k) (m : AMap β) : AMap.find j (AMap.del k m) = AMap.find j m := by
  induction m with
  | nil => rfl
  | cons p m ih =>
    obtain ⟨i, y⟩ := p
    simp only [AMap.del]
    split
    · rename_i e
      subst e
      simp [AMap.find, ih, Ne.symm h]
    · simp [AMap.find, ih]
@[simp] theorem AMap.get_put_same [DecidableEq β] (d x : β) (k : Nat) (m : AMap β) : AMap.get d k (AMap.put d k x m) = x := by
  unfold AMap.get AMap.put
  split
  · simp [*]
  · simp
theorem AMap.get_put_of_ne [DecidableEq β] {j k : Nat} (h : j ≠ k) (d e x : β) (m : AMap β) :
    AMap.get d j (AMap.put e k x m) = AMap.get d j m := by
  unfold AMap.get AMap.put
  split
  · rw [AMap.find_del_of_ne h]
  · rw [AMap.find_ins_of_ne h]
@[simp] theorem AMap.get_upd_same [DecidableEq β] (d : β) (k : Nat) (f : β → β) (m : AMap β) :
    AMap.get d k (AMap.upd d k f m) = f (AMap.get d k m) := by simp [AMap.upd]
theorem AMap.get_upd_of_ne [DecidableEq β] {j k : Nat} (h : j ≠ k) (d : β) (f : β → β) (m : AMap β) :
    AMap.get d j (AMap.upd d k f m) = AMap.get d j m := AMap.get_put_of_ne h _ _ _ _
theorem AMap.find_modify_same (k : Nat) (f : β → β) (m : AMap β) :
    AMap.find k (AMap.modify k f m) = (AMap.find k m).map f := by
  induction m with
  | nil => rfl
  | cons p m ih =>
    obtain ⟨j, y⟩ := p
    simp only [AMap.modify]
    split
    · simp [AMap.find, *]
    · simp [AMap.find, *]
theorem AMap.find_modify_of_ne {j k : Nat} (h : j ≠ k) (f : β → β) (m : AMap β) :
    AMap.find j (AMap.modify k f m) = AMap.find j m := by
  induction m with
  | nil => rfl
  | cons p m ih =>
    obtain ⟨i, y⟩ := p
    simp only [AMap.modify]
    split
    · rename_i e
      subst e
      simp [AMap.find, Ne.symm h]
    · simp [AMap.find, ih]

/-! ## The canonical form -/

theorem AMap.sortedAbove_weaken {b c : Option Nat} {m : AMap β} (h : AMap.sortedAbove c m = true)
    (hb : ∀ i, b = some i → ∃ j, c = some j ∧ i ≤ j) : AMap.sortedAbove b m = true := by
  cases m with
  | nil => rfl
  | cons p m =>
    obtain ⟨k, x⟩ := p
    cases b with
    | none => cases c <;> simp_all [AMap.sortedAbove]
    | some i =>
      obtain ⟨j, rfl, hij⟩ := hb i rfl
      simp only [AMap.sortedAbove, Bool.and_eq_true, decide_eq_true_eq] at h ⊢
      exact ⟨by omega, h.2⟩
theorem AMap.sortedAbove_ins {b : Option Nat} {m : AMap β} {k : Nat} (x : β) (h : AMap.sortedAbove b m = true)
    (hb : ∀ i, b = some i → i < k) : AMap.sortedAbove b (AMap.ins k x m) = true := by
  induction m generalizing b with
  | nil => cases b <;> simp_all [AMap.ins, AMap.sortedAbove]
  | cons p m ih =>
    obtain ⟨j, y⟩ := p
    simp only [AMap.ins]
    split
    · rename_i hk
      cases b <;> simp_all [AMap.sortedAbove]
    · split
      · rename_i e
        subst e
        cases b <;> simp_all [AMap.sortedAbove]
      · have hj : j < k := by omega
        cases b with
        | none =>
          simp only [AMap.sortedAbove, Bool.true_and] at h ⊢
          exact ih h (by simpa using hj)
        | some i =>
          simp only [AMap.sortedAbove, Bool.and_eq_true] at h ⊢
          exact ⟨h.1, ih h.2 (by simpa using hj)⟩
theorem AMap.sortedAbove_del {b : Option Nat} {m : AMap β} (k : Nat) (h : AMap.sortedAbove b m = true) :
    AMap.sortedAbove b (AMap.del k m) = true := by
  induction m generalizing b with
  | nil => rfl
  | cons p m ih =>
    obtain ⟨j, y⟩ := p
    have hm : AMap.sortedAbove (some j) m = true := by cases b <;> simp_all [AMap.sortedAbove]
    simp only [AMap.del]
    split
    · refine ih (AMap.sortedAbove_weaken hm fun i hi => ?_)
      subst hi
      simp only [AMap.sortedAbove, Bool.and_eq_true, decide_eq_true_eq] at h
      exact ⟨j, rfl, by omega⟩
    · cases b with
      | none => simpa [AMap.sortedAbove] using ih hm
      | some i =>
        simp only [AMap.sortedAbove, Bool.and_eq_true] at h ⊢
        exact ⟨h.1, ih hm⟩
theorem AMap.sortedAbove_filter {b : Option Nat} {m : AMap β} (p : Nat × β → Bool) (h : AMap.sortedAbove b m = true) :
    AMap.sortedAbove b (m.filter p) = true := by
  induction m generalizing b with
  | nil => rfl
  | cons q m ih =>
    obtain ⟨j, y⟩ := q
    have hm : AMap.sortedAbove (some j) m = true := by cases b <;> simp_all [AMap.sortedAbove]
    rw [List.filter_cons]
    split
    · cases b with
      | none => simpa [AMap.sortedAbove] using ih hm
      | some i =>
        simp only [AMap.sortedAbove, Bool.and_eq_true] at h ⊢
        exact ⟨h.1, ih hm⟩
    · refine ih (AMap.sortedAbove_weaken hm fun i hi => ?_)
      subst hi
      simp only [AMap.sortedAbove, Bool.and_eq_true, decide_eq_true_eq] at h
      exact ⟨j, rfl, by omega⟩
theorem AMap.mem_of_mem_ins {q : Nat × β} {k : Nat} {x : β} {m : AMap β} (h : q ∈ AMap.ins k x m) : q = (k, x) ∨ q ∈ m := by
  induction m with
  | nil => simpa [AMap.ins] using h
  | cons p m ih =>
    obtain ⟨j, y⟩ := p
    simp only [AMap.ins] at h
    split at h
    · simpa using h
    · split at h
      · simp only [List.mem_cons] at h ⊢
        tauto
      · simp only [List.mem_cons] at h ⊢
        rcases h with h | h
        · tauto
        · have := ih h
          tauto
theorem AMap.mem_of_mem_del {q : Nat × β} {k : Nat} {m : AMap β} (h : q ∈ AMap.del k m) : q ∈ m := by
  induction m with
  | nil => exact h
  | cons p m ih =>
    obtain ⟨j, y⟩ := p
    simp only [AMap.del] at h
    split at h
    · exact List.mem_cons_of_mem _ (ih h)
    · simp only [List.mem_cons] at h ⊢
      rcases h with h | h
      · exact .inl h
      · exact .inr (ih h)

theorem AMap.wf_nil [DecidableEq β] (d : β) : AMap.wf d ([] : AMap β) = true := rfl
/-- A write keeps the canonical form. -/
theorem AMap.wf_put [DecidableEq β] {d : β} {m : AMap β} (k : Nat) (x : β) (h : AMap.wf d m = true) :
    AMap.wf d (AMap.put d k x m) = true := by
  simp only [AMap.wf, Bool.and_eq_true, List.all_eq_true, decide_eq_true_eq] at h ⊢
  unfold AMap.put
  split
  · exact ⟨AMap.sortedAbove_del k h.1, fun q hq => h.2 q (AMap.mem_of_mem_del hq)⟩
  · refine ⟨AMap.sortedAbove_ins x h.1 (by simp), fun q hq => ?_⟩
    rcases AMap.mem_of_mem_ins hq with rfl | hq
    · assumption
    · exact h.2 q hq
/-- Leaving entries out keeps the canonical form. -/
theorem AMap.wf_filter [DecidableEq β] {d : β} {m : AMap β} (p : Nat × β → Bool) (h : AMap.wf d m = true) :
    AMap.wf d (m.filter p) = true := by
  simp only [AMap.wf, Bool.and_eq_true, List.all_eq_true, decide_eq_true_eq] at h ⊢
  exact ⟨AMap.sortedAbove_filter p h.1, fun q hq => h.2 q (List.mem_filter.1 hq).1⟩
/-- Writing many entries keeps the canonical form. -/
theorem AMap.wf_foldl_put [DecidableEq β] {α : Type} {d : β} (key : α → Nat) (val : α → β) (xs : List α) {m : AMap β}
    (h : AMap.wf d m = true) : AMap.wf d (xs.foldl (fun m x => AMap.put d (key x) (val x) m) m) = true := by
  induction xs generalizing m with
  | nil => exact h
  | cons x xs ih => exact ih (AMap.wf_put _ _ h)

end Sys2Proof.Machine
end

