-- ==== Sys2Proof/Laws/State.lean ====
section
/-! SUPPORT. What each named update of the state leaves alone, field by field, and what each accessor reads after it. -/

namespace Sys2Proof.Machine

/-! ## setTs -/

@[simp] theorem State.setTs_agenda (s : State) (k : Nat) (x : ThreadSet) : (s.setTs k x).agenda = s.agenda := rfl
@[simp] theorem State.setTs_started (s : State) (k : Nat) (x : ThreadSet) : (s.setTs k x).started = s.started := rfl
@[simp] theorem State.setTs_schedule (s : State) (k : Nat) (x : ThreadSet) : (s.setTs k x).schedule = s.schedule := rfl
@[simp] theorem State.setTs_choices (s : State) (k : Nat) (x : ThreadSet) : (s.setTs k x).choices = s.choices := rfl
@[simp] theorem State.setTs_fresh (s : State) (k : Nat) (x : ThreadSet) : (s.setTs k x).fresh = s.fresh := rfl
@[simp] theorem State.setTs_focus (s : State) (k : Nat) (x : ThreadSet) : (s.setTs k x).focus = s.focus := rfl
@[simp] theorem State.setTs_mem (s : State) (k : Nat) (x : ThreadSet) : (s.setTs k x).mem = s.mem := rfl
@[simp] theorem State.setTs_poison (s : State) (k : Nat) (x : ThreadSet) : (s.setTs k x).poison = s.poison := rfl
@[simp] theorem State.setTs_margin (s : State) (k : Nat) (x : ThreadSet) : (s.setTs k x).margin = s.margin := rfl
@[simp] theorem State.setTs_flights (s : State) (k : Nat) (x : ThreadSet) : (s.setTs k x).flights = s.flights := rfl
@[simp] theorem State.setTs_tiles (s : State) (k : Nat) (x : ThreadSet) : (s.setTs k x).tiles = s.tiles := rfl
@[simp] theorem State.setTs_clusters (s : State) (k : Nat) (x : ThreadSet) : (s.setTs k x).clusters = s.clusters := rfl
@[simp] theorem State.setTs_fields (s : State) (k : Nat) (x : ThreadSet) : (s.setTs k x).fields = s.fields := rfl
@[simp] theorem State.setTs_regions (s : State) (k : Nat) (x : ThreadSet) : (s.setTs k x).regions = s.regions := rfl
@[simp] theorem State.setTs_owners (s : State) (k : Nat) (x : ThreadSet) : (s.setTs k x).owners = s.owners := rfl
@[simp] theorem State.setTs_net (s : State) (k : Nat) (x : ThreadSet) : (s.setTs k x).net = s.net := rfl
@[simp] theorem State.setTs_landings (s : State) (k : Nat) (x : ThreadSet) : (s.setTs k x).landings = s.landings := rfl
@[simp] theorem State.setTs_dreqs (s : State) (k : Nat) (x : ThreadSet) : (s.setTs k x).dreqs = s.dreqs := rfl
@[simp] theorem State.setTs_dreps (s : State) (k : Nat) (x : ThreadSet) : (s.setTs k x).dreps = s.dreps := rfl
@[simp] theorem State.setTs_tlb (s : State) (k : Nat) (x : ThreadSet) : (s.setTs k x).tlb = s.tlb := rfl
@[simp] theorem State.setTs_saves (s : State) (k : Nat) (x : ThreadSet) : (s.setTs k x).saves = s.saves := rfl
@[simp] theorem State.setTs_map (s : State) (k : Nat) (x : ThreadSet) : (s.setTs k x).map = s.map := rfl
@[simp] theorem State.setTs_links (s : State) (k : Nat) (x : ThreadSet) : (s.setTs k x).links = s.links := rfl
@[simp] theorem State.setTs_tile (s : State) (k : Nat) (x : ThreadSet) (j : Nat) : (s.setTs k x).tile j = s.tile j := rfl
@[simp] theorem State.setTs_cluster (s : State) (k : Nat) (x : ThreadSet) (j : Nat) : (s.setTs k x).cluster j = s.cluster j := rfl
@[simp] theorem State.setTs_fieldRec (s : State) (k : Nat) (x : ThreadSet) (j : Nat) : (s.setTs k x).fieldRec j = s.fieldRec j := rfl
@[simp] theorem State.setTs_region (s : State) (k : Nat) (x : ThreadSet) (j : Nat) : (s.setTs k x).region j = s.region j := rfl
@[simp] theorem State.setTs_flight (s : State) (k : Nat) (x : ThreadSet) (j : Nat) : (s.setTs k x).flight j = s.flight j := rfl
@[simp] theorem State.setTs_queue (s : State) (k : Nat) (x : ThreadSet) (j : Nat) : (s.setTs k x).queue j = s.queue j := rfl
@[simp] theorem State.setTs_byte (s : State) (k : Nat) (x : ThreadSet) (j : Nat) : (s.setTs k x).byte j = s.byte j := rfl

/-! ## updTs -/

@[simp] theorem State.updTs_agenda (s : State) (k : Nat) (f : ThreadSet → ThreadSet) : (s.updTs k f).agenda = s.agenda := rfl
@[simp] theorem State.updTs_started (s : State) (k : Nat) (f : ThreadSet → ThreadSet) : (s.updTs k f).started = s.started := rfl
@[simp] theorem State.updTs_schedule (s : State) (k : Nat) (f : ThreadSet → ThreadSet) : (s.updTs k f).schedule = s.schedule := rfl
@[simp] theorem State.updTs_choices (s : State) (k : Nat) (f : ThreadSet → ThreadSet) : (s.updTs k f).choices = s.choices := rfl
@[simp] theorem State.updTs_fresh (s : State) (k : Nat) (f : ThreadSet → ThreadSet) : (s.updTs k f).fresh = s.fresh := rfl
@[simp] theorem State.updTs_focus (s : State) (k : Nat) (f : ThreadSet → ThreadSet) : (s.updTs k f).focus = s.focus := rfl
@[simp] theorem State.updTs_mem (s : State) (k : Nat) (f : ThreadSet → ThreadSet) : (s.updTs k f).mem = s.mem := rfl
@[simp] theorem State.updTs_poison (s : State) (k : Nat) (f : ThreadSet → ThreadSet) : (s.updTs k f).poison = s.poison := rfl
@[simp] theorem State.updTs_margin (s : State) (k : Nat) (f : ThreadSet → ThreadSet) : (s.updTs k f).margin = s.margin := rfl
@[simp] theorem State.updTs_flights (s : State) (k : Nat) (f : ThreadSet → ThreadSet) : (s.updTs k f).flights = s.flights := rfl
@[simp] theorem State.updTs_tiles (s : State) (k : Nat) (f : ThreadSet → ThreadSet) : (s.updTs k f).tiles = s.tiles := rfl
@[simp] theorem State.updTs_clusters (s : State) (k : Nat) (f : ThreadSet → ThreadSet) : (s.updTs k f).clusters = s.clusters := rfl
@[simp] theorem State.updTs_fields (s : State) (k : Nat) (f : ThreadSet → ThreadSet) : (s.updTs k f).fields = s.fields := rfl
@[simp] theorem State.updTs_regions (s : State) (k : Nat) (f : ThreadSet → ThreadSet) : (s.updTs k f).regions = s.regions := rfl
@[simp] theorem State.updTs_owners (s : State) (k : Nat) (f : ThreadSet → ThreadSet) : (s.updTs k f).owners = s.owners := rfl
@[simp] theorem State.updTs_net (s : State) (k : Nat) (f : ThreadSet → ThreadSet) : (s.updTs k f).net = s.net := rfl
@[simp] theorem State.updTs_landings (s : State) (k : Nat) (f : ThreadSet → ThreadSet) : (s.updTs k f).landings = s.landings := rfl
@[simp] theorem State.updTs_dreqs (s : State) (k : Nat) (f : ThreadSet → ThreadSet) : (s.updTs k f).dreqs = s.dreqs := rfl
@[simp] theorem State.updTs_dreps (s : State) (k : Nat) (f : ThreadSet → ThreadSet) : (s.updTs k f).dreps = s.dreps := rfl
@[simp] theorem State.updTs_tlb (s : State) (k : Nat) (f : ThreadSet → ThreadSet) : (s.updTs k f).tlb = s.tlb := rfl
@[simp] theorem State.updTs_saves (s : State) (k : Nat) (f : ThreadSet → ThreadSet) : (s.updTs k f).saves = s.saves := rfl
@[simp] theorem State.updTs_map (s : State) (k : Nat) (f : ThreadSet → ThreadSet) : (s.updTs k f).map = s.map := rfl
@[simp] theorem State.updTs_links (s : State) (k : Nat) (f : ThreadSet → ThreadSet) : (s.updTs k f).links = s.links := rfl
@[simp] theorem State.updTs_tile (s : State) (k : Nat) (f : ThreadSet → ThreadSet) (j : Nat) : (s.updTs k f).tile j = s.tile j := rfl
@[simp] theorem State.updTs_cluster (s : State) (k : Nat) (f : ThreadSet → ThreadSet) (j : Nat) : (s.updTs k f).cluster j = s.cluster j := rfl
@[simp] theorem State.updTs_fieldRec (s : State) (k : Nat) (f : ThreadSet → ThreadSet) (j : Nat) : (s.updTs k f).fieldRec j = s.fieldRec j := rfl
@[simp] theorem State.updTs_region (s : State) (k : Nat) (f : ThreadSet → ThreadSet) (j : Nat) : (s.updTs k f).region j = s.region j := rfl
@[simp] theorem State.updTs_flight (s : State) (k : Nat) (f : ThreadSet → ThreadSet) (j : Nat) : (s.updTs k f).flight j = s.flight j := rfl
@[simp] theorem State.updTs_queue (s : State) (k : Nat) (f : ThreadSet → ThreadSet) (j : Nat) : (s.updTs k f).queue j = s.queue j := rfl
@[simp] theorem State.updTs_byte (s : State) (k : Nat) (f : ThreadSet → ThreadSet) (j : Nat) : (s.updTs k f).byte j = s.byte j := rfl

/-! ## setTile -/

@[simp] theorem State.setTile_agenda (s : State) (k : Nat) (x : Tile) : (s.setTile k x).agenda = s.agenda := rfl
@[simp] theorem State.setTile_started (s : State) (k : Nat) (x : Tile) : (s.setTile k x).started = s.started := rfl
@[simp] theorem State.setTile_schedule (s : State) (k : Nat) (x : Tile) : (s.setTile k x).schedule = s.schedule := rfl
@[simp] theorem State.setTile_choices (s : State) (k : Nat) (x : Tile) : (s.setTile k x).choices = s.choices := rfl
@[simp] theorem State.setTile_fresh (s : State) (k : Nat) (x : Tile) : (s.setTile k x).fresh = s.fresh := rfl
@[simp] theorem State.setTile_focus (s : State) (k : Nat) (x : Tile) : (s.setTile k x).focus = s.focus := rfl
@[simp] theorem State.setTile_mem (s : State) (k : Nat) (x : Tile) : (s.setTile k x).mem = s.mem := rfl
@[simp] theorem State.setTile_poison (s : State) (k : Nat) (x : Tile) : (s.setTile k x).poison = s.poison := rfl
@[simp] theorem State.setTile_margin (s : State) (k : Nat) (x : Tile) : (s.setTile k x).margin = s.margin := rfl
@[simp] theorem State.setTile_flights (s : State) (k : Nat) (x : Tile) : (s.setTile k x).flights = s.flights := rfl
@[simp] theorem State.setTile_tss (s : State) (k : Nat) (x : Tile) : (s.setTile k x).tss = s.tss := rfl
@[simp] theorem State.setTile_clusters (s : State) (k : Nat) (x : Tile) : (s.setTile k x).clusters = s.clusters := rfl
@[simp] theorem State.setTile_fields (s : State) (k : Nat) (x : Tile) : (s.setTile k x).fields = s.fields := rfl
@[simp] theorem State.setTile_regions (s : State) (k : Nat) (x : Tile) : (s.setTile k x).regions = s.regions := rfl
@[simp] theorem State.setTile_owners (s : State) (k : Nat) (x : Tile) : (s.setTile k x).owners = s.owners := rfl
@[simp] theorem State.setTile_net (s : State) (k : Nat) (x : Tile) : (s.setTile k x).net = s.net := rfl
@[simp] theorem State.setTile_landings (s : State) (k : Nat) (x : Tile) : (s.setTile k x).landings = s.landings := rfl
@[simp] theorem State.setTile_dreqs (s : State) (k : Nat) (x : Tile) : (s.setTile k x).dreqs = s.dreqs := rfl
@[simp] theorem State.setTile_dreps (s : State) (k : Nat) (x : Tile) : (s.setTile k x).dreps = s.dreps := rfl
@[simp] theorem State.setTile_tlb (s : State) (k : Nat) (x : Tile) : (s.setTile k x).tlb = s.tlb := rfl
@[simp] theorem State.setTile_saves (s : State) (k : Nat) (x : Tile) : (s.setTile k x).saves = s.saves := rfl
@[simp] theorem State.setTile_map (s : State) (k : Nat) (x : Tile) : (s.setTile k x).map = s.map := rfl
@[simp] theorem State.setTile_links (s : State) (k : Nat) (x : Tile) : (s.setTile k x).links = s.links := rfl
@[simp] theorem State.setTile_ts (s : State) (k : Nat) (x : Tile) (j : Nat) : (s.setTile k x).ts j = s.ts j := rfl
@[simp] theorem State.setTile_cluster (s : State) (k : Nat) (x : Tile) (j : Nat) : (s.setTile k x).cluster j = s.cluster j := rfl
@[simp] theorem State.setTile_fieldRec (s : State) (k : Nat) (x : Tile) (j : Nat) : (s.setTile k x).fieldRec j = s.fieldRec j := rfl
@[simp] theorem State.setTile_region (s : State) (k : Nat) (x : Tile) (j : Nat) : (s.setTile k x).region j = s.region j := rfl
@[simp] theorem State.setTile_flight (s : State) (k : Nat) (x : Tile) (j : Nat) : (s.setTile k x).flight j = s.flight j := rfl
@[simp] theorem State.setTile_queue (s : State) (k : Nat) (x : Tile) (j : Nat) : (s.setTile k x).queue j = s.queue j := rfl
@[simp] theorem State.setTile_byte (s : State) (k : Nat) (x : Tile) (j : Nat) : (s.setTile k x).byte j = s.byte j := rfl

/-! ## updTile -/

@[simp] theorem State.updTile_agenda (s : State) (k : Nat) (f : Tile → Tile) : (s.updTile k f).agenda = s.agenda := rfl
@[simp] theorem State.updTile_started (s : State) (k : Nat) (f : Tile → Tile) : (s.updTile k f).started = s.started := rfl
@[simp] theorem State.updTile_schedule (s : State) (k : Nat) (f : Tile → Tile) : (s.updTile k f).schedule = s.schedule := rfl
@[simp] theorem State.updTile_choices (s : State) (k : Nat) (f : Tile → Tile) : (s.updTile k f).choices = s.choices := rfl
@[simp] theorem State.updTile_fresh (s : State) (k : Nat) (f : Tile → Tile) : (s.updTile k f).fresh = s.fresh := rfl
@[simp] theorem State.updTile_focus (s : State) (k : Nat) (f : Tile → Tile) : (s.updTile k f).focus = s.focus := rfl
@[simp] theorem State.updTile_mem (s : State) (k : Nat) (f : Tile → Tile) : (s.updTile k f).mem = s.mem := rfl
@[simp] theorem State.updTile_poison (s : State) (k : Nat) (f : Tile → Tile) : (s.updTile k f).poison = s.poison := rfl
@[simp] theorem State.updTile_margin (s : State) (k : Nat) (f : Tile → Tile) : (s.updTile k f).margin = s.margin := rfl
@[simp] theorem State.updTile_flights (s : State) (k : Nat) (f : Tile → Tile) : (s.updTile k f).flights = s.flights := rfl
@[simp] theorem State.updTile_tss (s : State) (k : Nat) (f : Tile → Tile) : (s.updTile k f).tss = s.tss := rfl
@[simp] theorem State.updTile_clusters (s : State) (k : Nat) (f : Tile → Tile) : (s.updTile k f).clusters = s.clusters := rfl
@[simp] theorem State.updTile_fields (s : State) (k : Nat) (f : Tile → Tile) : (s.updTile k f).fields = s.fields := rfl
@[simp] theorem State.updTile_regions (s : State) (k : Nat) (f : Tile → Tile) : (s.updTile k f).regions = s.regions := rfl
@[simp] theorem State.updTile_owners (s : State) (k : Nat) (f : Tile → Tile) : (s.updTile k f).owners = s.owners := rfl
@[simp] theorem State.updTile_net (s : State) (k : Nat) (f : Tile → Tile) : (s.updTile k f).net = s.net := rfl
@[simp] theorem State.updTile_landings (s : State) (k : Nat) (f : Tile → Tile) : (s.updTile k f).landings = s.landings := rfl
@[simp] theorem State.updTile_dreqs (s : State) (k : Nat) (f : Tile → Tile) : (s.updTile k f).dreqs = s.dreqs := rfl
@[simp] theorem State.updTile_dreps (s : State) (k : Nat) (f : Tile → Tile) : (s.updTile k f).dreps = s.dreps := rfl
@[simp] theorem State.updTile_tlb (s : State) (k : Nat) (f : Tile → Tile) : (s.updTile k f).tlb = s.tlb := rfl
@[simp] theorem State.updTile_saves (s : State) (k : Nat) (f : Tile → Tile) : (s.updTile k f).saves = s.saves := rfl
@[simp] theorem State.updTile_map (s : State) (k : Nat) (f : Tile → Tile) : (s.updTile k f).map = s.map := rfl
@[simp] theorem State.updTile_links (s : State) (k : Nat) (f : Tile → Tile) : (s.updTile k f).links = s.links := rfl
@[simp] theorem State.updTile_ts (s : State) (k : Nat) (f : Tile → Tile) (j : Nat) : (s.updTile k f).ts j = s.ts j := rfl
@[simp] theorem State.updTile_cluster (s : State) (k : Nat) (f : Tile → Tile) (j : Nat) : (s.updTile k f).cluster j = s.cluster j := rfl
@[simp] theorem State.updTile_fieldRec (s : State) (k : Nat) (f : Tile → Tile) (j : Nat) : (s.updTile k f).fieldRec j = s.fieldRec j := rfl
@[simp] theorem State.updTile_region (s : State) (k : Nat) (f : Tile → Tile) (j : Nat) : (s.updTile k f).region j = s.region j := rfl
@[simp] theorem State.updTile_flight (s : State) (k : Nat) (f : Tile → Tile) (j : Nat) : (s.updTile k f).flight j = s.flight j := rfl
@[simp] theorem State.updTile_queue (s : State) (k : Nat) (f : Tile → Tile) (j : Nat) : (s.updTile k f).queue j = s.queue j := rfl
@[simp] theorem State.updTile_byte (s : State) (k : Nat) (f : Tile → Tile) (j : Nat) : (s.updTile k f).byte j = s.byte j := rfl

/-! ## updCluster -/

@[simp] theorem State.updCluster_agenda (s : State) (k : Nat) (f : Cluster → Cluster) : (s.updCluster k f).agenda = s.agenda := rfl
@[simp] theorem State.updCluster_started (s : State) (k : Nat) (f : Cluster → Cluster) : (s.updCluster k f).started = s.started := rfl
@[simp] theorem State.updCluster_schedule (s : State) (k : Nat) (f : Cluster → Cluster) : (s.updCluster k f).schedule = s.schedule := rfl
@[simp] theorem State.updCluster_choices (s : State) (k : Nat) (f : Cluster → Cluster) : (s.updCluster k f).choices = s.choices := rfl
@[simp] theorem State.updCluster_fresh (s : State) (k : Nat) (f : Cluster → Cluster) : (s.updCluster k f).fresh = s.fresh := rfl
@[simp] theorem State.updCluster_focus (s : State) (k : Nat) (f : Cluster → Cluster) : (s.updCluster k f).focus = s.focus := rfl
@[simp] theorem State.updCluster_mem (s : State) (k : Nat) (f : Cluster → Cluster) : (s.updCluster k f).mem = s.mem := rfl
@[simp] theorem State.updCluster_poison (s : State) (k : Nat) (f : Cluster → Cluster) : (s.updCluster k f).poison = s.poison := rfl
@[simp] theorem State.updCluster_margin (s : State) (k : Nat) (f : Cluster → Cluster) : (s.updCluster k f).margin = s.margin := rfl
@[simp] theorem State.updCluster_flights (s : State) (k : Nat) (f : Cluster → Cluster) : (s.updCluster k f).flights = s.flights := rfl
@[simp] theorem State.updCluster_tss (s : State) (k : Nat) (f : Cluster → Cluster) : (s.updCluster k f).tss = s.tss := rfl
@[simp] theorem State.updCluster_tiles (s : State) (k : Nat) (f : Cluster → Cluster) : (s.updCluster k f).tiles = s.tiles := rfl
@[simp] theorem State.updCluster_fields (s : State) (k : Nat) (f : Cluster → Cluster) : (s.updCluster k f).fields = s.fields := rfl
@[simp] theorem State.updCluster_regions (s : State) (k : Nat) (f : Cluster → Cluster) : (s.updCluster k f).regions = s.regions := rfl
@[simp] theorem State.updCluster_owners (s : State) (k : Nat) (f : Cluster → Cluster) : (s.updCluster k f).owners = s.owners := rfl
@[simp] theorem State.updCluster_net (s : State) (k : Nat) (f : Cluster → Cluster) : (s.updCluster k f).net = s.net := rfl
@[simp] theorem State.updCluster_landings (s : State) (k : Nat) (f : Cluster → Cluster) : (s.updCluster k f).landings = s.landings := rfl
@[simp] theorem State.updCluster_dreqs (s : State) (k : Nat) (f : Cluster → Cluster) : (s.updCluster k f).dreqs = s.dreqs := rfl
@[simp] theorem State.updCluster_dreps (s : State) (k : Nat) (f : Cluster → Cluster) : (s.updCluster k f).dreps = s.dreps := rfl
@[simp] theorem State.updCluster_tlb (s : State) (k : Nat) (f : Cluster → Cluster) : (s.updCluster k f).tlb = s.tlb := rfl
@[simp] theorem State.updCluster_saves (s : State) (k : Nat) (f : Cluster → Cluster) : (s.updCluster k f).saves = s.saves := rfl
@[simp] theorem State.updCluster_map (s : State) (k : Nat) (f : Cluster → Cluster) : (s.updCluster k f).map = s.map := rfl
@[simp] theorem State.updCluster_links (s : State) (k : Nat) (f : Cluster → Cluster) : (s.updCluster k f).links = s.links := rfl
@[simp] theorem State.updCluster_ts (s : State) (k : Nat) (f : Cluster → Cluster) (j : Nat) : (s.updCluster k f).ts j = s.ts j := rfl
@[simp] theorem State.updCluster_tile (s : State) (k : Nat) (f : Cluster → Cluster) (j : Nat) : (s.updCluster k f).tile j = s.tile j := rfl
@[simp] theorem State.updCluster_fieldRec (s : State) (k : Nat) (f : Cluster → Cluster) (j : Nat) : (s.updCluster k f).fieldRec j = s.fieldRec j := rfl
@[simp] theorem State.updCluster_region (s : State) (k : Nat) (f : Cluster → Cluster) (j : Nat) : (s.updCluster k f).region j = s.region j := rfl
@[simp] theorem State.updCluster_flight (s : State) (k : Nat) (f : Cluster → Cluster) (j : Nat) : (s.updCluster k f).flight j = s.flight j := rfl
@[simp] theorem State.updCluster_queue (s : State) (k : Nat) (f : Cluster → Cluster) (j : Nat) : (s.updCluster k f).queue j = s.queue j := rfl
@[simp] theorem State.updCluster_byte (s : State) (k : Nat) (f : Cluster → Cluster) (j : Nat) : (s.updCluster k f).byte j = s.byte j := rfl

/-! ## updField -/

@[simp] theorem State.updField_agenda (s : State) (k : Nat) (f : Field → Field) : (s.updField k f).agenda = s.agenda := rfl
@[simp] theorem State.updField_started (s : State) (k : Nat) (f : Field → Field) : (s.updField k f).started = s.started := rfl
@[simp] theorem State.updField_schedule (s : State) (k : Nat) (f : Field → Field) : (s.updField k f).schedule = s.schedule := rfl
@[simp] theorem State.updField_choices (s : State) (k : Nat) (f : Field → Field) : (s.updField k f).choices = s.choices := rfl
@[simp] theorem State.updField_fresh (s : State) (k : Nat) (f : Field → Field) : (s.updField k f).fresh = s.fresh := rfl
@[simp] theorem State.updField_focus (s : State) (k : Nat) (f : Field → Field) : (s.updField k f).focus = s.focus := rfl
@[simp] theorem State.updField_mem (s : State) (k : Nat) (f : Field → Field) : (s.updField k f).mem = s.mem := rfl
@[simp] theorem State.updField_poison (s : State) (k : Nat) (f : Field → Field) : (s.updField k f).poison = s.poison := rfl
@[simp] theorem State.updField_margin (s : State) (k : Nat) (f : Field → Field) : (s.updField k f).margin = s.margin := rfl
@[simp] theorem State.updField_flights (s : State) (k : Nat) (f : Field → Field) : (s.updField k f).flights = s.flights := rfl
@[simp] theorem State.updField_tss (s : State) (k : Nat) (f : Field → Field) : (s.updField k f).tss = s.tss := rfl
@[simp] theorem State.updField_tiles (s : State) (k : Nat) (f : Field → Field) : (s.updField k f).tiles = s.tiles := rfl
@[simp] theorem State.updField_clusters (s : State) (k : Nat) (f : Field → Field) : (s.updField k f).clusters = s.clusters := rfl
@[simp] theorem State.updField_regions (s : State) (k : Nat) (f : Field → Field) : (s.updField k f).regions = s.regions := rfl
@[simp] theorem State.updField_owners (s : State) (k : Nat) (f : Field → Field) : (s.updField k f).owners = s.owners := rfl
@[simp] theorem State.updField_net (s : State) (k : Nat) (f : Field → Field) : (s.updField k f).net = s.net := rfl
@[simp] theorem State.updField_landings (s : State) (k : Nat) (f : Field → Field) : (s.updField k f).landings = s.landings := rfl
@[simp] theorem State.updField_dreqs (s : State) (k : Nat) (f : Field → Field) : (s.updField k f).dreqs = s.dreqs := rfl
@[simp] theorem State.updField_dreps (s : State) (k : Nat) (f : Field → Field) : (s.updField k f).dreps = s.dreps := rfl
@[simp] theorem State.updField_tlb (s : State) (k : Nat) (f : Field → Field) : (s.updField k f).tlb = s.tlb := rfl
@[simp] theorem State.updField_saves (s : State) (k : Nat) (f : Field → Field) : (s.updField k f).saves = s.saves := rfl
@[simp] theorem State.updField_map (s : State) (k : Nat) (f : Field → Field) : (s.updField k f).map = s.map := rfl
@[simp] theorem State.updField_links (s : State) (k : Nat) (f : Field → Field) : (s.updField k f).links = s.links := rfl
@[simp] theorem State.updField_ts (s : State) (k : Nat) (f : Field → Field) (j : Nat) : (s.updField k f).ts j = s.ts j := rfl
@[simp] theorem State.updField_tile (s : State) (k : Nat) (f : Field → Field) (j : Nat) : (s.updField k f).tile j = s.tile j := rfl
@[simp] theorem State.updField_cluster (s : State) (k : Nat) (f : Field → Field) (j : Nat) : (s.updField k f).cluster j = s.cluster j := rfl
@[simp] theorem State.updField_region (s : State) (k : Nat) (f : Field → Field) (j : Nat) : (s.updField k f).region j = s.region j := rfl
@[simp] theorem State.updField_flight (s : State) (k : Nat) (f : Field → Field) (j : Nat) : (s.updField k f).flight j = s.flight j := rfl
@[simp] theorem State.updField_queue (s : State) (k : Nat) (f : Field → Field) (j : Nat) : (s.updField k f).queue j = s.queue j := rfl
@[simp] theorem State.updField_byte (s : State) (k : Nat) (f : Field → Field) (j : Nat) : (s.updField k f).byte j = s.byte j := rfl

/-! ## updRegion -/

@[simp] theorem State.updRegion_agenda (s : State) (k : Nat) (f : Region → Region) : (s.updRegion k f).agenda = s.agenda := rfl
@[simp] theorem State.updRegion_started (s : State) (k : Nat) (f : Region → Region) : (s.updRegion k f).started = s.started := rfl
@[simp] theorem State.updRegion_schedule (s : State) (k : Nat) (f : Region → Region) : (s.updRegion k f).schedule = s.schedule := rfl
@[simp] theorem State.updRegion_choices (s : State) (k : Nat) (f : Region → Region) : (s.updRegion k f).choices = s.choices := rfl
@[simp] theorem State.updRegion_fresh (s : State) (k : Nat) (f : Region → Region) : (s.updRegion k f).fresh = s.fresh := rfl
@[simp] theorem State.updRegion_focus (s : State) (k : Nat) (f : Region → Region) : (s.updRegion k f).focus = s.focus := rfl
@[simp] theorem State.updRegion_mem (s : State) (k : Nat) (f : Region → Region) : (s.updRegion k f).mem = s.mem := rfl
@[simp] theorem State.updRegion_poison (s : State) (k : Nat) (f : Region → Region) : (s.updRegion k f).poison = s.poison := rfl
@[simp] theorem State.updRegion_margin (s : State) (k : Nat) (f : Region → Region) : (s.updRegion k f).margin = s.margin := rfl
@[simp] theorem State.updRegion_flights (s : State) (k : Nat) (f : Region → Region) : (s.updRegion k f).flights = s.flights := rfl
@[simp] theorem State.updRegion_tss (s : State) (k : Nat) (f : Region → Region) : (s.updRegion k f).tss = s.tss := rfl
@[simp] theorem State.updRegion_tiles (s : State) (k : Nat) (f : Region → Region) : (s.updRegion k f).tiles = s.tiles := rfl
@[simp] theorem State.updRegion_clusters (s : State) (k : Nat) (f : Region → Region) : (s.updRegion k f).clusters = s.clusters := rfl
@[simp] theorem State.updRegion_fields (s : State) (k : Nat) (f : Region → Region) : (s.updRegion k f).fields = s.fields := rfl
@[simp] theorem State.updRegion_owners (s : State) (k : Nat) (f : Region → Region) : (s.updRegion k f).owners = s.owners := rfl
@[simp] theorem State.updRegion_net (s : State) (k : Nat) (f : Region → Region) : (s.updRegion k f).net = s.net := rfl
@[simp] theorem State.updRegion_landings (s : State) (k : Nat) (f : Region → Region) : (s.updRegion k f).landings = s.landings := rfl
@[simp] theorem State.updRegion_dreqs (s : State) (k : Nat) (f : Region → Region) : (s.updRegion k f).dreqs = s.dreqs := rfl
@[simp] theorem State.updRegion_dreps (s : State) (k : Nat) (f : Region → Region) : (s.updRegion k f).dreps = s.dreps := rfl
@[simp] theorem State.updRegion_tlb (s : State) (k : Nat) (f : Region → Region) : (s.updRegion k f).tlb = s.tlb := rfl
@[simp] theorem State.updRegion_saves (s : State) (k : Nat) (f : Region → Region) : (s.updRegion k f).saves = s.saves := rfl
@[simp] theorem State.updRegion_map (s : State) (k : Nat) (f : Region → Region) : (s.updRegion k f).map = s.map := rfl
@[simp] theorem State.updRegion_links (s : State) (k : Nat) (f : Region → Region) : (s.updRegion k f).links = s.links := rfl
@[simp] theorem State.updRegion_ts (s : State) (k : Nat) (f : Region → Region) (j : Nat) : (s.updRegion k f).ts j = s.ts j := rfl
@[simp] theorem State.updRegion_tile (s : State) (k : Nat) (f : Region → Region) (j : Nat) : (s.updRegion k f).tile j = s.tile j := rfl
@[simp] theorem State.updRegion_cluster (s : State) (k : Nat) (f : Region → Region) (j : Nat) : (s.updRegion k f).cluster j = s.cluster j := rfl
@[simp] theorem State.updRegion_fieldRec (s : State) (k : Nat) (f : Region → Region) (j : Nat) : (s.updRegion k f).fieldRec j = s.fieldRec j := rfl
@[simp] theorem State.updRegion_flight (s : State) (k : Nat) (f : Region → Region) (j : Nat) : (s.updRegion k f).flight j = s.flight j := rfl
@[simp] theorem State.updRegion_queue (s : State) (k : Nat) (f : Region → Region) (j : Nat) : (s.updRegion k f).queue j = s.queue j := rfl
@[simp] theorem State.updRegion_byte (s : State) (k : Nat) (f : Region → Region) (j : Nat) : (s.updRegion k f).byte j = s.byte j := rfl

/-! ## setFlight -/

@[simp] theorem State.setFlight_agenda (s : State) (k : Nat) (x : Flight) : (s.setFlight k x).agenda = s.agenda := rfl
@[simp] theorem State.setFlight_started (s : State) (k : Nat) (x : Flight) : (s.setFlight k x).started = s.started := rfl
@[simp] theorem State.setFlight_schedule (s : State) (k : Nat) (x : Flight) : (s.setFlight k x).schedule = s.schedule := rfl
@[simp] theorem State.setFlight_choices (s : State) (k : Nat) (x : Flight) : (s.setFlight k x).choices = s.choices := rfl
@[simp] theorem State.setFlight_fresh (s : State) (k : Nat) (x : Flight) : (s.setFlight k x).fresh = s.fresh := rfl
@[simp] theorem State.setFlight_focus (s : State) (k : Nat) (x : Flight) : (s.setFlight k x).focus = s.focus := rfl
@[simp] theorem State.setFlight_mem (s : State) (k : Nat) (x : Flight) : (s.setFlight k x).mem = s.mem := rfl
@[simp] theorem State.setFlight_poison (s : State) (k : Nat) (x : Flight) : (s.setFlight k x).poison = s.poison := rfl
@[simp] theorem State.setFlight_margin (s : State) (k : Nat) (x : Flight) : (s.setFlight k x).margin = s.margin := rfl
@[simp] theorem State.setFlight_tss (s : State) (k : Nat) (x : Flight) : (s.setFlight k x).tss = s.tss := rfl
@[simp] theorem State.setFlight_tiles (s : State) (k : Nat) (x : Flight) : (s.setFlight k x).tiles = s.tiles := rfl
@[simp] theorem State.setFlight_clusters (s : State) (k : Nat) (x : Flight) : (s.setFlight k x).clusters = s.clusters := rfl
@[simp] theorem State.setFlight_fields (s : State) (k : Nat) (x : Flight) : (s.setFlight k x).fields = s.fields := rfl
@[simp] theorem State.setFlight_regions (s : State) (k : Nat) (x : Flight) : (s.setFlight k x).regions = s.regions := rfl
@[simp] theorem State.setFlight_owners (s : State) (k : Nat) (x : Flight) : (s.setFlight k x).owners = s.owners := rfl
@[simp] theorem State.setFlight_net (s : State) (k : Nat) (x : Flight) : (s.setFlight k x).net = s.net := rfl
@[simp] theorem State.setFlight_landings (s : State) (k : Nat) (x : Flight) : (s.setFlight k x).landings = s.landings := rfl
@[simp] theorem State.setFlight_dreqs (s : State) (k : Nat) (x : Flight) : (s.setFlight k x).dreqs = s.dreqs := rfl
@[simp] theorem State.setFlight_dreps (s : State) (k : Nat) (x : Flight) : (s.setFlight k x).dreps = s.dreps := rfl
@[simp] theorem State.setFlight_tlb (s : State) (k : Nat) (x : Flight) : (s.setFlight k x).tlb = s.tlb := rfl
@[simp] theorem State.setFlight_saves (s : State) (k : Nat) (x : Flight) : (s.setFlight k x).saves = s.saves := rfl
@[simp] theorem State.setFlight_map (s : State) (k : Nat) (x : Flight) : (s.setFlight k x).map = s.map := rfl
@[simp] theorem State.setFlight_links (s : State) (k : Nat) (x : Flight) : (s.setFlight k x).links = s.links := rfl
@[simp] theorem State.setFlight_ts (s : State) (k : Nat) (x : Flight) (j : Nat) : (s.setFlight k x).ts j = s.ts j := rfl
@[simp] theorem State.setFlight_tile (s : State) (k : Nat) (x : Flight) (j : Nat) : (s.setFlight k x).tile j = s.tile j := rfl
@[simp] theorem State.setFlight_cluster (s : State) (k : Nat) (x : Flight) (j : Nat) : (s.setFlight k x).cluster j = s.cluster j := rfl
@[simp] theorem State.setFlight_fieldRec (s : State) (k : Nat) (x : Flight) (j : Nat) : (s.setFlight k x).fieldRec j = s.fieldRec j := rfl
@[simp] theorem State.setFlight_region (s : State) (k : Nat) (x : Flight) (j : Nat) : (s.setFlight k x).region j = s.region j := rfl
@[simp] theorem State.setFlight_queue (s : State) (k : Nat) (x : Flight) (j : Nat) : (s.setFlight k x).queue j = s.queue j := rfl
@[simp] theorem State.setFlight_byte (s : State) (k : Nat) (x : Flight) (j : Nat) : (s.setFlight k x).byte j = s.byte j := rfl

/-! ## dropFlight -/

@[simp] theorem State.dropFlight_agenda (s : State) (k : Nat) : (s.dropFlight k).agenda = s.agenda := rfl
@[simp] theorem State.dropFlight_started (s : State) (k : Nat) : (s.dropFlight k).started = s.started := rfl
@[simp] theorem State.dropFlight_schedule (s : State) (k : Nat) : (s.dropFlight k).schedule = s.schedule := rfl
@[simp] theorem State.dropFlight_choices (s : State) (k : Nat) : (s.dropFlight k).choices = s.choices := rfl
@[simp] theorem State.dropFlight_fresh (s : State) (k : Nat) : (s.dropFlight k).fresh = s.fresh := rfl
@[simp] theorem State.dropFlight_focus (s : State) (k : Nat) : (s.dropFlight k).focus = s.focus := rfl
@[simp] theorem State.dropFlight_mem (s : State) (k : Nat) : (s.dropFlight k).mem = s.mem := rfl
@[simp] theorem State.dropFlight_poison (s : State) (k : Nat) : (s.dropFlight k).poison = s.poison := rfl
@[simp] theorem State.dropFlight_margin (s : State) (k : Nat) : (s.dropFlight k).margin = s.margin := rfl
@[simp] theorem State.dropFlight_tss (s : State) (k : Nat) : (s.dropFlight k).tss = s.tss := rfl
@[simp] theorem State.dropFlight_tiles (s : State) (k : Nat) : (s.dropFlight k).tiles = s.tiles := rfl
@[simp] theorem State.dropFlight_clusters (s : State) (k : Nat) : (s.dropFlight k).clusters = s.clusters := rfl
@[simp] theorem State.dropFlight_fields (s : State) (k : Nat) : (s.dropFlight k).fields = s.fields := rfl
@[simp] theorem State.dropFlight_regions (s : State) (k : Nat) : (s.dropFlight k).regions = s.regions := rfl
@[simp] theorem State.dropFlight_owners (s : State) (k : Nat) : (s.dropFlight k).owners = s.owners := rfl
@[simp] theorem State.dropFlight_net (s : State) (k : Nat) : (s.dropFlight k).net = s.net := rfl
@[simp] theorem State.dropFlight_landings (s : State) (k : Nat) : (s.dropFlight k).landings = s.landings := rfl
@[simp] theorem State.dropFlight_dreqs (s : State) (k : Nat) : (s.dropFlight k).dreqs = s.dreqs := rfl
@[simp] theorem State.dropFlight_dreps (s : State) (k : Nat) : (s.dropFlight k).dreps = s.dreps := rfl
@[simp] theorem State.dropFlight_tlb (s : State) (k : Nat) : (s.dropFlight k).tlb = s.tlb := rfl
@[simp] theorem State.dropFlight_saves (s : State) (k : Nat) : (s.dropFlight k).saves = s.saves := rfl
@[simp] theorem State.dropFlight_map (s : State) (k : Nat) : (s.dropFlight k).map = s.map := rfl
@[simp] theorem State.dropFlight_links (s : State) (k : Nat) : (s.dropFlight k).links = s.links := rfl
@[simp] theorem State.dropFlight_ts (s : State) (k : Nat) (j : Nat) : (s.dropFlight k).ts j = s.ts j := rfl
@[simp] theorem State.dropFlight_tile (s : State) (k : Nat) (j : Nat) : (s.dropFlight k).tile j = s.tile j := rfl
@[simp] theorem State.dropFlight_cluster (s : State) (k : Nat) (j : Nat) : (s.dropFlight k).cluster j = s.cluster j := rfl
@[simp] theorem State.dropFlight_fieldRec (s : State) (k : Nat) (j : Nat) : (s.dropFlight k).fieldRec j = s.fieldRec j := rfl
@[simp] theorem State.dropFlight_region (s : State) (k : Nat) (j : Nat) : (s.dropFlight k).region j = s.region j := rfl
@[simp] theorem State.dropFlight_queue (s : State) (k : Nat) (j : Nat) : (s.dropFlight k).queue j = s.queue j := rfl
@[simp] theorem State.dropFlight_byte (s : State) (k : Nat) (j : Nat) : (s.dropFlight k).byte j = s.byte j := rfl

/-! ## updQueue -/

@[simp] theorem State.updQueue_agenda (s : State) (k : Nat) (f : HostQueue → HostQueue) : (s.updQueue k f).agenda = s.agenda := rfl
@[simp] theorem State.updQueue_started (s : State) (k : Nat) (f : HostQueue → HostQueue) : (s.updQueue k f).started = s.started := rfl
@[simp] theorem State.updQueue_schedule (s : State) (k : Nat) (f : HostQueue → HostQueue) : (s.updQueue k f).schedule = s.schedule := rfl
@[simp] theorem State.updQueue_choices (s : State) (k : Nat) (f : HostQueue → HostQueue) : (s.updQueue k f).choices = s.choices := rfl
@[simp] theorem State.updQueue_fresh (s : State) (k : Nat) (f : HostQueue → HostQueue) : (s.updQueue k f).fresh = s.fresh := rfl
@[simp] theorem State.updQueue_focus (s : State) (k : Nat) (f : HostQueue → HostQueue) : (s.updQueue k f).focus = s.focus := rfl
@[simp] theorem State.updQueue_mem (s : State) (k : Nat) (f : HostQueue → HostQueue) : (s.updQueue k f).mem = s.mem := rfl
@[simp] theorem State.updQueue_poison (s : State) (k : Nat) (f : HostQueue → HostQueue) : (s.updQueue k f).poison = s.poison := rfl
@[simp] theorem State.updQueue_margin (s : State) (k : Nat) (f : HostQueue → HostQueue) : (s.updQueue k f).margin = s.margin := rfl
@[simp] theorem State.updQueue_flights (s : State) (k : Nat) (f : HostQueue → HostQueue) : (s.updQueue k f).flights = s.flights := rfl
@[simp] theorem State.updQueue_tss (s : State) (k : Nat) (f : HostQueue → HostQueue) : (s.updQueue k f).tss = s.tss := rfl
@[simp] theorem State.updQueue_tiles (s : State) (k : Nat) (f : HostQueue → HostQueue) : (s.updQueue k f).tiles = s.tiles := rfl
@[simp] theorem State.updQueue_clusters (s : State) (k : Nat) (f : HostQueue → HostQueue) : (s.updQueue k f).clusters = s.clusters := rfl
@[simp] theorem State.updQueue_fields (s : State) (k : Nat) (f : HostQueue → HostQueue) : (s.updQueue k f).fields = s.fields := rfl
@[simp] theorem State.updQueue_regions (s : State) (k : Nat) (f : HostQueue → HostQueue) : (s.updQueue k f).regions = s.regions := rfl
@[simp] theorem State.updQueue_owners (s : State) (k : Nat) (f : HostQueue → HostQueue) : (s.updQueue k f).owners = s.owners := rfl
@[simp] theorem State.updQueue_net (s : State) (k : Nat) (f : HostQueue → HostQueue) : (s.updQueue k f).net = s.net := rfl
@[simp] theorem State.updQueue_landings (s : State) (k : Nat) (f : HostQueue → HostQueue) : (s.updQueue k f).landings = s.landings := rfl
@[simp] theorem State.updQueue_dreqs (s : State) (k : Nat) (f : HostQueue → HostQueue) : (s.updQueue k f).dreqs = s.dreqs := rfl
@[simp] theorem State.updQueue_dreps (s : State) (k : Nat) (f : HostQueue → HostQueue) : (s.updQueue k f).dreps = s.dreps := rfl
@[simp] theorem State.updQueue_tlb (s : State) (k : Nat) (f : HostQueue → HostQueue) : (s.updQueue k f).tlb = s.tlb := rfl
@[simp] theorem State.updQueue_saves (s : State) (k : Nat) (f : HostQueue → HostQueue) : (s.updQueue k f).saves = s.saves := rfl
@[simp] theorem State.updQueue_map (s : State) (k : Nat) (f : HostQueue → HostQueue) : (s.updQueue k f).map = s.map := rfl
@[simp] theorem State.updQueue_ts (s : State) (k : Nat) (f : HostQueue → HostQueue) (j : Nat) : (s.updQueue k f).ts j = s.ts j := rfl
@[simp] theorem State.updQueue_tile (s : State) (k : Nat) (f : HostQueue → HostQueue) (j : Nat) : (s.updQueue k f).tile j = s.tile j := rfl
@[simp] theorem State.updQueue_cluster (s : State) (k : Nat) (f : HostQueue → HostQueue) (j : Nat) : (s.updQueue k f).cluster j = s.cluster j := rfl
@[simp] theorem State.updQueue_fieldRec (s : State) (k : Nat) (f : HostQueue → HostQueue) (j : Nat) : (s.updQueue k f).fieldRec j = s.fieldRec j := rfl
@[simp] theorem State.updQueue_region (s : State) (k : Nat) (f : HostQueue → HostQueue) (j : Nat) : (s.updQueue k f).region j = s.region j := rfl
@[simp] theorem State.updQueue_flight (s : State) (k : Nat) (f : HostQueue → HostQueue) (j : Nat) : (s.updQueue k f).flight j = s.flight j := rfl
@[simp] theorem State.updQueue_byte (s : State) (k : Nat) (f : HostQueue → HostQueue) (j : Nat) : (s.updQueue k f).byte j = s.byte j := rfl

/-! ## updLinks -/

@[simp] theorem State.updLinks_agenda (s : State) (f : Links → Links) : (s.updLinks f).agenda = s.agenda := rfl
@[simp] theorem State.updLinks_started (s : State) (f : Links → Links) : (s.updLinks f).started = s.started := rfl
@[simp] theorem State.updLinks_schedule (s : State) (f : Links → Links) : (s.updLinks f).schedule = s.schedule := rfl
@[simp] theorem State.updLinks_choices (s : State) (f : Links → Links) : (s.updLinks f).choices = s.choices := rfl
@[simp] theorem State.updLinks_fresh (s : State) (f : Links → Links) : (s.updLinks f).fresh = s.fresh := rfl
@[simp] theorem State.updLinks_focus (s : State) (f : Links → Links) : (s.updLinks f).focus = s.focus := rfl
@[simp] theorem State.updLinks_mem (s : State) (f : Links → Links) : (s.updLinks f).mem = s.mem := rfl
@[simp] theorem State.updLinks_poison (s : State) (f : Links → Links) : (s.updLinks f).poison = s.poison := rfl
@[simp] theorem State.updLinks_margin (s : State) (f : Links → Links) : (s.updLinks f).margin = s.margin := rfl
@[simp] theorem State.updLinks_flights (s : State) (f : Links → Links) : (s.updLinks f).flights = s.flights := rfl
@[simp] theorem State.updLinks_tss (s : State) (f : Links → Links) : (s.updLinks f).tss = s.tss := rfl
@[simp] theorem State.updLinks_tiles (s : State) (f : Links → Links) : (s.updLinks f).tiles = s.tiles := rfl
@[simp] theorem State.updLinks_clusters (s : State) (f : Links → Links) : (s.updLinks f).clusters = s.clusters := rfl
@[simp] theorem State.updLinks_fields (s : State) (f : Links → Links) : (s.updLinks f).fields = s.fields := rfl
@[simp] theorem State.updLinks_regions (s : State) (f : Links → Links) : (s.updLinks f).regions = s.regions := rfl
@[simp] theorem State.updLinks_owners (s : State) (f : Links → Links) : (s.updLinks f).owners = s.owners := rfl
@[simp] theorem State.updLinks_net (s : State) (f : Links → Links) : (s.updLinks f).net = s.net := rfl
@[simp] theorem State.updLinks_landings (s : State) (f : Links → Links) : (s.updLinks f).landings = s.landings := rfl
@[simp] theorem State.updLinks_dreqs (s : State) (f : Links → Links) : (s.updLinks f).dreqs = s.dreqs := rfl
@[simp] theorem State.updLinks_dreps (s : State) (f : Links → Links) : (s.updLinks f).dreps = s.dreps := rfl
@[simp] theorem State.updLinks_tlb (s : State) (f : Links → Links) : (s.updLinks f).tlb = s.tlb := rfl
@[simp] theorem State.updLinks_saves (s : State) (f : Links → Links) : (s.updLinks f).saves = s.saves := rfl
@[simp] theorem State.updLinks_map (s : State) (f : Links → Links) : (s.updLinks f).map = s.map := rfl
@[simp] theorem State.updLinks_ts (s : State) (f : Links → Links) (j : Nat) : (s.updLinks f).ts j = s.ts j := rfl
@[simp] theorem State.updLinks_tile (s : State) (f : Links → Links) (j : Nat) : (s.updLinks f).tile j = s.tile j := rfl
@[simp] theorem State.updLinks_cluster (s : State) (f : Links → Links) (j : Nat) : (s.updLinks f).cluster j = s.cluster j := rfl
@[simp] theorem State.updLinks_fieldRec (s : State) (f : Links → Links) (j : Nat) : (s.updLinks f).fieldRec j = s.fieldRec j := rfl
@[simp] theorem State.updLinks_region (s : State) (f : Links → Links) (j : Nat) : (s.updLinks f).region j = s.region j := rfl
@[simp] theorem State.updLinks_flight (s : State) (f : Links → Links) (j : Nat) : (s.updLinks f).flight j = s.flight j := rfl
@[simp] theorem State.updLinks_byte (s : State) (f : Links → Links) (j : Nat) : (s.updLinks f).byte j = s.byte j := rfl

/-! ## putByte -/

@[simp] theorem State.putByte_agenda (s : State) (a : Nat) (b : Byte) : (s.putByte a b).agenda = s.agenda := rfl
@[simp] theorem State.putByte_started (s : State) (a : Nat) (b : Byte) : (s.putByte a b).started = s.started := rfl
@[simp] theorem State.putByte_schedule (s : State) (a : Nat) (b : Byte) : (s.putByte a b).schedule = s.schedule := rfl
@[simp] theorem State.putByte_choices (s : State) (a : Nat) (b : Byte) : (s.putByte a b).choices = s.choices := rfl
@[simp] theorem State.putByte_fresh (s : State) (a : Nat) (b : Byte) : (s.putByte a b).fresh = s.fresh := rfl
@[simp] theorem State.putByte_focus (s : State) (a : Nat) (b : Byte) : (s.putByte a b).focus = s.focus := rfl
@[simp] theorem State.putByte_poison (s : State) (a : Nat) (b : Byte) : (s.putByte a b).poison = s.poison := rfl
@[simp] theorem State.putByte_margin (s : State) (a : Nat) (b : Byte) : (s.putByte a b).margin = s.margin := rfl
@[simp] theorem State.putByte_flights (s : State) (a : Nat) (b : Byte) : (s.putByte a b).flights = s.flights := rfl
@[simp] theorem State.putByte_tss (s : State) (a : Nat) (b : Byte) : (s.putByte a b).tss = s.tss := rfl
@[simp] theorem State.putByte_tiles (s : State) (a : Nat) (b : Byte) : (s.putByte a b).tiles = s.tiles := rfl
@[simp] theorem State.putByte_clusters (s : State) (a : Nat) (b : Byte) : (s.putByte a b).clusters = s.clusters := rfl
@[simp] theorem State.putByte_fields (s : State) (a : Nat) (b : Byte) : (s.putByte a b).fields = s.fields := rfl
@[simp] theorem State.putByte_regions (s : State) (a : Nat) (b : Byte) : (s.putByte a b).regions = s.regions := rfl
@[simp] theorem State.putByte_owners (s : State) (a : Nat) (b : Byte) : (s.putByte a b).owners = s.owners := rfl
@[simp] theorem State.putByte_net (s : State) (a : Nat) (b : Byte) : (s.putByte a b).net = s.net := rfl
@[simp] theorem State.putByte_landings (s : State) (a : Nat) (b : Byte) : (s.putByte a b).landings = s.landings := rfl
@[simp] theorem State.putByte_dreqs (s : State) (a : Nat) (b : Byte) : (s.putByte a b).dreqs = s.dreqs := rfl
@[simp] theorem State.putByte_dreps (s : State) (a : Nat) (b : Byte) : (s.putByte a b).dreps = s.dreps := rfl
@[simp] theorem State.putByte_tlb (s : State) (a : Nat) (b : Byte) : (s.putByte a b).tlb = s.tlb := rfl
@[simp] theorem State.putByte_saves (s : State) (a : Nat) (b : Byte) : (s.putByte a b).saves = s.saves := rfl
@[simp] theorem State.putByte_map (s : State) (a : Nat) (b : Byte) : (s.putByte a b).map = s.map := rfl
@[simp] theorem State.putByte_links (s : State) (a : Nat) (b : Byte) : (s.putByte a b).links = s.links := rfl
@[simp] theorem State.putByte_ts (s : State) (a : Nat) (b : Byte) (j : Nat) : (s.putByte a b).ts j = s.ts j := rfl
@[simp] theorem State.putByte_tile (s : State) (a : Nat) (b : Byte) (j : Nat) : (s.putByte a b).tile j = s.tile j := rfl
@[simp] theorem State.putByte_cluster (s : State) (a : Nat) (b : Byte) (j : Nat) : (s.putByte a b).cluster j = s.cluster j := rfl
@[simp] theorem State.putByte_fieldRec (s : State) (a : Nat) (b : Byte) (j : Nat) : (s.putByte a b).fieldRec j = s.fieldRec j := rfl
@[simp] theorem State.putByte_region (s : State) (a : Nat) (b : Byte) (j : Nat) : (s.putByte a b).region j = s.region j := rfl
@[simp] theorem State.putByte_flight (s : State) (a : Nat) (b : Byte) (j : Nat) : (s.putByte a b).flight j = s.flight j := rfl
@[simp] theorem State.putByte_queue (s : State) (a : Nat) (b : Byte) (j : Nat) : (s.putByte a b).queue j = s.queue j := rfl

/-! ## What was written is read -/

@[simp] theorem State.ts_setTs (s : State) (k : Nat) (x : ThreadSet) : (s.setTs k x).ts k = x := AMap.get_put_same _ _ _ _
theorem State.ts_setTs_of_ne (s : State) {j k : Nat} (h : j ≠ k) (x : ThreadSet) : (s.setTs k x).ts j = s.ts j :=
  AMap.get_put_of_ne h _ _ _ _
@[simp] theorem State.ts_updTs (s : State) (k : Nat) (f : ThreadSet → ThreadSet) : (s.updTs k f).ts k = f (s.ts k) :=
  AMap.get_put_same _ _ _ _
theorem State.ts_updTs_of_ne (s : State) {j k : Nat} (h : j ≠ k) (f : ThreadSet → ThreadSet) : (s.updTs k f).ts j = s.ts j :=
  AMap.get_put_of_ne h _ _ _ _
@[simp] theorem State.tile_setTile (s : State) (k : Nat) (x : Tile) : (s.setTile k x).tile k = x := AMap.get_put_same _ _ _ _
theorem State.tile_setTile_of_ne (s : State) {j k : Nat} (h : j ≠ k) (x : Tile) : (s.setTile k x).tile j = s.tile j :=
  AMap.get_put_of_ne h _ _ _ _
@[simp] theorem State.tile_updTile (s : State) (k : Nat) (f : Tile → Tile) : (s.updTile k f).tile k = f (s.tile k) :=
  AMap.get_put_same _ _ _ _
theorem State.tile_updTile_of_ne (s : State) {j k : Nat} (h : j ≠ k) (f : Tile → Tile) : (s.updTile k f).tile j = s.tile j :=
  AMap.get_put_of_ne h _ _ _ _
@[simp] theorem State.cluster_updCluster (s : State) (k : Nat) (f : Cluster → Cluster) :
    (s.updCluster k f).cluster k = f (s.cluster k) := AMap.get_put_same _ _ _ _
theorem State.cluster_updCluster_of_ne (s : State) {j k : Nat} (h : j ≠ k) (f : Cluster → Cluster) :
    (s.updCluster k f).cluster j = s.cluster j := AMap.get_put_of_ne h _ _ _ _
@[simp] theorem State.fieldRec_updField (s : State) (k : Nat) (f : Field → Field) :
    (s.updField k f).fieldRec k = f (s.fieldRec k) := AMap.get_put_same _ _ _ _
theorem State.fieldRec_updField_of_ne (s : State) {j k : Nat} (h : j ≠ k) (f : Field → Field) :
    (s.updField k f).fieldRec j = s.fieldRec j := AMap.get_put_of_ne h _ _ _ _
@[simp] theorem State.queue_updQueue (s : State) (k : Nat) (f : HostQueue → HostQueue) :
    (s.updQueue k f).queue k = f (s.queue k) := AMap.get_put_same _ _ _ _
theorem State.queue_updQueue_of_ne (s : State) {j k : Nat} (h : j ≠ k) (f : HostQueue → HostQueue) :
    (s.updQueue k f).queue j = s.queue j := AMap.get_put_of_ne h _ _ _ _
theorem State.region_updRegion (s : State) (k : Nat) (f : Region → Region) (h : s.hasRegion k = true) :
    (s.updRegion k f).region k = f (s.region k) := by
  obtain ⟨g, hg⟩ := Option.isSome_iff_exists.1 h
  simp [State.region, State.updRegion, AMap.get, AMap.find_modify_same, hg]
theorem State.region_updRegion_of_ne (s : State) {j k : Nat} (h : j ≠ k) (f : Region → Region) :
    (s.updRegion k f).region j = s.region j := by
  simp [State.region, State.updRegion, AMap.get, AMap.find_modify_of_ne h]
@[simp] theorem State.flight_setFlight (s : State) (k : Nat) (x : Flight) : (s.setFlight k x).flight k = some x :=
  AMap.find_ins_same _ _ _
theorem State.flight_setFlight_of_ne (s : State) {j k : Nat} (h : j ≠ k) (x : Flight) : (s.setFlight k x).flight j = s.flight j :=
  AMap.find_ins_of_ne h _ _
@[simp] theorem State.flight_dropFlight (s : State) (k : Nat) : (s.dropFlight k).flight k = none := AMap.find_del_same _ _
theorem State.flight_dropFlight_of_ne (s : State) {j k : Nat} (h : j ≠ k) : (s.dropFlight k).flight j = s.flight j :=
  AMap.find_del_of_ne h _
@[simp] theorem csrOf_csrPut (m : AMap Word) (n : Nat) (w : Word) : csrOf (csrPut m n w) n = w := AMap.get_put_same _ _ _ _
theorem csrOf_csrPut_of_ne (m : AMap Word) {j n : Nat} (h : j ≠ n) (w : Word) : csrOf (csrPut m n w) j = csrOf m j :=
  AMap.get_put_of_ne h _ _ _ _

end Sys2Proof.Machine
end

