-- ==== Sys2Proof/Laws/Fire.lean ====
section
/-! SUPPORT. What a firing does, once for every outcome that an instruction's rule can give it, in the terms of Safety.lean. -/

namespace Sys2Proof.Machine

/-! ## What `view` says -/

/-- An instruction that `view` shows stands at the cursor of the block in flight in focus, its predicate lets it go ahead, and it
sees the tokens that have reached its slots. -/
theorem State.view_cases {s : State} {pr : Pr} {c : Fire} (h : s.view pr = some c) :
    c.s = s ∧ c.k = s.focus ∧ s.flight s.focus = some c.fl ∧ c.fl.cursor = some c.ix ∧
      predicate pr (c.fl.token c.ix 2) = .go c.en c.mask ∧ c.left = c.fl.token c.ix 0 ∧ c.right = c.fl.token c.ix 1 ∧
      c.third = c.fl.token c.ix 3 := by
  unfold State.view at h
  split at h
  · cases h
  · rename_i f hf
    split at h
    · cases h
    · rename_i ix hix
      split at h
      · rename_i en m hp
        cases h
        exact ⟨rfl, rfl, hf, hix, hp, rfl, rfl, rfl⟩
      · cases h

/-- A firing that reads nothing of the pool sees nothing of it. -/
@[simp] theorem State.sees_none (s : State) (k : Nat) (f : Flight) : s.sees k f none = f := rfl

/-- No entry is waited for in vain while none is withheld. -/
theorem State.never_of_clear {s : State} {k : Nat} (h : ∀ e ∈ (s.ts k).eng.journal, e.state ≠ .withheld) (e : JEntry) :
    s.never k e = false := by
  have hw : ((s.ts k).eng.journal.filter fun x => x.state == .withheld) = [] := by
    rw [List.filter_eq_nil_iff]
    intro x hx
    simpa using h x hx
  simp [State.never, hw]

/-- A wait for journal entries is a plain wait while none is withheld. -/
theorem Fire.waitsFor_of_clear {c : Fire} (h : ∀ e ∈ (c.s.ts c.k).eng.journal, e.state ≠ .withheld) (p : JEntry → Bool) (o : Out) :
    c.waitsFor p o = o := by
  simp [Fire.waitsFor, State.never_of_clear h]

/-- Whether every slot that a shape requires holds a token that is not null. -/
def Fire.filled (c : Fire) (sh : Shape) : Bool :=
  (!sh.left || !c.left.isNull) && (!sh.right || !c.right.isNull) && (!(sh.third == .data) || !c.third.isNull)

theorem Fire.filled_eq (c : Fire) (sh : Shape) :
    ((sh.left && c.left.isNull) || (sh.right && c.right.isNull) || (sh.third == .data && c.third.isNull)) = !c.filled sh := by
  simp only [Fire.filled]
  cases sh.left <;> cases sh.right <;> cases (sh.third == Third.data) <;> cases c.left.isNull <;> cases c.right.isNull <;>
    cases c.third.isNull <;> rfl

/-- The outcome of a firing that the predicate and the operands let go ahead is that of its rule. -/
theorem outcome_of_view {s : State} {sh : Shape} {c : Fire} {maskOk nullOk : Bool} {body : Fire → Out}
    (h : s.view sh.pr = some c) (hm : c.mask = true → maskOk = true) (hn : (nullOk || c.filled sh) = true) :
    outcome sh maskOk nullOk body s s.focus c.fl c.ix = body c := by
  obtain ⟨hs, hk, -, -, hp, hl, hr, ht⟩ := State.view_cases h
  have hc : (⟨s, s.focus, c.fl, c.ix, c.fl.token c.ix 0, c.fl.token c.ix 1, c.fl.token c.ix 3, c.en, c.mask⟩ : Fire) = c := by
    cases c; simp_all
  have hnull : (!nullOk && ((sh.left && (c.fl.token c.ix 0).isNull) || (sh.right && (c.fl.token c.ix 1).isNull) ||
      (sh.third == .data && (c.fl.token c.ix 3).isNull))) = false := by
    rw [← hl, ← hr, ← ht, Fire.filled_eq]
    cases nullOk <;> simp_all
  have hmask : (c.mask && !maskOk) = false := by cases hh : c.mask <;> simp_all
  simp only [outcome, hp, hnull, hmask, hc, Bool.false_eq_true, if_false]

/-- A firing that the predicate and the operands let go ahead does what its rule gives. -/
theorem State.fire_of_view {s : State} {sh : Shape} {g : Grp} {c : Fire} {maskOk nullOk : Bool} {body : Fire → Out}
    (h : s.view sh.pr = some c) (hm : c.mask = true → maskOk = true) (hn : (nullOk || c.filled sh) = true)
    (hd : (body c).side ≠ some .drop) :
    s.fire sh g maskOk nullOk body = .next ((s.applySide (body c).side).setFlight s.focus ((s.sees s.focus c.fl (body c).load).record sh g c.ix (body c)).sweep) := by
  obtain ⟨-, -, hf, hix, -⟩ := State.view_cases h
  simp only [State.fire, hf, hix, outcome_of_view h hm hn]
  split
  · rename_i hx
    refine absurd ?_ hd
    revert hx
    cases (body c).side with
    | none => simp
    | some x => cases x <;> simp
  · rfl

/-! ## One lemma for each outcome -/

variable {s : State} {sh : Shape} {g : Grp} {c : Fire} {maskOk nullOk : Bool} {body : Fire → Out}

/-- A rule that delivers a token, with flags or an effect or bytes read, leads to `Fire.after`. -/
theorem State.fire_delivers {t : Token} {fl : BitVec 7} {e : Option Effect} {ld : Option (Nat × Nat)}
    (h : s.view sh.pr = some c) (hm : c.mask = true → maskOk = true) (hn : (nullOk || c.filled sh) = true)
    (hb : body c = { given := .deliver t, eff := e, flags := fl, load := ld }) :
    s.fire sh g maskOk nullOk body = .next (c.after (g.cls t) sh.targets t fl e ld) := by
  obtain ⟨hs, hk, -⟩ := State.view_cases h
  rw [State.fire_of_view h hm hn (by simp [hb]), hb]
  simp only [State.applySide, State.setFlight, Fire.after, hs, hk]
  cases e <;> cases ld <;> rfl
/-- A rule that gives a fault leads to `Fire.faulted`. -/
theorem State.fire_faults {cause : Cause} {sub : Nat} {a : Word}
    (h : s.view sh.pr = some c) (hm : c.mask = true → maskOk = true) (hn : (nullOk || c.filled sh) = true)
    (hb : body c = Out.faultAt cause sub a) :
    s.fire sh g maskOk nullOk body = .next (c.faulted (g.cls .null) cause sub a) := by
  obtain ⟨hs, hk, -⟩ := State.view_cases h
  rw [State.fire_of_view h hm hn (by simp [hb, Out.faultAt]), hb]
  simp only [State.applySide, State.setFlight, Fire.faulted, hs, hk, Out.faultAt]
  rfl
/-- A lane-mask predicate on an instruction that takes none is the operand-type fault (R83). -/
theorem State.fire_refuses_mask (h : s.view sh.pr = some c) (hm : c.mask = true) (hn : (nullOk || c.filled sh) = true) :
    s.fire sh g false nullOk body = .next (c.faulted (g.cls .null) .operandType 0 0) := by
  obtain ⟨hs, hk, hf, hix, hp, hl, hr, ht⟩ := State.view_cases h
  have hnull : (!nullOk && ((sh.left && (c.fl.token c.ix 0).isNull) || (sh.right && (c.fl.token c.ix 1).isNull) ||
      (sh.third == .data && (c.fl.token c.ix 3).isNull))) = false := by
    rw [← hl, ← hr, ← ht, Fire.filled_eq]
    cases nullOk <;> simp_all
  have ho : outcome sh false nullOk body s s.focus c.fl c.ix = Out.badType := by
    simp only [outcome, hp, hnull, hm, Bool.not_false, Bool.and_self, Bool.false_eq_true, if_false, if_true]
  simp only [State.fire, hf, hix, ho]
  simp only [State.applySide, State.setFlight, Fire.faulted, hs, hk, Out.badType, Out.fault]
  rfl

/-- Everything that a firing can do: nothing but the block in flight changes, unless its outcome has a side. -/
theorem State.fire_cases {u : State} (h : s.fire sh g maskOk nullOk body = .next u) :
    ∃ (f : Flight) (ix : Nat) (o : Out), s.flight s.focus = some f ∧ f.cursor = some ix ∧
      o = outcome sh maskOk nullOk body s s.focus f ix ∧
      ((o.side = some .drop ∧ u = (s.discard s.focus).boundary s.focus) ∨
        (o.side ≠ some .drop ∧ u = (s.applySide o.side).setFlight s.focus ((s.sees s.focus f o.load).record sh g ix o).sweep)) := by
  unfold State.fire at h
  split at h
  · cases h
  · rename_i f hf
    split at h
    · cases h
    · rename_i ix hix
      refine ⟨f, ix, _, hf, hix, rfl, ?_⟩
      simp only at h
      split at h
      · rename_i hd
        cases h
        refine .inl ⟨?_, rfl⟩
        revert hd
        cases (outcome sh maskOk nullOk body s s.focus f ix).side with
        | none => simp
        | some x => cases x <;> simp
      · rename_i hd
        cases h
        refine .inr ⟨fun hx => hd (by rw [hx]), rfl⟩
/-- A firing never stops the machine when an instruction stands at the cursor. -/
theorem State.fire_goes_on {f : Flight} {ix : Nat} (hf : s.flight s.focus = some f) (hix : f.cursor = some ix) :
    ∃ u, s.fire sh g maskOk nullOk body = .next u := by
  simp only [State.fire, hf, hix]
  split <;> exact ⟨_, rfl⟩

end Sys2Proof.Machine
end

