-- ==== Sys2Proof/Laws/Access.lean ====
section
/-! SUPPORT. What the address checks, the loads, the stores and the waits come to, once for each shared operation. -/

namespace Sys2Proof.Machine

open Sys2Proof

/-! ## Tokens -/

@[simp] theorem Token.isNull_scalar (w : Word) : (Token.scalar w).isNull = false := rfl
@[simp] theorem Token.isNull_vector (v : Vec) (n : BitVec 8) : (Token.vector v n).isNull = false := rfl
@[simp] theorem Token.isNull_mask (m : BitVec 8) : (Token.mask m).isNull = false := rfl
@[simp] theorem Token.isNull_completion : Token.completion.isNull = false := rfl
@[simp] theorem Token.isNull_null : Token.null.isNull = true := rfl

/-! ## Addresses of the tile's own pool -/

theorem space_own {a : Word} (h : a.toNat < 2 ^ 17) : space a = 0 := by simp only [space, field]; omega
theorem field_own {a : Word} (h : a.toNat < 2 ^ 17) : field a 0 17 = a.toNat := by simp only [field]; omega
theorem addrFormOk_own {a : Word} (h : a.toNat < 2 ^ 17) : addrFormOk a = true := by
  simp [addrFormOk, space_own h, field]; omega
theorem State.destOf_own {s : State} {t : Nat} {a : Word} (h : a.toNat < 2 ^ 17) : s.destOf t a = .pool t a.toNat := by
  simp [State.destOf, space_own h, field_own h]
/-- A legal address of the tile's own pool passes the checks of R269. -/
theorem checkAddr_own {s : State} {t : Nat} {a : Word} {size n : Nat} {load : Bool} {ok : Nat → Bool} (h : a.toNat < 2 ^ 17)
    (hs : a.toNat % size = 0) (hp : s.inPad t a.toNat n = true ∨ load = true ∧ s.inPadOrMbox t a.toNat n = true)
    (hok : ok 0 = true) : checkAddr s t a ok size n load = none := by
  rcases hp with hp | ⟨hl, hp⟩ <;> simp [checkAddr, addrFormOk_own h, space_own h, field_own h, *]
/-- So its rule goes on with the place that it names. -/
theorem withPlace_own {c : Fire} {a : Word} {size n : Nat} {load : Bool} {ok : Nat → Bool} {k : Dest → Out} (h : a.toNat < 2 ^ 17)
    (hs : a.toNat % size = 0) (hp : c.s.inPad c.tile a.toNat n = true ∨ load = true ∧ c.s.inPadOrMbox c.tile a.toNat n = true)
    (hok : ok 0 = true) : withPlace c a ok size n load k = k (.pool c.tile a.toNat) := by
  simp [withPlace, withAddr, checkAddr_own h hs hp hok, outsideCoord, State.destOf_own h, space_own h]
theorem withAddr_own {c : Fire} {a : Word} {size n : Nat} {load : Bool} {ok : Nat → Bool} {k : Out} (h : a.toNat < 2 ^ 17)
    (hs : a.toNat % size = 0) (hp : c.s.inPad c.tile a.toNat n = true ∨ load = true ∧ c.s.inPadOrMbox c.tile a.toNat n = true)
    (hok : ok 0 = true) : withAddr c a ok size n load k = k := by
  simp [withAddr, checkAddr_own h hs hp hok, outsideCoord, State.destOf_own h]
/-- A legal address of another place: its rule goes on with that place. -/
theorem withPlace_far {c : Fire} {a : Word} {size n : Nat} {load : Bool} {ok : Nat → Bool} {k : Dest → Out}
    (hc : checkAddr c.s c.tile a ok size n load = none) (ho : outsideCoord c.s c.tile a = none)
    (hd : ∀ off, c.s.destOf c.tile a ≠ .pool c.tile off) : withPlace c a ok size n load k = k (c.s.destOf c.tile a) := by
  simp only [withPlace, withAddr, hc, ho]
  split
  · rename_i t off h
    rw [if_neg, h]
    rintro ⟨rfl, -⟩
    exact hd off h
  · rfl
/-- An address that a check of R269 rejects faults under the cause of that check. -/
theorem withPlace_bad {c : Fire} {a : Word} {size n : Nat} {load : Bool} {ok : Nat → Bool} {k : Dest → Out} {f : Cause}
    (hc : checkAddr c.s c.tile a ok size n load = some f) : withPlace c a ok size n load k = Out.faultAt f 0 a := by
  simp [withPlace, withAddr, hc]

/-- A key of a pool says the offset in it. -/
theorem poolKey_mod {t off : Nat} (h : off < 2 ^ 17) : poolKey t off % 2 ^ 17 = off := by simp only [poolKey]; omega

/-! ## Bytes that a load returns -/

/-- Without an earlier store of the block a load returns memory's bytes. -/
@[simp] theorem overlayBytes_nil (key : Nat) (bs : List Byte) : overlayBytes [] key bs = bs := by
  simp [overlayBytes, overlayByte]

/-! ## Waiting -/

/-- A rule that waits marks the instruction as waiting, keeps its effect and its request, and charges it. -/
theorem State.fire_waits {s : State} {sh : Shape} {g : Grp} {c : Fire} {maskOk nullOk : Bool} {body : Fire → Out}
    {e : Option Effect} {q : Option LoadReq} (h : s.view sh.pr = some c) (hm : c.mask = true → maskOk = true)
    (hn : (nullOk || c.filled sh) = true) (hb : body c = { given := .wait, eff := e, req := q }) :
    s.fire sh g maskOk nullOk body = .next
      { c.s with flights := AMap.ins c.k (Flight.sweep { c.fl with
          stat := AMap.ins c.ix .waiting c.fl.stat,
          effs := match e with | some e => AMap.ins c.ix e c.fl.effs | none => c.fl.effs,
          reqs := match q with | some q => AMap.ins c.ix q c.fl.reqs | none => c.fl.reqs,
          counts := AMap.ins c.ix (g.cls .null + 1) c.fl.counts }) c.s.flights } := by
  obtain ⟨hs, hk, -⟩ := State.view_cases h
  have hx : (body c).side ≠ some .drop := by simp [hb]
  rw [State.fire_of_view h hm hn hx]
  cases e <;> cases q <;> simp only [hb, State.applySide, State.setFlight, hs, hk] <;> rfl

end Sys2Proof.Machine
end

