-- ==== Sys2Proof/Laws/Lanes.lean ====
section
/-! SUPPORT. Laws of lanes: masks and vectors read back lane by lane, and what the lane-wise forms give. -/

namespace Sys2Proof.Machine

open Sys2Proof

theorem lane_cases {P : Nat → Prop} (h : ∀ j ∈ laneList, P j) : ∀ j < 8, P j := by
  intro j hj
  refine h j ?_
  simp only [laneList, List.mem_cons, List.not_mem_nil, or_false]
  omega
@[simp] theorem maskBit_mask8 (f : Nat → Bool) (j : Nat) (h : j < 8) : maskBit (mask8 f) j = f j := by
  have key : ∀ a0 a1 a2 a3 a4 a5 a6 a7 : Bool, ∀ n < 8, maskBit (BitVec.ofNat 8 (a0.toNat + 2 * a1.toNat + 4 * a2.toNat +
      8 * a3.toNat + 16 * a4.toNat + 32 * a5.toNat + 64 * a6.toNat + 128 * a7.toNat)) n =
      ([a0, a1, a2, a3, a4, a5, a6, a7].getD n false) := by decide
  rw [show maskBit (mask8 f) j = _ from key (f 0) (f 1) (f 2) (f 3) (f 4) (f 5) (f 6) (f 7) j h]
  revert j
  exact lane_cases (by simp [laneList])
@[simp] theorem Vec.get_ofFn (f : Nat → Word) (j : Nat) (h : j < 8) : (Vec.ofFn f).get j = f j := by
  revert j
  exact lane_cases (by simp [laneList, Vec.ofFn, Vec.get])
theorem maskBit_zero (j : Nat) : maskBit 0 j = false := by
  simp [maskBit]
theorem maskBit_255 (j : Nat) (h : j < 8) : maskBit 255 j = true := by
  revert j
  exact lane_cases (by decide)
/-- Two masks with the same bits are equal. -/
theorem mask_ext {m n : BitVec 8} (h : ∀ j < 8, maskBit m j = maskBit n j) : m = n := by
  have hb : ∀ (x : BitVec 8) (j : Nat), maskBit x j = x.getLsbD j := by
    intro x j
    simp only [maskBit, BitVec.getLsbD, Nat.testBit, Nat.shiftRight_eq_div_pow, Nat.one_and_eq_mod_two]
    rcases Nat.mod_two_eq_zero_or_one (x.toNat / 2 ^ j) with e | e <;> simp [e]
  refine BitVec.eq_of_getLsbD_eq fun i hi => ?_
  rw [← hb, ← hb, h i hi]

/-- A lane-wise result with a vector among the operands, lane by lane (R218). -/
theorem lanes_eq (f : Nat → Option (Word × Flags)) :
    ∃ (w : Vec) (nulls : BitVec 8),
      lanes f = (.vector w nulls, laneList.foldl (fun a j => match f j with | some q => a ||| q.2 | none => a) 0) ∧
      ∀ j < 8, maskBit nulls j = (f j).isNone ∧ w.get j = match f j with | some p => p.1 | none => 0 := by
  refine ⟨Vec.ofFn fun i => match (laneList.map f).getD i none with | some p => p.1 | none => 0,
    mask8 fun i => ((laneList.map f).getD i none).isNone, ?_, ?_⟩
  · simp only [lanes, List.foldl_map] <;> rfl
  · intro j hj
    have hl : (laneList.map f).getD j none = f j := by
      revert j
      exact lane_cases (by simp [laneList])
    rw [maskBit_mask8 _ _ hj, Vec.get_ofFn _ _ hj]
    exact ⟨by rw [hl], by rw [hl]⟩
/-- A compare with a vector among the operands, lane by lane (R233). -/
theorem compare_eq (a b : Token) (en : BitVec 8) (f : Word → Word → Bool × Flags) (h : (a.isScalar && b.isScalar) = false) :
    let absent (i : Nat) : Bool := a.laneNull i || b.laneNull i || !maskBit en i
    ∃ m : BitVec 8, compare a b en f = (.mask m, laneList.foldl (fun x j =>
        if absent j then x else x ||| (f (a.lane j) (b.lane j)).2) 0) ∧
      ∀ j < 8, maskBit m j = (!absent j && (f (a.lane j) (b.lane j)).1) := by
  intro absent
  refine ⟨mask8 fun i => ((laneList.map fun i => if absent i then (false, (0 : Flags)) else f (a.lane i) (b.lane i)).getD i (false, 0)).1,
    ?_, ?_⟩
  · simp only [compare, h, Bool.false_eq_true, if_false, List.foldl_map]
    congr 1
    congr 1
    funext x j
    split <;> simp [*]
  · intro j hj
    rw [maskBit_mask8 _ _ hj]
    have hl : ∀ g : Nat → Bool × Flags, ((laneList.map g).getD j (false, 0)) = g j := by
      intro g
      revert j
      exact lane_cases (by simp [laneList])
    rw [hl]
    split <;> simp [absent, *]

end Sys2Proof.Machine
end

