-- ==== Sys2Proof/Laws/Forms.lean ====
section
/-! SUPPORT. The shared operand forms: everything that a lane-wise form or a compare does, on scalars, with a vector among the
operands, and on operands that it does not accept. -/

namespace Sys2Proof.Machine

open Sys2Proof

theorem Token.not_null_of_data {t : Token} (h : t.isData = true) : t.isNull = false := by
  cases t <;> simp_all [Token.isData, Token.isScalar, Token.isVector, Token.isNull]
theorem Token.scalar_or_vector {t : Token} (h : t.isData = true) : t.isScalar = !t.isVector := by
  cases t <;> simp_all [Token.isData, Token.isScalar, Token.isVector]

/-- Whether a lane is absent from a result of up to three operands (R83, R218). -/
def absentLane (a b d : Token) (en : BitVec 8) (i : Nat) : Bool :=
  a.laneNull i || b.laneNull i || d.laneNull i || !maskBit en i
/-- `lanewise` with a vector among the operands. -/
theorem lanewise_vector {a b d : Token} (en : BitVec 8) (f : Word → Word → Word → Word × Flags)
    (h : (a.isScalar && b.isScalar && d.isScalar) = false) :
    let value (j : Nat) : Word × Flags := f (a.lane j) (b.lane j) (d.lane j)
    ∃ (w : Vec) (nulls : BitVec 8),
      lanewise a b d en f = (.vector w nulls, laneList.foldl (fun x j => if absentLane a b d en j then x else x ||| (value j).2) 0) ∧
      ∀ j < 8, maskBit nulls j = absentLane a b d en j ∧ w.get j = if absentLane a b d en j then 0 else (value j).1 := by
  intro value
  obtain ⟨w, nulls, he, hj⟩ := lanes_eq fun i => if absentLane a b d en i = true then none else some (value i)
  refine ⟨w, nulls, ?_, fun j hlt => ?_⟩
  · simp only [lanewise, h, Bool.false_eq_true, if_false]
    refine he.trans ?_
    congr 2
    funext x j
    cases absentLane a b d en j <;> simp
  · have := hj j hlt
    revert this
    cases absentLane a b d en j <;> simp
theorem scalar_laneNull (w : Word) (j : Nat) : (Token.scalar w).laneNull j = false := by simp [Token.laneNull, Token.nulls, maskBit]

section
variable {s : State} {g : Grp} {a : Assert} {p : Pr} {ts : List Target} {c : Fire}

/-- What a lane-wise form gives with a vector among its operands. -/
def Fire.givesLanes (c : Fire) (g : Grp) (ts : List Target) (os : List Token) (value : Nat → Word × Flags) (r : Res) : Prop :=
  ∃ (w : Vec) (nulls : BitVec 8),
    r = .next (c.after (g.cls (.vector w nulls)) ts (.vector w nulls)
      (laneList.foldl (fun x j => if c.absent os j then x else x ||| (value j).2) 0)) ∧
    ∀ j < 8, maskBit nulls j = c.absent os j ∧ w.get j = if c.absent os j then 0 else (value j).1

/-! ## One operand -/

theorem State.lane1_scalar {f : Word → Word × Flags} {x : Word} (hv : s.view p = some c) (hm : c.mask = false)
    (hl : c.left = .scalar x) (ha : a ≠ .v true) :
    s.lane1 g a p ts f = .next (c.after (g.cls (.scalar (f x).1)) ts (.scalar (f x).1) (f x).2) := by
  refine State.fire_delivers (e := none) (ld := none) hv (by simp) (by simp [Fire.filled, mkShape, hl, Token.isNull]) ?_
  have hh : a.holds c.mask [c.left] = true := by
    rcases a with _ | v | _
    · simp [Assert.holds, hl, hm, Token.isData, Token.isScalar]
    · cases v <;> simp_all [Assert.holds, Token.isData, Token.isScalar, Token.isVector]
    · simp [Assert.holds, hl, hm, Token.isData, Token.isScalar, Token.isVector]
  rw [if_pos hh, hl]
  rfl
theorem State.lane1_vector {f : Word → Word × Flags} (hv : s.view p = some c) (hc : computes [c.left] = true)
    (ha : a = .free ∨ a = .v true) : c.givesLanes g ts [c.left] (fun j => f (c.left.lane j)) (s.lane1 g a p ts f) := by
  simp only [computes, List.all_cons, List.all_nil, List.any_cons, List.any_nil, Bool.and_true, Bool.or_false,
    Bool.and_eq_true] at hc
  have hs : (c.left.isScalar && (Token.scalar 0).isScalar && (Token.scalar 0).isScalar) = false := by
    simp [Token.scalar_or_vector hc.1, hc.2]
  have habs : ∀ j, absentLane c.left (.scalar 0) (.scalar 0) c.en j = c.absent [c.left] j := fun j => by
    simp only [absentLane, Fire.absent, scalar_laneNull, List.any_cons, List.any_nil]
    cases maskBit c.en j <;> cases c.left.laneNull j <;> rfl
  obtain ⟨w, nulls, he, hj⟩ := lanewise_vector (a := c.left) (b := .scalar 0) (d := .scalar 0) c.en (fun x _ _ => f x) hs
  simp only [habs] at he hj
  refine ⟨w, nulls, ?_, hj⟩
  refine State.fire_delivers (e := none) (ld := none) hv (by simp)
    (by simp [Fire.filled, mkShape, Token.not_null_of_data hc.1]) ?_
  have hh : a.holds c.mask [c.left] = true := by rcases ha with rfl | rfl <;> simp [Assert.holds, hc.1, hc.2]
  rw [if_pos hh, he]
  rfl
theorem State.lane1_rejects {f : Word → Word × Flags} (hv : s.view p = some c) (hn : c.left.isNull = false)
    (hh : a.holds c.mask [c.left] = false) : s.lane1 g a p ts f = .next (c.faulted (g.cls .null) .operandType 0 0) := by
  refine State.fire_faults hv (by simp) (by simp [Fire.filled, mkShape, hn]) ?_
  rw [if_neg (by simp [hh])]
  rfl

/-! ## Two operands -/

theorem State.lane2_scalar {f : Word → Word → Word × Flags} {x y : Word} (hv : s.view p = some c) (hm : c.mask = false)
    (hl : c.left = .scalar x) (hr : c.right = .scalar y) (ha : a ≠ .v true) :
    s.lane2 g a p ts f = .next (c.after (g.cls (.scalar (f x y).1)) ts (.scalar (f x y).1) (f x y).2) := by
  refine State.fire_delivers (e := none) (ld := none) hv (by simp) (by simp [Fire.filled, mkShape, hl, hr, Token.isNull]) ?_
  have hh : a.holds c.mask [c.left, c.right] = true := by
    rcases a with _ | v | _
    · simp [Assert.holds, hl, hr, hm, Token.isData, Token.isScalar]
    · cases v <;> simp_all [Assert.holds, Token.isData, Token.isScalar, Token.isVector]
    · simp [Assert.holds, hl, hr, hm, Token.isData, Token.isScalar, Token.isVector]
  rw [if_pos hh, hl, hr]
  rfl
theorem State.lane2_vector {f : Word → Word → Word × Flags} (hv : s.view p = some c) (hc : computes [c.left, c.right] = true)
    (ha : a = .free ∨ a = .v true) :
    c.givesLanes g ts [c.left, c.right] (fun j => f (c.left.lane j) (c.right.lane j)) (s.lane2 g a p ts f) := by
  simp only [computes, List.all_cons, List.all_nil, List.any_cons, List.any_nil, Bool.and_true, Bool.or_false,
    Bool.and_eq_true] at hc
  obtain ⟨⟨hx, hy⟩, hc⟩ := hc
  have hs : (c.left.isScalar && c.right.isScalar && (Token.scalar 0).isScalar) = false := by
    rw [Token.scalar_or_vector hx, Token.scalar_or_vector hy]
    cases h1 : c.left.isVector <;> cases h2 : c.right.isVector <;> simp_all
  have habs : ∀ j, absentLane c.left c.right (.scalar 0) c.en j = c.absent [c.left, c.right] j := fun j => by
    simp only [absentLane, Fire.absent, scalar_laneNull, List.any_cons, List.any_nil, Bool.or_false]
    cases maskBit c.en j <;> cases c.left.laneNull j <;> cases c.right.laneNull j <;> rfl
  obtain ⟨w, nulls, he, hj⟩ := lanewise_vector (a := c.left) (b := c.right) (d := .scalar 0) c.en (fun x y _ => f x y) hs
  simp only [habs] at he hj
  refine ⟨w, nulls, ?_, hj⟩
  refine State.fire_delivers (e := none) (ld := none) hv (by simp)
    (by simp [Fire.filled, mkShape, Token.not_null_of_data hx, Token.not_null_of_data hy]) ?_
  have hh : a.holds c.mask [c.left, c.right] = true := by rcases ha with rfl | rfl <;> simp [Assert.holds, hx, hy, hc]
  rw [if_pos hh, he]
  rfl
theorem State.lane2_rejects {f : Word → Word → Word × Flags} (hv : s.view p = some c) (hl : c.left.isNull = false)
    (hr : c.right.isNull = false) (hh : a.holds c.mask [c.left, c.right] = false) :
    s.lane2 g a p ts f = .next (c.faulted (g.cls .null) .operandType 0 0) := by
  refine State.fire_faults hv (by simp) (by simp [Fire.filled, mkShape, hl, hr]) ?_
  rw [if_neg (by simp [hh])]
  rfl

/-! ## Three operands -/

theorem State.lane3_scalar {f : Word → Word → Word → Word × Flags} {x y z : Word} (hv : s.view p = some c) (hm : c.mask = false)
    (hl : c.left = .scalar x) (hr : c.right = .scalar y) (ht : c.third = .scalar z) (ha : a ≠ .v true) :
    s.lane3 g a p ts f = .next (c.after (g.cls (.scalar (f x y z).1)) ts (.scalar (f x y z).1) (f x y z).2) := by
  refine State.fire_delivers (e := none) (ld := none) hv (by simp)
    (by simp [Fire.filled, mkShape, hl, hr, ht, Token.isNull]) ?_
  have hh : a.holds c.mask [c.left, c.right, c.third] = true := by
    rcases a with _ | v | _
    · simp [Assert.holds, hl, hr, ht, hm, Token.isData, Token.isScalar]
    · cases v <;> simp_all [Assert.holds, Token.isData, Token.isScalar, Token.isVector]
    · simp [Assert.holds, hl, hr, ht, hm, Token.isData, Token.isScalar, Token.isVector]
  rw [if_pos hh, hl, hr, ht]
  rfl
theorem State.lane3_vector {f : Word → Word → Word → Word × Flags} (hv : s.view p = some c)
    (hc : computes [c.left, c.right, c.third] = true) (ha : a = .free ∨ a = .v true) :
    c.givesLanes g ts [c.left, c.right, c.third] (fun j => f (c.left.lane j) (c.right.lane j) (c.third.lane j))
      (s.lane3 g a p ts f) := by
  simp only [computes, List.all_cons, List.all_nil, List.any_cons, List.any_nil, Bool.and_true, Bool.or_false,
    Bool.and_eq_true] at hc
  obtain ⟨⟨hx, hy, hz⟩, hc⟩ := hc
  have hs : (c.left.isScalar && c.right.isScalar && c.third.isScalar) = false := by
    rw [Token.scalar_or_vector hx, Token.scalar_or_vector hy, Token.scalar_or_vector hz]
    cases h1 : c.left.isVector <;> cases h2 : c.right.isVector <;> cases h3 : c.third.isVector <;> simp_all
  have habs : ∀ j, absentLane c.left c.right c.third c.en j = c.absent [c.left, c.right, c.third] j := fun j => by
    simp only [absentLane, Fire.absent, List.any_cons, List.any_nil, Bool.or_false]
    cases maskBit c.en j <;> cases c.left.laneNull j <;> cases c.right.laneNull j <;> simp
  obtain ⟨w, nulls, he, hj⟩ := lanewise_vector (a := c.left) (b := c.right) (d := c.third) c.en f hs
  simp only [habs] at he hj
  refine ⟨w, nulls, ?_, hj⟩
  refine State.fire_delivers (e := none) (ld := none) hv (by simp) (by
    simp [Fire.filled, mkShape, Token.not_null_of_data hx, Token.not_null_of_data hy, Token.not_null_of_data hz]) ?_
  have hh : a.holds c.mask [c.left, c.right, c.third] = true := by
    rcases ha with rfl | rfl <;> simp [Assert.holds, hx, hy, hz, hc]
  rw [if_pos hh, he]
  rfl
theorem State.lane3_rejects {f : Word → Word → Word → Word × Flags} (hv : s.view p = some c) (hl : c.left.isNull = false)
    (hr : c.right.isNull = false) (ht : c.third.isNull = false) (hh : a.holds c.mask [c.left, c.right, c.third] = false) :
    s.lane3 g a p ts f = .next (c.faulted (g.cls .null) .operandType 0 0) := by
  refine State.fire_faults hv (by simp) (by simp [Fire.filled, mkShape, hl, hr, ht]) ?_
  rw [if_neg (by simp [hh])]
  rfl

/-! ## Compares -/

theorem State.cmp2_scalar {f : Word → Word → Bool × Flags} {x y : Word} (hv : s.view p = some c) (hm : c.mask = false)
    (hl : c.left = .scalar x) (hr : c.right = .scalar y) :
    s.cmp2 g p ts f = .next (c.after (g.cls (.scalar 0)) ts (.scalar (if (f x y).1 then 1 else 0)) (f x y).2) := by
  have hg : ∀ w : Word, g.cls (.scalar 0) = g.cls (.scalar w) := fun w => by cases g <;> rfl
  rw [hg (if (f x y).1 then 1 else 0)]
  refine State.fire_delivers (e := none) (ld := none) hv (by simp) (by simp [Fire.filled, mkShape, hl, hr, Token.isNull]) ?_
  rw [if_pos (by simp [Assert.holds, hl, hr, hm, Token.isData, Token.isScalar]), hl, hr]
  rfl
theorem State.cmp2_vector {f : Word → Word → Bool × Flags} (hv : s.view p = some c) (hc : computes [c.left, c.right] = true) :
    let value (j : Nat) : Bool × Flags := f (c.left.lane j) (c.right.lane j)
    ∃ m : BitVec 8, s.cmp2 g p ts f = .next (c.after (g.cls (.mask m)) ts (.mask m)
        (laneList.foldl (fun x j => if c.absent [c.left, c.right] j then x else x ||| (value j).2) 0)) ∧
      ∀ j < 8, maskBit m j = (!c.absent [c.left, c.right] j && (value j).1) := by
  intro value
  simp only [computes, List.all_cons, List.all_nil, List.any_cons, List.any_nil, Bool.and_true, Bool.or_false,
    Bool.and_eq_true] at hc
  obtain ⟨⟨hx, hy⟩, hc⟩ := hc
  have hs : (c.left.isScalar && c.right.isScalar) = false := by
    rw [Token.scalar_or_vector hx, Token.scalar_or_vector hy]
    cases h1 : c.left.isVector <;> cases h2 : c.right.isVector <;> simp_all
  have habs : ∀ j, (c.left.laneNull j || c.right.laneNull j || !maskBit c.en j) = c.absent [c.left, c.right] j := fun j => by
    simp only [Fire.absent, List.any_cons, List.any_nil, Bool.or_false]
    cases maskBit c.en j <;> cases c.left.laneNull j <;> cases c.right.laneNull j <;> rfl
  obtain ⟨m, he, hj⟩ := compare_eq c.left c.right c.en f hs
  simp only [habs] at he hj
  refine ⟨m, ?_, hj⟩
  refine State.fire_delivers (e := none) (ld := none) hv (by simp)
    (by simp [Fire.filled, mkShape, Token.not_null_of_data hx, Token.not_null_of_data hy]) ?_
  rw [if_pos (by simp [Assert.holds, hx, hy, hc]), he]
  rfl
theorem State.cmpImm_scalar {i : BitVec 12} {t : Target} {f : Word → Word → Bool} {x : Word} (hv : s.view p = some c)
    (hm : c.mask = false) (hl : c.left = .scalar x) :
    s.cmpImm p t i f = .next (c.after 1 [t] (.scalar (if f x (sext12 i) then 1 else 0))) := by
  refine State.fire_delivers (e := none) (ld := none) hv (by simp) (by simp [Fire.filled, mkShape, hl, Token.isNull]) ?_
  rw [if_pos (by simp [Assert.holds, hl, hm, Token.isData, Token.isScalar]), hl]
  rfl
theorem State.cmpImm_vector {i : BitVec 12} {t : Target} {f : Word → Word → Bool} (hv : s.view p = some c)
    (hc : computes [c.left] = true) :
    ∃ m : BitVec 8, s.cmpImm p t i f = .next (c.after 5 [t] (.mask m)) ∧
      ∀ j < 8, maskBit m j = (!c.absent [c.left] j && f (c.left.lane j) (sext12 i)) := by
  simp only [computes, List.all_cons, List.all_nil, List.any_cons, List.any_nil, Bool.and_true, Bool.or_false,
    Bool.and_eq_true] at hc
  have hs : (c.left.isScalar && (Token.scalar (sext12 i)).isScalar) = false := by
    simp [Token.scalar_or_vector hc.1, hc.2]
  have habs : ∀ j, (c.left.laneNull j || (Token.scalar (sext12 i)).laneNull j || !maskBit c.en j) = c.absent [c.left] j :=
    fun j => by
      simp only [Fire.absent, scalar_laneNull, List.any_cons, List.any_nil]
      cases maskBit c.en j <;> cases c.left.laneNull j <;> rfl
  obtain ⟨m, he, hj⟩ := compare_eq c.left (.scalar (sext12 i)) c.en (fun x y => (f x y, 0)) hs
  simp only [habs] at he hj
  refine ⟨m, ?_, fun j hlt => by rw [hj j hlt]; rfl⟩
  refine State.fire_delivers (e := none) (ld := none) hv (by simp)
    (by simp [Fire.filled, mkShape, Token.not_null_of_data hc.1]) ?_
  rw [if_pos (by simp [Assert.holds, hc.1, hc.2]), he]
  simp only [Out.flagged]
  congr 1
  simp [laneList]

end

end Sys2Proof.Machine
end

