-- ==== Sys2Proof/Laws/Memory.lean ====
section
/-! SUPPORT. Laws of memory: a write is read back, leaves every other byte and every other part of the state alone, and keeps
the canonical form. -/

namespace Sys2Proof.Machine

/-! ## Reading after writing -/

@[simp] theorem State.byte_putByte_same (s : State) (a : Nat) (b : Byte) : (s.putByte a b).byte a = b := AMap.get_put_same _ _ _ _
theorem State.byte_putByte_of_ne (s : State) {x a : Nat} (h : x ≠ a) (b : Byte) : (s.putByte a b).byte x = s.byte x :=
  AMap.get_put_of_ne h _ _ _ _
/-- A store changes memory alone. -/
theorem State.putBytes_eq (s : State) (a : Nat) (bs : Bytes) : s.putBytes a bs = { s with mem := (s.putBytes a bs).mem } := by
  induction bs generalizing s a with
  | nil => rfl
  | cons b bs ih =>
    cases b with
    | none => exact ih s (a + 1)
    | some b => exact ih (s.putByte a b) (a + 1)
/-- Bytes outside a store stay. -/
theorem State.byte_putBytes_of_not_mem (s : State) {x a : Nat} {bs : Bytes} (h : ∀ i b, bs[i]? = some (some b) → x ≠ a + i) :
    (s.putBytes a bs).byte x = s.byte x := by
  induction bs generalizing s a with
  | nil => rfl
  | cons c bs ih =>
    have hs : ∀ i b, bs[i]? = some (some b) → x ≠ a + 1 + i := fun i b hb => by
      have := h (i + 1) b (by simpa using hb)
      omega
    cases c with
    | none => exact ih s hs
    | some c => exact (ih (s.putByte a c) hs).trans (State.byte_putByte_of_ne s (h 0 c rfl) c)
/-- A stored byte is read back. -/
theorem State.byte_putBytes_of_mem (s : State) {a i : Nat} {bs : Bytes} {b : Byte} (h : bs[i]? = some (some b)) :
    (s.putBytes a bs).byte (a + i) = b := by
  induction bs generalizing s a i with
  | nil => simp at h
  | cons c bs ih =>
    cases i with
    | zero =>
      simp only [List.getElem?_cons_zero, Option.some.injEq] at h
      subst h
      refine (State.byte_putBytes_of_not_mem (s.putByte a b) fun j d _ => ?_).trans (State.byte_putByte_same s a b)
      omega
    | succ i =>
      have h' : bs[i]? = some (some b) := by simpa using h
      have e : a + (i + 1) = a + 1 + i := by omega
      rw [e]
      cases c with
      | none => exact ih s h'
      | some c => exact ih (s.putByte a c) h'

/-! ## Numbers and byte strings (R5) -/

theorem leBytes_length (n x : Nat) : (leBytes n x).length = n := by
  induction n generalizing x with
  | zero => rfl
  | succ n ih => simp [leBytes, ih]
theorem ofBytes_leBytes (n x : Nat) : ofBytes (leBytes n x) = x % 256 ^ n := by
  induction n generalizing x with
  | zero => simp [leBytes, ofBytes, Nat.mod_one]
  | succ n ih =>
    have e : 256 ^ (n + 1) = 256 * 256 ^ n := Nat.pow_succ'
    simp only [leBytes, ofBytes, ih, BitVec.toNat_ofNat, e, Nat.mod_mul]
/-- A written string is read back. -/
theorem State.bytes_putAll_same (s : State) (a : Nat) (bs : List Byte) : (s.putAll a bs).bytes a bs.length = bs := by
  refine List.ext_getElem (by simp [State.bytes]) fun i _ h => ?_
  simp only [State.bytes, State.putAll, List.getElem_map, List.getElem_range]
  exact State.byte_putBytes_of_mem s (by simp [List.getElem?_eq_getElem h])
theorem State.bytes_putAll_of_apart (s : State) {a b n : Nat} {bs : List Byte} (h : a + n ≤ b ∨ b + bs.length ≤ a) :
    (s.putAll b bs).bytes a n = s.bytes a n := by
  simp only [State.bytes, State.putAll]
  refine List.map_congr_left fun i hi => State.byte_putBytes_of_not_mem s fun j x hj => ?_
  have := List.mem_range.1 hi
  have : j < bs.length := by simpa using (List.getElem?_eq_some_iff.1 hj).1
  omega
/-- A written number is read back. -/
theorem State.num_putNum_same (s : State) (a n v : Nat) : (s.putNum a n v).num a n = v % 256 ^ n := by
  have h := State.bytes_putAll_same s a (leBytes n v)
  rw [leBytes_length] at h
  rw [State.num, State.putNum, ← State.putAll, h, ofBytes_leBytes]
theorem State.num_putNum_of_apart (s : State) {a b n m v : Nat} (h : a + n ≤ b ∨ b + m ≤ a) : (s.putNum b m v).num a n = s.num a n := by
  rw [State.num, State.putNum, ← State.putAll, State.bytes_putAll_of_apart s (by simpa [leBytes_length] using h), State.num]

/-! ## The canonical form -/

theorem State.putByte_wf {s : State} (h : Memory.wf s.mem = true) (a : Nat) (b : Byte) : Memory.wf (s.putByte a b).mem = true :=
  AMap.wf_put a b h
theorem State.putBytes_wf {s : State} (h : Memory.wf s.mem = true) (a : Nat) (bs : Bytes) :
    Memory.wf (s.putBytes a bs).mem = true := by
  induction bs generalizing s a with
  | nil => exact h
  | cons b bs ih =>
    cases b with
    | none => exact ih h (a + 1)
    | some b => exact ih (State.putByte_wf h a b) (a + 1)
theorem State.putNum_wf {s : State} (h : Memory.wf s.mem = true) (a n v : Nat) : Memory.wf (s.putNum a n v).mem = true :=
  State.putBytes_wf h a _
theorem State.putAll_wf {s : State} (h : Memory.wf s.mem = true) (a : Nat) (bs : List Byte) :
    Memory.wf (s.putAll a bs).mem = true := State.putBytes_wf h a _
theorem State.copyRange_wf {s : State} (h : Memory.wf s.mem = true) (a b n : Nat) :
    Memory.wf (s.copyRange a b n).mem = true := AMap.wf_foldl_put _ _ _ (AMap.wf_filter _ h)
theorem State.zeroRange_wf {s : State} (h : Memory.wf s.mem = true) (a n : Nat) : Memory.wf (s.zeroRange a n).mem = true :=
  AMap.wf_filter _ h
theorem State.zeroPools_wf {s : State} (h : Memory.wf s.mem = true) (ts : List Nat) : Memory.wf (s.zeroPools ts).mem = true :=
  AMap.wf_filter _ h
theorem State.powerOn_wf {s : State} (h : Memory.wf s.mem = true) : Memory.wf s.powerOn.mem = true := AMap.wf_filter _ h

end Sys2Proof.Machine
end

