-- ==== Sys2Proof/Tests/Slice0.lean ====
section
/-! SUPPORT. Tests of the model. The words of the first part come from the encoding tables of the spec (the fixed bits and the
fields of each row); every other expected result is worked out from a rule of the spec. The witnesses show, for each statement,
states and operands that meet its hypotheses, one for each clause. -/

set_option Elab.async false

namespace Sys2Proof.Tests

open Sys2Proof Sys2Proof.Machine Sys2Proof.Claims

/-- Words and what they stand for, 1. -/
def words1 : List (Nat × Instr) := [
  (0x015603CB, .read (.v 11) 971), (0x02820000, .write (.ox 1)), (0x0326569B, .mov .always true 405 667), (0x0444B0C6, .movi .onTrue 198 75),
  (0x05A25D24, .movhi .onFalse 3364 549), (0x06218577, .null .always true 97 375), (0x0769543C, .sel .onTrue true 597 60),
  (0x088E9208, .join .onFalse false 932 520), (0x090C0C59, .setx .always 3 3 89), (0x0A4C6C48, .getx .onTrue 3 27 72),
  (0x0A8200F7, .getxBlr .onFalse 247), (0x0B00005D, .statCoord .always 93), (0x0B440235, .statTsid .onTrue 565),
  (0x0B8801B3, .statStage .onFalse 435), (0x0B0C003D, .statSeq .always 61), (0x0B50034F, .statCycle .onTrue 847),
  (0x0B940244, .statTlcce .onFalse 580), (0x0B18007F, .statTlcme .always 127), (0x0B5C03CB, .statFlags .onTrue 971),
  (0x0BA000E5, .statMexc .onFalse 229), (0x0B240286, .statEnergy .always 646), (0x0C43F3FF, .statw .onTrue true true true 3 true),
  (0x10A957CB, .add .onFalse true 597 971), (0x1101024F, .sub .always false 64 591), (0x1259795F, .addi .onTrue 2399 407),
  (0x13800033, .mulLo .onFalse 51), (0x130403E8, .mulHi .always 1000), (0x134800E3, .mulHiu .onTrue 227), (0x14800030, .div .onFalse 48),
  (0x1404023B, .divu .always 571), (0x14480370, .rem .onTrue 880), (0x148C0089, .remu .onFalse 137), (0x1504A5AE, .and .always false 297 430),
  (0x1662522A, .or .onTrue true 148 554), (0x17A1E649, .xor .onFalse true 121 585), (0x1823E4F0, .andi .always 1264 574),
  (0x196BBD0F, .ori .onTrue 3343 699), (0x1A86A2E5, .xori .onFalse 741 106)]
/-- Words and what they stand for, 2. -/
def words2 : List (Nat × Instr) := [
  (0x1B000254, .shl .always 596), (0x1B440249, .shr .onTrue 585), (0x1B88028F, .sar .onFalse 655), (0x1B0C00C1, .rot .always 193),
  (0x1C406064, .shli .onTrue 24 100), (0x1C8492DA, .shri .onFalse 36 730), (0x1C081642, .sari .always 5 578), (0x1C4C127A, .roti .onTrue 4 634),
  (0x1D8000D3, .clz .onFalse 211), (0x1D0401FD, .ctz .always 509), (0x1D4802B9, .popc .onTrue 697), (0x1D8C0221, .brev .onFalse 545),
  (0x1D1001B6, .bswap .always 438), (0x1E40031C, .min .onTrue 796), (0x1E840142, .max .onFalse 322), (0x1E0801DD, .minu .always 477),
  (0x1E4C0258, .maxu .onTrue 600), (0x1F8003B2, .cmpeq .onFalse 946), (0x1F0401D1, .cmpne .always 465), (0x1F480173, .cmplt .onTrue 371),
  (0x1F8C0133, .cmple .onFalse 307), (0x1F1000FF, .cmpltu .always 255), (0x1F54032E, .cmpleu .onTrue 814), (0x20ACC2E1, .cmpeqi .onFalse 737 716),
  (0x210FAC7B, .cmplti .always 3195 250), (0x2264D150, .cmpltui .onTrue 336 589), (0x23800134, .sextb .onFalse 308),
  (0x2304021A, .sexth .always 538), (0x234801FB, .sextw .onTrue 507), (0x23900381, .zextb .onFalse 897), (0x23140160, .zexth .always 352),
  (0x235802EB, .zextw .onTrue 747), (0x24A70753, .bfx .onFalse 29 19 624), (0x25079FC5, .bfi .always 63 5 121), (0x264015AD, .lea .onTrue 5 429),
  (0x278000A9, .crdx .onFalse 169), (0x27040308, .crdy .always 776), (0x2748015F, .crdpk .onTrue 351)]
/-- Words and what they stand for, 3. -/
def words3 : List (Nat × Instr) := [
  (0x278C009C, .rect .onFalse 156), (0x300EEEAD, .br .always 978605), (0x3057D2CB, .call .onTrue 512715), (0x318003FF, .bri .onFalse),
  (0x310403FF, .calli .always), (0x324003FF, .ret .onTrue), (0x338003FF, .done .onFalse), (0x330403FF, .yield .always),
  (0x347FF6C0, .trap .onTrue 1728), (0x38A0A7DA, .fadd .onFalse true 41 986), (0x392AB450, .fsub .always true 685 80),
  (0x3A4C3E3C, .fmul .onTrue false 783 572), (0x3B892F29, .fma .onFalse false 587 809), (0x3C2E0746, .fnma .always true 897 838),
  (0x3D400142, .fmin .onTrue 322), (0x3D84015D, .fmax .onFalse 349), (0x3E0B2167, .fdiv .always false 712 359),
  (0x3F6985FD, .fsqrt .onTrue true 609 509), (0x40800252, .fabs .onFalse 594), (0x40040331, .fneg .always 817), (0x404801D4, .frcp .onTrue 468),
  (0x408C0047, .frsq .onFalse 71), (0x4010035D, .fexp2 .always 861), (0x40540060, .flog2 .onTrue 96), (0x409803C8, .ftanh .onFalse 968),
  (0x401C0115, .fsin .always 277), (0x414001E6, .fcmpeq .onTrue 486), (0x418402CA, .fcmplt .onFalse 714), (0x410802A9, .fcmple .always 681),
  (0x414C0043, .fcmpun .onTrue 67), (0x428016ED, .f2i .onFalse true 1 749), (0x42040D3E, .f2n .always false 3 318),
  (0x42480E50, .i2f .onTrue false 3 592), (0x428C1F4A, .n2f .onFalse true 3 842), (0x430001C9, .fclass .always 457),
  (0x444492DE, .fscale .onTrue false 292 734), (0x4580018C, .frndRne .onFalse 396), (0x4504038D, .frndRz .always 909)]
/-- Words and what they stand for, 4. -/
def words4 : List (Nat × Instr) := [
  (0x454802AD, .frndRu .onTrue 685), (0x458C0164, .frndRd .onFalse 356), (0x500063C4, .vbcast .always false 24 964),
  (0x5156C004, .vextr .onTrue 4 364), (0x52A72002, .vins .onFalse 2 626), (0x5321E1FA, .vshuf .always true 120 506),
  (0x5440003D, .vredSum .onTrue 61), (0x548400E0, .vredFsum .onFalse 224), (0x54080313, .vredMin .always 787), (0x544C0127, .vredMax .onTrue 295),
  (0x54900085, .vredFmin .onFalse 133), (0x541402F5, .vredFmax .always 757), (0x545800FE, .vredAnd .onTrue 254),
  (0x549C0198, .vredOr .onFalse 408), (0x54200191, .vredXor .always 401), (0x554003AB, .vscanSum .onTrue 939),
  (0x5584037D, .vscanFsum .onFalse 893), (0x560001FD, .mand .always 509), (0x56440053, .mor .onTrue 83), (0x568800AB, .mnot .onFalse 171),
  (0x560C01CC, .mpopc .always 460), (0x5650019C, .mfirst .onTrue 412), (0x56940233, .mfroms .onFalse 563), (0x5618011D, .mtos .always 285),
  (0x5748DE23, .vidx .onTrue 3619 141), (0x589B9D1C, .vslide .onFalse 3356 441), (0x592DD634, .vcomp .always true 885 564),
  (0x5C4122D4, .ldB .onTrue 9 724), (0x5C85C3F3, .ldH .onFalse 14 1011), (0x5C0982BC, .ldW .always 12 700), (0x5C4FA186, .ldD .onTrue 29 390),
  (0x5C9BE0ED, .ldL .onFalse 31 237), (0x5D00A055, .stB .always 5 85), (0x5D44C09B, .stH .onTrue 6 155), (0x5D8902A3, .stW .onFalse 8 675),
  (0x5D0D000D, .stD .always 8 13), (0x5D5A0354, .stL .onTrue 16 852), (0x5E8260BB, .ldrB .onFalse 19 187)]
/-- Words and what they stand for, 5. -/
def words5 : List (Nat × Instr) := [
  (0x5E052121, .ldrH .always 9 289), (0x5E482096, .ldrW .onTrue 1 150), (0x5E8DC224, .ldrD .onFalse 14 548), (0x5E118271, .ldrQ .always 12 625),
  (0x5E566147, .ldrO .onTrue 19 327), (0x5E9BE081, .ldrL .onFalse 31 129), (0x5F02E370, .strB .always 23 880), (0x5F4623CE, .strH .onTrue 17 974),
  (0x5F8A829F, .strW .onFalse 20 671), (0x5F0EC2F6, .strD .always 22 758), (0x5F5041D4, .strQ .onTrue 2 468), (0x5F97A37C, .strO .onFalse 29 892),
  (0x5F1B23CF, .strL .always 25 975), (0x60439732, .amoAadd .onTrue 28 true 1 818), (0x60865998, .amoAand .onFalse 18 true 2 408),
  (0x6009A46B, .amoAor .always 13 false 1 107), (0x604E099B, .amoAxor .onTrue 16 false 2 411), (0x60905445, .amoAmin .onFalse 2 true 1 69),
  (0x6014F8A7, .amoAmax .always 7 true 2 167), (0x60588668, .amoAminn .onTrue 4 false 1 616), (0x609C4801, .amoAmaxn .onFalse 2 false 2 1),
  (0x60227626, .amoAxchg .always 19 true 1 550), (0x60649A75, .amoAcas .onTrue 4 true 2 629), (0x62802049, .fenceLocal .onFalse 1 73),
  (0x620780D5, .fenceRect .always 28 213), (0x624A8182, .fenceCluster .onTrue 20 386), (0x628CA28A, .fenceRegion .onFalse 5 650),
  (0x630123D3, .acq .always 9 979), (0x64418269, .rel .onTrue 12 617), (0x65800175, .bind .onFalse 373), (0x650401E6, .unbind .always 486),
  (0x6640007E, .lwait .onTrue 126), (0x66840077, .lwarm .onFalse 119), (0x67000766, .tcwait .always true 870), (0x674401F4, .cwait .onTrue 500),
  (0x688011EC, .sbind .onFalse 4 492), (0x69001140, .sunbind .always 4 320), (0x69440494, .sskip .onTrue 1 148)]
/-- Words and what they stand for, 6. -/
def words6 : List (Nat × Instr) := [
  (0x69880700, .sflush .onFalse 1 768), (0x690C0EF7, .sstat .always 3 759), (0x6C400110, .copyLinear .onTrue 272),
  (0x6C8401EB, .copyPlane .onFalse 491), (0x6C080351, .copyTensor .always 849), (0x6C4C02C5, .copyGather .onTrue 709),
  (0x6D8000A6, .cseal .onFalse 166), (0x70010C18, .mldb .always 67 24), (0x714053CE, .mq .onTrue true 4 974),
  (0x72802573, .mdrain .onFalse false 9 371), (0x73000EC3, .mzero .always 3 707), (0x7344022D, .mfence .onTrue 557),
  (0x738803A9, .mstat .onFalse 937), (0x74000709, .send .always 1 777), (0x7540021D, .spawn .onTrue 541), (0x76800132, .mbpop .onFalse 306),
  (0x760403EA, .mbpeek .always 1002), (0x76480293, .mbhw .onTrue 659), (0x7780385E, .eos .onFalse 14 94), (0x780002C9, .stealSplit .always 713),
  (0x78440362, .stealRange .onTrue 866), (0x7A80010C, .csrr .onFalse 268), (0x7A040213, .csrw .always 531), (0x7A480178, .resume .onTrue 376),
  (0x7A8807A3, .resumeVal .onFalse 931), (0x7A0C00AC, .halt .always 172), (0x7A4C056D, .haltRegion .onTrue 365), (0x7A900317, .wake .onFalse 791),
  (0x7A1400E5, .ctxsv .always 229), (0x7A580222, .ctxrs .onTrue 546), (0x7A9C022B, .xlati .onFalse 555), (0x7A20031E, .slotw .always 798),
  (0x7A640203, .pwrq .onTrue 515), (0x7AA40552, .pwrqSet .onFalse 338), (0x7C028CE5, .bkpt .always 163 229), (0x7C440274, .pmark .onTrue 628),
  (0x7C8B4328, .trc .onFalse 208 808)]
/-- Compact words (R200, R201). -/
def words16 : List (Nat × Instr) := [
  (0x83FF, .compactNop), (0x8BF1, .compactMov 1009), (0x9309, .compactAdd 777), (0x9B6A, .compactSub 874), (0xA0C8, .compactAnd 200),
  (0xAB3A, .compactOr 826), (0xB0F6, .compactXor 246), (0xBB46, .compactShl 838), (0xC19B, .compactShr 411), (0xCAF6, .not 758),
  (0xD337, .neg 823), (0xD8E9, .compactFadd 233), (0xE0CD, .compactFmul 205), (0xEA13, .compactJoin 531), (0xF1F9, .compactNull 505)]

/-- Whether the decoder reads every word of a list as its instruction, and the encoder gives the word back. -/
def agree (n : Nat) (l : List (Nat × Instr)) : Bool := l.all fun p => decodeTableWord n p.1 == some p.2 && encode p.2 == some (n, p.1)

theorem test_words1 : agree 32 words1 = true := by decide +kernel
theorem test_words2 : agree 32 words2 = true := by decide +kernel
theorem test_words3 : agree 32 words3 = true := by decide +kernel
theorem test_words4 : agree 32 words4 = true := by decide +kernel
theorem test_words5 : agree 32 words5 = true := by decide +kernel
theorem test_words6 : agree 32 words6 = true := by decide +kernel
theorem test_words16 : agree 16 words16 = true := by decide +kernel

/-! ## A small machine -/

/-- A user tile of region 0, at (4, 4) of it. -/
def tileU : Nat := tileAt 148 4
/-- Thread set 0 of it. -/
def ts : Nat := 4 * tileU
/-- A tile of its Potting shed, at (0, 0). -/
def tileS : Nat := tileAt 144 0
/-- A region of 2 by 2 clusters that runs. -/
def region0 : Region :=
  { Region.init with ctx := 1, geom := word (at_ 0 8 36 + at_ 16 8 2 + at_ 24 8 2), st := .running, ran := true }
/-- The record of the user tile: 4 accumulator tiles. -/
def tile0 : Tile := { Tile.init with
  rgn := some 0, live := true, coord := packXY 4 4, conf := { TileConf.none with coord := packXY 4 4, part := word (at_ 8 5 4) } }
/-- The machine with these two tiles, nothing in flight. -/
def world : State := { State.reset with
  tiles := [(tileS, { tile0 with coord := 0, conf := { tile0.conf with coord := 0 } }), (tileU, tile0)], regions := [(0, region0)], focus := ts }
/-- What a block samples at its start, with nothing outstanding. -/
def snap0 : Snapshot := ⟨[], 0, 0, 0, 0, 0, 0, 0, 0, 0, List.replicate 8 0, [], true, none, []⟩
/-- A block at its first instruction. -/
def flight0 (toks : AMap Token) : Flight :=
  { base := 3 * 2 ^ 60, header := 0, body := [0], order := [(0, [])], named := [], stat := [], toks := toks, effs := [], faults := [],
    freeze := none, raised := 0, loads := [], seen := [], reqs := [], counts := [], pops := [], snap := snap0, split := false, late := [], nulls := [] }
/-- The machine with an instruction at the cursor of a block on the thread set in focus, and its left, right, predicate and third
operand. -/
def ready (s : State) (l r p t : Token) : State :=
  { s with flights := [(s.focus, { flight0 [(0, l), (1, r), (2, p), (3, t)] with snap := { snap0 with ox := (s.ts s.focus).regs.ox } })] }
/-- The same for a block that has done something before. -/
def edited (s : State) (f : Flight → Flight) : State := { s with flights := s.flights.map fun p => (p.1, f p.2) }
/-- Whether an instruction of this predication goes ahead and sees what P asks for. -/
def sees (s : State) (p : Pr) (P : Fire → Bool) : Bool := match s.view p with | some c => P c | none => false
/-- A vector of 1 to 8. -/
def vec8 : Vec := ⟨1, 2, 3, 4, 5, 6, 7, 8⟩
/-- Whether a list of tests all hold. -/
def allOf (l : List Bool) : Bool := l.all id

/-! ## What meets the hypotheses of the statements -/

/-- Two scalars: no predicate, a true one, a false one; divisor and shift counts at their bounds. -/
def twoScalars (a b : Word) : Bool := allOf [
  sees (ready world (.scalar a) (.scalar b) .null .null) .always fun c => !c.mask && c.left == .scalar a && c.right == .scalar b,
  sees (ready world (.scalar a) (.scalar b) (.scalar 1) .null) .onTrue fun c => !c.mask && c.left == .scalar a && c.right == .scalar b,
  sees (ready world (.scalar a) (.scalar b) (.scalar 0) (.scalar 9)) .onFalse fun c => !c.mask && c.third == .scalar 9]
/-- A vector among the operands, with and without a lane-mask predicate. -/
def vectors (a b c : Token) : Bool := allOf [
  sees (ready world a b .null c) .always fun f => computes [f.left, f.right] && !f.mask,
  sees (ready world a b (.mask 0x0F) c) .onTrue fun f => computes [f.left, f.right, f.third] && f.mask]
/-- What a lane-wise instruction does not accept: an operand of another type, a lane mask over scalars, a V that does not hold. -/
def rejected : Bool := allOf [
  sees (ready world (.mask 1) (.scalar 2) .null (.scalar 3)) .always fun c =>
    (operands 3 c).all (fun x => !x.isNull) && (operands 1 c).any fun x => !x.isData,
  sees (ready world (.scalar 1) (.scalar 2) (.mask 3) (.scalar 3)) .onTrue fun c =>
    c.mask && (operands 3 c).all (fun x => !x.isNull) && !(operands 3 c).any Token.isVector,
  sees (ready world (.scalar 1) (.vector vec8 0) .null (.scalar 3)) .always fun c =>
    (operands 2 c).all (fun x => !x.isNull) && (operands 2 c).any Token.isVector]

theorem witness_IntegerOnScalars : twoScalars (2 ^ 63) (-1) = true := by decide +kernel
theorem witness_IntegerLaneWise : (vectors (.vector vec8 0x81) (.scalar 64) (.scalar 0) && rejected) = true := by decide +kernel
theorem witness_LeaIsShiftedSum : (twoScalars (-1) 1 && vectors (.scalar 1) (.vector vec8 1) (.scalar 0)) = true := by decide +kernel
theorem witness_Division : (twoScalars 7 0 && twoScalars (2 ^ 63) (-1) && vectors (.vector vec8 1) (.vector Vec.zero 2) (.scalar 0)) = true := by
  decide +kernel
theorem witness_CompactArithmetic : (twoScalars 7 65 && sees (ready world (.vector vec8 0) (.scalar 1) .null .null) .always (fun c =>
    c.left == .vector vec8 0 && c.right != .null && !c.left.isScalar) &&
    sees (ready world (.scalar 1) (.vector vec8 0) .null .null) .always (fun c => c.left != .null && c.right != .null && !c.right.isScalar) &&
    (match (ready world .null .null .null .null).flight ts with | some f => f.cursor == some 0 | none => false)) = true := by decide +kernel
theorem witness_IntegerCompares : (twoScalars 5 5 && twoScalars (-1) 0 && vectors (.vector vec8 1) (.scalar 3) (.scalar 0)) = true := by decide +kernel
theorem witness_FloatCompares : (twoScalars (2 ^ 63) 0 && vectors (.vector vec8 1) (.scalar qNaN) (.scalar 0)) = true := by decide +kernel
theorem witness_FloatOnScalars : (twoScalars 0x7FF0000000000000 qNaN &&
    sees (ready world (.scalar 1) (.scalar 2) .null (.scalar 3)) .always (fun c => !c.mask && c.third == .scalar 3)) = true := by decide +kernel
theorem witness_FloatLaneWise : (vectors (.vector vec8 0x81) (.scalar 64) (.vector vec8 2) && rejected) = true := by decide +kernel

/-- An input stream at slot 0 with one group fetched. -/
def inSlot : Slot := ⟨ts, ⟨0, false, 0, false, false, 0, 0, 0, [8, 0, 0, 0], [8, 0, 0, 0], 0, [], 4⟩, 0, false, false, false,
  [(vec8, 0, 0, 8)], [], []⟩
/-- An output stream at slot 1. -/
def outSlot : Slot := { inSlot with desc := { inSlot.desc with out := true }, ready := [] }
/-- The machine with both streams. -/
def streaming : State := world.updTile tileU fun x => { x with slots := [(0, inSlot), (1, outSlot)] }

theorem witness_ReadDeliversRegister : allOf [
    sees (ready world .null .null .null .null) .always fun c =>
      [Reg.s 0, .s 31, .v 0, .ox 3].all fun r => (c.stream r).isNone && !c.set.pending r,
    sees (ready streaming .null .null .null .null) .always fun c => match c.stream (.v 24) with
      | some (k, z) => k == 0 && !z.desc.out && z.ready[AMap.get 0 c.ix c.fl.pops % 64]? == some (vec8, 0, 0, 8)
      | none => false] = true := by decide +kernel
theorem witness_WriteKeepsToken : allOf [
    sees (ready streaming (.vector vec8 3) .null .null .null) .always fun c =>
      c.left.isVector && (match c.stream (.v 25) with | some (_, z) => z.desc.out | none => false) && (c.stream (.v 0)).isNone,
    sees (ready streaming (.vector vec8 3) .null .null .null) .always fun c =>
      match c.stream (.v 24) with | some (_, z) => !z.desc.out | none => false,
    sees (ready world (.mask 3) .null .null .null) .always fun c => c.left != .null && !c.left.isVector && !c.left.isScalar,
    sees (ready world (.scalar 3) .null .null .null) .always fun c => c.left.isScalar && (c.stream (.s 0)).isNone] = true := by decide +kernel
theorem witness_MovNullMovi : ([Token.scalar 0, .vector vec8 255, .mask 3].all fun t =>
    sees (ready world t .null .null .null) .always fun c => !c.mask && c.left == t && t.isValue) = true := by decide +kernel
theorem witness_SelAndJoin : allOf [
    sees (ready world (.scalar 1) (.mask 2) .null (.scalar 0)) .always fun c =>
      !c.mask && c.left.isValue && c.right.isValue && c.third == .scalar 0,
    sees (ready world (.vector vec8 1) (.scalar 2) (.mask 7) (.mask 0x55)) .onTrue fun c =>
      c.left.isData && c.right.isData && c.third == .mask 0x55,
    sees (ready world (.vector vec8 1) (.scalar 2) .null (.vector vec8 4)) .always fun c =>
      c.left.isData && c.right.isData && c.third == .vector vec8 4,
    sees (ready world .null (.scalar 2) .null .null) .always fun c => !c.mask && c.left == .null && c.right == .scalar 2,
    sees (ready world (.scalar 2) .null .null .null) .always fun c => !c.mask && c.left == .scalar 2 && c.right == .null,
    sees (ready world (.vector vec8 1) (.vector vec8 3) .null .null) .always fun c =>
      c.left == .vector vec8 1 && c.right == .vector vec8 3,
    sees (ready world (.scalar 1) (.scalar 2) (.mask 7) (.mask 0x55)) .onTrue fun c =>
      c.left.isScalar && c.right.isScalar && c.third == .mask 0x55 && c.mask,
    sees (ready world .null .null .null .null) .always fun c => c.left == .null && c.right == .null,
    sees (ready world (.scalar 1) (.mask 3) .null .null) .always fun c =>
      !c.mask && c.left.isValue && !c.left.isVector && c.right.isValue && !c.right.isVector,
    sees (ready world (.vector vec8 1) (.scalar 3) .null .null) .always fun c => c.left == .vector vec8 1 && c.right == .scalar 3,
    sees (ready world (.scalar 3) (.vector vec8 1) .null .null) .always fun c => c.left == .scalar 3 && c.right == .vector vec8 1,
    sees (ready world .completion (.scalar 3) .null .null) .always fun c => !c.mask && c.left == .completion && c.right.isValue,
    sees (ready world .completion .completion .null .null) .always fun c => !c.mask && c.left == .completion && c.right == .completion,
    sees (ready world (.mask 3) (.vector vec8 1) .null .null) .always fun c => c.left == .mask 3 && c.right == .vector vec8 1] = true := by decide +kernel
theorem witness_SetxGetx : sees (ready world (.scalar 1) (.scalar 0xFF) .null .null) .always (fun c =>
    !c.mask && c.left == .scalar 1 && c.right == .scalar 0xFF && !c.set.pending (.ox 3)) = true := by decide +kernel
theorem witness_StatDelivers : sees (ready world .null .null .null .null) .always (fun c => !c.mask) = true := by decide +kernel
theorem witness_StatwAtCommit : (sees (ready world .null .null (.scalar 0) .null) .onFalse (fun c => !c.mask) &&
    ({ flight0 [] with effs := [(7, .statw true false true (3#2).toNat true)] } : Flight).effs == [(7, .statw true false true (3#2).toNat true)] &&
    ({ flight0 [] with effs := [(7, .statw false true false (3#2).toNat true), (9, .statw true false true (1#2).toNat false)] } : Flight).effs ==
      [(7, .statw false true false (3#2).toNat true), (9, .statw true false true (1#2).toNat false)]) = true := by
  decide +kernel
theorem witness_LaneInAndOut : allOf [
    sees (ready world (.scalar 5) .null .null .null) .always fun c => !c.mask && c.left == .scalar 5,
    sees (ready world (.vector vec8 0x80) .null .null .null) .always fun c => !c.mask && c.left == .vector vec8 0x80,
    sees (ready world (.vector vec8 0x80) (.scalar 5) (.mask 1) .null) .onFalse fun c => c.left == .vector vec8 0x80 && c.right == .scalar 5] = true := by
  decide +kernel
theorem witness_LaneMoves : allOf [
    sees (ready world (.vector vec8 1) (.vector vec8 2) .null .null) .always fun c => c.left == .vector vec8 1 && c.right.isData,
    sees (ready world (.vector vec8 1) (.scalar 15) (.mask 1) .null) .onTrue fun c =>
      c.left == .vector vec8 1 && c.right.isData && maskBit c.en 0 && !maskBit c.en 1,
    sees (ready world (.vector vec8 1) (.mask 0xF0) (.mask 1) .null) .onTrue fun c => c.left == .vector vec8 1 && c.right == .mask 0xF0 &&
      maskBit c.en 0 && !maskBit c.en 1] = true := by
  decide +kernel
theorem witness_VidxIsBasePlusMultiple : allOf [
    sees (ready world (.scalar (-1)) .null .null .null) .always fun c => !c.mask && c.left == .scalar (-1),
    sees (ready world (.scalar 1) .null (.mask 0) .null) .onTrue fun c => c.mask && c.left != .null] = true := by decide +kernel
theorem witness_LaneMasks : allOf [
    sees (ready world (.mask 0) (.mask 255) .null .null) .always fun c => !c.mask && c.left == .mask 0 && c.right == .mask 255,
    sees (ready world (.scalar 256) .null .null .null) .always fun c => !c.mask && c.left == .scalar 256] = true := by decide +kernel
theorem witness_ReductionsAndScans : allOf [
    sees (ready world (.vector vec8 0) .null .null .null) .always fun c => c.left == .vector vec8 0 && c.en == 255,
    sees (ready world (.vector vec8 0x0F) .null (.mask 0x0F) .null) .onTrue fun c =>
      c.left == .vector vec8 0x0F && (List.range 8).all fun j => maskBit 0x0F j || !maskBit c.en j] = true := by decide +kernel
theorem witness_ExitsKeepDestination : allOf [
    sees (ready world (.scalar (3 * 2 ^ 60 + 16)) .null .null .null) .always fun c =>
      !c.mask && !c.set.inEpilogue && c.left == .scalar (3 * 2 ^ 60 + 16),
    sees (ready world (.scalar (2 ^ 60)) .null .null .null) .always fun c => !c.mask && c.left == .scalar (2 ^ 60),
    sees (ready (world.updTs ts fun a => { a with task := some ⟨0, 0, 0, 0, 0, 0, [], false, [], none, false, none, .plain, some (0, 0, 0)⟩ })
      .null .null .null .null) .always fun c => c.set.inEpilogue] = true := by decide +kernel

/-- Whether an address is one of the tile's own pool that an access of n bytes may reach (the hypothesis `ownAddress`). -/
def own (c : Fire) (a : Word) (n : Nat) (load : Bool) : Bool :=
  decide (a.toNat < 2 ^ 17 ∧ a.toNat % n = 0 ∧ (c.s.inPad c.tile a.toNat n = true ∨ load = true ∧ c.s.inPadOrMbox c.tile a.toNat n = true))
/-- The last line of the scratchpad range, and the first of the mailbox. -/
def lastLine : Word := 123264
/-- See `lastLine`. -/
def mailLine : Word := 123328
/-- An address of the next tile of the cluster, and one of DRAM. -/
def sibling : Word := word (2 ^ 60 + 2 ^ 18 + 64)
/-- See `sibling`. -/
def inDram : Word := word (3 * 2 ^ 60 + 64)
/-- Whether an access of n bytes passes the checks of R269 and leads elsewhere than to the tile's own pool. -/
def away (c : Fire) (a : Word) (ok : Nat → Bool) (n : Nat) (load : Bool) : Bool :=
  checkAddr c.s c.tile a ok n n load == none && outsideCoord c.s c.tile a == none &&
    (match c.s.destOf c.tile a with | .pool t _ => t != c.tile | _ => true)
/-- The user tile's thread set with a journal entry in a state. -/
def posted (z : JState) : State := world.updTs ts fun a => { a with eng := { a.eng with
  journal := [⟨0, 0, sibling, 8, [some 1, some 2, some 3, some 4, some 5, some 6, some 7, some 8], .store, z, [], [0x200], 0, sibling, false, false, 0⟩], post := 1 } }
/-- The machine with an armed landing word at 0x100, in generation 7. -/
def armed : State := (world.putNum (poolKey tileU 0x100) 8 5).putNum (poolKey tileU 0x110) 4 7
/-- The machine with work that has not completed: batch 3 of 3, which is empty, and record 3 of 3. -/
def working : State := world.updTs ts fun a => { a with eng := { a.eng with ce := 2, me := 2, sealed := 3, hollow := [3], issued := 3 } }
/-- A block that started when all of it had been issued. -/
def issued3 (f : Flight) : Flight := { f with snap := { f.snap with sealed := 3, issued := 3 } }

theorem witness_LocalLoads : allOf [
    sees (ready world (.scalar lastLine) .null .null .null) .always fun c => !c.mask && !c.acquiring && c.left == .scalar lastLine &&
      own c lastLine 64 true && !c.s.poisoned (poolKey c.tile lastLine.toNat) 64 && c.below 31 (poolKey c.tile lastLine.toNat) 64 == [],
    sees (ready world (.scalar mailLine) .null .null .null) .always fun c => own c mailLine 64 true && !own c mailLine 64 false,
    sees (ready world (.scalar 1) .null .null .null) .always fun c => own c 1 1 true && own c 2 2 true && own c 4 4 true && own c 8 8 true &&
      own c 16 16 true && own c 32 32 true] = true := by decide +kernel
theorem witness_LoadsSeeEarlierStore : sees (edited (ready world (.scalar 8) .null .null .null) fun f =>
      { f with effs := [(5, .store 0 8 (([1, 2, 3, 4, 5, 6, 7, 8] : List Byte).map some))] }) .always (fun c =>
    !c.mask && !c.acquiring && c.left == .scalar 8 && own c 8 8 true && !c.s.poisoned (poolKey c.tile 8) 8 &&
      c.fl.effs == [(5, .store 0 8 (([1, 2, 3, 4, 5, 6, 7, 8] : List Byte).map some))]) = true := by decide +kernel
theorem witness_RemoteLoads : allOf [
    sees (ready world (.scalar sibling) .null .null .null) .always fun c => !c.mask && !c.acquiring && c.left == .scalar sibling &&
      [1, 2, 4, 8, 16, 32, 64].all (fun n => away c sibling (remoteSpaces n) n true && c.below 3 ((c.s.destOf c.tile sibling).key?.getD 0) n == []) &&
      (AMap.find c.ix c.fl.reqs).isNone && c.set.eng.journal.all fun e => e.state != .withheld,
    sees (ready world (.scalar inDram) .null .null .null) .always fun c =>
      [8, 16, 32, 64].all (fun n => away c inDram (remoteSpaces n) n true) && !away c inDram (remoteSpaces 4) 4 true,
    sees (edited (ready world (.scalar sibling) .null .null .null) fun f => { f with reqs := [(0, ⟨sibling, 8, .data (List.replicate 8 9), true, false, false, 0⟩)] })
      .always fun c => match AMap.find c.ix c.fl.reqs with | some q => q.here && q.reply == .data (List.replicate 8 9) | none => false] = true := by
  decide +kernel
theorem witness_StoresKeepBytes : allOf [
    sees (ready world (.scalar lastLine) (.vector vec8 1) (.mask 3) .null) .onTrue fun c =>
      c.mask && !c.acquiring && c.left == .scalar lastLine && own c lastLine 64 false && c.right == .vector vec8 1,
    sees (ready world (.scalar 4) (.scalar 0x1234) .null .null) .always fun c => !c.mask && own c 4 4 false && c.right == .scalar 0x1234,
    sees (ready world (.scalar sibling) (.scalar 0x1234) .null .null) .always fun c => !c.mask && !c.acquiring && c.left == .scalar sibling &&
      [1, 2, 4, 8, 16, 32, 64].all fun n => away c sibling (remoteSpaces n) n false] = true := by decide +kernel
theorem witness_AtomicsKeepOperation : allOf [
    sees (ready world (.scalar 8) (.scalar 0x1234) .null .null) .always fun c =>
      !c.mask && !c.acquiring && c.left == .scalar 8 && own c 8 8 false && own c 4 4 false && c.right == .scalar 0x1234,
    sees (ready world (.scalar inDram) (.vector vec8 0xFC) .null .null) .always fun c =>
      c.right == .vector vec8 0xFC && away c inDram (fun sp => decide (sp < 4)) 8 false && away c inDram (fun sp => decide (sp < 4)) 4 false] = true := by
  decide +kernel
theorem witness_AtomicArithmetic : (32 = 32 ∨ 32 = 64) ∧ (64 = 32 ∨ 64 = 64) := by decide
theorem witness_FencesAndReleases : allOf [
    sees (ready world (.scalar (word (at_ 20 10 7 + at_ 30 10 7))) .null .null .null) .always fun c => !c.mask && !c.acquiring &&
      (c.tileRec.slots.all fun z => z.2.ts != c.k || z.2.toWrite.isEmpty) && c.rectOk (word (at_ 20 10 7 + at_ 30 10 7)) &&
      [1, 2, 3].all fun d => c.set.eng.journal.all fun e => !c.s.fenceCovers c.tile d 0 e || !e.openYet,
    sees (ready (posted .pending) .null .null .null .null) .always fun c => !c.acquiring &&
      (c.set.eng.journal.any fun e => c.s.fenceCovers c.tile 2 0 e && c.s.fenceCovers c.tile 3 0 e && e.openYet) &&
      c.set.eng.journal.all fun e => e.state != .withheld,
    sees (ready (posted .pending) (.scalar (word (at_ 20 10 7 + at_ 30 10 7))) .null .null .null) .always fun c =>
      c.rectOk (word (at_ 20 10 7 + at_ 30 10 7)) && (c.set.eng.journal.any fun e => c.s.fenceCovers c.tile 1 (word (at_ 20 10 7 + at_ 30 10 7)) e &&
      e.openYet) && c.set.eng.journal.all fun e => e.state != .withheld,
    sees (ready world (.scalar 1) .null .null .null) .always fun c => c.left == .scalar 1 && !c.rectOk 1,
    sees (ready (posted .pending) (.scalar 0x200) (.scalar 0) .null .null) .always fun c => !c.mask && !c.acquiring && c.rectOk 0 &&
      own c 0x200 8 false && (c.set.eng.journal.any fun e => e.objs.contains 0x200 && e.kind != .rel && e.openYet) &&
      c.set.eng.journal.all fun e => e.state != .withheld,
    sees (ready (posted (.refused 6 true)) .null .null .null .null) .always fun c => !c.acquiring &&
      (c.set.eng.journal.any fun e => c.s.fenceCovers c.tile 3 0 e) && c.set.eng.journal.all fun e => !e.openYet,
    sees (ready (streaming.updTile tileU fun x => { x with slots := [(1, { outSlot with toWrite := [(0, [1])] })] }) .null .null .null .null) .always
      fun c => !c.acquiring && c.tileRec.slots.any fun z => z.2.ts == c.k && !z.2.toWrite.isEmpty,
    sees (ready (posted .pending) (.scalar 0x100) (.scalar 0) .null .null) .always fun c => !c.mask && !c.acquiring && c.rectOk 0 &&
      own c 0x100 8 false && !c.s.poisoned (poolKey c.tile 0x100) 8 && c.below 0 (poolKey c.tile 0x100) 8 == [] &&
      c.set.eng.journal.all fun e => !e.objs.contains 0x100 || e.kind == .rel || !e.openYet,
    sees (ready world (.scalar 0x100) (.scalar sibling) .null (.scalar 64)) .always fun c => !c.mask && c.left == .scalar 0x100 &&
      c.right == .scalar sibling && c.third == .scalar 64 && own c 0x100 8 false && rangeOk sibling 64,
    sees (ready world (.scalar 0x100) (.scalar sibling) .null (.scalar 0)) .always fun c => c.third == .scalar 0 && !rangeOk sibling 0] = true := by
  decide +kernel
theorem witness_WaitsResolve : allOf [
    sees (ready armed (.scalar 0x100) (.scalar 6) .null .null) .always fun c => !c.mask && c.left == .scalar 0x100 && c.right == .scalar 6 &&
      c.s.inPad c.tile 0x100 24 && c.s.landingTarget c.tile 0x100 == 5 && genReached (c.s.landingGen c.tile 0x100) 6,
    sees (ready armed (.scalar 0x100) (.scalar 7) .null .null) .always fun c => !genReached (c.s.landingGen c.tile 0x100) 7,
    sees (edited (ready working (.scalar 3) .null .null .null) issued3) .always fun c => c.left == .scalar 3 && c.fl.snap.issued == 3 &&
      c.fl.snap.sealed == 3 && c.set.eng.me == 2 && c.set.eng.ce == 2,
    sees (edited (ready working (.scalar 2) .null .null .null) issued3) .always fun c => c.left == .scalar 2 && decide (2 ≤ c.set.eng.me),
    sees (ready working (.scalar 4) .null .null .null) .always fun c => decide (c.fl.snap.issued < 4),
    sees (edited (ready working (.scalar 1) .null .null .null) issued3) .always fun c => c.set.eng.unfinished == 1] = true := by decide +kernel

/-- The machine with 64 bytes at 0x100 of the user tile's pool. -/
def holding (raw : Nat) : State := world.putNum (poolKey tileU 0x100) 64 raw
/-- Eight WF64 elements from 0x200 on, and a descriptor of a kind that no stream has. -/
def plainStream : Nat := at_ 0 64 0x200 + at_ 128 32 8 + at_ 256 32 8
/-- A copy of 64 bytes from 0x200 to 0x300. -/
def plainCopy : Nat := at_ 0 64 0x200 + at_ 64 64 0x300 + at_ 256 40 64
/-- The stream that a descriptor word gives on the thread set. -/
def streamHere (c : Fire) (raw : Nat) : StreamDesc :=
  streamOf raw (c.s.bytes (poolKey c.tile 0x100) 64) (AMap.get 0 1 c.set.regs.ox) c.fl.snap.flags (AMap.get 0 3 c.set.regs.ox)

theorem witness_StreamControl : allOf [
    sees (ready (holding plainStream) (.scalar 0x100) .null .null .null) .always fun c => !c.mask && c.left == .scalar 0x100 &&
      own c 0x100 64 false && !c.s.poisoned (poolKey c.tile 0x100) 64 &&
      ofBytes (c.s.bytes (poolKey c.tile 0x100) 64) == plainStream && streamLegal plainStream (streamHere c plainStream) &&
      (AMap.find 7 c.tileRec.slots).isNone && !c.boundHere 7 && (c.s.slotOf c.k 7).isNone,
    sees (ready (holding (at_ 124 4 3)) (.scalar 0x100) .null .null .null) .always fun c =>
      ofBytes (c.s.bytes (poolKey c.tile 0x100) 64) == at_ 124 4 3 && !streamLegal (at_ 124 4 3) (streamHere c (at_ 124 4 3)),
    sees (ready streaming (.scalar 3) .null .null .null) .always fun c => c.left == .scalar 3 && (c.s.slotOf c.k 0).isSome &&
      (match c.s.slotOf c.k 1 with | some z => z.desc.out && z.toWrite.isEmpty | none => false)] = true := by decide +kernel
theorem witness_CopiesAndSeals : allOf [
    sees (ready (holding plainCopy) (.scalar 0x100) .null .null .null) .always fun c =>
      let raw := c.s.num (poolKey c.tile 0x100) 64
      let d := copyOf raw (AMap.get 0 2 c.set.regs.ox)
      !c.mask && c.left == .scalar 0x100 && own c 0x100 64 false && !c.s.poisoned (poolKey c.tile 0x100) 64 && copyFields raw d 0 &&
        spacesOk 4 [d.src, d.dst] && spacesOk 3 d.words && spacesOk 2 d.idx && copyAligned d && c.wordOk d &&
        (c.strays ([d.src, d.dst] ++ d.words)).isNone && !copyFields raw d 1,
    sees (ready world .null .null .null .null) .always fun c => !c.mask && c.fl.effs.all fun e => e.2 != .cseal || decide (c.ix ≤ e.1),
    sees (edited (ready world .null .null .null .null) fun f => { f with effs := [(9, .cseal)] }) .always fun c =>
      c.fl.effs.all fun e => e.2 != .cseal || decide (c.ix ≤ e.1),
    sees (edited (ready world .null .null .null .null) fun f => { f with effs := [(9, .cseal)], order := [(12, [])] }) .always fun c =>
      c.fl.effs.any fun e => e.2 == .cseal && decide (e.1 < c.ix)] = true := by decide +kernel

/-- The user tile with accumulator tile 2 owned, the INT8 formats selected and a weight record appended. -/
def multiplying : State :=
  (world.updTile tileU fun x => { x with mx := { x.mx with owner := [(2, 0)] } }).updTs ts fun a => { a with
    regs := { a.regs with ox := [(0, word (at_ 0 5 4 + at_ 8 5 12))] }, eng := { a.eng with bfmt := some 12 } }
/-- Whether matrix instructions may be used, and a record joins the queue (the hypotheses `matrixUser` and `recordFree`). -/
def mayAppend (c : Fire) : Bool :=
  decide (epiTs c.tileRec.conf.part ≠ some (c.k % 4)) && c.s.level c.tile == .user && field c.ox0 13 2 == 0 &&
    decide (c.s.queued c.tile + c.ahead < queueDepth c.tileRec.conf.part)

theorem witness_MatrixControl : allOf [
    sees (ready world .null .null .null .null) .always fun c => !c.mask && mayAppend c && decide (3 < field c.tileRec.conf.part 8 5) &&
      (List.range 4).all (fun i => i == c.k % 4 || (c.s.ts (4 * c.tile + i)).eng.recs.all fun r => r.body.acc? != some 3) &&
      decide (c.fl.snap.issued ≤ c.set.eng.me),
    sees (edited (ready working .null .null .null .null) issued3) .always fun c => decide (c.set.eng.me < c.fl.snap.issued)] = true := by
  decide +kernel
theorem witness_MatrixContextFault : sees (ready { world with focus := 4 * tileS } (.scalar 1) (.scalar 2) .null .null) .always (fun c =>
    !c.mask && c.s.level c.tile != .user && c.left != .null && c.right != .null) = true := by decide +kernel
theorem witness_MatrixRecords : allOf [
    sees (ready multiplying (.scalar (word (at_ 17 17 96))) (.scalar 0) .null .null) .always fun c => !c.mask && mayAppend c &&
      field c.ox0 8 5 == 12 && isB 12 && groupOf 12 == 0 && c.columnsIn 0 96 (columnBytes 12) && c.left == .scalar (word (at_ 17 17 96)),
    sees (ready multiplying (.scalar (word (at_ 17 17 96))) (.vector vec8 0x80) .null .null) .always fun c =>
      isA (field c.ox0 0 5) && pairOk 4 12 && c.weightFmt == some 12 && c.owns 2 &&
        (List.range 8).all fun j => maskBit 0x80 j || c.s.inPad c.tile ((vec8.get j).toNat % 256 * 96) 96,
    sees (ready multiplying (.scalar 0x400) (.scalar (word (at_ 0 20 64))) .null .null) .always fun c =>
      let w := word (at_ 0 20 64)
      c.right == .scalar w && c.owns 2 && field w 55 9 == 0 && !bitAt w 48 && !bitAt w 47 && !bitAt w 37 &&
        (match fmtOf (field w 38 5) with
          | some f => decide (0x400 % f.bytes = 0) && decide (sintN 20 (field w 0 20) % (f.bytes : Int) = 0) && (List.range 8).all fun j =>
              decide ((rowAddr 0x400 64 j).toNat < 2 ^ 17) && c.s.inPad c.tile (rowAddr 0x400 64 j).toNat (8 * f.bytes)
          | none => false)] = true := by decide +kernel

/-- The machine with an edge from output port 2 of the user tile, with credits left. -/
def sending (credits : Nat) : State :=
  (world.updTile tileU fun x => { x with conf := { x.conf with outs := [(2, 5)] } }).updRegion 0 fun g => { g with
    edges := [(5, { Edge.init with dst := .tile (packXY 5 4) 0, len := 3, credits := credits })] }
/-- A header of a packet of two units. -/
def head2 : Word := mkH0 0 20 1 2 0 false 0 0
/-- H1 that names the tile at (5, 4). -/
def to54 : Word := mkH1 (packXY 5 4) 0 0 0
/-- The machine in which that tile has no room for a spawn: a packet is in its spill ring. -/
def crowded : State := world.updTile (tileAt 149 4) fun x => { x with mbox := { x.mbox with
  ring := [⟨.plain, 0, 0, head2, 0, List.replicate 32 0, 0, 0, false, false, false, none, false, false, false, 0, [], none, 0⟩] } }

theorem witness_SendsLeaveAtCommit : allOf [
    sees (ready (sending 1) (.scalar 0x100) (.scalar head2) .null (.scalar to54)) .always fun c => !c.mask && c.left == .scalar 0x100 &&
      c.right == .scalar head2 && c.s.outEdge c.tile 2 == some 5 && headerOk [0, 1, 3] head2 && !c.ended 5 2 &&
      decide (h0Len head2 ≤ (c.region.edge 5).len) && !c.onEpilogue && c.s.inPad c.tile 0x100 (bodyLen head2) &&
      !c.s.poisoned (poolKey c.tile 0x100) (bodyLen head2) && !c.tileRec.isReplica && c.s.creditFree c.rgn 5,
    sees (ready (sending 0) (.scalar 0x100) (.scalar head2) .null .null) .always fun c => !c.s.creditFree c.rgn 5,
    sees (ready world (.scalar 0x100) (.scalar head2) .null (.scalar to54)) .always fun c => c.third == .scalar to54 && headerOk [0] head2 &&
      c.region.translate (h1Dst to54) true == .at (tileAt 149 4) && c.s.level c.tile == .user &&
      c.s.grants (c.s.follow (c.s.ctxOf c.tile) (tileAt 149 4)) head2,
    sees (ready crowded (.scalar 0x100) (.scalar head2) .null (.scalar to54)) .always fun c =>
      !c.s.grants (c.s.follow (c.s.ctxOf c.tile) (tileAt 149 4)) head2] = true := by decide +kernel

/-- A task of a packet. -/
def task0 : Task := ⟨0, 0, 0, 0, 0, 0, [], false, [], none, false, none, .plain, none⟩
/-- The user tile with two thread sets, the upper kept for epilogues. -/
def epilogues : State := { world.updTile tileU fun x => { x with conf := { x.conf with part := word (at_ 0 2 1 + at_ 2 1 1) } } with focus := ts + 1 }
/-- The user tile on a slice of a range stage. -/
def slicing : State := world.updTs ts fun a => { a with task := some { task0 with slice := some 3 } }

theorem witness_MailboxAndSteal : allOf [
    sees (ready world (.scalar 0) .null .null .null) .always fun c => !c.mask && !c.onEpilogue && c.left == .scalar 0 && c.spillOk 0 && !c.onSlice,
    sees (ready epilogues .null .null .null .null) .always fun c => c.onEpilogue,
    sees (ready world (.scalar 64) .null .null .null) .always fun c => c.left == .scalar 64 && !c.spillOk 64,
    sees (edited (ready slicing .null .null .null .null) fun f => { f with snap := { f.snap with range := some vec8 } }) .always fun c =>
      c.onSlice && c.fl.snap.range == some vec8] = true := by decide +kernel
theorem witness_SysAtUserLevelFaults : sees (ready world (.scalar 0) (.scalar 0) .null (.scalar 0)) .always (fun c =>
    !c.mask && c.s.level c.tile == .user && c.left != .null && c.right != .null && c.third != .null) = true := by decide +kernel

/-- A thread set of the Potting shed in focus, and one of field 3's manager core. -/
def above (device : Bool) : State := { world with focus := if device then 4 * (518400 + 3) else 4 * tileS }
/-- The identity word of thread set 1 of the tile at (4, 4). -/
def ident : Word := word (packXY 4 4 + at_ 20 2 1)

theorem witness_CsrAccess : allOf [
    sees (ready (above false) (.scalar 0x106) (.scalar 0x10064) .null .null) .always fun c => !c.mask && c.s.level c.tile == .supervisor &&
      c.left == .scalar 0x106 && (csrInfo 0x106).isSome && csrReadOk .supervisor 0x106 && csrWriteOk .supervisor 0x106 &&
      c.s.csrValueOk .supervisor c.tile 0x106 0x10064 && c.right == .scalar 0x10064,
    sees (ready (above false) (.scalar 0x00D) .null .null .null) .always fun c =>
      c.left == .scalar 0x00D && (csrInfo 0x00D).isSome && !csrReadOk (c.s.level c.tile) 0x00D,
    sees (ready (above true) (.scalar 4095) .null .null .null) .always fun c => c.s.level c.tile == .device && (csrInfo 4095).isNone,
    sees (ready (above true) (.scalar 4096) .null .null .null) .always fun c => c.left == .scalar 4096] = true := by decide +kernel
theorem witness_SystemInstructions : allOf [
    sees (ready (above false) (.scalar ident) (.scalar 0) .null (.scalar 9)) .always fun c => !c.mask && c.s.level c.tile == .supervisor &&
      c.left == .scalar ident && c.identity ident == some (ts + 1) && repairOk 0 false && repairOk (word (2 ^ 60)) true &&
      c.third == .scalar 9 && (c.s.ts (ts + 1)).eng.pend == [] && (c.s.userTss c.rgn).all (fun k => (c.s.ts k).eng.pend == []) &&
      c.mayActOn 1,
    sees (ready ((above true).updField (fieldOf tileU) fun f => { f with gated := true }) (.scalar 1) (.scalar 0) .null (.scalar 0x100)) .always fun c =>
      c.s.level c.tile == .device && c.s.rgnOfCtx 1 == 0 && c.s.allStopped 0 && c.s.inPad c.tile 0x100 24 && c.third == .scalar 0x100,
    sees (ready (above true) (.scalar (word (packXY 148 4))) (.scalar 5) .null .null) .always fun c =>
      c.named (packXY 148 4) == some tileU && c.right == .scalar 5,
    sees (ready (above false) (.scalar 5) .null .null .null) .always fun c => c.left == .scalar 5 && field (5 : Word) 5 3 == 0] = true := by decide +kernel
theorem witness_DebugInstructions : sees (ready world (.scalar 5) .null .null .null) .always (fun c => !c.mask && c.left == .scalar 5) = true := by
  decide +kernel

/-! ## Where the events come about -/

/-- A packet in the mailbox of the user tile. -/
def mail0 : Mail := ⟨.plain, 0, 123328, head2, 0, List.replicate 32 0, 0, 0, false, false, false, none, false, false, false, 0, [], none, 0⟩
/-- The user tile with one packet. -/
def mailed (m : Mail) : State := world.updTile tileU fun x => { x with cycle := 65536, mbox := { x.mbox with mails := [m] } }
/-- The user tile's thread set with a change. -/
def onTs (f : ThreadSet → ThreadSet) : State := world.updTs ts f
/-- The region with a change. -/
def onRegion (f : Region → Region) : State := world.updRegion 0 f
/-- A range stage 2 with the user tile as its replica, and a change. -/
def staged (f : Stage → Stage) : State :=
  (world.updTile tileU fun x => { x with conf := { x.conf with actor := some .range, stage := 2 } }).updRegion 0 fun g => { g with
    stages := [(2, f { Stage.init with kind := .range, replicas := [packXY 4 4] })] }
/-- A stateless stage 3 with a change. -/
def stateless (f : Stage → Stage) : State := onRegion fun g => { g with stages := [(3, f { Stage.init with replicas := [packXY 4 4] })] }
/-- A packet from the user tile to the tile at (5, 4). -/
def flying : Flying := ⟨tileU, tileAt 149 4, 0, head2, to54, List.replicate 32 0, none, none, false, []⟩
/-- A range token of 8 slices. -/
def token0 : RangeTok := ⟨0, 8, 0, 8, [], 0, 0, [], 1⟩
/-- A region that lies in two fields, with a range stage of one replica in each: the one has slices, the other has none left. -/
def twoFields : State := world.updRegion 0 fun g => { g with
  geom := word (at_ 0 8 53 + at_ 16 8 2 + at_ 24 8 2),
  stages := [(2, { Stage.init with kind := .range, replicas := [packXY 0 4, packXY 4 4], rem := [(packXY 0 4, [0, 1])], tok := some token0 })] }

theorem witness_TaskAndStageEvents : allOf [
    (onTs fun a => { a with task := some task0 }).canStart ts,
    (edited (ready world .null .null .null .null) fun f => { f with stat := [(0, .fired)], effs := [(0, .exit .goto 0 0)] }).canCommit ts,
    ({ world with net := [flying] } : State).canArrive 0,
    (mailed mail0).canDispatch ts, (mailed mail0).canAge tileU 0, (mailed { mail0 with begun := true, wait := true }).canReelig tileU 0,
    (let s := onTs fun a => { a with outs := [⟨0, packXY 5 4, head2, [], none, true, false, false, []⟩] };
      s.canToken ts && decide (s.mode (s.rgnOf (tileOf ts)) ≠ 3)),
    ((sending 0).updEdge 0 5 fun d => { d with returning := [0] }).canCredit 0 5,
    (stateless fun x => { x with inbox := [(0, (head2, 0, List.replicate 32 0))] }).canDeal 0 3 0,
    (stateless fun x => { x with eosIn := some (0, 0) }).canStageEos 0 3,
    (staged fun x => { x with inbox := [(0, (head2, 0, List.replicate 32 0))] }).canTake 0 2,
    (staged fun x => { x with tok := some token0, replicas := [packXY 4 4, packXY 5 4] }).canAsk tileU,
    (staged fun x => { x with tok := some token0, replicas := [packXY 4 4, packXY 5 4], asks := [(packXY 5 4, packXY 4 4)], rem := [(packXY 4 4, [0, 1])] }).canServe tileU,
    twoFields.canCross 0 2 (fieldOf (tileAt 216 4)),
    (staged fun x => { x with eosIn := some (0, 0) }).canRangeEos 0 2,
    (world.updTile tileU fun x => { x with mbox := { x.mbox with grants := [⟨0, false, (head2, 0, [])⟩] } }).canAdmit tileU,
    (world.updTile tileU fun x => { x with conf := { x.conf with ports := [(0, { Port.init with sink := some 1, counted := 1, reported := true })] } }).canComplete 0,
    (onRegion fun g => { g with cut := { g.cut with phase := 1 } }).canDorm 0] = true := by decide +kernel

/-- A journal entry of a kind in a state. -/
def entry0 (k : JKind) (z : JState) : State :=
  onTs fun a => { a with eng := { a.eng with journal := [⟨4, 0, sibling, 8, [], k, z, [], [], 0, sibling, false, false, 0⟩], post := 1 } }
/-- A block that waits for the reply to a load. -/
def asked (r : Reply) : State :=
  edited (ready world .null .null .null .null) fun f => { f with reqs := [(0, ⟨sibling, 8, r, false, false, false, 0⟩)], stat := [(0, .waiting)] }
/-- A request of 16 bytes at an entry port. -/
def dreq0 (p : Phys) : DramReq :=
  ⟨0, tileU, 0, mkH0 4 20 0 1 0 false 0 0, 0, leBytes 8 (3 * 2 ^ 60 + 64) ++ leBytes 8 0, false, p, 0, 0, [], false⟩

theorem witness_MemoryAndStreamEvents : allOf [
    (entry0 .store .pending).canPerform ts 4 false, (entry0 (.atomic ⟨0, true, 0, 1, 0⟩ none) .pending).canPerform ts 4 true,
    (asked .asked).canLoad ts 0, (entry0 .store .done).canAck ts 4, (entry0 .store (.refused 6 false)).canRefuse ts 4,
    (asked (.data (List.replicate 8 0))).canLdrReply ts 0, (entry0 (.atomic ⟨0, true, 0, 1, 0⟩ none) .done).canAmoReply ts 4,
    (entry0 .rel .held).canPost ts 4 true, (entry0 (.atomic ⟨0, true, 2, 1, 0⟩ none) .held).canPost ts 4 false,
    ({ armed with landings := [⟨tileU, 0x100, 1, false, false, none⟩] } : State).canLand 0,
    (world.updTile tileU fun x => { x with slots := [(0, { inSlot with ready := [] })] }).canFetch tileU 0,
    (world.updTile tileU fun x => { x with slots := [(1, { outSlot with toWrite := [(0, [1])] })] }).canAppend tileU 1,
    (onTs fun a => { a with eng := a.eng.accept tileU (copyOf plainCopy 0) }).canPiece ts 0 1,
    ({ onRegion fun g => { g with edges := [(1, Edge.init)] } with net := [{ flying with edge := some (0, 1) }] } : State).canDramreq 0,
    ({ world with dreqs := [dreq0 .unwalked] } : State).canWalk 0, ({ world with dreqs := [dreq0 (.at 64)] } : State).canDramPerform 0,
    ({ world with dreps := [⟨tileU, 0, 0, 0, 0, 1, [], 0, false, 0, 0⟩] } : State).canDramrep 0] = true := by decide +kernel

/-- The user tile's thread set with a record at the head of its queue. -/
def record0 (b : RecBody) : State :=
  onTs fun a => { a with eng := { a.eng with recs := [⟨1, 0, 0, 0, b, false, 0, 0, none, false, false, [0, 0, 0, 0]⟩] } }
/-- A repair packet of an action for thread set 0. -/
def repair0 (action : Nat) : Mail :=
  { mail0 with kind := .repair, h0 := mkH0 6 47 0 1 0 false 0 0, body := leBytes 8 (at_ 60 4 action + 7) ++ leBytes 8 9 }
/-- A save or restore that the engines have accepted. -/
def saving0 (save : Bool) (phase : Nat) : State :=
  onRegion fun g => { g with cut := { g.cut with phase := phase }, saving := some ⟨save, 0, some (ts, 0x100), false, false, none⟩ }

theorem witness_MatrixFaultAndSaveEvents : allOf [
    (record0 (.op (List.replicate 8 none) 12 4 0 96 0)).canOp tileU, (record0 (.weight 0 12 0 0 0 0 96 0)).canWeight ts,
    ((record0 (.zero 1)).zeroHead ts).isSome, ((record0 (.drain 0x400 64 false 0 0 false false false 0 false 0 1)).drainHead ts).isSome,
    (let s := record0 (.drain 0x400 64 false 0 0 false false true 0 false 0 1);
      (s.updTile tileU fun x => { x with conf := { x.conf with part := word (at_ 0 2 1 + at_ 2 1 1 + at_ 8 5 4) } }).canEpilogue tileU),
    (mailed { mail0 with kind := .fault }).canFaultDispatch ts,
    [0, 1, 2, 3, 4, 5].all (fun a => (mailed (repair0 a)).canRepair ts a), world.hasRegion 0, (csrInfo 0x106).isSome,
    (world.updTile tileU fun x => { x with stopping := true }).canStop tileU,
    ((onRegion fun g => { g with cut := { g.cut with phase := 1 }, geom := word (at_ 0 8 36) })).canClose 0,
    ((world.updTile tileU fun x => { x with conf := { x.conf with actor := some .stateful } }).updTile (tileAt 149 4) fun x =>
      { x with rgn := some 0, coord := packXY 5 4 }).canMigrate tileU (tileAt 149 4),
    (world.updTile tileU fun x => { x with fwds := [⟨1, 0, 0⟩] }).canEndFwd tileU,
    (saving0 true 0).canSave 0, (saving0 false 0).canRestore 0, world.canWatch 0, (saving0 true 2).canExpire 0,
    (match (mailed (repair0 0)).repairMail ts 0 with | some m => field m.repairWord 0 16 == 7 | none => false)] = true := by decide +kernel

/-- The module after bring-up, with a CXL port up, the lease of field 0, the cores of fields 1 and 2 alive, and queue 3 enabled with
a command of an opcode at host address 0. -/
def serving (op : Nat) : State :=
  { (world.updField 1 fun f => { f with alive := true }).updField 2 fun f => { f with alive := true } with
    mem := AMap.put 0 (hostKey 0) (BitVec.ofNat 8 op) world.mem,
    links := { world.links with
      ports := [{ HostPort.init with up := true }, HostPort.init],
      boot := { world.links.boot with step := 9 }, lease := ⟨some 0, 0, true⟩,
      queues := [(3, { HostQueue.init with qcfg := word (1 + at_ 4 4 4), tail := 1 })] } }
/-- The region with its sequence at a record, after bring-up. -/
def sequenced (r : Nat × Nat × Nat) : State :=
  (serving 0).updRegion 0 fun g => { g with image := some ⟨[], [], [], [(0, [r])], [], []⟩, seqOn := true, outcome := .completed }

theorem witness_HostAndSequencerEvents : allOf [
    [1, 2, 3, 5, 6, 7, 8, 9, 10].all (fun op => (serving op).cmdAt 3 op), (serving 4).canDelta 3, bitAt ((serving 0).queue 3).qcfg 0,
    (let val : Word := word (1 + at_ 4 4 4);
      decide (0 < 64) && !bitAt ((serving 0).queue 0).qcfg 0 && decide (4 ≤ field val 4 4 ∧ field val 4 4 ≤ 12)),
    (sequenced (0, 0, 0)).seqAt 0 0, (sequenced (1, 0, 0)).canRun 0, (sequenced (2, 0, 0)).seqAt 0 2,
    decide (((sequenced (2, 0, 0)).region 0).outcome ≠ .pending), (sequenced (3, 0, 0)).canApply 0, (sequenced (4, 0, 0)).seqAt 0 4,
    (sequenced (5, 0, 0)).seqAt 0 5, world.canInterval 0, (serving 0).links.lease.lead.isSome && (serving 0).links.lease.acting,
    ((serving 0).updLinks fun l => { l with lease := ⟨some 0, 0, false⟩ }).successor == some 1] = true := by decide +kernel

/-- A field whose rail is to move, with a hot cluster. -/
def hot : State := (world.updField (fieldOf tileU) fun f => { f with moving := some 20 }).updCluster (clusterOf tileU) fun c =>
  { c with csr := csrPut c.csr 0x205 2000 }
/-- The cluster of the user tile with a change. -/
def onCluster (f : Cluster → Cluster) : State := world.updCluster (clusterOf tileU) f

theorem witness_PowerAndDebugEvents : allOf [
    (hot.fieldRec (fieldOf tileU)).moving == some 20, hot.canGate (fieldOf tileU),
    (let s := world.updField 5 fun f => { f with csr := csrPut f.csr 0x207 1 };
      bitAt (csrOf (s.fieldRec 5).csr 0x207) 0 && !bitAt (csrOf (s.fieldRec 5).csr 0x207) 1),
    (world.updField 5 fun f => { f with gated := true }).canRelease 5,
    (let s := (onRegion fun g => { g with csr := csrPut g.csr 0x230 0x1330D01 }).updLinks fun l => { l with colls := [⟨0, 0, 2, 0, 0, 0, [], [(1, 8)]⟩] };
      s.hasRegion 0 && bitAt (csrOf (s.region 0).csr 0x230) 24 && s.links.colls.any fun c => c.rgn == 0),
    decide (field (csrOf (world.region 0).csr 0x210) 0 14 ≠ 0), clusterOk (clusterOf tileU), !clusterOk 0, !clusterOk 32483,
    decide (field (csrOf ((onCluster fun c => { c with csr := csrPut c.csr 0x302 1 }).cluster (clusterOf tileU)).csr 0x302) 0 8 ≠ 0),
    (onCluster fun c => { c with halting := some 1 }).canTrlHalted (clusterOf tileU),
    (onCluster fun c => { c with halted := true, step := some ts, stepped := true }).canStepDone (clusterOf tileU),
    decide ((onRegion fun g => { g with modeOn := 2 }).mode 0 = 2),
    (onRegion fun g => { g with modeOn := 3 }).canRound 0, !(world.fieldRec (fieldOf tileU)).gated] = true := by decide +kernel

/-- The module after bring-up, with its CXL ports and Boder port 7 up. -/
def linked : State := (serving 0).updLinks fun l => { l with
  ports := [{ HostPort.init with up := true, hdmSize := 4096 }, { HostPort.init with up := true, hdmSize := 4096 }],
  boder := [(7, { BoderPort.init with up := true, peer := 1 })],
  remotes := [⟨1, 0, 0, 0, 8, [], 0, 0, 0, 0, 0⟩] }

theorem witness_LinkAndStartEvents : allOf [
    linked.cxlOk 0 1, linked.cxlOk 1 64, !linked.cxlOk 2 1, !linked.cxlOk 0 65, (linked.cxl 1).up, (linked.boderPort 7).up, linked.canServeRemote 0,
    linked.managed, !world.managed, linked.answers 0, linked.answers 2,
    (let s := world.updBoot fun b => { b with step := 8 };
      decide (s.links.boot.step = 8) && decide (1 ≤ s.links.boot.step ∧ s.links.boot.step ≤ 8)),
    linked.links.lease.acting && !linked.links.boot.minimal] = true := by decide +kernel

/-! ## Blocks -/

/-- A handler block of one slot, DONE, in code memory at 0x100, which an entry port has translated; a task runs on the thread set. -/
def coded : State :=
  let s : State := { (onRegion fun g => { g with image := some ⟨[], [0], [], [], [], []⟩, csr := csrPut g.csr 0x004 1 }) with
    owners := [(0, 1)], tlb := [⟨0, 1, 0, 16, 0x1F⟩] }
  ((s.putNum 0x100 8 (2 ^ 60)).putNum 0x108 4 0x330003FF).updTs ts fun a => { a with
    task := some task0, regs := { a.regs with bpc := word (3 * 2 ^ 60 + 0x100) } }
/-- A block whose only instruction is an ADD, at its cursor. -/
def adding : State := edited (ready world (.scalar 5) (.scalar 6) .null .null) fun f => { f with body := [0x100A03FF#32] }
/-- A block that has fired an exit to 0x3000000000000200 and what else it keeps for its commit. -/
def settled (e : AMap Effect) : State := edited (ready world .null .null .null .null) fun f => { f with
  stat := [(0, .fired)], effs := e ++ [(200, .exit .goto (word (3 * 2 ^ 60 + 0x200)) 7)], raised := 2 }
/-- Whether a block can commit by a jump, as the hypothesis `Commits` says. -/
def commits (s : State) : Bool := match s.flight ts with
  | some f => s.canCommit ts && s.verdict ts f == .commit 200 .goto (word (3 * 2 ^ 60 + 0x200)) 7 && s.mode (s.rgnOf (tileOf ts)) == 0 &&
      !bitAt (csrOf (s.region (s.rgnOf (tileOf ts))).csr 0x310) 0 && s.tss.all fun q => q.2.stops.pendingFaults == [] && q.2.eng.journal.all fun e => match e.state with | .withheld | .refused _ true => false | _ => true
  | none => false
/-- A block that has faulted. -/
def faulting : State := edited (ready world .null .null .null .null) fun f => { f with
  stat := [(0, .faulted)], faults := [(0, FaultInfo.plain .operandType 0)] }
/-- WRITEs of s0, s5, v1 and ox3. -/
def writes : AMap Effect := [(2, .wr (.s 0) (.scalar 1)), (4, .wr (.s 5) (.scalar 9)), (6, .wr (.v 1) (.vector vec8 0x81)), (8, .wr (.ox 3) (.scalar 4))]
/-- A store with an absent byte. -/
def storing : AMap Effect := [(2, .store 3 0x40 [some 1, none, some 3])]
/-- The state that a step leads to. -/
def next (r : Res) : Option State := match r with | .next u => some u | _ => none

theorem witness_StepRunsDecoded : allOf [
    adding.started == [] && adding.schedule == [] && adding.agenda == [] && adding.runnable adding.focus,
    (match adding.flight adding.focus with
      | some f => f.cursor == some 0 && AMap.find 0 (bodyInstrs 0 f.body) == some (.add .always false 640 1023)
      | none => false),
    (next (exec (.add .always false 640 1023) adding)).isSome && next (step adding) == next (exec (.add .always false 640 1023) adding),
    (match decodeSlot 0x330003FF#32 with | .ok (.one i) => i == .done .always | _ => false),
    (match decodeSlot 0x83FF83FF#32 with | .ok (.pair i j) => i == .compactNop && j == .compactNop | _ => false),
    coded.canStart ts,
    (let a := (coded.ts ts).regs.bpc;
      decide (space a = 3 ∧ field a 57 3 = 0 ∧ field a 0 4 = 0) && match coded.fetchAcross (tileOf ts) a 8 with
        | (.bytes h, s) => nslotOf (word (ofBytes h)) == 0 && (match s.fetchAcross (tileOf ts) (a + 8) 4 with
          | (.bytes cs, s) => (blockDefect (s.ts ts).kindOk (word (ofBytes h)) (slotsOf 1 cs)).isNone && slotsOf 1 cs == [0x330003FF#32]
          | _ => false)
        | _ => false),
    ({ world with agenda := [.tileCycle tileU] } : State).started == [] && encode (.tileCycle tileU) == none] = true := by decide +kernel
theorem witness_FiringFrame : allOf [
    (encode (.add .always false 640 1023)).isSome && !reachesOut (.add .always false 640 1023) && (next (exec (.add .always false 640 1023) adding)).isSome,
    (next (exec (.haltRegion .always 1023) (ready (above false) .null .null .null .null))).isSome,
    (next (exec (.halt .always 1023) (ready (above false) (.scalar ident) .null .null .null))).isSome,
    (next (exec (.xlati .always 1023) (ready (above true) (.scalar 0) (.scalar 1) .null .null))).isSome] = true := by decide +kernel
/-- The entry port of `dreq0` with the leaf that its request was translated by. -/
def walked : State := { world with tlb := [⟨0, 1, 64 / 2 ^ 16, 16, 0⟩], dreqs := [dreq0 (.at 64)] }
theorem witness_XlatiOnePage : (let s := { walked with focus := 4 * tileS }; let a : Word := word (3 * 2 ^ 60 + 128);
    sees (ready s (.scalar a) (.scalar 1) .null .null) .always (fun c => c.mayActOn 1) &&
    s.tlb.all (fun e => e.ctx == 1 && decide (e.page = a.toNat % 2 ^ 57 / 2 ^ e.bits) && s.dreqs.all fun d =>
      (s.region d.rgn).ctx == 1 && d.port == e.port && decide (ofBytes (d.body.take 8) % 2 ^ 57 / 2 ^ e.bits = e.page)) &&
    (match next (exec (.xlati .always 1023) (ready s (.scalar a) (.scalar 1) .null .null)) with
      | some u => u.tlb == [] && u.dreqs == [dreq0 .unwalked] | none => false)) = true := by decide +kernel
theorem witness_NulledFirings : allOf [
    (match (Instr.add .onTrue false 8 1023).shape with | some sh => sh.pr == .onTrue && sh.left && sh.right | none => false),
    (match (Instr.fma .onFalse false 8 1023).shape with | some sh => sh.pr == .onFalse && sh.third == .data | none => false),
    !joins (.add .onTrue false 8 1023),
    [(Token.scalar 0, Pr.onTrue), (.scalar 1, .onFalse), (.null, .onTrue)].all fun p =>
      let s := ready world (.scalar 5) (.scalar 6) p.1 .null
      match s.flight s.focus with
      | some f => f.cursor == some 0 && f.token 0 2 == p.1 &&
          next (exec (.add p.2 false 8 1023) s) == some (s.nulled f 0 1 [8, 1023] .null)
      | none => false,
    (let s := ready world (.scalar 5) .null .null .null;
      match s.flight s.focus with
      | some f => f.token 0 1 == .null && next (exec (.add .always false 8 1023) s) == some (s.nulled f 0 1 [8, 1023] .null)
      | none => false)] = true := by decide +kernel
theorem witness_CommitWritesRegisters : (commits (settled writes) && writes.all (fun p => match p.2 with
    | .wr r _ => ((regSlot r).bind ((settled writes).slotOf ts)).isNone | _ => false)) = true := by decide +kernel
theorem witness_CommitStoresBytes : (commits (settled storing) && commits (settled [(2, .amoLocal 3 0x40 ⟨0, true, 0, 1, 0⟩ none)]) &&
    (match (settled storing).flight ts with | some f => f.stored == [(0x40, [some 1, none, some 3])] | none => false)) = true := by decide +kernel
theorem witness_TakingAFault : (match faulting.flight ts with
    | some f => faulting.canCommit ts && faulting.verdict ts f == .fault (FaultInfo.plain .operandType 0) &&
        (faulting.ts ts).stops.fault == none && (faulting.ts ts).stops.frozen == none && !inShed (faulting.tile (tileOf ts)).coord &&
        !bitAt (csrOf (faulting.region 0).csr 0x310) 0 && (faulting.region 0).tileAt? (faulting.tile tileU).coord == some tileU &&
        !(faulting.tile tileU).stopped
    | none => false) = true := by decide +kernel
theorem witness_RoundTrip : (Instr.wellFormed (.lea .always 6 9) && encode (.lea .always 6 9) == some (32, 0x26001809) &&
    Instr.wellFormed (.compactAdd 9)) = true := by decide +kernel
theorem witness_DecodeThenEncode : ((decodeTableWord 32 0x01000000).isSome && (decodeTableWord 16 0x83FF).isSome) = true := by decide +kernel
theorem witness_ReservedEncodings : 0x7F000000 / 2 ^ 24 ∈ reservedMajors ∧ 0x10100000 / 2 ^ 24 ∈ t2Majors ∧ 0x10100000 / 2 ^ 20 % 2 = 1 ∧
    0x10C00000 / 2 ^ 22 % 4 = 3 ∧ 0x01880000 / 2 ^ 22 % 4 = 2 ∧ 4 ≤ 0x01880000 / 2 ^ 17 % 32 ∧ 0x02000001 % 1024 ≠ 0 ∧
    0x30200000 / 2 ^ 20 % 4 = 2 ∧ 0x8400 / 2 ^ 10 % 2 = 1 ∧ 0xF800 / 2 ^ 11 % 16 = 15 ∧ 0x8000 / 2 ^ 11 % 16 = 0 ∧ 0x8000 % 1024 ≠ 1023 := by
  decide
theorem witness_MemoryCanonicalStep : (Memory.wf adding.mem && (next (step adding)).isSome && Memory.wf coded.mem &&
    (next (step coded)).isSome) = true := by decide +kernel

/-! ## Ill-formed operands -/

theorem test_setx_refuses_ox4 : Instr.wellFormed (.setx .always 4 0 8) = false := by decide
theorem test_getx_refuses_ox4 : Instr.wellFormed (.getx .always 4 0 8) = false := by decide
theorem test_lea_refuses_scale7 : Instr.wellFormed (.lea .always 7 8) = false := by decide
theorem test_amo_refuses_order3 : ([.amoAadd .always 0 true 3 8, .amoAand .always 0 true 3 8, .amoAor .always 0 true 3 8,
    .amoAxor .always 0 true 3 8, .amoAmin .always 0 true 3 8, .amoAmax .always 0 true 3 8, .amoAminn .always 0 true 3 8,
    .amoAmaxn .always 0 true 3 8, .amoAxchg .always 0 true 3 8, .amoAcas .always 0 true 3 8] : List Instr).all (fun i => !i.wellFormed) = true := by
  decide
theorem test_refused_words : ([0x00000000, 0x7F000000, 0x10100000, 0x10C00000, 0x01880000, 0x02000001, 0x30200000] : List Nat).all
    (fun w => decodeTableWord 32 w == none) = true := by decide +kernel

/-! ## The events that come about lead to a next state -/

/-- Whether an instruction or event leads to a next state of which P holds. -/
def gives (i : Instr) (s : State) (P : State → Bool) : Bool := match next (exec i s) with | some u => P u | none => false

/-- The tile of region 0 at (5, 4), next to the user tile, with a change. -/
def beside (f : Tile → Tile) (s : State) : State := s.updTile (tileAt 149 4) fun x => f { x with rgn := some 0, coord := packXY 5 4 }
/-- The packet of `flying` on edge 5, which port 0 of the tile at (5, 4) takes. -/
def onEdge : State :=
  { beside (fun x => { x with conf := { x.conf with ports := [(0, { Port.init with edge := some 5 })], handlers := [(1, 64)] } }) (sending 1) with
    net := [{ flying with edge := some (0, 5), h0 := mkH0 0 20 1 2 0 false 0 0 }] }
/-- A stage whose distributor or range replica has a packet of its next SEQ. -/
def inbox0 (h0 : Word) (x : Stage) : Stage :=
  { x with inbox := [(0, (h0, 0, List.replicate 32 0))], conf := { x.conf with ports := [(0, Port.init)], handlers := [(1, 64)] }, inEdge := 5 }
/-- The edge into the stage. -/
def fed (s : State) : State := s.updRegion 0 fun g => { g with edges := [(5, { Edge.init with dst := .stage 3, len := 3, credits := 1 })] }
/-- An epoch token of a finished task. -/
def out0 : OutTok := ⟨0, packXY 5 4, head2, List.replicate 32 1, none, false, false, false, []⟩

theorem witness_TaskEventsComplete : allOf [
    (let f := { flying with h1 := mkH1 (packXY 5 4) 0 1 0 };
      let s : State := { beside (fun x => { x with fwds := [⟨1, tileAt 150 4, 99⟩] }) world with net := [f] };
      !s.toPort f && decide (s.mode (s.rgnOf f.dst) ≠ 3) && s.oldestFlying 0 f && !s.heldAt f.src f.dst &&
        (s.tile f.dst).fwds.find? (fun e => e.ctx == field f.h1 12 12) == some ⟨1, tileAt 150 4, 99⟩ &&
        gives (.packetArrival 0) s fun u => u.net == [{ f with src := f.dst, dst := tileAt 150 4, fwd := true }]),
    (match onEdge.net[0]? with
      | some f => let s := onEdge; let p := AMap.get Port.init (h1Port f.h1) (s.tile f.dst).conf.ports;
        !s.toPort f && decide (s.mode (s.rgnOf f.dst) ≠ 3) && s.oldestFlying 0 f && (s.tile f.dst).fwds == [] && f.stage == none &&
          decide (h0Kind f.h0 ≠ 7) && p.edge.isSome && !isHole f.h0 &&
          !rejects (s.tile f.dst).conf (p.edge.map fun e => ((s.region (s.rgnOf f.dst)).edge e).len) false (h1Port f.h1) f.h0 f.body &&
          gives (.packetArrival 0) s fun u => u.net == [] && (u.tile f.dst).mbox.mails.any fun m => m.h0 == f.h0 && m.body == f.body
      | none => false),
    (let f := { flying with h0 := mkH0 6 47 0 2 0 false 0 0 }; let s : State := { beside id world with net := [f] };
      h0Kind f.h0 == 6 && gives (.packetArrival 0) s fun u => u.net == [] && (u.tile f.dst).mbox.mails.any fun m => m.h0 == f.h0 && m.h1 == f.h1),
    (let s := mailed mail0; s.freeFor ts && !s.sliceNext tileU && s.choice tileU == some mail0 && !s.yieldsToSteal tileU &&
      s.ticketOk 0 tileU 0 3 && decide (h0Kind head2 ≠ 2) &&
      gives (.taskDispatch ts) s fun u => (u.ts ts).task.isSome && AMap.get 0 1 (u.ts ts).regs.s == head2 &&
        AMap.get 0 2 (u.ts ts).regs.s == 123344),
    (let s := mailed mail0; decide (h0Prio head2 < 40 ∧ 0 < s.waitLevels tileU mail0) &&
      gives (.packetAgeing tileU 0) s fun u => (u.tile tileU).mbox.mails == [{ mail0 with age := 1 }]),
    (let m := { mail0 with begun := true, wait := true }; let s := mailed m; decide (m.yieldAt + 1024 ≤ s.clock tileU) &&
      gives (.yieldReeligible tileU 0) s fun u => (u.tile tileU).mbox.mails == [{ m with wait := false }]),
    (let s := onTs fun a => { a with outs := [out0] };
      s.relClear ts && s.roomFor ts out0 && (s.region 0).translate out0.dst true == .at (tileAt 149 4) &&
      gives (.completionToken ts) s fun u => u.net.any fun f => f.dst == tileAt 149 4 && f.body == out0.body),
    (let s := (sending 0).updEdge 0 5 fun d => { d with returning := [7] };
      gives (.creditReturn 0 5) s fun u => ((u.region 0).edge 5).credits == 1 && ((u.region 0).edge 5).returning == []),
    (let h := mkH0 0 20 1 2 0 false 0 0; let s := fed (stateless (inbox0 h));
      ((s.region 0).stage 3).nextPkt == some (h, 0, List.replicate 32 0) &&
      !rejects ((s.region 0).stage 3).conf (some 3) false 0 h (List.replicate 32 0) &&
      gives (.distributorDeal 0 3 0) s fun u => (u.tile tileU).mbox.mails.any fun m => m.h0 == h && m.kind == .edge),
    (let s := stateless fun x => { x with eosIn := some (0, 0) }; s.outsReady 0 3 0 &&
      gives (.stageEos 0 3) s fun u => ((u.region 0).stage 3).eosOut)] = true := by decide +kernel
theorem witness_StageEventsComplete : allOf [
    (let h := mkH0 0 20 1 2 0 false 0 0; let s := fed (staged (inbox0 h));
      ((s.region 0).stage 2).nextPkt == some (h, 0, List.replicate 32 0) && ((s.region 0).stage 2).tok == none &&
      !rejects ((s.region 0).stage 2).conf (some 3) true 0 h (List.replicate 32 0) &&
      gives (.rangeTokenTake 0 2) s fun u => match ((u.region 0).stage 2).tok with | some k => k.lo == 0 && k.left == k.count | none => false),
    (let s := staged fun x => { x with tok := some token0, replicas := [packXY 4 4, packXY 5 4] }; s.canAsk tileU &&
      gives (.stealRequest tileU) s fun u => ((u.region 0).stage 2).asking.contains (packXY 4 4)),
    (let s := beside id (staged fun x =>
        { x with tok := some token0, replicas := [packXY 4 4, packXY 5 4], asks := [(packXY 5 4, packXY 4 4)], rem := [(packXY 4 4, [0, 1])] });
      !s.splitInFlight tileU && gives (.stealService tileU) s fun u => ((u.region 0).stage 2).asks == [] &&
        AMap.get [] (packXY 4 4) ((u.region 0).stage 2).rem == [0]),
    (let s := twoFields; let d := fieldOf (tileAt 216 4); s.canCross 0 2 d && (s.region 0).donor ((s.region 0).stage 2) d == some (packXY 0 4) &&
      gives (.crossFieldSplit 0 2 d) s fun u => AMap.get [] (packXY 0 4) ((u.region 0).stage 2).rem == [0]),
    (let s := staged fun x => { x with eosIn := some (0, 0) }; s.outsReady 0 2 0 &&
      gives (.rangeStageEos 0 2) s fun u => ((u.region 0).stage 2).eosOut),
    (let s := world.updTile tileU fun x => { x with mbox := { x.mbox with grants := [⟨0, false, (head2, 0, [])⟩] } };
      s.admits tileU (packetLen head2) && gives (.spawnAdmission tileU) s fun u => (u.tile tileU).mbox.grants == []),
    (let s := world.updTile tileU fun x => { x with conf := { x.conf with ports := [(0, { Port.init with sink := some 1, counted := 1, reported := true })] } };
      s.allReported 0 && (s.region 0).tilesOf.all (fun t => (s.tile t).slots.all (fun p => p.2.toWrite == []) &&
        (List.range 4).all fun i => (s.ts (4 * t + i)).eng.journal == []) &&
      gives (.regionCompletion 0) s fun u => (u.region 0).outcome == .completed && (u.region 0).st == .ended),
    (let s := onRegion fun g => { g with cut := { g.cut with phase := 1 }, dorm := (2, 3, 4) };
      gives (.dormancyRound 0) s fun u => (u.region 0).dorm == (0, 0, 0))] = true := by decide +kernel

/-- A pending store of eight bytes to the next tile of the cluster. -/
def store0 : JEntry := ⟨4, 0, sibling, 8, [some 1, some 2, some 3, some 4, some 5, some 6, some 7, some 8], .store, .pending, [], [], 0, sibling, false, false, 0⟩
/-- A pending atomic addition of 1 there, whose old value goes to s3. -/
def atomic0 (reg : Option Reg) : JEntry := { store0 with kind := .atomic ⟨0, true, 0, 1, 0⟩ reg }
/-- The user tile's thread set with one journal entry. -/
def journal1 (e : JEntry) : State := onTs fun a => { a with eng := { a.eng with journal := [e], post := 1 } }
/-- The tile that `sibling` names. -/
def next1 : Nat := siblingTile tileU 1
/-- The same machine with a record for that tile. -/
def neighboured (s : State) : State := s.updTile next1 fun x => { x with rgn := some 0 }
/-- A machine whose user tile has accepted a copy of 64 bytes. -/
def copying : State := onTs fun a => { a with eng := a.eng.accept tileU (copyOf plainCopy 0) }
/-- A request on its way to entry port 0. -/
def toPort0 : State :=
  { onRegion fun g => { g with edges := [(1, Edge.init)] } with
    net := [{ flying with dst := portTile 0, h0 := mkH0 3 20 0 2 0 false 0 0, edge := some (0, 1) }] }

theorem witness_JournalEventsComplete : allOf [
    (let s := neighboured (journal1 store0); s.inOrder ts store0 && s.destOf tileU sibling == .pool next1 64 && !s.heldAt tileU next1 &&
      s.ticketOk 0 tileU 0 0 && s.inPad next1 64 8 && !s.poisoned (poolKey next1 64) 8 && s.canPerform ts 4 false &&
      gives (.remoteStorePerform ts 4) s fun u => u.num (poolKey next1 64) 8 == 0x0807060504030201 &&
        (u.ts ts).eng.journal.all fun x => x.state == .done),
    (let s := neighboured (journal1 { store0 with addr := word (2 ^ 60 + 2 ^ 18 + 2 ^ 17 - 8) }); s.canPerform ts 4 false &&
      gives (.remoteStorePerform ts 4) s fun u => (u.ts ts).eng.journal.all fun x => match x.state with | .refused _ r => !r | _ => false),
    (let s := (neighboured (journal1 (atomic0 none))).putNum (poolKey next1 64) 8 41; decide (s.mode 0 = 0) && s.canPerform ts 4 true &&
      gives (.remoteAtomicPerform ts 4) s fun u => u.num (poolKey next1 64) 8 == 42 &&
        (u.ts ts).eng.journal.all fun x => x.state == .done && x.old == 41),
    (let s := (neighboured (asked .asked)).putNum (poolKey next1 64) 8 41; !s.ownPending ts sibling 8 &&
      gives (.remoteLoadService ts 0) s fun u => match u.flight ts with
        | some g => (AMap.find 0 g.reqs).map LoadReq.reply == some (.data (leBytes 8 41)) | none => false),
    (let s := journal1 { store0 with state := .done }; gives (.journalAck ts 4) s fun u => (u.ts ts).eng.journal == []),
    (let s := journal1 { store0 with state := .refused 6 false }; (s.flight ts).isNone &&
      gives (.journalRefusal ts 4) s fun u => (u.ts ts).stops.fault == some (1, refusalInfo { store0 with state := .refused 6 false } 6 false) &&
        (u.ts ts).eng.journal == []),
    gives (.ldrReply ts 0) (asked (.data (List.replicate 8 0))) (fun u => match u.flight ts with
      | some g => (AMap.find 0 g.reqs).map LoadReq.here == some true | none => false),
    (let s := (journal1 { atomic0 (some (.s 3)) with state := .done, old := 9 }).updTs ts fun a => { a with eng := { a.eng with pend := [(regKey (.s 3), 4)] } };
      gives (.amoReply ts 4) s fun u => AMap.get 0 3 (u.ts ts).regs.s == 9 && (AMap.find (regKey (.s 3)) (u.ts ts).eng.pend).isNone &&
        (u.ts ts).eng.journal == []),
    (let s := journal1 { store0 with kind := .rel, state := .held }; (s.ts ts).afterDone { store0 with kind := .rel, state := .held } &&
      gives (.relUpdatePost ts 4) s fun u => (u.ts ts).eng.journal == [{ store0 with kind := .rel }]),
    (let s := journal1 { atomic0 none with state := .held }; (s.ts ts).afterDone { atomic0 none with state := .held } &&
      gives (.releaseAmoPost ts 4) s fun u => (u.ts ts).eng.journal == [atomic0 none])] = true := by decide +kernel
theorem witness_StreamAndDramEventsComplete : allOf [
    (let s : State := { armed with landings := [⟨tileU, 0x100, 1, false, false, none⟩] }; s.landingTarget tileU 0x100 == 5 && !s.trellised tileU &&
      gives (.landingArrival 0) s fun u => u.landings == [] && u.num (poolKey tileU 0x100 + 8) 8 == 1),
    (let z := { inSlot with ready := [] }; let s := world.updTile tileU fun x => { x with slots := [(0, z)] };
      decide (z.frontier < z.desc.length ∧ 0 < max z.desc.ahead (s.askedGroups z 0)) && s.runnable ts && !s.stilled ts &&
      gives (.streamFetch tileU 0) s fun u => (AMap.find 0 (u.tile tileU).slots).map (fun y => y.ready.length) == some 1),
    (let z := { outSlot with toWrite := [(0, [1])] }; let s := world.updTile tileU fun x => { x with slots := [(1, z)] };
      !(s.fieldRec (fieldOf tileU)).gated && gives (.streamAppendWrite tileU 1) s fun u => (AMap.find 1 (u.tile tileU).slots).map Slot.toWrite == some []),
    (match (copying.ts ts).eng.copies with
      | [c] => c.finished == [] && (copying.pieceNums tileU c).contains 1 && !copying.stilledCopy ts c.id && !copying.pieceHeld tileU c 1 &&
          decide (copying.mode 0 ≠ 3) && (!copying.pieceEnds tileU c 1 || copying.ticketFree 0 tileU 0 5) &&
          gives (.copyPiece ts 0 1) copying fun u => (u.ts ts).eng.copies.all fun x => x.finished.contains 1
      | _ => false),
    (match toPort0.net with
      | [f] => let s := toPort0; s.toPort f && s.oldestFlying 0 f && decide (s.mode (s.rgnOfCtx (field f.h1 12 12)) ≠ 3) && h0Kind f.h0 == 3 &&
          gives (.dramreq 0) s fun u => u.net == [] && u.dreqs.any fun d => d.tile == f.src && d.body == f.body && d.phys == .unwalked
      | _ => false),
    (let s : State := { world with dreqs := [dreq0 .unwalked] }; (dreq0 .unwalked).wellFormed &&
      gives (.translationWalk 0) s fun u => u.dreqs.all fun e => e.phys != .unwalked && e.body == (dreq0 .unwalked).body),
    (let s : State := { world with dreqs := [dreq0 (.at 64)] }; decide (s.mode (dreq0 (.at 64)).rgn ≠ 3) &&
      gives (.dramRequestPerform 0) s fun u => u.dreqs == [] && u.dreps.any fun r => r.tile == tileU && r.addr == (dreq0 .unwalked).addr),
    (let s : State := { world with dreqs := [{ dreq0 .unwalked with body := leBytes 8 (3 * 2 ^ 60 + 64) ++ leBytes 8 (2 ^ 63 - 1) }] };
      s.dreqs.all (fun d => !d.wellFormed) &&
      gives (.dramRequestPerform 0) s fun u => u.dreps.any fun r => r.cause == 4),
    (let s : State := { world with dreps := [⟨tileU, 0, 0, 0, 0, 1, [], 0, false, 0, 0⟩] }; !s.trellised tileU &&
      gives (.dramrep 0) s fun u => u.dreps == [])] = true := by decide +kernel

/-- The user tile's thread set stopped by a fault of serial 7, with a repair packet of an action in its mailbox. -/
def stopped0 (action : Nat) (f : FaultInfo) : State :=
  (mailed (repair0 action)).updTs ts fun a => { a with stops := { a.stops with fault := some (7, f) } }
/-- Whether a repair of an action acts on a stop. -/
def repairs (s : State) (action : Nat) : Bool := match s.repairMail ts action with
  | some m => decide ((s.region (s.rgnOf tileU)).cut.phase = 0) && !s.trellised tileU &&
      (match (s.ts ts).stops.fault with | some q => q.1 == field m.repairWord 0 16 | none => false)
  | none => false
/-- A stateful actor on the user tile, and a spare tile beside it. -/
def movable (s : State) : State := beside id (s.updTile tileU fun x => { x with conf := { x.conf with actor := some .stateful } })
/-- A repair packet that names the tile at (5, 4). -/
def repair4 : Mail := { mail0 with kind := .repair, h0 := mkH0 6 47 0 1 0 false 0 0, body := leBytes 8 (at_ 60 4 4 + at_ 32 10 5 + at_ 42 10 4 + 7) ++ leBytes 8 0 }

theorem witness_MatrixEventsComplete : allOf [
    (let s := record0 (.op (List.replicate 8 none) 12 4 0 96 0); s.anyOp tileU && decide (s.opDue tileU ≤ (s.tile tileU).cycle) &&
      gives (.matrixOp tileU) s fun u => s.opReady ts && (u.ts ts).eng.me == 1 && (u.ts ts).eng.recs == []),
    (let s := record0 (.weight 0 12 0 0 0 0 96 0); (s.headReady ts).isSome && s.poison == [] &&
      gives (.weightLoad ts) s fun u => (u.ts ts).eng.me == 1 && (u.ts ts).eng.recs == [] &&
        (u.ts ts).eng.latch == (List.range 8).flatMap fun j => s.bColumn tileU 12 0 (0 + j * 96) (0 + j * 0) (0 + j * 0)),
    (let s := record0 (.zero 1); s.zeroHead ts == some 1 &&
      gives (.zeroRecord ts) s fun u => (u.tile tileU).acc 1 == List.replicate 64 AccElem.zero && (u.ts ts).eng.me == 1),
    (let s := record0 (.drain 0x400 64 false 0 0 false false false 0 false 0 1); (s.drainHead ts).isSome &&
      gives (.drainRow ts) s fun u => (u.ts ts).eng.recs.map MRec.row == [1]),
    (let s := (record0 (.drain 0x400 64 false 0 0 false false true 0 false 0 1)).updTile tileU fun x =>
        { x with conf := { x.conf with part := word (at_ 0 2 1 + at_ 2 1 1 + at_ 8 5 4) } };
      (match s.epilogueHead tileU, s.freeEpilogue tileU with | some (k, _), some e => k == ts && e == ts + 1 | _, _ => false) &&
      gives (.epilogueDispatch tileU) s fun u => (u.ts (ts + 1)).kindOk == 2 &&
        (u.ts (ts + 1)).task.map Task.epi == some (some (ts, 0, 1)) && AMap.get 0 2 (u.ts (ts + 1)).regs.s == 1)] = true := by decide +kernel
theorem witness_RepairsComplete : allOf [
    (let m := { mail0 with kind := .fault }; let s := (mailed m).updRegion 0 fun g => { g with shedDef := false };
      s.freeFor ts && s.choice tileU == some m && !s.sliceNext tileU &&
      gives (.faultTokenDispatch ts) s fun u => (u.ts ts).task.map Task.h0 == some m.h0),
    (let s := stopped0 0 (FaultInfo.plain .address 3); repairs s 0 && gives (.repairResume ts) s fun u => (u.ts ts).stops.fault == none),
    (let w := at_ 60 4 1 + at_ 53 5 3 + 7; let m := { repair0 0 with body := leBytes 8 w ++ leBytes 8 9 };
      let s := (mailed m).updTs ts fun a => { a with stops := { a.stops with fault := some (7, FaultInfo.plain .address 3) } };
      repairs s 1 && repairReg m.repairWord == .s 3 &&
      gives (.repairResumeWithValue ts) s fun u => (u.ts ts).stops.fault == none && AMap.get 0 3 (u.ts ts).regs.s == 9),
    (let s := { coded with tiles := (mailed { repair0 2 with gone := true }).tiles }.updTs ts fun a => { a with
        stops := { a.stops with fault := some (7, FaultInfo.plain .address 3) } };
      repairs s 2 && (match ((s.dropMail tileU 0).fetchCode tileU (s.ts ts).regs.bpc 8).1 with | .bytes bs => field (word (ofBytes bs)) 53 7 == 0 | _ => false) &&
      gives (.repairSkipBlock ts) s fun u => (u.ts ts).stops.fault == none && (u.ts ts).kindOk == 0 &&
        (u.ts ts).regs.bpc == nextBlock (s.ts ts).regs.bpc 0),
    (let s := stopped0 2 (FaultInfo.plain .trap 3); repairs s 2 && gives (.repairSkipBlock ts) s fun u => (u.ts ts).stops.fault == none),
    (let s := (stopped0 3 (FaultInfo.plain .address 3)).updTs ts fun a => { a with task := some task0, eng := { a.eng with binds := [(1, 2, 3)] } };
      repairs s 3 && !(s.ts ts).ending &&
      gives (.repairKillTask ts) s fun u => (u.ts ts).stops.fault == none && (u.ts ts).eng.binds == []),
    (let s := (movable (mailed repair4)).updTs ts fun a => { a with stops := { a.stops with fault := some (7, FaultInfo.plain .address 3) } };
      repairs s 4 && s.spare 0 (tileAt 149 4) && decide (s.mode 0 = 0) &&
      gives (.repairMigrate ts) s fun u => (u.ts (4 * tileAt 149 4)).stops.fault == none && (u.tile (tileAt 149 4)).conf.actor == some .stateful &&
        (u.tile tileU).conf.actor == none),
    (let s := stopped0 5 (FaultInfo.plain .address 3); repairs s 5 && s.hasRegion 0 &&
      gives (.repairHaltRegion ts) s fun u => (u.region 0).outcome == .failed)] = true := by decide +kernel
theorem witness_FreezeAndSaveEventsComplete : allOf [
    (let s := onRegion fun g => { g with freezes := [⟨3, 0, 0, 0, 0, 0⟩] };
      gives (.frzctlConvert 0 3) s (fun u => (u.region 0).freezes == []) &&
      gives (.frzctlKill 0 3) s fun u => (u.region 0).freezes == [] && (u.region 0).outcome == .failed),
    (world.subdataOk 0 0 && gives (.subdataWrite 0 0) world fun u => AMap.get 0 0 (u.region 0).subst == 0),
    (!world.subdataOk 0 (-1) && gives (.subdataWrite 0 (-1)) world fun u => u == world),
    (!csrWrites .device 0x043 && gives (.csrWrite tileU 0x043 5) world fun u => u == world),
    gives (.csrWrite tileU 0x041 0x1FFFF) world (fun u => csrOf (u.region 0).csr 0x041 == 0xFFFF),
    (let s := world.updTile tileU fun x => { x with stopping := true }; (List.range 4).all (fun i => (s.ts (ts + i)).eng.pend == []) &&
      gives (.tileStopped tileU) s fun u => (u.tile tileU).stopped && (u.tile tileU).colour && (u.ts ts).stops.cut),
    (let s := onRegion fun g => { g with cut := { g.cut with phase := 1 }, geom := word (at_ 0 8 36) };
      (s.region 0).tilesOf.all (fun t => (s.tile t).stopped) && (s.colourSums 0 false).1 == (s.colourSums 0 false).2 &&
      gives (.cutClose 0) s fun u => (u.region 0).cut.phase == 2 && (u.region 0).colour),
    (let s := movable world; s.canMigrate tileU (tileAt 149 4) &&
      gives (.liveMigration tileU (tileAt 149 4)) s fun u => (u.tile (tileAt 149 4)).conf.actor == some .stateful &&
        (u.tile tileU).conf.actor == none && (u.tile tileU).fwds == [⟨1, tileAt 149 4, 2 ^ 20⟩]),
    (let s := world.updTile tileU fun x => { x with fwds := [⟨1, 0, 0⟩] }; gives (.forwardingEntryEnd tileU) s fun u => (u.tile tileU).fwds == []),
    ((saving0 true 0).canSave 0 && gives (.contextSave 0) (saving0 true 0) fun u => (u.region 0).saving == none),
    (let s := ({ serving 0 with regions := (saving0 true 2).regions }).updRegion 0 fun g => { g with
        geom := word (at_ 0 8 36), saving := some ⟨true, 0x100000, none, false, false, some (3, 0)⟩ };
      s.canSave 0 && gives (.contextSave 0) s fun u => !u.hasRegion 0),
    (let s := ({ serving 0 with regions := (saving0 false 0).regions }).updRegion 0 fun g => { g with
        geom := word (at_ 0 8 36), saving := some ⟨false, 0x100000, none, false, false, some (3, 0)⟩ };
      s.canRestore 0 && !s.resumable 0x100000 (s.region 0) && gives (.contextRestore 0) s fun u => !u.hasRegion 0),
    ((saving0 false 0).canRestore 0 && gives (.contextRestore 0) (saving0 false 0) fun u => (u.region 0).saving == none),
    (world.canWatch 0 && gives (.watchdogExpiry 0) world fun u => (u.region 0).outcome == .failed),
    (let s := (saving0 true 2).updRegion 0 fun g => { g with geom := word (at_ 0 8 36) }; s.canExpire 0 &&
      gives (.saveDeadlineExpiry 0) s fun u => (u.region 0).saving == none && (u.region 0).st == .ended && (u.region 0).outcome == .failed),
    (errorPlace false 64 && gives (.uncorrectableError false 64) world fun u => u.poison.contains 64),
    (errorPlace true ts && gives (.uncorrectableError true ts) world fun u => match (u.ts ts).stops.fault with
      | some q => q.2.cause == .dataError && q.2.index == 255 | none => false)] = true := by decide +kernel

/-- The module after bring-up with a command for a context at the head of queue 3, whose completions go to host address 0x800. -/
def ordered (op ctx : Nat) (args : List Nat) : State :=
  args.zipIdx.foldl (fun s p => s.putNum (hostKey (16 + 8 * p.2)) 8 p.1)
    (((serving op).updQueue 3 fun z => { z with qcfg := word (1 + at_ 4 4 4 + at_ 32 12 15), cqbase := 0x800 }).putNum (hostKey 8) 2 ctx)
/-- The same with the region in a state. -/
def orderedAt (op : Nat) (args : List Nat) (f : Region → Region) : State := (ordered op 1 args).updRegion 0 f
/-- Whether the next command of queue 3 is one of an opcode that the front end carries out. -/
def begun (s : State) (op : Nat) : Bool :=
  s.cmdAt 3 op && (s.queue 3).grants 3 (s.entry 3).ctx && (s.entry 3).pad == 0 && decide ((s.entry 3).ctx < 4096) && !s.links.boot.minimal
/-- Whether the queue has gone on. -/
def moved (u : State) : Bool := (u.queue 3).head == 1 && !(u.queue 3).busy
/-- A seed image with one entry port, number 5, at host address 0x1000 (R345, R346, R348). -/
def imaged (s : State) : State :=
  ((((s.putNum (hostKey 0x1000) 4 0x44454553).putNum (hostKey 0x1004) 2 1).putNum (hostKey 0x1006) 2 1).putNum (hostKey 0x1008) 8 152
    |>.putNum (hostKey 0x1010) 48 0x56535912d1df61142e18eb27a81848d5dae2ac0bce358af1df1b3acf4be311e3d5e9d45eb6c633fdad6f8b9a072a65ad)
    |>.putNum (hostKey 0x1080) 24 0x500000000000000008020000000000000000000090
/-- An image with a program of a record, an empty configuration 0 and an empty delta 0. -/
def image0 (r : Nat × Nat × Nat) : Image := ⟨[(0, ⟨[], [], [], 0, 3 * 2 ^ 60⟩)], [0], [], [(0, [r])], [(0, ([], []))], []⟩
/-- The region with its sequence at a record of `image0`. -/
def atRecord (r : Nat × Nat × Nat) (ran : Bool) : State :=
  (serving 0).updRegion 0 fun g => { g with image := some (image0 r), seqOn := true, ran := ran, outcome := if ran then .completed else .pending }
/-- A saved context 7 of 2 by 2 clusters in the area at 0x100000. -/
def savedArea0 : Saved := ⟨true, { Region.init with ctx := 7, geom := word (at_ 0 8 40 + at_ 16 8 2 + at_ 24 8 2), st := .saved }, []⟩

theorem witness_CommandsComplete : allOf [
    (let s := ordered 1 5 [at_ 0 8 40 + at_ 16 8 2 + at_ 24 8 2, 3]; begun s 1 && s.rgnFor 5 == none && s.savedArea 5 == none &&
      geomPresent ((s.entry 3).arg 0) && s.geomFree ((s.entry 3).arg 0) && s.freeNumber == some 1 &&
      s.deadFit { Region.init with ctx := 5, geom := (s.entry 3).arg 0, csr := csrPut [] 0x047 3 } &&
      gives (.cmdCreate 3) s fun u => moved u && (u.region 1).ctx == 5 && (u.region 1).geom == (s.entry 3).arg 0 && (u.region 1).st == .empty),
    (let s := imaged (orderedAt 2 [8 * 2 ^ 60 + 0x1000] fun g => { g with st := .empty }); begun s 2 &&
      (match ((s.imageBytes 0 ((s.entry 3).arg 0) 0x80).bind fun h => s.imageBytes 0 ((s.entry 3).arg 0) (numAt h 8 8)).bind readImage with
        | some i => i.ports == [5] && i.ok (s.region 0) s.map.deadPorts && s.portsFree 0 i.ports
        | none => false) &&
      gives (.cmdLoadimg 3) s fun u => moved u && (u.region 0).image.isSome && (u.region 0).st == .loaded),
    (let s := orderedAt 3 [0, 0] fun g => { g with st := .loaded, image := some (image0 (0, 0, 0)) }; begun s 3 && powerOk ((s.entry 3).arg 1) &&
      gives (.cmdLaunch 3) s fun u => moved u && (u.region 0).seqOn && (u.region 0).progIx == 0),
    (let s := orderedAt 4 [0] fun g => { g with image := some (image0 (0, 0, 0)) }; begun s 4 && s.deltaOf 3 == none && s.deltaOk 0 ([], []) && (s.region 0).movesDone [] &&
      gives (.cmdDelta 3) s fun u => (u.queue 3).busy && (u.region 0).delta == some ⟨[], [], some (3, 0), true⟩),
    (let s := orderedAt 5 [0x100000] id; begun s 5 && physOk 0x100000 (sectionAt 0 (s.region 0).sections (s.region 0).sections) &&
      gives (.cmdPreempt 3) s fun u => (u.queue 3).busy && (u.region 0).cut.phase == 1 && (u.region 0).cut.why == 1 &&
        (u.region 0).saving == some ⟨true, 0x100000, none, false, false, some (3, 0)⟩),
    (let v : SaveWork := ⟨true, 0, some (ts, 0x100), false, false, none⟩; let s := orderedAt 5 [0x100000] fun g => { g with saving := some v };
      begun s 5 && gives (.cmdPreempt 3) s fun u => (u.region 0).saving == some v &&
        (u.region 0).saveNext == [⟨true, 0x100000, none, false, false, some (3, 0)⟩]),
    (let s := orderedAt 6 [0] fun g => { g with seqOn := true, hold := true }; begun s 6 &&
      gives (.cmdResume 3) s fun u => moved u && !(u.region 0).hold && (u.region 0).seqPos == 1),
    (let s := { ordered 6 7 [0x100000] with saves := [(0x100000, savedArea0)] }; begun s 6 && s.rgnFor 7 == none &&
      s.geomFree savedArea0.region.geom && s.deadFit savedArea0.region && s.portsFree 256 [] && s.freeNumber == some 1 &&
      gives (.cmdResume 3) s fun u => (u.queue 3).busy && (u.region 1).ctx == 7 &&
        (u.region 1).saving == some ⟨false, 0x100000, none, false, false, some (3, 0)⟩),
    (let s := orderedAt 7 [] id; begun s 7 && s.savedArea 1 == none &&
      gives (.cmdKill 3) s fun u => (u.region 0).st == .ended && (u.region 0).outcome == .failed && !(u.region 0).seqOn),
    (let s := { ordered 7 7 [] with saves := [(0x100000, savedArea0)] }; begun s 7 && s.savedArea 7 == some 0x100000 &&
      gives (.cmdKill 3) s fun u => moved u && u.saves.any fun p => p.2.region.st == .ended && p.2.region.outcome == .failed),
    (let z := { savedArea0 with region := { savedArea0.region with st := .ended } };
      let s := { ordered 10 7 [] with saves := [(0x100000, z)] }; begun s 10 && s.savedArea 7 == some 0x100000 &&
      gives (.cmdDestroy 3) s fun u => moved u && u.saves == []),
    (let s := ordered 8 1 [0x15]; begun s 8 && powerOk ((s.entry 3).arg 0) && gives (.cmdGrant 3) s fun u => moved u && (u.region 0).granted == 0x15),
    (let s := ordered 9 1 []; begun s 9 && gives (.cmdQuery 3) s fun u => moved u && u.byte (hostKey 0x804) == 0 &&
      u.num (hostKey 0x808) 8 == at_ 0 8 (RState.code .running)),
    (let s := orderedAt 10 [] fun g => { g with st := .ended }; begun s 10 &&
      gives (.cmdDestroy 3) s fun u => moved u && !u.hasRegion 0)] = true := by decide +kernel
theorem witness_SequencerEventsComplete : allOf [
    gives (.doorbellWrite 3 0x50007) (serving 0) (fun u => (u.queue 3).tail == 7 && (u.queue 3).chead == 5),
    gives (.qcfgDisable 3) (serving 0) (fun u => !bitAt (u.queue 3).qcfg 0 && (u.queue 3).tail == 0),
    (let val : Word := word (1 + at_ 4 4 4); gives (.qcfgEnable 5 val 0x40 0x10) (serving 0) fun u => bitAt (u.queue 5).qcfg 0 && (u.queue 5).sqbase == 0x40),
    ((atRecord (0, 0, 0) true).seqAt 0 0 && (atRecord (0, 0, 0) true).launchDone 0 && gives (.seqEnd 0) (atRecord (0, 0, 0) true) fun u => !(u.region 0).seqOn),
    (let s := atRecord (1, 0, 0) false; s.seqAt 0 1 && !(s.region 0).ran &&
      gives (.seqRun 0) s fun u => (u.region 0).st == .running && (u.region 0).ran && (u.region 0).seqPos == 1),
    (let s := atRecord (2, 0, 0) true; s.seqAt 0 2 && gives (.seqAwait 0) s fun u => (u.region 0).seqPos == 1),
    (let s := atRecord (3, 0, 0) true; s.seqAt 0 3 && s.launchDone 0 && s.deltaOk 0 ([], []) && (s.region 0).movesDone [] && gives (.seqApply 0) s fun u => (u.region 0).delta == some ⟨[], [], none, true⟩),
    (let s := atRecord (4, 0, 9) true; s.seqAt 0 4 && gives (.seqBranch 0) s fun u =>
      (u.region 0).seqPos == if (s.region 0).cond 0 then 9 else 1),
    (let s := atRecord (5, 0, 0) true; s.seqAt 0 5 && gives (.seqHold 0) s fun u => (u.region 0).hold),
    (let s := onRegion fun g => { g with csr := csrPut g.csr 0x040 0 }; gives (.transplanterInterval 0) s fun u => (u.region 0).interval == 1),
    gives (.leaseRenewal [0, 7]) (serving 0) (fun u => !(u.fieldRec 7).missed && (u.fieldRec 8).missed),
    (let s := (serving 0).updLinks fun l => { l with lease := ⟨some 0, 0, false⟩ }; s.successor == some 1 &&
      gives (.leaseLapse 1) s fun u => u.links.lease.lead == some 1 && u.links.lease.acting)] = true := by decide +kernel

/-- The number of the user tile's field and cluster. -/
def fld0 : Nat := fieldOf tileU
/-- See `fld0`. -/
def clu0 : Nat := clusterOf tileU
/-- Replay of an event log: MODE 2. -/
def replaying (f : Region → Region) : State := onRegion fun g => f { g with modeOn := 2 }

theorem witness_PowerEventsComplete : allOf [
    gives (.railStep fld0) hot (fun u => field (csrOf (u.fieldRec fld0).csr 0x200) 0 6 == field (csrOf (hot.fieldRec fld0).csr 0x200) 0 6 + 1),
    (let s := hot.updField fld0 fun f => { f with moving := some 0 };
      gives (.railStep fld0) s fun u => field (csrOf (u.fieldRec fld0).csr 0x200) 0 6 == field (csrOf (s.fieldRec fld0).csr 0x200) 0 6 - 1),
    (let u := world.safeUpdate 83 0; field (csrOf (u.fieldRec 83).csr 0x200) 8 6 == 0 &&
      field (csrOf (u.fieldRec 83).csr 0x200) 16 6 == uvoffFor (csrOf (world.fieldRec 83).csr 0x207) 0 (field (csrOf (world.fieldRec 83).csr 0x200) 16 6)),
    (let s := world.updField 5 fun f => { f with csr := csrPut (csrPut f.csr 0x207 (word (1 + at_ 16 16 2))) 0x200 (word (at_ 16 6 4)), errs := 3 };
      gives (.undervoltWindow 5) s fun u => field (csrOf (u.fieldRec 5).csr 0x200) 16 6 == 3 && (u.fieldRec 5).errs == 0 && (u.fieldRec 5).noRise == 100),
    gives (.tempUpdate clu0 2000) world (fun u => csrOf (u.cluster clu0).csr 0x205 == 2000),
    (hot.clusters.any (fun p => fieldOfCluster p.1 == fld0 && decide (2000 ≤ p.2.temp)) && gives (.thermalGate fld0) hot fun u => (u.fieldRec fld0).gated),
    gives (.thermalRelease 5) (world.updField 5 fun f => { f with gated := true }) (fun u => !(u.fieldRec 5).gated),
    gives (.coolantInletLimit 56) world (fun u => u.links.inlet == 56),
    (let s := (onRegion fun g => { g with csr := csrPut g.csr 0x230 0x1330D01 }).updLinks fun l => { l with colls := [⟨0, 0, 2, 0, 0, 0, [], [(1, 8)]⟩] };
      gives (.slackInterval 0) s fun u => field (csrOf (u.region 0).csr 0x231) 0 8 == 32),
    (let s := world.updTile tileU fun x => { x with meters := [(1, ⟨40000, false⟩)] };
      gives (.energyHarvest 0) s fun u => (AMap.get ⟨0, false⟩ 1 (u.tile tileU).meters).units == 8000),
    (let s := linked.updLinks fun l => { l with bills := [(4096 + 3, 40000)] }; (s.boderPort 7).up && (s.boderPort 7).peer == 1 &&
      gives .billbackHarvest s fun u => u.links.outbox.length == linked.links.outbox.length + 1 && u.links.bills.all fun p => decide (p.2 < 16000)),
    ((world.region 0).ctx == 1 && gives (.billbackReceive 1 5) world fun u => csrOf (u.region 0).csr 0x211 == 5 && csrOf (u.region 0).csr 0x212 == 5),
    gives (.correctableError 83) world (fun u => (u.fieldRec 83).errs == 0 && csrOf (u.fieldRec 83).csr 0x206 == 1),
    gives (.correctableError 83) (world.updField 83 fun f => { f with csr := csrPut f.csr 0x207 1 }) (fun u => (u.fieldRec 83).errs == 1),
    (isTile tileU && gives (.tileCycle tileU) world fun u => (u.tile tileU).cycle == 1)] = true := by decide +kernel
theorem witness_SafeUpdate : ∃ code, 83 < 84 ∧ code = world.safeCode 83 := ⟨_, by decide, rfl⟩
theorem witness_DebugEventsComplete : allOf [
    (let s := { ready world .null .null .null .null with focus := ts }; clusterOk clu0 &&
      gives (.trlctlHalt clu0) s fun u => (u.cluster clu0).halting == some 1 && (clusterTss clu0).all fun k => (u.flight k).isNone && (u.ts k).stops.trellis),
    (let s := onCluster fun c => { c with csr := csrPut c.csr 0x302 1 }; gives (.crossTrigger clu0) s fun u => (u.cluster clu0).halting == some 2),
    (let s := onCluster fun c => { c with halting := some 1 };
      gives (.trellisHalted clu0) s fun u => (u.cluster clu0).halted && (u.cluster clu0).reason == 1 && (u.cluster clu0).halting == none),
    (let s := onCluster fun c => { c with halted := true, reason := 1 };
      gives (.trlctlResume clu0) s fun u => !(u.cluster clu0).halted && (u.cluster clu0).reason == 0),
    (let s := onCluster fun c => { c with halted := true }; let v := word (2 ^ 6); (s.ts (stepTs clu0 v)).stops.fault == none &&
      gives (.stepGo clu0 v) s fun u => (u.cluster clu0).step == some (stepTs clu0 v) && !(u.ts (stepTs clu0 v)).stops.trellis),
    (let s := onCluster fun c => { c with halted := true, step := some ts, stepped := true }; s.drained ts &&
      gives (.stepDone clu0) s fun u => (u.cluster clu0).step == none && (u.cluster clu0).reason == 4),
    gives (.traceSessionOpen 0 0) world (fun u => bitAt (csrOf (u.region 0).csr 0x310) 0 && csrOf (u.region 0).csr 0x313 == 0),
    (let s := onRegion fun g => { g with csr := csrPut g.csr 0x310 1 }; gives (.traceSessionEnd 0 5) s fun u => !bitAt (csrOf (u.region 0).csr 0x310) 0),
    gives (.rootTracerGo 0 1) world (fun u => decide (field (csrOf (u.region 0).csr 0x322) 1 5 ≤ 16))] = true := by decide +kernel
theorem witness_RoundsComplete : allOf [
    (let s := onRegion fun g => { g with modeOn := 3 }; decide (s.mode 0 = 3) && (s.inTurn 0).all fun k => s.doneRound k),
    (let s := onRegion fun g => { g with modeOn := 3, geom := word (at_ 0 8 36) }; (s.inTurn 0).all (fun k => s.doneRound k) &&
      gives (.roundClose 0) s fun u => !(u.region 0).closing)] = true := by decide +kernel
theorem witness_TicketWait : (let s := replaying fun g => { g with order := 1 };
    decide (s.mode (s.rgnOf (tileOf ts)) = 2) && !s.diverges ts 3 && gives (.replayTicketWait ts 3) s fun u => u == s) = true := by decide +kernel
/-- A log whose entry 0 gives the thread set a chunk of no block and an event code, while a block of it has ended. -/
def overLong (m : Fin 16) : State :=
  (replaying fun g => { g with chunk := [(ts, 1)], csr := csrPut g.csr 0x332 10 }).putNum 8 8 (packXY 4 4 + 2 ^ 22 * m.val)
/-- The part of a log entry that names the thread set (R427); the event codes above it are not fixed by the spec. -/
theorem chunkWord_mod (co n kind len : Nat) : chunkWord co n kind len % 2 ^ 22 = at_ 0 10 (cx co) + at_ 10 10 (cy co) + at_ 20 2 n := by
  simp only [chunkWord, at_]
  omega
/-- A chunk is longer than the log has it when the next entry is an interaction point of its thread set with a smaller length
(R428). -/
theorem chunkOver_of (s : State) (k n : Nat) (hm : s.mode (s.rgnOf (tileOf k)) = 2)
    (he : 2 ^ field (csrOf (s.region (s.rgnOf (tileOf k))).csr 0x332) 0 5 = n + 1)
    (h1 : s.num (s.logAddr (s.rgnOf (tileOf k)) (s.region (s.rgnOf (tileOf k))).order) 8 = (s.region (s.rgnOf (tileOf k))).order)
    (hc : chunkEntry (s.logged (s.rgnOf (tileOf k)) (s.region (s.rgnOf (tileOf k))).order) = true)
    (h2 : s.logged (s.rgnOf (tileOf k)) (s.region (s.rgnOf (tileOf k))).order % 2 ^ 22 =
      at_ 0 10 (cx (s.tile (tileOf k)).coord) + at_ 10 10 (cy (s.tile (tileOf k)).coord) + at_ 20 2 (tsNum k))
    (h3 : s.logged (s.rgnOf (tileOf k)) (s.region (s.rgnOf (tileOf k))).order / 2 ^ 26 % 2 ^ 32 <
      AMap.get 0 k (s.region (s.rgnOf (tileOf k))).chunk) : s.chunkOver k = true := by
  unfold State.chunkOver
  simp only [hm, he, decide_true, Bool.true_and]
  rw [State.chunkLimit]
  simp only [chunkWord_mod, h1, h2, hc, ne_eq, not_true_eq_false, if_false, if_true, and_self, h3, decide_true]
theorem overLong_meets : ∀ m : Fin 16,
    let s := overLong m; let r := s.rgnOf (tileOf ts); let w := s.logged r (s.region r).order
    s.mode r = 2 ∧ 2 ^ field (csrOf (s.region r).csr 0x332) 0 5 = 1024 ∧ s.num (s.logAddr r (s.region r).order) 8 = (s.region r).order ∧
      w / 2 ^ 22 % 16 = m.val ∧ w % 2 ^ 22 = at_ 0 10 (cx (s.tile (tileOf ts)).coord) + at_ 10 10 (cy (s.tile (tileOf ts)).coord) + at_ 20 2 (tsNum ts) ∧
      w / 2 ^ 26 % 2 ^ 32 < AMap.get 0 ts (s.region r).chunk ∧ s.hasRegion r = true := by decide +kernel
theorem witness_TicketDiverges : ∃ m, (overLong m).mode ((overLong m).rgnOf (tileOf ts)) = 2 ∧ (overLong m).diverges ts 3 = true ∧
    (overLong m).hasRegion ((overLong m).rgnOf (tileOf ts)) = true := by
  refine ⟨⟨Config.eventKind 3 % 16, Nat.mod_lt _ (by decide)⟩, ?_⟩
  obtain ⟨hm, he, h1, hw, h2, h3, hr⟩ := overLong_meets ⟨Config.eventKind 3 % 16, Nat.mod_lt _ (by decide)⟩
  refine ⟨hm, ?_, hr⟩
  rw [State.diverges, chunkOver_of _ ts 1023 hm he h1 ?_ h2 h3, Bool.true_or]
  simp only [chunkEntry, List.any_eq_true, List.mem_range]
  exact ⟨3, by decide, by simpa [endsChunk] using hw⟩
theorem witness_LinkEventsComplete : allOf [
    (let s := (linked.updLinks fun l => { l with hdm := [(0, true)] }).putNum 0x40 8 41; match s.hdmAddr 1 0x40 with
      | some p => (s.cxl 1).up && s.hostVisible 1 0x40 8 &&
        gives (.cxlMemRead 1 0x40 8) s (fun u => u.links.answers == [if s.poisoned p 8 then [1] else 0 :: s.bytes p 8]) &&
        gives (.cxlMemWrite 1 0x40 [1, 2]) s fun u => u.bytes p 2 == [1, 2]
      | none => false),
    gives (.cxlPortDown 1) linked (fun u => !(u.cxl 1).up && (u.cxl 0).up),
    (let q : RemoteReq := ⟨1, 2, 0, 0x40, 8, [], 0, 0, 0, 0, 0⟩;
      gives (.boderFlitReceive 7 0 true (some q)) linked fun u => u.links.remotes == linked.links.remotes ++ [q] && (u.boderPort 7).expect == 1),
    gives (.boderFlitReceive 7 0 false none) linked (fun u => (u.boderPort 7).replay && u.links.remotes == linked.links.remotes),
    gives (.boderRemoteRequest 0) linked (fun u => u.links.remotes == [] && match u.links.outbox.getLast? with
      | some o => o.target == 1 && o.tag == 0 | none => false),
    gives (.boderPortFailure 7) linked (fun u => !(u.boderPort 7).up && u.links.outbox.length == linked.links.outbox.length),
    gives .telem linked (fun u => u.links.answers.length == 1), gives .bootrec linked (fun u => u.links.answers == [linked.links.boot.bytes]),
    gives (.rechar 5) linked (fun u => !bitAt (csrOf (u.fieldRec 5).csr 0x207) 1 && u.links.answers.length == 1),
    gives (.coll (.declare 4 64 2 0)) linked (fun u => u.links.colls == [⟨4, 64, 2, 0, 0, linked.portClock 0, [], []⟩]),
    gives (.coll (.pair 9 1 2 3)) linked (fun u => AMap.find 9 u.links.pairing == some (1, 2, 3)),
    gives (.reset true) linked (fun u => u.links.boot.step == 1 && u.links.boot.starts == 1 && u.regions == []),
    gives .powerOnReset linked (fun u => u.links.boot.step == 1 && u.links.boot.starts == 1 && u.tss == []),
    (let s := world.updBoot fun b => { b with step := 3 }; gives (.bringupStepTimeout 3) s (fun u => u.links.boot.fails == 1 && u.links.boot.step == 1) &&
      gives .startTimeout s fun u => u.links.boot.fails == 1 && AMap.find 0 u.links.boot.entries == some (0x0B, 3, 255, 0, 0)),
    (let s := world.updBoot fun b => { b with step := 7 }; gives (.bringupStepTimeout 7) s fun u => u.links.boot.step == 8 && u.links.boot.fails == 0),
    gives .leadStopsActing linked (fun u => !u.links.lease.acting && u.links.lease.lead == some 0)] = true := by decide +kernel
/-- The management port with its SPDM exchange so far. -/
def spdm0 (n : Nat) : State := linked.updLinks fun l => { l with ports := l.ports.map fun h => { h with spdm := n } }
theorem witness_SpdmComplete : allOf [
    gives (.getVersion 0) (spdm0 0) (fun u => (u.responder 0).spdm == 1), gives (.getCapabilities 0) (spdm0 1) (fun u => (u.responder 0).spdm == 2),
    gives (.negotiateAlgorithms 0) (spdm0 2) (fun u => (u.responder 0).spdm == 3 && (u.responder 0).algs),
    gives (.getDigests 0) (spdm0 3) (fun u => u.responder 0 == (spdm0 3).responder 0 && u.links.answers.length == 1),
    gives (.getCertificate 0 0) (spdm0 3) (fun u => u.links.answers.length == 1), gives (.challenge 0 0) (spdm0 3) (fun u => u.links.answers.length == 1),
    gives (.getMeasurements 0 4) (spdm0 3) (fun u => u.links.answers.length == 1), gives (.keyExchange 0) (spdm0 3) (fun u => (u.responder 0).spdm == 4),
    gives (.finish 0) (spdm0 4) (fun u => (u.responder 0).spdm == 5 && (u.responder 0).session)] = true := by decide +kernel

/-! ## The commit of each effect -/

/-- A block on the thread set in focus whose only other effect is e, with the exit of `settled`. -/
def solo (s : State) (e : Effect) : State := edited (ready s .null .null .null .null) fun f => { f with
  stat := [(0, .fired)], effs := [(2, e), (200, .exit .goto (word (3 * 2 ^ 60 + 0x200)) 7)] }
/-- A block whose only effect is an exit of a kind. -/
def leaving (s : State) (kd : ExitKind) : State := edited (ready s .null .null .null .null) fun f => { f with
  stat := [(0, .fired)], effs := [(200, .exit kd 0 7)] }
/-- Whether the block of a thread set can commit by an exit of a kind, as the hypothesis `Commits` says. -/
def commitsBy (s : State) (kd : ExitKind) (dest : Word) : Bool := match s.flight s.focus with
  | some f => s.canCommit s.focus && s.verdict s.focus f == .commit 200 kd dest 7 && s.mode (s.rgnOf (tileOf s.focus)) == 0 &&
      !bitAt (csrOf (s.region (s.rgnOf (tileOf s.focus))).csr 0x310) 0 &&
      s.tss.all fun q => q.2.stops.pendingFaults == [] && q.2.eng.journal.all fun e => match e.state with
        | .withheld | .refused _ true => false | _ => true
  | none => false
/-- Whether such a block commits and P holds then. -/
def ends (s : State) (kd : ExitKind) (dest : Word) (P : State → Bool) : Bool :=
  commitsBy s kd dest && gives (.blockCommit s.focus) s fun u => (u.flight s.focus).isNone && P u
/-- The same for a block with one effect beside its jump. -/
def alone (s : State) (e : Effect) (P : State → Bool) : Bool := ends (solo s e) .goto (word (3 * 2 ^ 60 + 0x200)) P
/-- A slot of the user tile. -/
def slotU (u : State) (n : Nat) : Option Slot := AMap.find n (u.tile tileU).slots
/-- The state of which a slot is. -/
def slotIs (u : State) (n : Nat) (P : Slot → Bool) : Bool := match slotU u n with | some z => P z | none => false
/-- A machine in which the thread set in focus holds two bindings, and one with the output stream at its end. -/
def bound : State := onTs fun a => { a with eng := { a.eng with binds := [(0x100, sibling, 64), (0x108, sibling, 64)] } }
/-- See `bound`. -/
def written : State := world.updTile tileU fun x => { x with slots := [(1, { outSlot with pos := 8 })] }
/-- A record that clears accumulator tile 1. -/
def zero1 : MRec := ⟨1, 0, 0, 0, .zero 1, false, 0, 0, none, false, false, [0, 0, 0, 0]⟩

theorem witness_CommitBindings : allOf [
    alone world (.bindE 0x100 sibling 64) fun u => (u.ts ts).eng.binds == [(0x100, sibling, 64)],
    alone bound (.bindE 0x100 sibling 64) fun u => (u.ts ts).eng.binds == (bound.ts ts).eng.binds,
    alone bound (.unbindE 0x100 sibling) fun u => (u.ts ts).eng.binds == [(0x108, sibling, 64)],
    alone world (.sbind 3 inSlot.desc) fun u => slotIs u 3 fun z => z.ts == ts && z.desc == inSlot.desc && z.pos == 0 && !z.ended,
    (slotU streaming 1).map Slot.toWrite == some [] && alone streaming (.sunbind 1) fun u => (slotU u 1).isNone && (slotU u 0).isSome,
    alone streaming (.sskip 0 5) fun u => slotIs u 0 fun z => z.pos == 5 && !z.ended,
    alone streaming (.sskip 0 8) fun u => slotIs u 0 fun z => z.pos == 8 && z.ended,
    alone streaming (.sflush 0) fun u => slotIs u 0 fun z => z.pos == 0 && z.ready == [],
    alone streaming (.popped 0 1) fun u => slotIs u 0 fun z => z.pos == 8,
    regSlot (.v 25) == some 1 && alone streaming (.wr (.v 25) (.vector vec8 0)) fun u => slotIs u 1 fun z =>
      z.pos == 8 && z.toWrite.map Prod.fst == List.range 8,
    alone written (.wr (.v 25) (.vector vec8 0)) fun u => slotIs u 1 fun z => z.pos == 8 && z.toWrite == [] && z.xovr && z.ended,
    alone streaming (.fence 0 0 0) fun u => slotIs u 0 fun z => z.ready == [] && z.line == [],
    alone world (.copy (copyOf plainCopy 0)) fun u => (u.ts ts).eng.copies.map (fun c => (c.desc, c.batch, c.finished)) == [(copyOf plainCopy 0, none, [])],
    alone copying .cseal fun u => (u.ts ts).eng.sealed == 1 && (u.ts ts).eng.copies.map Copy.batch == [some 1]] = true := by decide +kernel
theorem witness_CommitUnits : allOf [
    (match (solo world (.mrec zero1)).flight ts with | some f => (solo world (.mrec zero1)).recordsStand ts f | none => false) &&
      alone world (.mrec zero1) fun u => (u.ts ts).eng.recs == [zero1] && (u.ts ts).eng.issued == 1 && AMap.find 1 (u.tile tileU).mx.owner == some 0,
    alone ((mailed { mail0 with taken := true }).updTs ts fun a => { a with task := some { task0 with held := true } }) .mbpop fun u =>
      (u.ts ts).task.map Task.held == some false && (u.tile tileU).mbox.mails.any fun m => m.pos == 0 && m.gone,
    alone world (.mbhw (word (at_ 0 6 9 + at_ 7 17 0x1000 + at_ 24 15 64))) fun u => (u.tile tileU).mbox.hwm == 9 &&
      (u.tile tileU).mbox.spBase == 0x1000 && (u.tile tileU).mbox.spSize == 64,
    (above false).level tileS != .user && alone (above false) (.csrw 0x041 0x1FFFF) fun u =>
      csrOf (u.region 0).csr 0x041 == if csrWrites .supervisor 0x041 then 0xFFFF else 0xA020,
    !csrWrites .supervisor 0x00D && alone (above false) (.csrw 0x00D 5) fun u => u.regions == (above false).regions && u.fields == (above false).fields,
    alone { onTs (fun a => { a with stops := { a.stops with halted := true } }) with focus := 4 * tileS } (.wake ts) fun u =>
      !(u.ts ts).stops.halted,
    (above true).rgnOfCtx 1 == 0 && alone (above true) (.ctx true 1 0x100000 0x100) fun u =>
      (u.region 0).saving == some ⟨true, 0x100000, some (518403, 0x100), false, false, none⟩,
    alone ((above true).updRegion 0 fun g => { g with saving := some ⟨true, 0, none, false, false, none⟩ }) (.ctx false 1 0x100000 0x100) fun u =>
      (u.region 0).saveNext == [⟨false, 0x100000, some (518403, 0x100), false, false, none⟩],
    alone (above true) (.slotw (word tileU) 5) fun u => if (world.tile tileU).mx.slotAt == none then (u.tile tileU).mx.table == 5
      else (u.tile tileU).mx.newTable == some 5,
    alone (above false) (.pwrset 9) fun u => (u.region 0).request == 9,
    alone (onCluster fun c => { c with csr := csrPut c.csr 0x300 8 }) (.bkpt 7) fun u => (u.cluster (clusterOf tileU)).halting == some 3 &&
      (u.cluster (clusterOf tileU)).code == 7,
    !bitAt (csrOf (world.cluster (clusterOf tileU)).csr 0x300) 3 && alone world (.bkpt 7) fun u => (u.cluster (clusterOf tileU)).halting == none,
    alone world (.pmark 9) fun u => csrOf (u.tile tileU).csr 0x304 == 9,
    alone world (.trc 3 9) fun u => (u.ts ts).eng == (world.ts ts).eng] = true := by decide +kernel
theorem witness_CommitExits : allOf [
    ends (leaving ((mailed { mail0 with taken := true }).updTs ts fun a => { a with task := some task0, eng := { a.eng with binds := [(1, 2, 3)] } }) .done)
      .done 0 fun u => (u.ts ts).eng.binds == [] && (u.tile tileU).mbox.mails == [] && (u.ts ts).task == none && !(u.ts ts).ending,
    (let r : MRec := { zero1 with body := .drain 0x400 64 false 0 0 false false true 0 false 0 1, epiOn := true };
      let s := { (onTs fun a => { a with eng := { a.eng with recs := [r] } }).updTs (ts + 1) fun a => { a with
        task := some { task0 with epi := some (ts, 0, 1) }, regs := { a.regs with v := [(0, vec8)] } } with focus := ts + 1 };
      ends (leaving s .done) .done 0 fun u => (u.ts ts).eng.recs == [{ r with epi := some vec8, epiOn := false }]),
    ends (leaving ((mailed { mail0 with taken := true }).updTs ts fun a => { a with task := some task0 }) .yield) .yield 0 fun u =>
      (u.ts ts).task == none && (u.tile tileU).mbox.mails == [{ mail0 with begun := true, wait := true, yieldAt := 65536 }],
    ends (leaving world (.trap 9)) (.trap 9) 0 fun u => (match (u.ts ts).stops.fault with
        | some q => q.1 == 1 && q.2.cause == .trap && q.2.fw2 == 9 | none => false) &&
      u.net.any fun p => p.dst == tileS && h0Kind p.h0 == 5 && (p.body.drop 16).take 8 == leBytes 8 9] = true := by decide +kernel
theorem witness_CommitPostings : allOf [
    ends (edited (solo bound (.rstore 3 sibling 2 [some 1, some 2])) fun f => { f with snap := { f.snap with binds := (bound.ts ts).eng.binds } })
      .goto (word (3 * 2 ^ 60 + 0x200)) fun u => (u.ts ts).eng.journal.map (fun x => (x.addr, x.size, x.kind, x.state, x.objs)) ==
      [(sibling, 2, .store, .pending, [0x100, 0x108])],
    alone world (.amoRemote 3 sibling ⟨0, true, 0, 1, 0⟩ (some (.s 3))) fun u => (u.ts ts).eng.journal.map (fun x => (x.kind, x.state)) ==
      [(.atomic ⟨0, true, 0, 1, 0⟩ (some (.s 3)), .pending)] && (AMap.find (regKey (.s 3)) (u.ts ts).eng.pend).isSome,
    alone world (.amoRemote 3 sibling ⟨0, true, 2, 1, 0⟩ none) fun u => (u.ts ts).eng.journal.map JEntry.state == [.held],
    alone world (.relUpd 3 0x100) fun u => (u.ts ts).eng.journal.map (fun x => (x.addr, x.kind, x.state)) == [(0x100, .rel, .held)],
    alone (world.putNum (poolKey tileU 0x40) 8 41) (.amoLocal 3 0x40 ⟨0, true, 0, 1, 0⟩ (some (.s 3))) fun u =>
      u.num (poolKey tileU 0x40) 8 == 42 && AMap.get 0 3 (u.ts ts).regs.s == 41,
    alone armed (.lwarm 0x100 9) fun u => u.num (poolKey tileU 0x100) 8 == 9 && u.num (poolKey tileU 0x108) 8 == 0 &&
      u.num (poolKey tileU 0x110) 4 == 7] = true := by decide +kernel
/-- A replica of a range stage on a slice, with two slices, and a request that has come in the meantime. -/
def splitting (o : List OutTok) : State :=
  (staged fun x => { x with
    tok := some token0, replicas := [packXY 4 4, packXY 5 4], asks := [(packXY 5 4, packXY 4 4)],
    rem := [(packXY 4 4, [0, 1])] }).updTs ts fun a => { a with task := some { task0 with slice := some 3 }, outs := o }
/-- The same while nobody asks, with these replicas. -/
def unasked (l : List Nat) (o : List OutTok) : State := (splitting o).updStage 0 2 fun x => { x with asks := [], replicas := l }
/-- The slices that the user tile's replica has left. -/
def kept (u : State) : List Nat := AMap.get [] (packXY 4 4) ((u.region 0).stage 2).rem
/-- Whether a block that splits two slices commits and P holds then. -/
def splits (s : State) (P : State → Bool) : Bool :=
  ends (edited (solo s (.steal 1)) fun f => { f with snap := { f.snap with remain := [0, 1] } }) .goto (word (3 * 2 ^ 60 + 0x200)) P
theorem witness_CommitPackets : allOf [
    (let s := beside id (sending 1); (s.outEdge tileU 2) == some 5 && s.relClear ts && alone s (.send 2 head2 0x100) fun u =>
      ((u.region 0).edge 5).credits == 0 && u.net.map (fun q => (q.src, q.dst, h0Kind q.h0)) == [(tileU, tileAt 149 4, h0Kind head2)]),
    (let s := (beside id (sending 1)).updTs ts fun a => { a with outs := [out0] }; alone s (.send 2 head2 0x100) fun u => u.net == [] &&
      (u.ts ts).outs.map OutTok.edge == [none, some 5]),
    alone (beside id world) (.spawn head2 to54 0x100) fun u => u.net.map (fun q => (q.src, q.dst, h0Kind q.h0)) == [(tileU, tileAt 149 4, 0)],
    alone (beside id (sending 1)) (.eos 2) fun u => ((u.region 0).edge 5).closed && ((u.region 0).edge 5).eosLeft &&
      u.net.map (fun q => (q.dst, h0Kind q.h0)) == [(tileAt 149 4, 2)],
    (above false).systemTile tileS (field ident 0 20) == some tileU && alone (above false) (.resume ident 9 (some 3)) fun u =>
      u.net.map (fun q => (q.dst, h0Kind q.h0, h0Handler q.h0, q.body)) == [(tileU, 6, 1, leBytes 8 9 ++ leBytes 8 3)],
    (let s := (beside id world).updTs ts fun a => { a with outs := [out0] }; alone s (.spawn head2 to54 0x100) fun u => u.net == [] &&
      (u.ts ts).outs.map (fun q => (q.spawn, q.dst)) == [(out0.spawn, out0.dst), (true, h1Dst to54)]),
    (let s := (beside id (sending 1)).updTs ts fun a => { a with outs := [out0] }; alone s (.eos 2) fun u => u.net == [] &&
      ((u.region 0).edge 5).closed && (u.ts ts).outs.map OutTok.edge == [none, some 5]),
    (let s := (above false).updTs (4 * tileS) fun a => { a with outs := [out0] }; alone s (.resume ident 9 none) fun u => u.net == [] &&
      (u.ts (4 * tileS)).outs.map OutTok.dst == [out0.dst, field ident 0 20]),
    alone (splitting []) (.steal 0) fun u => u.regions == (splitting []).regions && u.net == [],
    (let s := edited (solo (splitting [out0]) (.steal 1)) fun f => { f with snap := { f.snap with remain := [0, 1] } };
      ends s .goto (word (3 * 2 ^ 60 + 0x200)) fun u => ((u.region 0).stage 2).asks == [] &&
        AMap.get [] (packXY 4 4) ((u.region 0).stage 2).rem == [0] &&
        (u.ts ts).outs.map (fun q => (q.dst, q.slices)) == [(packXY 5 4, []), (packXY 5 4, [1])]),
    splits (beside id (splitting [])) fun u => ((u.region 0).stage 2).asks == [] && kept u == [0] && u.net.map (fun q => (q.dst, q.slices)) == [(tileAt 149 4, [1])],
    splits (beside id (unasked [packXY 4 4, packXY 5 4] [])) fun u => kept u == [0] && u.net.map (fun q => (q.dst, q.slices)) == [(tileAt 149 4, [1])],
    splits (unasked [packXY 4 4, packXY 5 4] [out0]) fun u => kept u == [0] && u.net == [] &&
      (u.ts ts).outs.map OutTok.slices == [out0.slices, [1]],
    splits (unasked [packXY 4 4] []) fun u => kept u == [0, 1] && u.net == []] = true := by decide +kernel

/-- 1, the smallest magnitude, the largest finite number, a signalling NaN (R113, R114). -/
def one : Word := 0x3FF0000000000000
/-- See `one`. -/
def tiny : Word := 1
/-- See `one`. -/
def huge : Word := 0x7FDFFFFFFFFFFFFF
/-- See `one`. -/
def sNaN : Word := 0x7FF0000000000001
theorem witness_FloatClasses : isNaN sNaN ∧ signals sNaN ∧ isNaN quietNaN ∧ ¬signals quietNaN ∧ isInf (infinity true) ∧ negative (infinity true) = true ∧
    isInf (infinity false) ∧ finite one ∧ canonical one ∧ ¬isZero one ∧ finite tiny ∧ ¬isZero tiny ∧ canonical tiny ∧ finite huge ∧ isZero (Claims.zero true) ∧
    negative (Claims.zero true) = true ∧ isZero (Claims.zero false) ∧ ¬isNaN (infinity true) ∧ ¬isZero (infinity true) ∧ ¬isNaN one := by decide
theorem witness_FloatSums : units one + units (opposite one) = 0 ∧ units one + units tiny ≠ 0 ∧ units huge + units huge ≠ 0 ∧
    units one * units one + units (opposite one) * 2 ^ 562 = 0 ∧ units one * units huge + units tiny * 2 ^ 562 ≠ 0 := by decide +kernel
theorem witness_FloatPlaces : place (infinity true) < place one ∧ place (Claims.zero true) = place (Claims.zero false) ∧ ¬place one < place tiny := by decide +kernel
/-- R116, R247: a tie goes to the even neighbour, a sum above the largest finite number is ∞, and FMA does not round the product. -/
theorem test_float_rounding : fadd 0x4690000000000000 one = (0x4690000000000000, nx) ∧ fadd huge huge = (infinity false, of_ ||| nx) ∧
    fma 0x3FF0000000000001 0x3FF0000000000001 0xBFF0000000000002 = (0x32F0000000000000, 0) := by decide +kernel

/-! ## Worked examples of the spec, and cases worked out from its rules -/

/-- What an instruction delivers to target 24 (index 6, left), from these operands. -/
def sends (i : Instr) (l r p t : Token) : Option Token :=
  match next (exec i (ready world l r p t)) with
  | some u => (u.flight ts).map fun f => f.token 6 0
  | none => none

/-- R5, the worked case of little-endian storage. -/
theorem test_little_endian : leBytes 8 0x0123456789ABCDEF = [0xEF, 0xCD, 0xAB, 0x89, 0x67, 0x45, 0x23, 0x01] := by decide
/-- The worked encoding after R43. -/
theorem test_headers_of_the_worked_packet : mkH0 1 12 3 3 1 false 2 0x105 = 0x1303310200000105 ∧
    mkH1 (packXY 5 9) (packXY 4 9) 0x02A 7 = 0x01409010090 * 2 ^ 20 + 0x2A007 := by decide
/-- The worked encodings of WF64 (R114). -/
theorem test_noncanonical_wf64_adds : fadd 0x3FE0000000000002 0x3FF0000000000000 = (0x3FF0000000000002, 0) := by decide +kernel
/-- The class of the example of R254. -/
theorem test_class_of_noncanonical : sends (.fclass .always 24) (.scalar 0x3FE0000000000002) .null .null .null = some (.scalar 0x440) := by
  decide +kernel
/-- The worked conversions after R121: 300 and 500 to E4M3, -2.5 to INT8, 300.7 to UINT8, 1 to BF16, 2^600 from FP64. -/
theorem test_worked_conversions : allOf [
    convertOut (.float ⟨4, 3, 7, true⟩) false 0 false 0x40F2C00000000000 == (0x79, fNX),
    convertOut (.float ⟨4, 3, 7, true⟩) false 0 false 0x40FF400000000000 == (0x7F, fOF ||| fNX),
    convertOut (.float ⟨4, 3, 7, true⟩) false 0 true 0x40FF400000000000 == (0x7E, fSAT ||| fNX),
    convertOut (.int 8 true) false 0 false 0xC014000000000000 == (0xFE, fNX),
    convertOut (.int 8 true) false 3 false 0xC014000000000000 == (0xFD, fNX),
    convertOut (.float ⟨8, 7, 127, false⟩) false 1 false 0x3FF0000000000000 == (0x3F80, 0),
    convertOut (.int 8 false) true 0 true (-1) == (0xFF, fSAT), convertOut (.int 8 true) true 0 false (-1) == (0xFF, 0),
    convertIn (.float ⟨11, 52, 1023, false⟩) false 0 false 0x6570000000000000 == (0x7FF0000000000000, fOF ||| fNX),
    convertIn (.float ⟨11, 52, 1023, false⟩) false 1 false 0x6570000000000000 == (0x7FDFFFFFFFFFFFFF, fOF ||| fNX)] = true := by decide +kernel
/-- The four instructions that build 0x0123_4567_89AB (after R222). -/
theorem test_movi_movhi_chain :
    sends (.movi .always 0x012 24) .null .null .null .null = some (.scalar 0x12) ∧
    sends (.movhi .always 0x345 24) (.scalar 0x12) .null .null .null = some (.scalar 0x12345) ∧
    sends (.movhi .always 0x9AB 24) (.scalar 0x12345678) .null .null .null = some (.scalar 0x0123456789AB) ∧
    sends (.movhi .always 0 24) (.scalar (-1)) .null .null .null = some (.scalar 0xFFFFFFFFFFFFF000) := by decide +kernel
/-- The example of R265. -/
theorem test_vidx_of_96_byte_rows : sends (.vidx .always 96 24) (.scalar 0x0400) .null .null .null =
    some (.vector ⟨0x400, 0x460, 0x4C0, 0x520, 0x580, 0x5E0, 0x640, 0x6A0⟩ 0) := by decide +kernel
/-- R232: the most negative number divided by -1, and a division by zero. -/
theorem test_div_corners : sends (.div .always 24) (.scalar (2 ^ 63)) (.scalar (-1)) .null .null = some (.scalar (2 ^ 63)) ∧
    sends (.div .always 24) (.scalar 7) (.scalar 0) .null .null = some (.scalar 0) ∧
    sends (.rem .always 24) (.scalar 7) (.scalar 0) .null .null = some (.scalar 7) := by decide +kernel
/-- R230: addition wraps; R231: the high half of a signed product. -/
theorem test_add_wraps : sends (.add .always false 24 1023) (.scalar (2 ^ 63)) (.scalar (2 ^ 63)) .null .null = some (.scalar 0) := by decide +kernel
theorem test_mul_high_signs : sends (.mulHi .always 24) (.scalar (-1)) (.scalar 1) .null .null = some (.scalar (-1)) ∧
    sends (.mulHiu .always 24) (.scalar (-1)) (.scalar 2) .null .null = some (.scalar 1) := by decide +kernel
/-- R233: a signed and an unsigned comparison of the same operands. -/
theorem test_compares_differ_in_sign : sends (.cmplt .always 24) (.scalar (-1)) (.scalar 1) .null .null = some (.scalar 1) ∧
    sends (.cmpltu .always 24) (.scalar (-1)) (.scalar 1) .null .null = some (.scalar 0) := by decide +kernel
/-- The clamp block: a MOV whose predicate does not match sends null, and JOIN passes the operand that is not null. -/
theorem test_clamp_predicates : sends (.mov .onTrue false 24 1023) (.scalar 9) .null (.scalar 0) .null = some .null ∧
    sends (.mov .onFalse false 24 1023) (.scalar 3) .null (.scalar 0) .null = some (.scalar 3) ∧
    sends (.join .always false 24 1023) .null (.scalar 3) .null .null = some (.scalar 3) := by decide +kernel
/-- The words of the block after R290, and the words that do not decode after R206. -/
theorem test_words_of_the_mm_step_block : [0x01140018, 0x04010000, 0x57019001, 0x71000C20, 0x02160000, 0x330003FF].map (decodeTableWord 32) =
    [some (.read (.s 10) 24), some (.movi .always 0 16), some (.vidx .always 1 25), some (.mq .always false 3 32), some (.write (.s 11)),
      some (.done .always)] ∧
    [0x00000000, 0x0D0003FF, 0x03C08030, 0x01000418].map (decodeTableWord 32) = [none, none, none, none] := by decide +kernel

end Sys2Proof.Tests
end

section
/-! SUPPORT. Packets that a block keeps for its commit (R294 to R300): what SEND, SPAWN, EOS and the mailbox and STEAL minors come
to when they fire. -/

namespace Sys2Proof.Machine

open Sys2Proof Sys2Proof.Claims

variable {s : State} {p : Pr} {c : Fire} {t : Target}

/-! ## What the shared checks come to -/

/-- A firing that no acquire AMO holds back goes on with its own rule (R147). -/
theorem Fire.afterAcquire_of_clear (h : c.acquiring = false) (o : Out) : c.afterAcquire o = o := by
  simp [Fire.afterAcquire, h]

/-- A legal payload in the tile's own pool passes the checks of R294. -/
theorem withPayload_own {a h0 : Word} {k : Out} (ha : a.toNat < 2 ^ 17) (hs : a.toNat % 16 = 0)
    (hp : c.s.inPad c.tile a.toNat (bodyLen h0) = true) (hc : c.s.poisoned (poolKey c.tile a.toNat) (bodyLen h0) = false) :
    withPayload c a h0 k = k := by
  rw [withPayload, withAddr_own ha hs (.inl hp) (by simp), field_own ha, hc]
  rfl

/-! ## Outcomes of a firing that carry an effect or wait -/

/-- A rule that keeps an effect for the commit leads to `acts`. -/
theorem State.fire_acts {sh : Shape} {body : Fire → Out} {e : Effect} (hv : s.view sh.pr = some c) (hm : c.mask = false)
    (hf : c.filled sh = true) (ht : sh.targets = [t]) (hb : body c = Out.act .completion e) :
    s.fire sh .mem false false body = .next (acts c t e) := by
  rw [State.fire_delivers (t := .completion) (fl := 0) (e := some e) (ld := none) hv (by simp [hm]) (by simp [hf]) hb, ht]
  rfl
/-- A rule that waits without an effect or a request leads to `waited`. -/
theorem State.fire_waited {sh : Shape} {body : Fire → Out} (hv : s.view sh.pr = some c) (hm : c.mask = false)
    (hf : c.filled sh = true) (hb : body c = { given := .wait }) : s.fire sh .mem false false body = .next (waited c 6 none none) := by
  rw [State.fire_waits (e := none) (q := none) hv (by simp [hm]) (by simp [hf]) hb]
  rfl
/-- A rule that raises a fault without an address leads to `Fire.faulted`. -/
theorem State.fire_plainFault {sh : Shape} {body : Fire → Out} {f : Cause} (hv : s.view sh.pr = some c) (hm : c.mask = false)
    (hf : c.filled sh = true) (hb : body c = Out.fault f) : s.fire sh .mem false false body = .next (c.faulted 6 f 0 0) :=
  State.fire_faults hv (by simp [hm]) (by simp [hf]) hb
/-- A rule that delivers a token and perhaps keeps an effect leads to `Fire.after`. -/
theorem State.fire_gives {sh : Shape} {body : Fire → Out} {k : Token} {e : Option Effect} (hv : s.view sh.pr = some c)
    (hm : c.mask = false) (hf : c.filled sh = true) (ht : sh.targets = [t]) (hb : body c = { given := .deliver k, eff := e }) :
    s.fire sh .mem false false body = .next (c.after 6 [t] k 0 e) := by
  rw [State.fire_delivers (t := k) (fl := 0) (e := e) (ld := none) hv (by simp [hm]) (by simp [hf]) hb, ht]
  rfl

/-- A firing that waits while there is no room: with room it keeps the effect, without it waits. -/
theorem State.fire_roomOrWait {sh : Shape} {body : Fire → Out} {e : Effect} {room : Bool} (hv : s.view sh.pr = some c)
    (hm : c.mask = false) (hf : c.filled sh = true) (ht : sh.targets = [t])
    (hb : body c = if room then Out.act .completion e else { given := .wait }) :
    (room = true → s.fire sh .mem false false body = .next (acts c t e)) ∧
      (room = false → s.fire sh .mem false false body = .next (waited c 6 none none)) := by
  refine ⟨fun hr => State.fire_acts hv hm hf ht (by rw [hb, if_pos hr]), fun hr => State.fire_waited hv hm hf ?_⟩
  rw [hb, hr]
  rfl

/-! ## SEND, SPAWN and EOS (R294 to R299) -/

/-- SEND of a legal packet: what remains is whether there is a credit. -/
theorem execSend_room {o : BitVec 4} {a h : Word} {e : Nat} (hv : s.view p = some c) (hm : c.mask = false)
    (hq : c.acquiring = false) (hl : c.left = .scalar a) (hr : c.right = .scalar h) (he : s.outEdge c.tile o.toNat = some e)
    (hh : headerOk [0, 1, 3] h = true) (hn : c.ended e o.toNat = false) (hlen : h0Len h ≤ (c.region.edge e).len)
    (hep : c.onEpilogue = false) (ha : a.toNat < 2 ^ 17) (hs : a.toNat % 16 = 0)
    (hp : s.inPad c.tile a.toNat (bodyLen h) = true) (hc : s.poisoned (poolKey c.tile a.toNat) (bodyLen h) = false)
    (hrep : c.tileRec.isReplica = true → c.sentOn o.toNat = false) :
    (c.sendRoom e = true → exec (.send p o t) s = .next (acts c t (.send o.toNat h a))) ∧
      (c.sendRoom e = false → exec (.send p o t) s = .next (waited c 6 none none)) := by
  obtain ⟨hcs, -⟩ := State.view_cases hv
  refine State.fire_roomOrWait (sh := mkShape p true true .none [t] .sends) hv hm (by simp [Fire.filled, mkShape, hl, hr]) rfl ?_
  have hsent : (c.tileRec.isReplica && c.sentOn o.toNat) = false := by
    cases hx : c.tileRec.isReplica with
    | false => rfl
    | true => exact hrep hx
  subst hcs
  simp only [hl, hr, he, hh, hn, hep, Nat.not_lt.2 hlen, decide_false, Bool.not_true, Bool.or_self, Bool.false_eq_true, if_false,
    Fire.afterAcquire_of_clear hq, withPayload_own ha hs hp hc, hsent]

/-- SPAWN of a legal packet to a place of the region: what remains is whether the destination grants. -/
theorem execSpawn_room {a h g : Word} {d : Nat} (hv : s.view p = some c) (hm : c.mask = false) (hq : c.acquiring = false)
    (hl : c.left = .scalar a) (hr : c.right = .scalar h) (h3 : c.third = .scalar g) (hh : headerOk [0] h = true)
    (ha : a.toNat < 2 ^ 17) (hs : a.toNat % 16 = 0) (hp : s.inPad c.tile a.toNat (bodyLen h) = true)
    (hc : s.poisoned (poolKey c.tile a.toNat) (bodyLen h) = false)
    (hd : c.region.translate (h1Dst g) (decide (s.level c.tile = .user)) = .at d) :
    (s.grants (s.follow (s.ctxOf c.tile) d) h = true → exec (.spawn p t) s = .next (acts c t (.spawn h g a))) ∧
      (s.grants (s.follow (s.ctxOf c.tile) d) h = false → exec (.spawn p t) s = .next (waited c 6 none none)) := by
  obtain ⟨hcs, -⟩ := State.view_cases hv
  refine State.fire_roomOrWait (sh := mkShape p true true .data [t] .sends) hv hm
    (by simp [Fire.filled, mkShape, hl, hr, h3]) rfl ?_
  subst hcs
  simp only [hl, hr, h3, hh, hd, Bool.not_true, Bool.false_eq_true, if_false, Fire.afterAcquire_of_clear hq,
    withPayload_own ha hs hp hc]

/-- EOS on an open port: what remains is whether there is a credit. -/
theorem execEos_room {o : BitVec 4} {e : Nat} (hv : s.view p = some c) (hm : c.mask = false)
    (hrep : c.tileRec.isReplica = false) (he : s.outEdge c.tile o.toNat = some e) (hn : c.ended e o.toNat = false)
    (hep : c.onEpilogue = false) :
    (s.creditFree c.rgn e = true → exec (.eos p o t) s = .next (acts c t (.eos o.toNat))) ∧
      (s.creditFree c.rgn e = false → exec (.eos p o t) s = .next (waited c 6 none none)) := by
  obtain ⟨hcs, -⟩ := State.view_cases hv
  refine State.fire_roomOrWait (sh := mkShape p false false .none [t] .sends) hv hm (by simp [Fire.filled, mkShape]) rfl ?_
  subst hcs
  simp only [hrep, he, hn, hep, Bool.or_self, Bool.false_eq_true, if_false]

/-! ## The mailbox and STEAL (R51, R298, R300) -/

theorem execMbpop_kept (hv : s.view p = some c) (hm : c.mask = false) (he : c.onEpilogue = false) :
    exec (.mbpop p t) s = .next (acts c t .mbpop) :=
  State.fire_acts (sh := mkShape p false false .none [t] .plain) hv hm (by simp [Fire.filled, mkShape]) rfl (by simp [he])
theorem execMbpop_onEpilogue (hv : s.view p = some c) (hm : c.mask = false) (he : c.onEpilogue = true) :
    exec (.mbpop p t) s = .next (c.faulted 6 .mailbox 0 0) :=
  State.fire_plainFault (sh := mkShape p false false .none [t] .plain) hv hm (by simp [Fire.filled, mkShape]) (by simp [he])
theorem execMbpeek_delivers {w : Word} (hv : s.view p = some c) (hm : c.mask = false) (hl : c.left = .scalar w) :
    exec (.mbpeek p t) s =
      .next (c.after 6 [t] (.scalar (match c.tileRec.oldest (w.toNat % 4096) with | some m => m.h0 | none => 0))) := by
  refine State.fire_gives (sh := mkShape p true false .none [t] .plain) (e := none) hv hm (by simp [Fire.filled, mkShape, hl]) rfl ?_
  have hw : field w 0 12 = w.toNat % 4096 := by simp [field]
  simp only [hl, hw, Out.tok] <;> rfl
theorem execMbhw_kept {w : Word} (hv : s.view p = some c) (hm : c.mask = false) (hl : c.left = .scalar w)
    (hok : c.spillOk w = true) : exec (.mbhw p t) s = .next (c.after 6 [t] (.scalar c.fl.snap.spill) 0 (some (.mbhw w))) := by
  refine State.fire_gives (sh := mkShape p true false .none [t] .plain) hv hm (by simp [Fire.filled, mkShape, hl]) rfl ?_
  simp only [hl, hok, if_true, Out.act]
theorem execMbhw_badRing {w : Word} (hv : s.view p = some c) (hm : c.mask = false) (hl : c.left = .scalar w)
    (hok : c.spillOk w = false) : exec (.mbhw p t) s = .next (c.faulted 6 .mailbox 0 0) :=
  State.fire_plainFault (sh := mkShape p true false .none [t] .plain) hv hm (by simp [Fire.filled, mkShape, hl]) (by simp [hl, hok])
theorem execStealSplit_kept (hv : s.view p = some c) (hm : c.mask = false) (ho : c.onSlice = true) :
    exec (.stealSplit p t) s = .next (c.after 6 [t] (.scalar (word (if c.fl.snap.solo then 0 else c.fl.snap.remain.length / 2))) 0
      (some (.steal (if c.fl.snap.solo then 0 else c.fl.snap.remain.length / 2)))) :=
  State.fire_gives (sh := mkShape p false false .none [t] .sends) hv hm (by simp [Fire.filled, mkShape]) rfl (by simp [ho, Out.act])
theorem execStealRange_delivers {v : Vec} (hv : s.view p = some c) (hm : c.mask = false) (ho : c.onSlice = true)
    (hr : c.fl.snap.range = some v) : exec (.stealRange p t) s = .next (c.after 6 [t] (.vector v 0xE0#8)) :=
  State.fire_gives (sh := mkShape p false false .none [t] .plain) (e := none) hv hm (by simp [Fire.filled, mkShape]) rfl
    (by simp [ho, hr, Out.tok])
/-- Without a slice both STEAL minors are the range fault (R300). -/
theorem execSteal_withoutSlice (hv : s.view p = some c) (hm : c.mask = false) (ho : c.onSlice = false) :
    exec (.stealSplit p t) s = .next (c.faulted 6 .range 0 0) ∧ exec (.stealRange p t) s = .next (c.faulted 6 .range 0 0) :=
  ⟨State.fire_plainFault (sh := mkShape p false false .none [t] .sends) hv hm (by simp [Fire.filled, mkShape]) (by simp [ho]),
    State.fire_plainFault (sh := mkShape p false false .none [t] .plain) hv hm (by simp [Fire.filled, mkShape]) (by simp [ho])⟩

/-! ## The statements -/

/-- Settles O36: each instruction's rule comes down to its credit or grant. -/
theorem sendsLeaveAtCommit : Obligations.SendsLeaveAtCommit := by
  intro p t s c hv hm
  obtain ⟨hcs, -⟩ := State.view_cases hv
  refine ⟨fun o a h e hq hl hr he hh hn hlen hep ha hs hp hc hrep => ?_,
    fun a h g d hq hl hr h3 hh ha hs hp hc hd => execSpawn_room hv hm hq hl hr h3 hh ha hs hp hc hd,
    fun o e hrep he hn hep => execEos_room hv hm hrep he hn hep⟩
  have hroom := execSend_room (t := t) hv hm hq hl hr he hh hn hlen hep ha hs hp hc hrep
  rw [← hcs]
  rw [← hcs] at hroom
  exact hroom

/-- Settles O37: one lemma for each minor and each of its outcomes. -/
theorem mailboxAndSteal : Obligations.MailboxAndSteal := fun _ _ _ _ hv hm =>
  ⟨execMbpop_kept hv hm, execMbpop_onEpilogue hv hm, fun _ hl => execMbpeek_delivers hv hm hl,
    fun _ hl => ⟨execMbhw_kept hv hm hl, execMbhw_badRing hv hm hl⟩,
    fun ho => ⟨execStealSplit_kept hv hm ho, fun _ hr => execStealRange_delivers hv hm ho hr⟩, execSteal_withoutSlice hv hm⟩

end Sys2Proof.Machine
end

section
/-! SUPPORT. What refutes the statement about the registers at commit: the fault token of a TRAP leaves from the tile to which the
subject's coordinate leads, and the packet's record goes to the trace of that tile's region (R369, R421). -/

namespace Sys2Proof.Machine

open Sys2Proof Sys2Proof.Claims

/-- A snapshot of a block that samples nothing. -/
def Snapshot.blank : Snapshot := ⟨[], 0, 0, 0, 0, 0, 0, 0, 0, 0, [], [], false, none, []⟩

/-- A settled block whose only effect is the exit TRAP 0. -/
def trapFlight : Flight :=
  { base := 0, header := 0, body := [], order := [], named := [], stat := [], toks := [], effs := [(0, .exit (.trap 0) 0 0)],
    faults := [], freeze := none, raised := 0, loads := [], seen := [], reqs := [], counts := [], pops := [], snap := Snapshot.blank,
    split := false, late := [], nulls := [] }

/-- Tile 0 bears coordinate (4, 0) of region 0, which leads to tile 4; that tile belongs to region 1, whose trace session records
packets. Thread set 0 holds a block that traps. -/
def foreignTrace : State := { State.reset with
  flights := [(0, trapFlight)],
  tiles := [(0, { Tile.init with rgn := some 0, coord := 4 }), (4, { Tile.init with rgn := some 1 })],
  regions := [(0, { Region.init with geom := 0x2020000 }), (1, { Region.init with csr := [(0x310, 0x40001)] })] }

/-- The block of `foreignTrace` can commit, and its region traces nothing. -/
theorem foreignTrace_commits : commitsExit foreignTrace 0 trapFlight (.trap 0) :=
  ⟨0, 0, 0, ⟨rfl, by decide +kernel, by decide +kernel, by decide +kernel, by decide +kernel, fun _ => rfl, nofun⟩, rfl⟩

/-- Its commit writes a trace record of region 1 at address 0. -/
theorem foreignTrace_record : (foreignTrace.blockCommit 0).byte 7 ≠ foreignTrace.byte 7 := by decide +kernel

/-- A block that can commit leads to the state after its commit. -/
theorem exec_blockCommit {s u : State} {k : Nat} (h : exec (.blockCommit k) s = .next u) : u = s.blockCommit k := by
  have e : exec (.blockCommit k) s = whenEnabled "BLOCK_COMMIT" (s.canCommit k) (s.blockCommit k) := rfl
  rw [e, whenEnabled] at h
  split at h
  · exact (Host.Outcome.next.inj h).symm
  · cases h

/-- Refutes O51: memory does not stay at the commit of a TRAP in `foreignTrace`, where the fault token leaves from a tile of
another region, whose open trace session records the packet. -/
theorem not_commitWritesRegisters : ¬ Obligations.CommitWritesRegisters := by
  rintro ⟨-, -, -, hexits⟩
  obtain ⟨-, -, -, htrap⟩ := hexits foreignTrace 0 trapFlight
  obtain ⟨u, hu, -, hbytes, -⟩ := htrap 0 0 foreignTrace_commits rfl rfl (by decide +kernel) (by decide +kernel) (by decide +kernel)
  exact foreignTrace_record (exec_blockCommit hu ▸ hbytes 7)

end Sys2Proof.Machine
end

section
/-! SUPPORT. What a commit leaves alone (R89): the states that differ from another in nothing that a program sees, and the end of a
commit, from the flags to the blocks that execute again. -/

namespace Sys2Proof.Machine

open Sys2Proof Sys2Proof.Claims

/-! ## States that differ in meters alone -/

/-- A state differs from another in nothing but the energy meters and CSRs of tiles and in blocks in flight, of which none is new. -/
structure State.Still (s u : State) : Prop where
  mem : u.mem = s.mem
  net : u.net = s.net
  regions : u.regions = s.regions
  ts : ∀ j, u.ts j = s.ts j
  tile : ∀ t, ∃ m c, u.tile t = { s.tile t with meters := m, csr := c }
  flight : ∀ j, s.flight j = none → u.flight j = none

theorem State.Still.refl (s : State) : s.Still s := ⟨rfl, rfl, rfl, fun _ => rfl, fun _ => ⟨_, _, rfl⟩, fun _ h => h⟩
theorem State.Still.trans {s u v : State} (h : s.Still u) (g : u.Still v) : s.Still v where
  mem := g.mem.trans h.mem
  net := g.net.trans h.net
  regions := g.regions.trans h.regions
  ts j := (g.ts j).trans (h.ts j)
  tile t := by
    obtain ⟨m, c, hm⟩ := h.tile t
    obtain ⟨m', c', hm'⟩ := g.tile t
    exact ⟨m', c', by rw [hm', hm]⟩
  flight j hj := g.flight j (h.flight j hj)
/-- A fold of steps that each leave a state still does so. -/
theorem State.Still.foldl {α : Type} {f : State → α → State} (h : ∀ (s : State) x, s.Still (f s x)) (l : List α) (s : State) :
    s.Still (l.foldl f s) := by
  induction l generalizing s with
  | nil => exact .refl s
  | cons x l ih => exact (h s x).trans (ih _)

/-- A change of a tile's meters and CSRs. -/
theorem State.Still.updTile (s : State) (t : Nat) {f : Tile → Tile} (h : ∀ x, ∃ m c, f x = { x with meters := m, csr := c }) :
    s.Still (s.updTile t f) := by
  refine ⟨rfl, rfl, rfl, fun _ => rfl, fun j => ?_, fun _ hj => hj⟩
  by_cases e : j = t
  · subst e
    simpa using h (s.tile j)
  · exact ⟨_, _, by rw [State.tile_updTile_of_ne s e]⟩
theorem State.still_charge (s : State) (t ctx cls units : Nat) : s.Still (s.charge t ctx cls units) :=
  State.Still.updTile s t fun _ => ⟨_, _, rfl⟩
theorem State.still_chargeFlight (s : State) (k : Nat) (f : Flight) : s.Still (s.chargeFlight k f) := by
  refine State.Still.foldl (fun s p => ?_) _ s
  split <;> exact State.still_charge ..
theorem State.still_dropFlight (s : State) (k : Nat) : s.Still (s.dropFlight k) := by
  refine ⟨rfl, rfl, rfl, fun _ => rfl, fun _ => ⟨_, _, rfl⟩, fun j hj => ?_⟩
  by_cases e : j = k
  · subst e
    simp
  · rwa [State.flight_dropFlight_of_ne s e]
theorem State.still_discard (s : State) (k : Nat) : s.Still (s.discard k) := by
  unfold State.discard
  split
  · exact (s.still_chargeFlight k _).trans (State.still_dropFlight _ k)
  · exact .refl s
/-- A map over the values of a table lists the same keys. -/
theorem AMap.find_map_none {β : Type} {k : Nat} (g : Nat × β → β) {m : AMap β} (h : AMap.find k m = none) :
    AMap.find k (m.map fun p => (p.1, g p)) = none := by
  induction m with
  | nil => rfl
  | cons p m ih =>
    obtain ⟨j, x⟩ := p
    simp only [AMap.find] at h
    split at h
    · cases h
    · rename_i hj
      simp [AMap.find, hj, ih h]
theorem State.still_wakeAll (s : State) : s.Still s.wakeAll :=
  ⟨rfl, rfl, rfl, fun _ => rfl, fun _ => ⟨_, _, rfl⟩, fun _ hj => AMap.find_map_none _ hj⟩

namespace State.Still
variable {s u : State} (h : s.Still u)
include h

theorem region (r : Nat) : u.region r = s.region r := by simp [State.region, h.regions]
theorem hasRegion (r : Nat) : u.hasRegion r = s.hasRegion r := by simp [State.hasRegion, h.regions]
theorem byte (a : Nat) : u.byte a = s.byte a := by simp [State.byte, h.mem]
theorem bytes (a n : Nat) : u.bytes a n = s.bytes a n := by simp [State.bytes, h.byte]
theorem num (a n : Nat) : u.num a n = s.num a n := by simp [State.num, h.bytes]
theorem conf (t : Nat) : (u.tile t).conf = (s.tile t).conf := by
  obtain ⟨_, _, e⟩ := h.tile t
  rw [e]
theorem coord (t : Nat) : (u.tile t).coord = (s.tile t).coord := by
  obtain ⟨_, _, e⟩ := h.tile t
  rw [e]
theorem tileRgn (t : Nat) : (u.tile t).rgn = (s.tile t).rgn := by
  obtain ⟨_, _, e⟩ := h.tile t
  rw [e]
theorem rgnOf (t : Nat) : u.rgnOf t = s.rgnOf t := by simp [State.rgnOf, h.tileRgn]
theorem mode (r : Nat) : u.mode r = s.mode r := by simp [State.mode, h.region]
theorem level (t : Nat) : u.level t = s.level t := by simp [State.level, h.coord]
theorem isReplica (t : Nat) : (u.tile t).isReplica = (s.tile t).isReplica := by simp [Tile.isReplica, h.conf]
theorem outEdge (t o : Nat) : u.outEdge t o = s.outEdge t o := by simp [State.outEdge, h.conf, h.region, h.rgnOf]
theorem systemTile (t c : Nat) : u.systemTile t c = s.systemTile t c := by simp [State.systemTile, h.level, h.region, h.rgnOf]
theorem relClear (k : Nat) : u.relClear k = s.relClear k := by simp [State.relClear, h.ts]

end State.Still

/-! ## A machine that is at rest but for the block that commits -/

/-- The region of a thread set runs freely and traces nothing, no thread set has a recorded fault, and no journal an entry whose
refusal has been reported: what `Commits` says of the machine, as far as the acts of a commit depend on it. -/
structure State.Quiet (s : State) (k : Nat) : Prop where
  free : s.mode (s.rgnOf (tileOf k)) = 0
  dark : bitAt (csrOf (s.region (s.rgnOf (tileOf k))).csr 0x310) 0 = false
  clear : ∀ j, (s.ts j).stops.pendingFaults = []
  whole : ∀ j, ∀ e ∈ (s.ts j).eng.journal, ∀ c, e.state ≠ .refused c true

/-- A record of a quiet thread set's tile is not written. -/
theorem State.Quiet.trace_eq {s : State} {k : Nat} (h : s.Quiet k) (kind ts coord cyc w1 w2 w3 : Nat) :
    s.trace (s.rgnOf (tileOf k)) kind ts coord cyc w1 w2 w3 = s := by simp [State.trace, h.dark]
theorem State.Quiet.traceTile_eq {s : State} {k : Nat} (h : s.Quiet k) (kind ts w1 w2 w3 : Nat) :
    s.traceTile (tileOf k) kind ts w1 w2 w3 = s := h.trace_eq ..

/-- What `Quiet` speaks of, kept from one state to another. -/
theorem State.Quiet.of_eq {s u : State} {k : Nat} (h : s.Quiet k) (hr : u.rgnOf (tileOf k) = s.rgnOf (tileOf k))
    (hm : u.mode (s.rgnOf (tileOf k)) = s.mode (s.rgnOf (tileOf k)))
    (hc : csrOf (u.region (s.rgnOf (tileOf k))).csr 0x310 = csrOf (s.region (s.rgnOf (tileOf k))).csr 0x310)
    (hp : ∀ j, (u.ts j).stops.pendingFaults = (s.ts j).stops.pendingFaults)
    (hj : ∀ j, ∀ e ∈ (u.ts j).eng.journal, e ∈ (s.ts j).eng.journal ∨ ∀ c, e.state ≠ .refused c true) : u.Quiet k where
  free := by rw [hr, hm, h.free]
  dark := by rw [hr, hc, h.dark]
  clear j := by rw [hp, h.clear]
  whole j e he := (hj j e he).elim (h.whole j e) id
theorem State.Quiet.of_still {s u : State} {k : Nat} (h : s.Quiet k) (g : s.Still u) : u.Quiet k :=
  h.of_eq (g.rgnOf _) (g.mode _) (by rw [g.region]) (fun j => by rw [g.ts]) (fun j e he => .inl (by rwa [g.ts] at he))
/-- A change of one thread set that records no fault and no refusal. -/
theorem State.Quiet.updTs {s : State} {k : Nat} (h : s.Quiet k) (j : Nat) {f : ThreadSet → ThreadSet}
    (hp : (f (s.ts j)).stops.pendingFaults = (s.ts j).stops.pendingFaults)
    (hj : ∀ e ∈ (f (s.ts j)).eng.journal, e ∈ (s.ts j).eng.journal ∨ ∀ c, e.state ≠ .refused c true) : (s.updTs j f).Quiet k := by
  refine h.of_eq rfl rfl rfl (fun i => ?_) fun i e he => ?_
  · by_cases hi : i = j
    · subst hi
      rw [State.ts_updTs, hp]
    · rw [State.ts_updTs_of_ne s hi]
  · by_cases hi : i = j
    · subst hi
      rw [State.ts_updTs] at he
      exact hj e he
    · rw [State.ts_updTs_of_ne s hi] at he
      exact .inl he
/-- A change of a tile that stays in its region. -/
theorem State.Quiet.updTile {s : State} {k : Nat} (h : s.Quiet k) (t : Nat) {f : Tile → Tile} (hf : (f (s.tile t)).rgn = (s.tile t).rgn) :
    (s.updTile t f).Quiet k := by
  refine h.of_eq ?_ rfl rfl (fun _ => rfl) fun _ _ he => .inl he
  by_cases ht : tileOf k = t
  · simp only [State.rgnOf, ht, State.tile_updTile, hf]
  · simp only [State.rgnOf, State.tile_updTile_of_ne s ht]
/-- A region after a change, in the region table. -/
theorem State.region_updRegion_cases (s : State) (r j : Nat) (f : Region → Region) :
    (s.updRegion r f).region j = s.region j ∨ (j = r ∧ (s.updRegion r f).region j = f (s.region j)) := by
  by_cases hj : j = r
  · subst hj
    cases hs : s.hasRegion j with
    | true => exact .inr ⟨rfl, State.region_updRegion s j f hs⟩
    | false =>
      left
      have hn : AMap.find j s.regions = none := by simpa [State.hasRegion] using hs
      simp [State.region, State.updRegion, AMap.get, AMap.find_modify_same, hn]
  · exact .inl (State.region_updRegion_of_ne s hj f)
/-- A change of a region that leaves its replay mode and its trace session. -/
theorem State.Quiet.updRegion {s : State} {k : Nat} (h : s.Quiet k) (r : Nat) {f : Region → Region}
    (hm : ∀ g, (f g).modeOn = g.modeOn ∧ (f g).closing = g.closing) (hc : ∀ g, csrOf (f g).csr 0x310 = csrOf g.csr 0x310) :
    (s.updRegion r f).Quiet k := by
  rcases s.region_updRegion_cases r (s.rgnOf (tileOf k)) f with e | ⟨-, e⟩
  · exact h.of_eq rfl (by simp only [State.mode, e]) (by rw [e]) (fun _ => rfl) fun _ _ he => .inl he
  · exact h.of_eq rfl (by simp only [State.mode, e, (hm _).1, (hm _).2]) (by rw [e, hc]) (fun _ => rfl) fun _ _ he => .inl he

/-! ## Block boundaries at which nothing is recorded -/

/-- No thread set has anything recorded that a block boundary takes. -/
def State.Settled (s : State) : Prop :=
  (∀ j, (s.ts j).stops.pendingFaults = []) ∧ ∀ j, ∀ e ∈ (s.ts j).eng.journal, ∀ c, e.state ≠ .refused c true

theorem State.Quiet.settled {s : State} {k : Nat} (h : s.Quiet k) : s.Settled := ⟨h.clear, h.whole⟩
theorem State.Settled.of_still {s u : State} (h : s.Settled) (g : s.Still u) : u.Settled :=
  ⟨fun j => by rw [g.ts, h.1], fun j e he => h.2 j e (by rwa [g.ts] at he)⟩
/-- Where nothing is recorded, nothing is taken. -/
theorem State.Settled.takeRecorded {s : State} (h : s.Settled) (k : Nat) : s.Still (s.takeRecorded k) := by
  simp only [State.takeRecorded, h.1 k, List.foldl_nil]
  refine ⟨rfl, rfl, rfl, fun j => ?_, fun _ => ⟨_, _, rfl⟩, fun _ hf => hf⟩
  by_cases e : j = k
  · subst e
    rw [State.ts_updTs, List.filter_eq_self.2 fun e he => ?_, ← h.1 j]
    split
    · rename_i c r hr
      cases r with
      | false => rfl
      | true => exact absurd hr (h.2 j e he c)
    · rfl
  · rw [State.ts_updTs_of_ne s e]

/-- So a boundary of a thread set of any tile leaves the state still. -/
theorem State.Settled.settleOne {s : State} (h : s.Settled) (k : Nat) : s.Still (s.settleOne k) := by
  unfold State.settleOne
  split
  · exact .refl s
  · exact h.takeRecorded k
theorem State.Settled.foldl {α : Type} {f : State → α → State} (hf : ∀ (s : State) x, s.Settled → s.Still (f s x)) (l : List α)
    {s : State} (h : s.Settled) : s.Still (l.foldl f s) := by
  induction l generalizing s with
  | nil => exact .refl s
  | cons x l ih => exact (hf s x h).trans (ih (h.of_still (hf s x h)))
theorem State.Settled.boundary {s : State} (h : s.Settled) (k : Nat) : s.Still (s.boundary k) := by
  have ht := h.takeRecorded k
  unfold State.boundary
  dsimp only
  split
  · exact ht.trans (State.Settled.foldl (fun _ j hs => hs.settleOne j) _ (h.of_still ht))
  · exact ht
theorem State.Settled.settle {s : State} (h : s.Settled) (k : Nat) : s.Still (s.settle k) := by
  unfold State.settle
  split
  · exact .refl s
  · exact h.boundary k
/-- Re-execution discards blocks of the tile's other thread sets, and counts them (R94, R96). -/
theorem State.Settled.reexecute {s : State} (h : s.Settled) (k : Nat) (st : List (Nat × Bytes)) : s.Still (s.reexecute k st) := by
  refine State.Settled.foldl (fun s i hs => ?_) _ h
  dsimp only
  split
  · split
    · have hd : s.Still ((s.discard (4 * tileOf k + i)).updTile (tileOf k) fun x =>
          { x with csr := csrPut x.csr 0x308 (word (min (2 ^ 32 - 1) ((csrOf x.csr 0x308).toNat + 1))) }) :=
        (s.still_discard _).trans (State.Still.updTile _ _ fun _ => ⟨_, _, rfl⟩)
      exact hd.trans ((hs.of_still hd).settle _)
    · exact .refl s
  · exact .refl s

end Sys2Proof.Machine
end

section
/-! SUPPORT. The shape of a commit (R89): what its end, from the flags on, leaves of the state that the acts have made, and which
acts a block with few effects has. -/

namespace Sys2Proof.Machine

open Sys2Proof Sys2Proof.Claims

/-! ## The end of a commit -/

/-- What the acts of a thread set's block on its own memory and registers, and the end of its commit, keep: packets, regions, the
other thread sets, and of its own the engines, the packets that wait and the recorded faults. -/
structure State.Keeps (k : Nat) (m u : State) : Prop where
  net : u.net = m.net
  regions : u.regions = m.regions
  others : ∀ j ≠ k, u.ts j = m.ts j
  eng : (u.ts k).eng = (m.ts k).eng
  outs : (u.ts k).outs = (m.ts k).outs
  faults : (u.ts k).stops.pendingFaults = (m.ts k).stops.pendingFaults
  rgn : ∀ t, (u.tile t).rgn = (m.tile t).rgn
  flight : ∀ j, m.flight j = none → u.flight j = none

/-- What the end of a commit keeps: memory and the scalar registers too. -/
structure State.Ends (k : Nat) (m u : State) : Prop extends State.Keeps k m u where
  mem : u.mem = m.mem
  scalars : (u.ts k).regs.s = (m.ts k).regs.s

variable {k : Nat}

theorem State.Keeps.refl (s : State) : State.Keeps k s s :=
  ⟨rfl, rfl, fun _ _ => rfl, rfl, rfl, rfl, fun _ => rfl, fun _ h => h⟩
theorem State.Keeps.trans {s u v : State} (h : State.Keeps k s u) (g : State.Keeps k u v) : State.Keeps k s v :=
  ⟨g.net.trans h.net, g.regions.trans h.regions, fun j hj => (g.others j hj).trans (h.others j hj),
    g.eng.trans h.eng, g.outs.trans h.outs, g.faults.trans h.faults, fun t => (g.rgn t).trans (h.rgn t),
    fun j hj => g.flight j (h.flight j hj)⟩
theorem State.Ends.refl (s : State) : State.Ends k s s := ⟨.refl s, rfl, rfl⟩
theorem State.Ends.trans {s u v : State} (h : State.Ends k s u) (g : State.Ends k u v) : State.Ends k s v :=
  ⟨h.toKeeps.trans g.toKeeps, g.mem.trans h.mem, g.scalars.trans h.scalars⟩
theorem State.Still.ends {s u : State} (h : s.Still u) : State.Ends k s u :=
  ⟨⟨h.net, h.regions, fun j _ => h.ts j, by rw [h.ts], by rw [h.ts], by rw [h.ts], h.tileRgn, h.flight⟩, h.mem, by rw [h.ts]⟩
/-- A change of the thread set's own registers, flags and exits. -/
theorem State.Keeps.updTs (s : State) {f : ThreadSet → ThreadSet} (he : ∀ a, (f a).eng = a.eng) (ho : ∀ a, (f a).outs = a.outs)
    (hp : ∀ a, (f a).stops.pendingFaults = a.stops.pendingFaults) : State.Keeps k s (s.updTs k f) :=
  ⟨rfl, rfl, fun _ hj => State.ts_updTs_of_ne s hj f, by simp [he], by simp [ho], by simp [hp], fun _ => rfl, fun _ h => h⟩
theorem State.Ends.updTs (s : State) {f : ThreadSet → ThreadSet} (he : ∀ a, (f a).eng = a.eng) (ho : ∀ a, (f a).outs = a.outs)
    (hp : ∀ a, (f a).stops.pendingFaults = a.stops.pendingFaults) (hr : ∀ a, (f a).regs.s = a.regs.s) :
    State.Ends k s (s.updTs k f) := ⟨.updTs s he ho hp, rfl, by simp [hr]⟩
/-- A change of a tile that stays in its region. -/
theorem State.Ends.updTile (s : State) (t : Nat) {f : Tile → Tile} (hf : ∀ x, (f x).rgn = x.rgn) :
    State.Ends k s (s.updTile t f) := by
  refine ⟨⟨rfl, rfl, fun _ _ => rfl, rfl, rfl, rfl, fun j => ?_, fun _ h => h⟩, rfl, rfl⟩
  by_cases e : j = t
  · subst e
    rw [State.tile_updTile, hf]
  · rw [State.tile_updTile_of_ne s e]
/-- A write to memory. -/
theorem State.keeps_putBytes (s : State) (a : Nat) (bs : Bytes) : State.Keeps k s (s.putBytes a bs) := by
  rw [State.putBytes_eq]
  exact ⟨rfl, rfl, fun _ _ => rfl, rfl, rfl, rfl, fun _ => rfl, fun _ h => h⟩
theorem State.Keeps.region {m u : State} (h : State.Keeps k m u) (r : Nat) : u.region r = m.region r := by
  simp [State.region, h.regions]
theorem State.Keeps.rgnOf {m u : State} (h : State.Keeps k m u) (t : Nat) : u.rgnOf t = m.rgnOf t := by simp [State.rgnOf, h.rgn]
theorem State.Ends.byte {m u : State} (h : State.Ends k m u) (a : Nat) : u.byte a = m.byte a := by simp [State.byte, h.mem]
theorem State.Ends.bytes {m u : State} (h : State.Ends k m u) (a n : Nat) : u.bytes a n = m.bytes a n := by
  simp [State.bytes, h.byte]
theorem State.Ends.num {m u : State} (h : State.Ends k m u) (a n : Nat) : u.num a n = m.num a n := by simp [State.num, h.bytes]
theorem State.Keeps.mode {m u : State} (h : State.Keeps k m u) (r : Nat) : u.mode r = m.mode r := by simp [State.mode, h.region]
theorem State.Quiet.of_keeps {m u : State} (h : m.Quiet k) (g : State.Keeps k m u) : u.Quiet k := by
  have hs : ∀ j, (u.ts j).stops.pendingFaults = (m.ts j).stops.pendingFaults ∧ (u.ts j).eng = (m.ts j).eng := fun j => by
    by_cases e : j = k
    · exact e ▸ ⟨g.faults, g.eng⟩
    · rw [g.others j e]
      exact ⟨rfl, rfl⟩
  exact h.of_eq (g.rgnOf _) (g.mode _) (by rw [g.region]) (fun j => (hs j).1) fun j e he => .inl (by rwa [(hs j).2] at he)

/-- The flags of step 6 leave the other registers. -/
theorem Regs.commitFlags_eq (x : Regs) (f : Flight) (fl : BitVec 7) :
    ∃ w e, x.commitFlags f fl = { x with flags := w, mexc := e } := by
  have hfold : ∀ (l : AMap Effect) (y : Regs), (∃ w e, y = { x with flags := w, mexc := e }) →
      ∃ w e, l.foldl (fun x p => match p.2 with
        | .statw _ _ true drm dsat => { x with flags := setDefaults x.flags (BitVec.ofNat 2 drm) dsat }
        | _ => x) y = { x with flags := w, mexc := e } := by
    intro l
    induction l with
    | nil => exact fun _ h => h
    | cons p l ih =>
      rintro y ⟨w, e, rfl⟩
      refine ih _ ?_
      dsimp only
      split <;> exact ⟨_, _, rfl⟩
  refine hfold f.effs _ ?_
  dsimp only
  split <;> split <;> exact ⟨_, _, rfl⟩
theorem State.ends_dropGroups (s : State) (j : Nat) : State.Ends k s (s.dropGroups j) := State.Ends.updTile s _ fun _ => rfl
theorem State.ends_stepCommitted (s : State) : State.Ends k s (s.stepCommitted k) := by
  unfold State.stepCommitted
  dsimp only
  split
  · have hc : State.Ends k s (s.updCluster (clusterOf (tileOf k)) fun x => { x with stepped := true }) :=
      ⟨⟨rfl, rfl, fun _ _ => rfl, rfl, rfl, rfl, fun _ => rfl, fun _ h => h⟩, rfl, rfl⟩
    exact (hc.trans (State.ends_dropGroups _ k)).trans
      (State.Ends.updTs _ (fun _ => rfl) (fun _ => rfl) (fun _ => rfl) fun _ => rfl)
  · exact .refl s
theorem State.regs_stepCommitted (s : State) : ((s.stepCommitted k).ts k).regs = (s.ts k).regs := by
  unfold State.stepCommitted
  dsimp only
  split
  · rw [State.ts_updTs]
    rfl
  · rfl

/-- Step 6 of R89, the trace record and the mark of the thread set that has last committed. -/
def State.flagged (s : State) (k : Nat) (f : Flight) (fl : BitVec 7) (r : Nat) : State :=
  ((s.updTs k fun a => { a with regs := a.regs.commitFlags f (f.raised ||| fl), roundDone := decide (s.mode r = 3) }).traceCommit
    k f).updTile (tileOf k) fun x => { x with lastTs := some (tsNum k) }
/-- The block boundary after a commit: the blocks that execute again, the end of a step, and those that wake. -/
def State.rested (s : State) (k : Nat) (f : Flight) : State := (((s.settle k).reexecute k f.stored).stepCommitted k).wakeAll
/-- What a commit comes to after its acts. -/
def State.closed (s : State) (k : Nat) (f : Flight) (fl : BitVec 7) (ix : Nat) (kd : ExitKind) (dest link : Word) (r : Nat) : State :=
  let s := s.flagged k f fl r
  let s := if s.mode r = 1 ∨ s.mode r = 2 then s.updRegion r fun g => { g with chunk := AMap.upd 0 k (· + 1) g.chunk } else s
  let s := (s.commitExit k ix f kd dest link).rested k f
  if s.chunkOver k then s.diverge r else s

/-- A chunk of a region that runs freely has no end in the log. -/
theorem State.Quiet.chunkOver_eq {s : State} (h : s.Quiet k) : s.chunkOver k = false := by simp [State.chunkOver, h.free]
theorem State.Quiet.traceCommit {s : State} (h : s.Quiet k) (f : Flight) : State.Ends k s (s.traceCommit k f) := by
  have hu : State.Ends k s (s.updTs k fun a => { a with commits := (s.ts k).commits + 1 }) :=
    State.Ends.updTs s (fun _ => rfl) (fun _ => rfl) (fun _ => rfl) fun _ => rfl
  unfold State.traceCommit
  dsimp only
  split
  · rw [(h.of_keeps hu.toKeeps).traceTile_eq]
    exact hu
  · exact hu
theorem State.Quiet.flagged {m : State} (q : m.Quiet k) (f : Flight) (fl : BitVec 7) (r : Nat) :
    State.Ends k m (m.flagged k f fl r) := by
  have h1 : State.Ends k m (m.updTs k fun a => { a with
      regs := a.regs.commitFlags f (f.raised ||| fl), roundDone := decide (m.mode r = 3) }) := by
    refine State.Ends.updTs m (fun _ => rfl) (fun _ => rfl) (fun _ => rfl) fun a => ?_
    obtain ⟨w, e, hw⟩ := a.regs.commitFlags_eq f (f.raised ||| fl)
    rw [hw]
  exact (h1.trans ((q.of_keeps h1.toKeeps).traceCommit f)).trans (State.Ends.updTile _ (tileOf k) fun _ => rfl)
/-- The block boundary keeps what `Ends` says, and the registers. -/
theorem State.Quiet.rested {b : State} (q : b.Quiet k) (f : Flight) :
    State.Ends k b (b.rested k f) ∧ ((b.rested k f).ts k).regs = (b.ts k).regs := by
  have h1 := q.settled.settle k
  have h2 := h1.trans ((q.of_still h1).settled.reexecute k f.stored)
  refine ⟨(h2.ends.trans (State.ends_stepCommitted _)).trans (State.still_wakeAll _).ends, ?_⟩
  rw [State.rested, (State.still_wakeAll _).ts, State.regs_stepCommitted, h2.ts]

/-- The end of a quiet commit that leaves by a jump: it keeps what `Ends` says, and BPC is that of the exit. -/
theorem State.Quiet.closed {m : State} (q : m.Quiet k) (f : Flight) (fl : BitVec 7) (ix : Nat) {kd : ExitKind} (dest link : Word)
    (hk : kd = .goto ∨ kd = .call) :
    State.Ends k m (m.closed k f fl ix kd dest link (m.rgnOf (tileOf k))) ∧
      ((m.closed k f fl ix kd dest link (m.rgnOf (tileOf k))).ts k).regs.bpc = dest := by
  have h1 := q.flagged f fl (m.rgnOf (tileOf k))
  have hmode : ¬((m.flagged k f fl (m.rgnOf (tileOf k))).mode (m.rgnOf (tileOf k)) = 1 ∨
      (m.flagged k f fl (m.rgnOf (tileOf k))).mode (m.rgnOf (tileOf k)) = 2) := by simp [h1.mode, q.free]
  have hexit : ∀ b : State, b.commitExit k ix f kd dest link =
      b.updTs k fun a => { a with regs := { a.regs with bpc := dest, blr := link }, kindOk := 0 } := by
    rcases hk with rfl | rfl <;> exact fun _ => rfl
  have h2 := h1.trans (State.Ends.updTs (k := k) (m.flagged k f fl (m.rgnOf (tileOf k)))
    (f := fun a => { a with regs := { a.regs with bpc := dest, blr := link }, kindOk := 0 })
    (fun _ => rfl) (fun _ => rfl) (fun _ => rfl) fun _ => rfl)
  obtain ⟨h3, hregs⟩ := (q.of_keeps h2.toKeeps).rested f
  simp only [State.closed, if_neg hmode, hexit, (q.of_keeps (h2.trans h3).toKeeps).chunkOver_eq, Bool.false_eq_true, if_false]
  exact ⟨h2.trans h3, by rw [hregs, State.ts_updTs]⟩

/-! ## The acts of a commit -/

/-- The state in which the acts of a commit begin: the block is charged and gone. -/
def State.opened (s : State) (k : Nat) (f : Flight) : State := (s.chargeFlight k f).dropFlight k
theorem State.still_opened (s : State) (k : Nat) (f : Flight) : s.Still (s.opened k f) :=
  (s.still_chargeFlight k f).trans (State.still_dropFlight _ k)
theorem State.flight_opened (s : State) (k : Nat) (f : Flight) : (s.opened k f).flight k = none := State.flight_dropFlight _ k

/-- Steps 1 to 5 of R89, and the flags that appends raise. -/
def State.acted (s : State) (k : Nat) (f : Flight) : State × BitVec 7 :=
  let s := ((((s.commitWrites k f).commitLocal k f).commitPosts k f).commitSends k f).commitStreams k f
  (f.effs.foldl (fun s p => s.commitSctl k p.2) (f.effs.foldl (fun s p => s.commitUnit k p.2) s.1), s.2)

/-- In a region that runs freely the tickets of a commit are none. -/
theorem State.foldl_ticket_of_free {s : State} {r t ts : Nat} (h : s.mode r = 0) (l : List Nat) :
    l.foldl (fun s e => s.ticket r t ts e) s = s := by
  induction l with
  | nil => rfl
  | cons e l ih =>
    have he : s.ticket r t ts e = s := by simp [State.ticket, h]
    rw [List.foldl_cons, he, ih]
/-- A commit opens, acts and closes. -/
theorem State.commitBlock_eq {s : State} {f : Flight} {ix : Nat} {kd : ExitKind} {dest link : Word}
    (h : s.mode (s.rgnOf (tileOf k)) = 0) :
    s.commitBlock k f ix kd dest link =
      ((s.opened k f).acted k f).1.closed k f ((s.opened k f).acted k f).2 ix kd dest link (s.rgnOf (tileOf k)) := by
  simp only [State.commitBlock, State.foldl_ticket_of_free h]
  rfl

/-! ## A block that can commit -/

variable {s : State} {f : Flight} {ix : Nat} {kd : ExitKind} {dest link : Word}

theorem State.Quiet.of_commits (h : Commits s k f ix kd dest link) : s.Quiet k :=
  ⟨h.free, h.dark, h.clear, fun j e he => (h.whole j e he).2⟩
/-- None of the entries of a journal without withheld ones is waited for in vain. -/
theorem releaseStuck_of_commits (h : Commits s k f ix kd dest link) (hp : f.effs.countP (fun p => p.2.posts) ≤ 32) :
    s.releaseStuck k f = false := by
  have hn : s.never k = fun _ => false := funext (State.never_of_clear fun e he => (h.whole k e he).1)
  have hnot : ¬ 32 < f.effs.countP fun p => p.2.posts := by omega
  simp only [State.releaseStuck, hn, Bool.and_false, List.any_eq_false.2 fun _ _ => Bool.false_ne_true, Bool.false_or,
    List.countP_false, Function.const_apply, Nat.zero_add, decide_eq_false hnot, Bool.or_false, List.any_eq_false]
  intro p _
  split <;> simp
/-- The journal of a thread set whose block can commit has room for what it posts (R89). -/
theorem room_of_commits (h : Commits s k f ix kd dest link) (hp : f.effs.countP (fun p => p.2.posts) ≤ 32) :
    (s.ts k).eng.journal.length + f.effs.countP (fun p => p.2.posts) ≤ 32 := by
  have ha := h.able
  simp only [State.canCommit, h.here, h.verdict, releaseStuck_of_commits h hp, Bool.false_or, Bool.and_eq_true] at ha
  obtain ⟨-, ⟨⟨hroom, -⟩, -⟩, -⟩ := ha
  simp only [State.commitRoom, Bool.and_eq_true, decide_eq_true_eq] at hroom
  exact hroom.1.1
/-- BLOCK_COMMIT of a block that can commit and whose checks still stand. -/
theorem exec_of_commits (h : Commits s k f ix kd dest link) (hp : f.effs.countP (fun p => p.2.posts) ≤ 32)
    (hs : s.stands k f = true) : exec (.blockCommit k) s = .next (s.commitBlock k f ix kd dest link) := by
  have e : exec (.blockCommit k) s = whenEnabled "BLOCK_COMMIT" (s.canCommit k) (s.blockCommit k) := rfl
  simp [e, whenEnabled, h.able, State.blockCommit, h.here, h.verdict, hs, releaseStuck_of_commits h hp]

/-- The commit of a quiet block that jumps: what its acts have made is kept, and BPC is that of the exit. -/
theorem commit_of_acted (h : Commits s k f ix kd dest link) (hk : kd = .goto ∨ kd = .call)
    (hp : f.effs.countP (fun p => p.2.posts) ≤ 32) (hs : s.stands k f = true) {m : State} {fl : BitVec 7}
    (hm : (s.opened k f).acted k f = (m, fl)) (hq : m.Quiet k) (hr : m.rgnOf (tileOf k) = s.rgnOf (tileOf k))
    (hf : m.flight k = none) :
    ∃ u, exec (.blockCommit k) s = .next u ∧ u.flight k = none ∧ State.Ends k m u ∧ (u.ts k).regs.bpc = dest := by
  obtain ⟨he, hb⟩ := hq.closed f fl ix dest link hk
  refine ⟨_, exec_of_commits h hp hs, ?_, ?_, ?_⟩ <;> rw [State.commitBlock_eq h.free, hm, ← hr]
  · exact he.flight k hf
  · exact he
  · exact hb

end Sys2Proof.Machine
end

section
/-! SUPPORT. The acts of a block with one effect beside its exit, and of a block that only stores to its own tile (R89). -/

namespace Sys2Proof.Machine

open Sys2Proof Sys2Proof.Claims

/-- A fold over steps that change nothing. -/
theorem List.foldl_eq_self_of_mem {α β : Type} {g : β → α → β} {l : List α} {b : β} (h : ∀ x ∈ l, ∀ b, g b x = b) :
    l.foldl g b = b := by
  induction l generalizing b with
  | nil => rfl
  | cons x l ih => rw [List.foldl_cons, h x (by simp), ih fun y hy => h y (by simp [hy])]

variable {s : State} {k : Nat} {f : Flight} {e : Effect}

/-! ## One effect beside an exit -/

/-- A block has one effect beside an exit. -/
def Flight.Solely (f : Flight) (e : Effect) : Prop :=
  ∃ (j ix : Nat) (kd : ExitKind) (a l : Word), f.effs = [(j, e), (ix, .exit kd a l)] ∨ f.effs = [(ix, .exit kd a l), (j, e)]

theorem Flight.Solely.mem (h : f.Solely e) {p : Nat × Effect} (hp : p ∈ f.effs) : p.2 = e ∨ ∃ kd a l, p.2 = .exit kd a l := by
  obtain ⟨j, ix, kd, a, l, h | h⟩ := h <;> rw [h] at hp <;> simp only [List.mem_cons, List.not_mem_nil, or_false] at hp
  · exact hp.imp (congrArg Prod.snd) fun hp => ⟨kd, a, l, congrArg Prod.snd hp⟩
  · exact hp.symm.imp (congrArg Prod.snd) fun hp => ⟨kd, a, l, congrArg Prod.snd hp⟩
/-- A fold over the effects to which an exit adds nothing is the step of the one effect. -/
theorem Flight.Solely.foldl (h : f.Solely e) {β : Type} {g : β → Nat × Effect → β} (hx : ∀ b i kd a l, g b (i, .exit kd a l) = b)
    (hg : ∀ b i j, g b (i, e) = g b (j, e)) (b : β) : f.effs.foldl g b = g b (0, e) := by
  obtain ⟨j, ix, kd, a, l, h | h⟩ := h <;> simp only [h, List.foldl_cons, List.foldl_nil, hx, hg _ j 0]
theorem Flight.Solely.countP_le (h : f.Solely e) (p : Nat × Effect → Bool) : f.effs.countP p ≤ 32 := by
  refine List.countP_le_length.trans ?_
  obtain ⟨j, ix, kd, a, l, h | h⟩ := h <;> simp [h]
/-- Where an effect stands in the order of LSIDs (R89). -/
def Effect.lsid? : Effect → Option Nat
  | .store l _ _ | .rstore l _ _ _ | .amoLocal l _ _ _ | .amoRemote l _ _ _ | .fence l _ _ | .relUpd l _ => some l
  | _ => none
theorem Flight.byLsid_eq (f : Flight) :
    f.byLsid = f.effs.foldl (fun m p => match p.2.lsid? with | some l => AMap.ins l p.2 m | none => m) [] := by
  refine congrArg (fun g => f.effs.foldl g []) (funext fun m => funext fun p => ?_)
  cases p.2 <;> rfl
theorem Flight.Solely.byLsid (h : f.Solely e) : f.byLsid = match e.lsid? with | some l => [(l, e)] | none => [] := by
  rw [Flight.byLsid_eq, h.foldl (fun _ _ _ _ _ => rfl) fun _ _ _ => rfl]
  cases e.lsid? <;> rfl

theorem Flight.Solely.commitWrites (h : f.Solely e) (he : ∀ r t, e ≠ .wr r t) : s.commitWrites k f = s := by
  refine (h.foldl (fun _ _ _ _ _ => rfl) (fun _ _ _ => rfl) s).trans ?_
  cases e with
  | wr r t => exact absurd rfl (he r t)
  | _ => rfl
theorem Flight.Solely.commitSends (h : f.Solely e) : s.commitSends k f = match (e : Effect) with
    | .send o h a => s.commitSend k o h a
    | .spawn h0 h1 a => s.commitSpawn k h0 h1 a
    | .eos o => s.commitEos k o
    | .steal n => s.commitSteal k n f.snap.remain
    | .resume i w v => s.commitResume k i w v
    | _ => s := by
  unfold State.commitSends
  rw [h.foldl (fun _ _ _ _ _ => rfl) (fun _ _ _ => rfl), h.foldl (fun _ _ _ _ _ => rfl) fun _ _ _ => rfl]
  cases e <;> rfl
theorem Flight.Solely.commitStreams (h : f.Solely e) (hw : ∀ r t, e ≠ .wr r t) (hp : ∀ n g, e ≠ .popped n g) :
    s.commitStreams k f = (s, 0) := by
  unfold State.commitStreams
  rw [h.foldl (fun _ _ _ _ _ => rfl) (fun _ _ _ => rfl), h.foldl (fun _ _ _ _ _ => rfl) fun _ _ _ => rfl]
  cases e with
  | wr r t => exact absurd rfl (hw r t)
  | popped n g => exact absurd rfl (hp n g)
  | _ => rfl
/-- The acts of a block with one effect, none of them a WRITE or a pop. -/
theorem Flight.Solely.acted (h : f.Solely e) (hw : ∀ r t, e ≠ .wr r t) (hp : ∀ n g, e ≠ .popped n g) :
    s.acted k f = (((((s.commitLocal k f).commitPosts k f).commitSends k f).commitUnit k e).commitSctl k e, 0) := by
  simp only [State.acted, h.commitWrites hw, h.commitStreams hw hp]
  rw [h.foldl (fun _ _ _ _ _ => rfl) fun _ _ _ => rfl, h.foldl (fun _ _ _ _ _ => rfl) fun _ _ _ => rfl]

theorem Solely.of_commitsSole (h : commitsSole s k f e) : f.Solely e := by
  obtain ⟨j, ix, kd, dest, link, -, -, h⟩ := h
  exact ⟨j, ix, kd, dest, link, h⟩
/-- What a block without records, bindings and splits was checked against still stands. -/
theorem State.stands_of_plain (h : ∀ p ∈ f.effs, p.2.rec? = none ∧ (∀ n d, p.2 ≠ .sbind n d) ∧ ∀ n, p.2 = .steal n →
    (f.snap.remain.drop (f.snap.remain.length - n)).all (AMap.get [] (s.tile (tileOf k)).coord
      ((s.region (s.rgnOf (tileOf k))).stage (s.tile (tileOf k)).conf.stage).rem).contains = true) : s.stands k f = true := by
  have hrec : (f.effs.filterMap fun p => p.2.rec?) = [] := List.filterMap_eq_nil_iff.2 fun p hp => (h p hp).1
  simp only [State.stands, State.recordsStand, hrec, List.isEmpty_nil, Bool.true_or, Bool.true_and, Bool.and_eq_true,
    State.slotsStand, State.splitStands, List.all_eq_true]
  refine ⟨fun p hp => ?_, fun p hp => ?_⟩
  · split
    · rename_i n d e
      exact absurd e ((h p hp).2.1 n d)
    · rfl
  · split
    · rename_i n e
      exact (h p hp).2.2 n e
    · rfl
/-- An effect that is no record, binding or split leaves the checks of its block standing. -/
theorem Flight.Solely.stands (h : f.Solely e) (hr : e.rec? = none) (hb : ∀ n d, e ≠ .sbind n d) (hn : ∀ n, e ≠ .steal n) :
    s.stands k f = true := by
  refine State.stands_of_plain fun p hp => ?_
  rcases h.mem hp with he | ⟨kd, a, l, he⟩ <;> rw [he]
  · exact ⟨hr, hb, fun n hs => absurd hs (hn n)⟩
  · exact ⟨rfl, fun _ _ => nofun, fun _ => nofun⟩

/-- The commit of a block with one effect: what its acts have made is kept. -/
theorem commitsTo_of_acted (h : commitsSole s k f e) (hs : s.stands k f = true) {m : State} {fl : BitVec 7}
    (hm : (s.opened k f).acted k f = (m, fl)) (hq : m.Quiet k) (hr : m.rgnOf (tileOf k) = s.rgnOf (tileOf k))
    (hf : m.flight k = none) {Q : State → Prop} (hQ : ∀ u, State.Ends k m u → Q u) : commitsTo s k Q := by
  have hsol := Solely.of_commitsSole h
  obtain ⟨j, ix, kd, dest, link, hc, hk, -⟩ := h
  obtain ⟨u, hu, hfl, he, -⟩ := commit_of_acted hc hk (hsol.countP_le _) hs hm hq hr hf
  exact ⟨u, hu, hfl, hQ u he⟩
/-- The state in which the acts of such a block begin is quiet. -/
theorem quiet_opened (h : commitsSole s k f e) : (s.opened k f).Quiet k := by
  obtain ⟨j, ix, kd, dest, link, hc, -⟩ := h
  exact (State.Quiet.of_commits hc).of_still (s.still_opened k f)

end Sys2Proof.Machine
end

section
/-! SUPPORT. Local stores and atomics at commit (R89 step 2): the bytes that they write and what they leave. -/

namespace Sys2Proof.Machine

open Sys2Proof Sys2Proof.Claims

variable {s : State} {k : Nat} {f : Flight}

/-- The bytes of its tile's pool that an effect stores to. -/
def Effect.run? : Effect → Option (Nat × Bytes)
  | .store _ off bs => some (off, bs)
  | .amoLocal _ off o _ => some (off, List.replicate o.bytes (some 0))
  | .lwarm off _ => some (off, List.replicate 16 (some 0))
  | _ => none
theorem Flight.stored_eq (f : Flight) : f.stored = f.effs.filterMap fun p => p.2.run? := by
  refine congrArg (fun g => f.effs.filterMap g) (funext fun p => ?_)
  cases p.2 <;> rfl

/-- One act of step 2. -/
def State.localAct (s : State) (k : Nat) (e : Effect) : State :=
  let t := tileOf k
  match e with
  | .store _ off bs => (s.charge t (s.ctxOf t) 7 (units8 bs.length)).putBytes (poolKey t off) bs
  | .amoLocal _ off o r =>
    let n := o.bytes
    let old := s.num (poolKey t off) n
    let s := (s.charge t (s.ctxOf t) 7 (2 * units8 n)).putNum (poolKey t off) n (amoNew (8 * n) o.op old o.b o.cmp)
    match r with
    | some r => s.updTs k fun a => { a with regs := a.regs.writeScalar r (word old) }
    | none => s
  | _ => s
theorem State.commitLocal_eq (s : State) (k : Nat) (f : Flight) :
    s.commitLocal k f = f.byLsid.foldl (fun s p => s.localAct k p.2) s := by
  refine congrArg (fun g => f.byLsid.foldl g s) (funext fun s => funext fun p => ?_)
  cases p.2 <;> rfl

/-- The old value of an atomic goes to a register of its thread set, or nowhere. -/
theorem State.keeps_localAct (s : State) (e : Effect) : State.Keeps k s (s.localAct k e) := by
  cases e with
  | store l off bs => exact (State.still_charge ..).ends.toKeeps.trans (State.keeps_putBytes _ _ _)
  | amoLocal l off o r =>
    have h : State.Keeps k s ((s.charge (tileOf k) (s.ctxOf (tileOf k)) 7 (2 * units8 o.bytes)).putNum (poolKey (tileOf k) off)
        o.bytes (amoNew (8 * o.bytes) o.op (s.num (poolKey (tileOf k) off) o.bytes) o.b o.cmp)) :=
      (State.still_charge ..).ends.toKeeps.trans (State.keeps_putBytes _ _ _)
    cases r with
    | none => exact h
    | some r => exact h.trans (State.Keeps.updTs _ (f := fun a => { a with regs := a.regs.writeScalar r _ }) (fun _ => rfl) (fun _ => rfl) fun _ => rfl)
  | _ => exact .refl s
/-- An act changes no byte but those of its run. -/
theorem State.byte_localAct (s : State) {e : Effect} {a : Nat}
    (h : ∀ st, e.run? = some st → ∀ i b, st.2[i]? = some (some b) → a ≠ poolKey (tileOf k) st.1 + i) :
    (s.localAct k e).byte a = s.byte a := by
  cases e with
  | store l off bs => exact State.byte_putBytes_of_not_mem _ (h _ rfl)
  | amoLocal l off o r =>
    have hb : ((s.charge (tileOf k) (s.ctxOf (tileOf k)) 7 (2 * units8 o.bytes)).putNum (poolKey (tileOf k) off)
        o.bytes (amoNew (8 * o.bytes) o.op (s.num (poolKey (tileOf k) off) o.bytes) o.b o.cmp)).byte a = s.byte a := by
      refine State.byte_putBytes_of_not_mem _ fun i b hi => h _ rfl i 0 ?_
      have hlt : i < o.bytes := by simpa [leBytes_length] using (List.getElem?_eq_some_iff.1 hi).1
      simp [hlt]
    cases r <;> exact hb
  | _ => rfl

/-- Every effect in LSID order is an effect of the block. -/
theorem Flight.mem_of_mem_byLsid {q : Nat × Effect} (h : q ∈ f.byLsid) : ∃ p ∈ f.effs, p.2 = q.2 ∧ q.2.lsid? = some q.1 := by
  have hfold : ∀ (l : AMap Effect) (m : AMap Effect),
      q ∈ l.foldl (fun m p => match p.2.lsid? with | some l => AMap.ins l p.2 m | none => m) m → q ∈ m ∨ ∃ p ∈ l, p.2 = q.2 ∧ q.2.lsid? = some q.1 := by
    intro l
    induction l with
    | nil => exact fun m hq => .inl hq
    | cons p l ih =>
      intro m hq
      rcases ih _ hq with hm | ⟨p', hp', e⟩
      · dsimp only at hm
        split at hm
        · rename_i i hi
          exact (AMap.mem_of_mem_ins hm).elim (fun e => .inr ⟨p, by simp, by simp [e, hi]⟩) .inl
        · exact .inl hm
      · exact .inr ⟨p', by simp [hp'], e⟩
  rw [Flight.byLsid_eq] at h
  exact (hfold _ _ h).resolve_left (by simp)
theorem AMap.ins_ne_nil {β : Type} (k : Nat) (x : β) (m : AMap β) : AMap.ins k x m ≠ [] := by
  cases m with
  | nil => simp [AMap.ins]
  | cons p m =>
    simp only [AMap.ins]
    split
    · simp
    · split <;> simp
/-- A block with an effect that has an LSID has one in LSID order. -/
theorem Flight.byLsid_ne_nil {p : Nat × Effect} (hp : p ∈ f.effs) (hl : p.2.lsid?.isSome = true) : f.byLsid ≠ [] := by
  have hfold : ∀ (l : AMap Effect) (m : AMap Effect), (m ≠ [] ∨ p ∈ l) →
      l.foldl (fun m p => match p.2.lsid? with | some l => AMap.ins l p.2 m | none => m) m ≠ [] := by
    intro l
    induction l with
    | nil => exact fun m h => h.resolve_right (by simp)
    | cons x l ih =>
      intro m h
      refine ih _ ?_
      dsimp only
      split
      · exact .inl (AMap.ins_ne_nil _ _ _)
      · rename_i hx
        rcases h with h | h
        · exact .inl h
        · rcases List.mem_cons.1 h with rfl | h
          · simp [hx] at hl
          · exact .inr h
  rw [Flight.byLsid_eq]
  exact hfold _ _ (.inr hp)

theorem State.keeps_commitLocal (s : State) (k : Nat) (f : Flight) : State.Keeps k s (s.commitLocal k f) := by
  rw [State.commitLocal_eq]
  generalize f.byLsid = l
  induction l generalizing s with
  | nil => exact .refl s
  | cons p l ih => exact (State.keeps_localAct s p.2).trans (ih _)
/-- Local stores and atomics change no byte but those that the block stores to. -/
theorem State.byte_commitLocal (s : State) {a : Nat}
    (h : ∀ st ∈ f.stored, ∀ i b, st.2[i]? = some (some b) → a ≠ poolKey (tileOf k) st.1 + i) :
    (s.commitLocal k f).byte a = s.byte a := by
  have hrun : ∀ q ∈ f.byLsid, ∀ st, q.2.run? = some st → ∀ i b, st.2[i]? = some (some b) → a ≠ poolKey (tileOf k) st.1 + i := by
    intro q hq st hst
    obtain ⟨p, hp, e, -⟩ := Flight.mem_of_mem_byLsid hq
    exact h st (by rw [Flight.stored_eq]; exact List.mem_filterMap.2 ⟨p, hp, e ▸ hst⟩)
  rw [State.commitLocal_eq]
  generalize f.byLsid = l at hrun ⊢
  induction l generalizing s with
  | nil => rfl
  | cons q l ih =>
    rw [List.foldl_cons, ih _ fun x hx => hrun x (by simp [hx]), State.byte_localAct s (hrun q (by simp))]
/-- A list that yields one value yields it of one element. -/
theorem List.eq_of_filterMap_eq_singleton {α β : Type} {g : α → Option β} {l : List α} {x : β} (h : l.filterMap g = [x]) {p q : α}
    (hp : p ∈ l) (hq : q ∈ l) (hgp : (g p).isSome = true) (hgq : (g q).isSome = true) : p = q := by
  induction l with
  | nil => simp at hp
  | cons a l ih =>
    rw [List.filterMap_cons] at h
    split at h
    · rename_i ha
      have hne : ∀ {z}, z ∈ a :: l → (g z).isSome = true → z ∈ l := fun hz hgz =>
        (List.mem_cons.1 hz).resolve_left fun e => by simp [e, ha] at hgz
      exact ih h (hne hp hgp) (hne hq hgq)
    · have hnil : l.filterMap g = [] := (List.cons.inj h).2
      have ha : ∀ {z}, z ∈ a :: l → (g z).isSome = true → z = a := fun hz hgz =>
        (List.mem_cons.1 hz).resolve_right fun hm => by simp [List.filterMap_eq_nil_iff.1 hnil _ hm] at hgz
      rw [ha hp hgp, ha hq hgq]
/-- The bytes of a block's only store take its values. -/
theorem State.byte_commitLocal_of_only (s : State) {p : Nat × Effect} (hp : p ∈ f.effs) {l off : Nat} {bs : Bytes}
    (he : p.2 = .store l off bs) (ho : f.stored = [(off, bs)])
    (hall : ∀ q ∈ f.effs, q.2.lsid?.isSome = true → q.2.run?.isSome = true) {i : Nat} {b : Byte} (hi : bs[i]? = some (some b)) :
    (s.commitLocal k f).byte (poolKey (tileOf k) off + i) = b := by
  have hne : f.byLsid ≠ [] := Flight.byLsid_ne_nil hp (by simp [he, Effect.lsid?])
  have hsame : ∀ q ∈ f.byLsid, q.2 = .store l off bs := by
    intro q hq
    obtain ⟨p', hp', e, hl⟩ := Flight.mem_of_mem_byLsid hq
    rw [Flight.stored_eq] at ho
    have hpp : p' = p := List.eq_of_filterMap_eq_singleton ho hp' hp (hall p' hp' (by simp [e, hl])) (by simp [he, Effect.run?])
    rw [← e, hpp, he]
  rw [State.commitLocal_eq]
  generalize f.byLsid = m at hne hsame ⊢
  induction m using List.reverseRecOn with
  | nil => exact absurd rfl hne
  | append_singleton m q _ =>
    rw [List.foldl_append, List.foldl_cons, List.foldl_nil, hsame q (by simp)]
    exact State.byte_putBytes_of_mem _ hi

/-- Step 3 does nothing for a block that posts nothing. -/
theorem State.commitPosts_of_none (s : State) (h : ∀ q ∈ f.byLsid, q.2.posts = false) : s.commitPosts k f = s := by
  refine congrArg Prod.snd (List.foldl_eq_self_of_mem (l := f.byLsid) (b := (([] : List (Nat × Nat)), s)) fun q hq acc => ?_)
  have hn := h q hq
  obtain ⟨i, e⟩ := q
  cases e with
  | rstore l a n bs => cases hn
  | amoRemote l a o r => cases hn
  | relUpd l a => cases hn
  | _ => rfl
/-- The acts of a block of local stores and atomics are those of step 2. -/
theorem State.acted_of_local (s : State) (h : ∀ p ∈ f.effs, (∃ l off bs, p.2 = .store l off bs) ∨ (∃ l off o r, p.2 = .amoLocal l off o r) ∨
    ∃ x a l, p.2 = .exit x a l) : s.acted k f = (s.commitLocal k f, 0) := by
  have key : ∀ {β : Type} {g : β → Nat × Effect → β} (b : β), (∀ b i l off bs, g b (i, .store l off bs) = b) →
      (∀ b i l off o r, g b (i, .amoLocal l off o r) = b) → (∀ b i x a l, g b (i, .exit x a l) = b) → f.effs.foldl g b = b := by
    intro β g b h1 h2 h3
    refine List.foldl_eq_self_of_mem fun p hp b => ?_
    obtain ⟨i, e⟩ := p
    rcases h _ hp with ⟨l, off, bs, rfl⟩ | ⟨l, off, o, r, rfl⟩ | ⟨x, a, l, rfl⟩
    · exact h1 ..
    · exact h2 ..
    · exact h3 ..
  have hw : s.commitWrites k f = s := key s (fun _ _ _ _ _ => rfl) (fun _ _ _ _ _ _ => rfl) fun _ _ _ _ _ => rfl
  have hposts : (s.commitLocal k f).commitPosts k f = s.commitLocal k f := by
    refine State.commitPosts_of_none _ fun q hq => ?_
    obtain ⟨p, hp, e, -⟩ := Flight.mem_of_mem_byLsid hq
    rw [← e]
    rcases h p hp with ⟨l, off, bs, h⟩ | ⟨l, off, o, r, h⟩ | ⟨x, a, l, h⟩ <;> rw [h] <;> rfl
  have hsends : ∀ u : State, u.commitSends k f = u := fun u =>
    (key _ (fun _ _ _ _ _ => rfl) (fun _ _ _ _ _ _ => rfl) fun _ _ _ _ _ => rfl).trans
      (key u (fun _ _ _ _ _ => rfl) (fun _ _ _ _ _ _ => rfl) fun _ _ _ _ _ => rfl)
  have hpops : ∀ u : State, f.effs.foldl (fun s p => match p.2 with | .popped n _ => s.updSlot (tileOf k) n Slot.pop | _ => s) u = u :=
    fun u => key u (fun _ _ _ _ _ => rfl) (fun _ _ _ _ _ _ => rfl) fun _ _ _ _ _ => rfl
  have hstreams : ∀ u : State, u.commitStreams k f = (u, 0) := fun u =>
    (key _ (fun _ _ _ _ _ => rfl) (fun _ _ _ _ _ _ => rfl) fun _ _ _ _ _ => rfl).trans (congrArg (·, 0) (hpops u))
  have hunit : ∀ u : State, f.effs.foldl (fun s p => s.commitUnit k p.2) u = u :=
    fun u => key u (fun _ _ _ _ _ => rfl) (fun _ _ _ _ _ _ => rfl) fun _ _ _ _ _ => rfl
  have hsctl : ∀ u : State, f.effs.foldl (fun s p => s.commitSctl k p.2) u = u :=
    fun u => key u (fun _ _ _ _ _ => rfl) (fun _ _ _ _ _ _ => rfl) fun _ _ _ _ _ => rfl
  simp only [State.acted, hw, hposts, hsends, hstreams, hunit, hsctl]

end Sys2Proof.Machine
end

section
/-! SUPPORT. What the commit of a remote access, a release, a local atomic and LWARM does (R89, R137, R143, R144, R147, R275, R280). -/

namespace Sys2Proof.Machine

open Sys2Proof Sys2Proof.Claims

variable {s : State} {k : Nat} {f : Flight}

/-! ## The journal -/

/-- A journal that is not full has a free number below 32, which a new entry takes (R137). -/
theorem freeEntryNum_free {j : List JEntry} (h : j.length < 32) : freeEntryNum j < 32 ∧ ∀ y ∈ j, y.num ≠ freeEntryNum j := by
  have hex : ∃ n < 32, ∀ y ∈ j, y.num ≠ n := by
    by_contra hno
    have hsub : List.range 32 ⊆ j.map JEntry.num := fun n hn => by
      have hn' := List.mem_range.1 hn
      by_contra hmem
      exact hno ⟨n, hn', fun y hy e => hmem (List.mem_map.2 ⟨y, hy, e⟩)⟩
    have hlen := (List.nodup_range.subperm hsub).length_le
    simp at hlen
    omega
  obtain ⟨n, hn, hfree⟩ := hex
  unfold freeEntryNum
  cases hfind : (List.range 32).find? fun n => j.all fun e => decide (e.num ≠ n) with
  | none =>
    have := List.find?_eq_none.1 hfind n (List.mem_range.2 hn)
    simp only [List.all_eq_true, decide_eq_true_eq] at this
    exact absurd hfree this
  | some x =>
    refine ⟨List.mem_range.1 (List.mem_of_find?_eq_some hfind), ?_⟩
    simpa using List.find?_some hfind

/-- The entry that a thread set posts (R137). -/
def ThreadSet.newEntry (x : ThreadSet) (a : Word) (n : Nat) (bs : Bytes) (kind : JKind) (hold : Bool) (after : List Nat)
    (objs : List Word) : JEntry :=
  { num := freeEntryNum x.eng.journal, seq := x.eng.post, addr := a, size := n, bytes := bs, kind := kind,
    state := if hold || !after.isEmpty then .held else .pending, after := after, objs := objs, old := 0, said := a, missed := false,
    dram := false, ahead := 0 }

/-- Posting adds that entry, and names it as what an atomic's register waits for (R92). -/
theorem State.eng_post (s : State) (a : Word) (n : Nat) (bs : Bytes) (kind : JKind) (hold : Bool) (after : List Nat) (objs : List Word) :
    ((s.post k a n bs kind hold after objs).ts k).eng.journal =
        (s.ts k).eng.journal ++ [(s.ts k).newEntry a n bs kind hold after objs] ∧
      ∀ o g, kind = .atomic o (some g) →
        AMap.find (regKey g) ((s.post k a n bs kind hold after objs).ts k).eng.pend = some (freeEntryNum (s.ts k).eng.journal) := by
  refine ⟨by rw [State.post, State.ts_updTs]; rfl, fun o g h => ?_⟩
  subst h
  rw [State.post, State.ts_updTs]
  exact AMap.find_ins_same _ _ _
theorem State.Quiet.post (q : s.Quiet k) (a : Word) (n : Nat) (bs : Bytes) (kind : JKind) (hold : Bool) (after : List Nat)
    (objs : List Word) : (s.post k a n bs kind hold after objs).Quiet k := by
  refine q.updTs k rfl fun e he => ?_
  rcases List.mem_append.1 he with he | he
  · exact .inl he
  · right
    rw [List.mem_singleton.1 he]
    dsimp only
    split <;> exact fun _ => nofun

/-- The objects of an entry are those to which a range around its bytes is bound (R143). -/
theorem mem_boundTo {binds : List (Word × Word × Nat)} {a : Word} {n : Nat} {o : Word} :
    o ∈ boundTo binds a n ↔ ∃ b m, (o, b, m) ∈ binds ∧ b.toNat ≤ a.toNat ∧ a.toNat + n ≤ b.toNat + m := by
  simp [boundTo, and_assoc]

/-! ## Effects that post -/

/-- What a sole effect posts at its place in LSID order, where nothing has been posted before it (R89 step 3). -/
def State.postAct (s : State) (k : Nat) (f : Flight) (e : Effect) : State :=
  match e with
  | .rstore _ a n bs => s.post k a n bs (if space a = 4 then .csr else .store) false [] (boundTo f.snap.binds a n)
  | .amoRemote _ a o r => s.post k a o.bytes [] (.atomic o r) (decide (o.ord = 2))
      (if decide (o.ord = 2) then (s.ts k).eng.journal.map JEntry.seq else []) (boundTo f.snap.binds a o.bytes)
  | .relUpd _ a => s.post k a 8 [] .rel true [] []
  | _ => s
theorem Flight.Solely.posts_of_mem_byLsid {e : Effect} (h : f.Solely e) (he : e.posts = false) {q : Nat × Effect} (hq : q ∈ f.byLsid) :
    q.2.posts = false := by
  obtain ⟨p, hp, hpq, -⟩ := Flight.mem_of_mem_byLsid hq
  rcases h.mem hp with hx | ⟨kd, a, l, hx⟩ <;> rw [← hpq, hx]
  · exact he
  · rfl
theorem Flight.Solely.commitPosts {e : Effect} (h : f.Solely e) : s.commitPosts k f = s.postAct k f e := by
  have hb := h.byLsid
  cases e with
  | rstore l a n bs => simp [State.commitPosts, hb, Effect.lsid?, State.postAct]
  | amoRemote l a o r => simp [State.commitPosts, hb, Effect.lsid?, State.postAct]
  | relUpd l a => simp [State.commitPosts, hb, Effect.lsid?, State.postAct]
  | _ => exact State.commitPosts_of_none s fun q hq => h.posts_of_mem_byLsid rfl hq
theorem Flight.Solely.commitLocal {e : Effect} (h : f.Solely e) : s.commitLocal k f = s.localAct k e := by
  rw [State.commitLocal_eq, h.byLsid]
  cases e <;> rfl

/-- The acts of a block whose one effect posts. -/
theorem Flight.Solely.acted_of_posts {e : Effect} (h : f.Solely e) (he : e.posts = true) : s.acted k f = (s.postAct k f e, 0) := by
  cases e with
  | rstore l a n bs => rw [h.acted (fun _ _ => nofun) fun _ _ => nofun, h.commitSends, h.commitPosts, h.commitLocal]; rfl
  | amoRemote l a o r => rw [h.acted (fun _ _ => nofun) fun _ _ => nofun, h.commitSends, h.commitPosts, h.commitLocal]; rfl
  | relUpd l a => rw [h.acted (fun _ _ => nofun) fun _ _ => nofun, h.commitSends, h.commitPosts, h.commitLocal]; rfl
  | _ => cases he
theorem commitsTo_mono {P Q : State → Prop} (h : commitsTo s k P) (hPQ : ∀ u, P u → Q u) : commitsTo s k Q := by
  obtain ⟨u, hu, hf, hp⟩ := h
  exact ⟨u, hu, hf, hPQ u hp⟩
/-- The journal of a thread set whose block posts has a place (R89). -/
theorem journal_length_of_posts {e : Effect} (h : commitsSole s k f e) (he : e.posts = true) : (s.ts k).eng.journal.length < 32 := by
  have hsol := Solely.of_commitsSole h
  obtain ⟨j, ix, kd, dest, link, hc, -, hE⟩ := h
  have hroom := room_of_commits hc (hsol.countP_le _)
  have hmem : (j, e) ∈ f.effs := by rcases hE with hE | hE <;> simp [hE]
  have hpos : 0 < f.effs.countP fun p => p.2.posts := List.countP_pos_iff.2 ⟨_, hmem, he⟩
  omega
/-- A block whose one effect posts has posted its entry. -/
theorem commitsTo_of_post {e : Effect} {a : Word} {n : Nat} {bs : Bytes} {kind : JKind} {hold : Bool} {after : List Nat}
    {objs : List Word} (h : commitsSole s k f e) (he : e.posts = true)
    (hact : (s.opened k f).postAct k f e = (s.opened k f).post k a n bs kind hold after objs) :
    commitsTo s k fun u => posts s u k ((s.ts k).newEntry a n bs kind hold after objs) ∧
      ∀ o g, kind = .atomic o (some g) → AMap.find (regKey g) (u.ts k).eng.pend = some (freeEntryNum (s.ts k).eng.journal) := by
  have hsol := Solely.of_commitsSole h
  have hst := s.still_opened k f
  have hstands : s.stands k f = true := by
    cases e with
    | rstore l a n bs => exact hsol.stands rfl (fun _ _ => nofun) fun _ => nofun
    | amoRemote l a o r => exact hsol.stands rfl (fun _ _ => nofun) fun _ => nofun
    | relUpd l a => exact hsol.stands rfl (fun _ _ => nofun) fun _ => nofun
    | _ => cases he
  have hnum := freeEntryNum_free (journal_length_of_posts h he)
  have hpost := (s.opened k f).eng_post (k := k) a n bs kind hold after objs
  rw [hst.ts] at hpost
  refine commitsTo_of_acted h hstands (hsol.acted_of_posts he) ?_ ?_ ?_ fun u hu => ?_
  · rw [hact]
    exact (quiet_opened h).post ..
  · rw [hact]
    exact hst.rgnOf _
  · rw [hact]
    exact s.flight_opened k f
  · rw [hact] at hu
    refine ⟨⟨by rw [hu.eng, hpost.1], hnum.1, hnum.2, fun x => ?_⟩, fun o g hk => by rw [hu.eng, hpost.2 o g hk]⟩
    rw [hu.byte]
    exact hst.byte x

/-! ## Effects on the own pool -/

/-- The acts of a block whose one effect is a local atomic. -/
theorem Flight.Solely.acted_amoLocal {l off : Nat} {o : AmoOp} {r : Option Reg} (h : f.Solely (.amoLocal l off o r)) :
    s.acted k f = (s.localAct k (.amoLocal l off o r), 0) := by
  rw [h.acted (fun _ _ => nofun) fun _ _ => nofun, h.commitSends, h.commitPosts, h.commitLocal]
  rfl
/-- A local atomic leaves `amoNew` at its place and the old value in its register (R274, R275). -/
theorem State.localAct_amoLocal (s : State) (l off : Nat) (o : AmoOp) (r : Option Reg) :
    (s.localAct k (.amoLocal l off o r)).bytes (poolKey (tileOf k) off) o.bytes =
        leBytes o.bytes (amoNew (8 * o.bytes) o.op (s.num (poolKey (tileOf k) off) o.bytes) o.b o.cmp) ∧
      ∀ i : BitVec 5, i ≠ 0 → r = some (.s i) →
        AMap.get 0 i.toNat ((s.localAct k (.amoLocal l off o r)).ts k).regs.s = word (s.num (poolKey (tileOf k) off) o.bytes) := by
  refine ⟨?_, fun i hi hr => ?_⟩
  · have h := State.bytes_putAll_same (s.charge (tileOf k) (s.ctxOf (tileOf k)) 7 (2 * units8 o.bytes)) (poolKey (tileOf k) off)
      (leBytes o.bytes (amoNew (8 * o.bytes) o.op (s.num (poolKey (tileOf k) off) o.bytes) o.b o.cmp))
    rw [leBytes_length] at h
    cases r <;> exact h
  · subst hr
    simp only [State.localAct, State.ts_updTs, Regs.writeScalar, if_neg hi, AMap.get_put_same]

/-- The acts of a block whose one effect is LWARM. -/
theorem Flight.Solely.acted_lwarm {off : Nat} {n : Word} (h : f.Solely (.lwarm off n)) :
    s.acted k f = (s.commitLwarm k off n, 0) := by
  rw [h.acted (fun _ _ => nofun) fun _ _ => nofun, h.commitSends, h.commitPosts, h.commitLocal]
  rfl
theorem State.keeps_commitLwarm (s : State) (off : Nat) (n : Word) : State.Keeps k s (s.commitLwarm k off n) :=
  ((State.still_charge ..).ends.toKeeps.trans (State.keeps_putBytes _ _ _)).trans (State.keeps_putBytes _ _ _)
/-- LWARM writes TARGET, clears COUNT and changes no other byte (R280). -/
theorem State.commitLwarm_num (s : State) (off : Nat) (n : Word) :
    (s.commitLwarm k off n).num (poolKey (tileOf k) off) 8 = n.toNat ∧
      (s.commitLwarm k off n).num (poolKey (tileOf k) off + 8) 8 = 0 ∧
      ∀ a, a < poolKey (tileOf k) off ∨ poolKey (tileOf k) off + 16 ≤ a → (s.commitLwarm k off n).byte a = s.byte a := by
  have hkey : poolKey (tileOf k) (off + 8) = poolKey (tileOf k) off + 8 := rfl
  simp only [State.commitLwarm, hkey]
  refine ⟨?_, ?_, fun a ha => ?_⟩
  · rw [State.num_putNum_of_apart _ (by omega), State.num_putNum_same]
    have := n.isLt
    omega
  · rw [State.num_putNum_same, Nat.zero_mod]
  · have hlen : ∀ {v i : Nat} {b : Byte}, ((leBytes 8 v).map some)[i]? = some (some b) → i < 8 := fun hi => by
      simpa [leBytes_length] using (List.getElem?_eq_some_iff.1 hi).1
    rw [State.putNum, State.byte_putBytes_of_not_mem _ fun i b hi => ?_, State.putNum,
      State.byte_putBytes_of_not_mem _ fun i b hi => ?_]
    · rfl
    · have := hlen hi
      omega
    · have := hlen hi
      omega
/-- The commit of a block whose one effect acts on its own pool. -/
theorem commitsTo_of_keeps {e : Effect} (h : commitsSole s k f e) (hs : s.stands k f = true) {m : State}
    (hm : (s.opened k f).acted k f = (m, 0)) (hk : State.Keeps k (s.opened k f) m) {Q : State → Prop}
    (hQ : ∀ u, State.Ends k m u → Q u) : commitsTo s k Q :=
  commitsTo_of_acted h hs hm ((quiet_opened h).of_keeps hk) ((hk.rgnOf _).trans ((s.still_opened k f).rgnOf _))
    (hk.flight k (s.flight_opened k f)) hQ

theorem commitPostings_holds : commitPostings := by
  intro s k f
  refine ⟨fun l a n bs h => ?_, fun l a o r h => ?_, fun l a h => ?_, fun l off o r h => ?_, fun off n h => ?_⟩
  · exact commitsTo_mono (commitsTo_of_post h rfl rfl) fun u hu => ⟨_, hu.1, rfl, rfl, rfl, rfl, rfl, fun o => mem_boundTo⟩
  · refine commitsTo_mono (commitsTo_of_post h rfl rfl) fun u hu => ⟨_, hu.1, rfl, rfl, rfl, fun o => mem_boundTo, ?_, fun g hg => ?_⟩
    · by_cases ho : o.ord = 2 <;> simp [ThreadSet.newEntry, ho]
    · exact hu.2 o g (by rw [hg])
  · exact commitsTo_mono (commitsTo_of_post h rfl rfl) fun u hu => ⟨_, hu.1, rfl, rfl, rfl, rfl⟩
  · have hsol := Solely.of_commitsSole h
    have hst := s.still_opened k f
    obtain ⟨hb, hreg⟩ := (s.opened k f).localAct_amoLocal (k := k) l off o r
    refine commitsTo_of_keeps h (hsol.stands rfl (fun _ _ => nofun) fun _ => nofun) hsol.acted_amoLocal (State.keeps_localAct _ _)
      fun u hu => ⟨?_, fun i hi hr => ?_⟩
    · rw [hu.bytes, hb, hst.num]
    · rw [hu.scalars, hreg i hi hr, hst.num]
  · have hsol := Solely.of_commitsSole h
    obtain ⟨h1, h2, h3⟩ := (s.opened k f).commitLwarm_num (k := k) off n
    refine commitsTo_of_keeps h (hsol.stands rfl (fun _ _ => nofun) fun _ => nofun) hsol.acted_lwarm (State.keeps_commitLwarm _ _ _)
      fun u hu => ⟨?_, ?_, fun a ha => ?_⟩
    · rw [hu.num, h1]
    · rw [hu.num, h2]
    · rw [hu.byte, h3 a ha, (s.still_opened k f).byte]

end Sys2Proof.Machine
end

section
/-! SUPPORT. The words of packet headers that a commit builds (R41, R43, R48), and the states that a commit passes on its way to a
packet that leaves. -/

namespace Sys2Proof.Machine

open Sys2Proof Sys2Proof.Claims

/-! ## Header words -/

theorem word_toNat (n : Nat) : (word n).toNat = n % 2 ^ 64 := BitVec.toNat_ofNat n 64

/-- The colour bit of H0 leaves KIND, PRIO, HANDLER and SEQ (R377). -/
theorem h0_setColour (h : Word) (c : Nat) :
    h0Kind (setField h 39 1 c) = h0Kind h ∧ h0Prio (setField h 39 1 c) = h0Prio h ∧
      h0Handler (setField h 39 1 c) = h0Handler h ∧ h0Seq (setField h 39 1 c) = h0Seq h := by
  have := h.isLt
  simp only [h0Kind, h0Prio, h0Handler, h0Seq, field, setField, at_, word_toNat]
  refine ⟨?_, ?_, ?_, ?_⟩ <;> omega
/-- A SEQ put into H0 (R55). -/
theorem h0_setSeq (h : Word) (q : Nat) : h0Kind (setField h 0 32 q) = h0Kind h ∧ h0Seq (setField h 0 32 q) = q % 2 ^ 32 := by
  have := h.isLt
  simp only [h0Kind, h0Seq, field, setField, at_, word_toNat]
  constructor <;> omega
theorem h0Kind_setPrio (h : Word) (p : Nat) : h0Kind (setField h 54 6 p) = h0Kind h := by
  have := h.isLt
  simp only [h0Kind, field, setField, at_, word_toNat]
  omega
theorem h0Kind_clampPrio (l : Level) (h : Word) : h0Kind (clampPrio l h) = h0Kind h := by
  unfold clampPrio
  dsimp only
  generalize (if l = .user then 39 else 47) = top
  split
  · exact h0Kind_setPrio h _
  · rfl
theorem h0_mkH0 (kind prio handler len nsucc : Nat) (colour : Bool) (stage seq : Nat) :
    h0Kind (mkH0 kind prio handler len nsucc colour stage seq) = kind % 16 ∧
      h0Prio (mkH0 kind prio handler len nsucc colour stage seq) = prio % 64 ∧
      h0Handler (mkH0 kind prio handler len nsucc colour stage seq) = handler % 64 := by
  simp only [h0Kind, h0Prio, h0Handler, field, mkH0, at_, word_toNat]
  refine ⟨?_, ?_, ?_⟩ <;> omega
theorem h1Port_mkH1 (dst src ctx port : Nat) : h1Port (mkH1 dst src ctx port) = port % 4096 := by
  simp only [h1Port, field, mkH1, at_, word_toNat]
  omega

/-! ## On the way to a packet -/

/-- What a commit changes before it sends a packet: energy meters, CSRs of tiles and regions apart from the trace session's, clusters,
and the thread set's record of its task. -/
structure State.Readied (k : Nat) (s u : State) : Prop where
  mem : u.mem = s.mem
  net : u.net = s.net
  region : ∀ r, ∃ c, u.region r = { s.region r with csr := c } ∧ csrOf c 0x310 = csrOf (s.region r).csr 0x310
  regions : ∀ r, (AMap.find r u.regions).isSome = (AMap.find r s.regions).isSome
  others : ∀ j ≠ k, u.ts j = s.ts j
  own : ∃ q, u.ts k = { s.ts k with task := q }
  tile : ∀ t, ∃ m c, u.tile t = { s.tile t with meters := m, csr := c }
  flight : ∀ j, s.flight j = none → u.flight j = none

variable {k : Nat}

theorem State.Readied.trans {s u v : State} (h : State.Readied k s u) (g : State.Readied k u v) : State.Readied k s v where
  mem := g.mem.trans h.mem
  net := g.net.trans h.net
  region r := by
    obtain ⟨c, hc, h1⟩ := h.region r
    obtain ⟨c', hc', h2⟩ := g.region r
    exact ⟨c', by rw [hc', hc], by rw [h2, hc, h1]⟩
  regions r := (g.regions r).trans (h.regions r)
  others j hj := (g.others j hj).trans (h.others j hj)
  own := by
    obtain ⟨q, hq⟩ := h.own
    obtain ⟨q', hq'⟩ := g.own
    exact ⟨q', by rw [hq', hq]⟩
  tile t := by
    obtain ⟨m, c, hm⟩ := h.tile t
    obtain ⟨m', c', hm'⟩ := g.tile t
    exact ⟨m', c', by rw [hm', hm]⟩
  flight j hj := g.flight j (h.flight j hj)
theorem State.Still.readied {s u : State} (h : s.Still u) : State.Readied k s u :=
  ⟨h.mem, h.net, fun r => ⟨_, h.region r, rfl⟩, fun r => by rw [h.regions], fun j _ => h.ts j, ⟨_, h.ts k⟩, h.tile, h.flight⟩
theorem State.Readied.refl (s : State) : State.Readied k s s := (State.Still.refl s).readied

/-- A change of a region neither makes nor removes one. -/
theorem State.hasRegion_updRegion (s : State) (r j : Nat) (f : Region → Region) : (s.updRegion r f).hasRegion j = s.hasRegion j := by
  by_cases hj : j = r
  · subst hj
    simp [State.hasRegion, State.updRegion, AMap.find_modify_same]
  · simp [State.hasRegion, State.updRegion, AMap.find_modify_of_ne hj]
/-- The count of clamps is a CSR of the region (R48). -/
theorem State.readied_clamp (s : State) (t : Nat) (h : Word) : State.Readied k s (s.clamp t h).2 := by
  unfold State.clamp
  dsimp only
  split
  · exact .refl s
  · refine ⟨rfl, rfl, fun r => ?_, fun r => State.hasRegion_updRegion .., fun _ _ => rfl, ⟨_, rfl⟩, fun _ => ⟨_, _, rfl⟩, fun _ h => h⟩
    rcases s.region_updRegion_cases (s.rgnOf t) r
      (fun g => { g with csr := csrPut g.csr 0x005 (word (min (2 ^ 32 - 1) (field (csrOf g.csr 0x005) 0 32 + 1))) }) with e | ⟨-, e⟩
    · exact ⟨_, e, rfl⟩
    · exact ⟨_, e, csrOf_csrPut_of_ne _ (by decide) _⟩
theorem State.readied_stepSends (s : State) (o : Nat) (h : Word) (b : List Byte) : State.Readied k s (s.stepSends k o h b) := by
  unfold State.stepSends
  dsimp only
  split_ifs
  · exact ⟨rfl, rfl, fun _ => ⟨_, rfl, rfl⟩, fun _ => rfl, fun _ _ => rfl, ⟨_, rfl⟩, fun _ => ⟨_, _, rfl⟩, fun _ h => h⟩
  · exact .refl s
/-- A change of the thread set's record of its task. -/
theorem State.readied_updTask (s : State) (f : ThreadSet → Option Task) :
    State.Readied k s (s.updTs k fun b => { b with task := f b }) :=
  ⟨rfl, rfl, fun _ => ⟨_, rfl, rfl⟩, fun _ => rfl, fun _ hj => State.ts_updTs_of_ne s hj _, ⟨_, State.ts_updTs ..⟩,
    fun _ => ⟨_, _, rfl⟩, fun _ h => h⟩

namespace State.Readied
variable {s u : State} (h : State.Readied k s u)
include h

theorem hasRegion (r : Nat) : u.hasRegion r = s.hasRegion r := h.regions r
theorem conf (t : Nat) : (u.tile t).conf = (s.tile t).conf := by
  obtain ⟨_, _, e⟩ := h.tile t
  rw [e]
theorem coord (t : Nat) : (u.tile t).coord = (s.tile t).coord := by
  obtain ⟨_, _, e⟩ := h.tile t
  rw [e]
theorem rgnOf (t : Nat) : u.rgnOf t = s.rgnOf t := by
  obtain ⟨_, _, e⟩ := h.tile t
  simp [State.rgnOf, e]
theorem level (t : Nat) : u.level t = s.level t := by simp [State.level, h.coord]
theorem edges (r : Nat) : (u.region r).edges = (s.region r).edges := by
  obtain ⟨_, e, _⟩ := h.region r
  rw [e]
theorem edge (r e : Nat) : (u.region r).edge e = (s.region r).edge e := by simp [Region.edge, h.edges]
theorem stage (r n : Nat) : (u.region r).stage n = (s.region r).stage n := by
  obtain ⟨_, e, _⟩ := h.region r
  rw [e]
  rfl
theorem translate (r c : Nat) (user : Bool) : (u.region r).translate c user = (s.region r).translate c user := by
  obtain ⟨_, e, _⟩ := h.region r
  rw [e]
  rfl
theorem tileAt? (r c : Nat) : (u.region r).tileAt? c = (s.region r).tileAt? c := by simp [Region.tileAt?, h.translate]
theorem isReplica (t : Nat) : (u.tile t).isReplica = (s.tile t).isReplica := by simp [Tile.isReplica, h.conf]
theorem outEdge (t o : Nat) : u.outEdge t o = s.outEdge t o := by simp [State.outEdge, h.conf, h.stage, h.rgnOf]
theorem systemTile (t c : Nat) : u.systemTile t c = s.systemTile t c := by simp [State.systemTile, h.level, h.tileAt?, h.rgnOf]
theorem outs : (u.ts k).outs = (s.ts k).outs := by
  obtain ⟨_, e⟩ := h.own
  rw [e]
theorem eng : (u.ts k).eng = (s.ts k).eng := by
  obtain ⟨_, e⟩ := h.own
  rw [e]
theorem relClear : u.relClear k = s.relClear k := by simp [State.relClear, h.eng]
theorem byte (a : Nat) : u.byte a = s.byte a := by simp [State.byte, h.mem]
theorem bytes (a n : Nat) : u.bytes a n = s.bytes a n := by simp [State.bytes, h.byte]
theorem clearWay_iff : clearWay u k ↔ clearWay s k := by simp [clearWay, h.outs, h.relClear]
theorem quiet (q : s.Quiet k) : u.Quiet k := by
  have hts : ∀ j, (u.ts j).stops = (s.ts j).stops ∧ (u.ts j).eng = (s.ts j).eng := fun j => by
    by_cases e : j = k
    · obtain ⟨_, hq⟩ := h.own
      rw [e, hq]
      exact ⟨rfl, rfl⟩
    · rw [h.others j e]
      exact ⟨rfl, rfl⟩
  obtain ⟨c, hc, hd⟩ := h.region (s.rgnOf (tileOf k))
  refine q.of_eq (h.rgnOf _) ?_ ?_ (fun j => by rw [(hts j).1]) fun j e he => .inl (by rwa [(hts j).2] at he)
  · simp only [State.mode, hc]
  · rw [hc, hd]

end State.Readied

end Sys2Proof.Machine
end

section
/-! SUPPORT. How a packet of a commit leaves or waits (R39, R55, R146, R294, R296). -/

namespace Sys2Proof.Machine

open Sys2Proof Sys2Proof.Claims

variable {k : Nat}

/-! ## States with a packet more -/

/-- What sending a packet keeps, from a quiet state to a quiet one. -/
structure State.Passes (k : Nat) (s u : State) : Prop where
  mem : u.mem = s.mem
  rgn : ∀ t, (u.tile t).rgn = (s.tile t).rgn
  flight : ∀ j, s.flight j = none → u.flight j = none
  quiet : u.Quiet k

theorem State.Passes.trans {s u v : State} (h : State.Passes k s u) (g : State.Passes k u v) : State.Passes k s v :=
  ⟨g.mem.trans h.mem, fun t => (g.rgn t).trans (h.rgn t), fun j hj => g.flight j (h.flight j hj), g.quiet⟩
theorem State.Readied.passes {s u : State} (h : State.Readied k s u) (q : s.Quiet k) : State.Passes k s u :=
  ⟨h.mem, fun t => by obtain ⟨_, _, e⟩ := h.tile t; rw [e], h.flight, h.quiet q⟩
theorem State.Quiet.passes_refl {s : State} (q : s.Quiet k) : State.Passes k s s := (State.Readied.refl s).passes q
/-- A change of a region's edges or stages. -/
theorem State.Quiet.passes_updRegion {s : State} (q : s.Quiet k) (r : Nat) {f : Region → Region}
    (hf : ∀ g, (f g).modeOn = g.modeOn ∧ (f g).closing = g.closing ∧ (f g).csr = g.csr) : State.Passes k s (s.updRegion r f) :=
  ⟨rfl, fun _ => rfl, fun _ h => h, q.updRegion r (fun g => ⟨(hf g).1, (hf g).2.1⟩) fun g => by rw [(hf g).2.2]⟩
/-- A packet that waits at its thread set. -/
theorem State.Quiet.passes_wait {s : State} (q : s.Quiet k) (o : OutTok) :
    State.Passes k s (s.updTs k fun a => { a with outs := a.outs ++ [o] }) :=
  ⟨rfl, fun _ => rfl, fun _ h => h, q.updTs k rfl fun _ he => .inl he⟩

/-- A packet of a thread set's tile is in the network: what `Passes` says, and the packet's fields. -/
structure State.Emits (k d : Nat) (s u : State) (h0 h1 : Word) (body : List Byte) (slices : List Nat) : Prop extends
    State.Passes k s u where
  regions : u.regions = s.regions
  ts : ∀ j, u.ts j = s.ts j
  packet : ∃ p, u.net = s.net ++ [p] ∧ p.src = tileOf k ∧ p.dst = d ∧ p.body = body ∧ p.h1 = h1 ∧ p.slices = slices ∧
    h0Kind p.h0 = h0Kind h0 ∧ h0Prio p.h0 = h0Prio h0 ∧ h0Handler p.h0 = h0Handler h0 ∧ h0Seq p.h0 = h0Seq h0

theorem State.Quiet.emits {s : State} (q : s.Quiet k) (d : Nat) (h0 h1 : Word) (body : List Byte) (st ed : Option (Nat × Nat))
    (slices : List Nat) (ts : Nat) :
    State.Emits k d s (s.emit (tileOf k) d h0 h1 body st ed slices ts) h0 h1 body slices := by
  have q1 := (q.updTile (tileOf k) (f := fun x => { x with sent := countPair x.sent (s.tile (tileOf k)).colour }) rfl).of_still
    (State.still_charge _ (tileOf k) ((s.updTile (tileOf k) fun x => { x with sent := countPair x.sent (s.tile (tileOf k)).colour }).ctxOf
      (tileOf k)) 8 ((h0Len (setField h0 39 1 (s.tile (tileOf k)).colour.toNat) + 1) * hops (tileOf k) d))
  simp only [State.emit, q1.traceTile_eq]
  refine ⟨⟨rfl, fun t => ?_, fun _ h => h, q1.of_eq rfl rfl rfl (fun _ => rfl) fun _ _ he => .inl he⟩, rfl, fun _ => rfl,
    _, rfl, rfl, rfl, rfl, rfl, rfl, h0_setColour ..⟩
  refine (State.Still.tileRgn (State.still_charge ..) t).trans ?_
  by_cases ht : t = tileOf k
  · subst ht
    rw [State.tile_updTile]
  · rw [State.tile_updTile_of_ne s ht]

/-! ## Leaving and waiting -/

theorem State.sendNow_of_clear {s : State} (h : clearWay s k) (o : OutTok) : s.sendNow k o = s.emitOut k o := by
  obtain ⟨h1, h2⟩ := h
  simp [State.sendNow, h1, h2]
theorem State.sendNow_of_waits {s : State} (h : ¬clearWay s k) (o : OutTok) :
    s.sendNow k o = s.updTs k fun a => { a with outs := a.outs ++ [o] } := by
  have hn : ((s.ts k).outs.isEmpty && s.relClear k) = false := by
    rw [Bool.eq_false_iff]
    intro hc
    rw [Bool.and_eq_true, List.isEmpty_iff] at hc
    exact h hc
  simp [State.sendNow, hn]

/-- A packet that a program sends on an edge is no hole. -/
theorem State.emitOut_edge (s : State) {o : OutTok} {e : Nat} (he : o.edge = some e) (hs : o.send = true) :
    s.emitOut k o = s.sendEdge (tileOf k) (s.rgnOf (tileOf k)) e o.h0 o.body o.keep (tsNum k) := by
  simp [State.emitOut, he, OutTok.isHole, hs]
/-- A system or steal packet goes to the tile that it names (R63, R304). -/
theorem State.emitOut_system (s : State) {o : OutTok} {d : Nat} (he : o.edge = none) (hk : 6 ≤ h0Kind o.h0)
    (hd : s.systemTile (tileOf k) o.dst = some d) : s.emitOut k o = s.emit (tileOf k) d o.h0
      (mkH1 o.dst (s.tile (tileOf k)).coord (s.ctxOf (tileOf k)) o.port) o.body none none o.slices (tsNum k) := by
  simp [State.emitOut, he, hk, hd]
/-- A packet to another tile of the region goes there (R296). -/
theorem State.emitOut_at (s : State) {o : OutTok} {d : Nat} (he : o.edge = none) (hk : h0Kind o.h0 < 6)
    (hd : (s.region (s.rgnOf (tileOf k))).translate o.dst (decide (s.level (tileOf k) = .user)) = .at d) (ht : d ≠ tileOf k) :
    s.emitOut k o = s.emit (tileOf k) d o.h0 (mkH1 o.dst (s.tile (tileOf k)).coord (s.region (s.rgnOf (tileOf k))).ctx o.port)
      o.body none none [] (tsNum k) := by
  simp [State.emitOut, he, hk, hd, ht]

/-! ## Edges -/

/-- An edge after a packet of a kind has left on it (R39, R55, R444). -/
def Edge.afterSend (d : Edge) (kind : Nat) : Edge :=
  { d with credits := d.credits - 1, next := (d.next + 1) % 2 ^ 32, closed := d.closed || decide (kind = 2), eosLeft := decide (kind = 2) }
theorem State.region_updEdge {s : State} {r : Nat} (hr : s.hasRegion r = true) (e : Nat) (f : Edge → Edge) :
    (s.updEdge r e f).region r = { s.region r with edges := AMap.modify e f (s.region r).edges } := State.region_updRegion s r _ hr
/-- A change of an edge that is there, in the region that has it. -/
theorem State.edge_updEdge {s : State} {r e : Nat} (hr : s.hasRegion r = true) (he : (AMap.find e (s.region r).edges).isSome = true)
    (f : Edge → Edge) : ((s.updEdge r e f).region r).edge e = f ((s.region r).edge e) := by
  obtain ⟨d, hd⟩ := Option.isSome_iff_exists.1 he
  rw [State.region_updEdge hr]
  simp [Region.edge, AMap.get, AMap.find_modify_same, hd]
theorem State.Quiet.passes_updEdge {s : State} (q : s.Quiet k) (r e : Nat) (f : Edge → Edge) : State.Passes k s (s.updEdge r e f) :=
  q.passes_updRegion r fun _ => ⟨rfl, rfl, rfl⟩
/-- A packet on an open edge to a tile of the region takes a credit and a SEQ and is emitted there. -/
theorem State.sendEdge_tile {s : State} {t r e c p d : Nat} {h0 : Word} {body : List Byte} {keep : Bool} {ts : Nat}
    (hl : ((s.region r).edge e).eosLeft = false) (hz : ((s.region r).edge e).frozen = none)
    (hd : ((s.region r).edge e).dst = .tile c p) (ht : (s.region r).translate c true = .at d) :
    ∃ h1, s.sendEdge t r e h0 body keep ts = (s.updEdge r e fun x => x.afterSend (h0Kind h0)).emit t d
      (setField h0 0 32 (if keep then (h0Seq h0 + ((s.region r).edge e).initial) % 2 ^ 32 else ((s.region r).edge e).next)) h1
      body none (some (r, e)) [] ts := by
  simp only [State.sendEdge, hl, hz, hd, ht, (h0_setSeq h0 _).1, Bool.false_eq_true, if_false]
  exact ⟨_, rfl⟩
/-- So the edge, the thread sets, and the packet. -/
theorem State.Quiet.sendEdge_tile {s : State} (q : s.Quiet k) {r e c p d : Nat} {h0 : Word} {body : List Byte} {keep : Bool} {ts : Nat}
    (hr : s.hasRegion r = true) (he : (AMap.find e (s.region r).edges).isSome = true)
    (hl : ((s.region r).edge e).eosLeft = false) (hz : ((s.region r).edge e).frozen = none)
    (hd : ((s.region r).edge e).dst = .tile c p) (ht : (s.region r).translate c true = .at d) :
    State.Passes k s (s.sendEdge (tileOf k) r e h0 body keep ts) ∧
      ((s.sendEdge (tileOf k) r e h0 body keep ts).region r).edge e = ((s.region r).edge e).afterSend (h0Kind h0) ∧
      ∃ p, (s.sendEdge (tileOf k) r e h0 body keep ts).net = s.net ++ [p] ∧ p.src = tileOf k ∧ p.dst = d ∧ p.body = body ∧
        h0Kind p.h0 = h0Kind h0 ∧ h0Seq p.h0 =
          (if keep then (h0Seq h0 + ((s.region r).edge e).initial) % 2 ^ 32 else ((s.region r).edge e).next) % 2 ^ 32 := by
  obtain ⟨h1, hs⟩ := State.sendEdge_tile (t := tileOf k) (h0 := h0) (body := body) (keep := keep) (ts := ts) hl hz hd ht
  have hp := q.passes_updEdge r e fun x => x.afterSend (h0Kind h0)
  generalize (if keep then _ else _) = n at hs ⊢
  have hE := hp.quiet.emits d (setField h0 0 32 n) h1 body none (some (r, e)) [] ts
  obtain ⟨hk, hq⟩ := h0_setSeq h0 n
  rw [hs]
  obtain ⟨x, hnet, hsrc, hdst, hbody, -, -, hkind, -, -, hseq⟩ := hE.packet
  refine ⟨hp.trans hE.toPasses, ?_, x, hnet, hsrc, hdst, hbody, hkind.trans hk, hseq.trans hq⟩
  rw [State.region, hE.regions]
  exact State.edge_updEdge hr he _

/-! ## The commit of a packet -/

variable {s : State} {f : Flight} {e : Effect}

/-- Whether an effect sends a packet at commit (R89 step 4). -/
def Effect.leaves : Effect → Bool
  | .send .. | .spawn .. | .eos _ | .steal _ | .resume .. => true
  | _ => false
theorem Flight.Solely.acted_of_leaves (h : f.Solely e) (he : e.leaves = true) : s.acted k f = (s.commitSends k f, 0) := by
  have hact : ∀ (hw : ∀ r t, e ≠ .wr r t) (hp : ∀ n g, e ≠ .popped n g), s.acted k f =
      ((((s.localAct k e).postAct k f e).commitSends k f).commitUnit k e |>.commitSctl k e, 0) := fun hw hp => by
    rw [h.acted hw hp, h.commitPosts, h.commitLocal]
  cases e with
  | send o x a => exact hact (fun _ _ => nofun) fun _ _ => nofun
  | spawn x y a => exact hact (fun _ _ => nofun) fun _ _ => nofun
  | eos o => exact hact (fun _ _ => nofun) fun _ _ => nofun
  | steal n => exact hact (fun _ _ => nofun) fun _ _ => nofun
  | resume i w v => exact hact (fun _ _ => nofun) fun _ _ => nofun
  | _ => cases he
/-- The commit of a block whose one effect sends a packet. -/
theorem commitsTo_of_leaves (h : commitsSole s k f e) (he : e.leaves = true) (hs : s.stands k f = true) {m : State}
    (hm : (s.opened k f).commitSends k f = m) (hp : State.Passes k (s.opened k f) m) {Q : State → Prop}
    (hQ : ∀ u, State.Ends k m u → sameBytes s u → Q u) : commitsTo s k Q := by
  have hst := s.still_opened k f
  refine commitsTo_of_acted h hs (((Solely.of_commitsSole h).acted_of_leaves he).trans (by rw [hm])) hp.quiet ?_
    (hp.flight k (s.flight_opened k f)) fun u hu => hQ u hu fun a => ?_
  · rw [State.rgnOf, hp.rgn]
    exact hst.rgnOf _
  · rw [hu.byte, State.byte, hp.mem]
    exact hst.byte a

end Sys2Proof.Machine
end

section
/-! SUPPORT. What the commits of SEND, SPAWN, EOS and RESUME do (R55, R146, R294 to R296, R299, R304). -/

namespace Sys2Proof.Machine

open Sys2Proof Sys2Proof.Claims

variable {k : Nat} {s : State} {f : Flight}

theorem field_pool (a : Word) : field a 0 17 = a.toNat % 2 ^ 17 := by simp [field]
theorem h0Seq_mod (h : Word) : h0Seq h % 2 ^ 32 = h0Seq h := Nat.mod_eq_of_lt (Nat.mod_lt _ (by decide))
theorem State.task_readied_sends (s : State) (o : Nat) (h : Word) (b : List Byte) (j : Nat) :
    (((s.chargePayload k h).clamp (tileOf k) h).2.stepSends k o ((s.chargePayload k h).clamp (tileOf k) h).1 b).ts j = s.ts j := by
  unfold State.stepSends State.clamp
  dsimp only
  split_ifs <;> rfl

/-! ## SEND -/

/-- The packet of a SEND, and the state that it leaves (R55, R294): a replica's has its task's SEQ. -/
theorem State.commitSend_eq (s : State) (k o : Nat) (h a : Word) : ∃ (u : State) (h' : Word), State.Readied k s u ∧
    h0Kind h' = h0Kind h ∧
    ((s.tile (tileOf k)).isReplica = true → ∀ b, (s.ts k).task = some b → h0Seq h' = h0Seq b.h0) ∧
    s.commitSend k o h a = u.sendNow k
      { port := 0, dst := 0, h0 := h', body := s.bytes (poolKey (tileOf k) (a.toNat % 2 ^ 17)) (bodyLen h),
        edge := s.outEdge (tileOf k) o, spawn := false, send := true, keep := (s.tile (tileOf k)).isReplica, slices := [] } := by
  have h1 : State.Readied k s (s.chargePayload k h) := (State.still_charge ..).readied
  have h2 := h1.trans (State.readied_clamp (s.chargePayload k h) (tileOf k) h)
  have h3 := h2.trans (State.readied_stepSends (k := k) ((s.chargePayload k h).clamp (tileOf k) h).2 o
    ((s.chargePayload k h).clamp (tileOf k) h).1 (s.bytes (poolKey (tileOf k) (field a 0 17)) (bodyLen h)))
  have hts := s.task_readied_sends (k := k) o h (s.bytes (poolKey (tileOf k) (field a 0 17)) (bodyLen h)) k
  have hkind : h0Kind ((s.chargePayload k h).clamp (tileOf k) h).1 = h0Kind h := h0Kind_clampPrio _ h
  rw [← field_pool]
  unfold State.commitSend
  dsimp only
  generalize (((s.chargePayload k h).clamp (tileOf k) h).2.stepSends k o ((s.chargePayload k h).clamp (tileOf k) h).1
    (s.bytes (poolKey (tileOf k) (field a 0 17)) (bodyLen h))) = v at h3 hts ⊢
  generalize ((s.chargePayload k h).clamp (tileOf k) h).1 = g at hkind ⊢
  cases hx : (s.tile (tileOf k)).isReplica with
  | false =>
    refine ⟨v, g, h3, hkind, fun hc => (by cases hc), ?_⟩
    simp only [Bool.false_eq_true, if_false, h3.outEdge]
  | true =>
    have h4 := h3.trans (v.readied_updTask (k := k) fun b => b.task.map fun q => { q with sent := o :: q.sent })
    simp only [if_true, h4.outEdge, hts]
    cases hq : (s.ts k).task with
    | none => exact ⟨_, _, h4, (h0_setSeq g 0).1.trans hkind, fun _ _ => nofun, rfl⟩
    | some b =>
      refine ⟨_, _, h4, (h0_setSeq g (h0Seq b.h0)).1.trans hkind, fun _ b' hb' => ?_, rfl⟩
      rw [← Option.some.inj hb', (h0_setSeq g _).2, h0Seq_mod]

theorem commitsTo_send_clear {o : Nat} {h a : Word} {e c p d : Nat} (hc : commitsSole s k f (.send o h a))
    (hr : s.hasRegion (s.rgnOf (tileOf k)) = true) (ho : s.outEdge (tileOf k) o = some e) (hw : clearWay s k)
    (hz : ((s.region (s.rgnOf (tileOf k))).edge e).frozen = none) (hl : ((s.region (s.rgnOf (tileOf k))).edge e).eosLeft = false)
    (hd : ((s.region (s.rgnOf (tileOf k))).edge e).dst = .tile c p) (ht : (s.region (s.rgnOf (tileOf k))).translate c true = .at d)
    (he : (AMap.find e (s.region (s.rgnOf (tileOf k))).edges).isSome = true) : commitsTo s k fun u =>
      sameBytes s u ∧ ((u.region (s.rgnOf (tileOf k))).edge e).credits = ((s.region (s.rgnOf (tileOf k))).edge e).credits - 1 ∧
      ∃ q, u.net = s.net ++ [q] ∧ q.src = tileOf k ∧ q.dst = d ∧ q.body = s.bytes (poolKey (tileOf k) (a.toNat % 2 ^ 17)) (bodyLen h) ∧
        h0Kind q.h0 = h0Kind h ∧
        ((s.tile (tileOf k)).isReplica = false → h0Seq q.h0 = ((s.region (s.rgnOf (tileOf k))).edge e).next % 2 ^ 32) ∧
        ∀ b, (s.ts k).task = some b → (s.tile (tileOf k)).isReplica = true →
          h0Seq q.h0 = (h0Seq b.h0 + ((s.region (s.rgnOf (tileOf k))).edge e).initial) % 2 ^ 32 := by
  have hsol := Solely.of_commitsSole hc
  have hst := s.still_opened k f
  obtain ⟨v, g, hv, hkind, hseq, heq⟩ := (s.opened k f).commitSend_eq k o h a
  have hsv := hst.readied.trans hv
  rw [hst.outEdge, ho, hst.bytes, State.sendNow_of_clear (hsv.clearWay_iff.2 hw), State.emitOut_edge _ rfl rfl] at heq
  have qv := hv.quiet (quiet_opened hc)
  obtain ⟨hp, hedge, x, hnet, hsrc, hdst, hbody, hk, hs⟩ := qv.sendEdge_tile (r := v.rgnOf (tileOf k)) (h0 := g)
    (body := s.bytes (poolKey (tileOf k) (a.toNat % 2 ^ 17)) (bodyLen h)) (keep := ((s.opened k f).tile (tileOf k)).isReplica) (ts := tsNum k)
    (by rw [hsv.rgnOf, hsv.hasRegion, hr]) (by rw [hsv.rgnOf, hsv.edges, he]) (by rw [hsv.rgnOf, hsv.edge, hl]) (by rw [hsv.rgnOf, hsv.edge, hz])
    (by rw [hsv.rgnOf, hsv.edge, hd]) (by rw [hsv.rgnOf, hsv.translate, ht])
  refine commitsTo_of_leaves hc rfl (hsol.stands rfl (fun _ _ => nofun) fun _ => nofun) (hsol.commitSends.trans heq)
    ((hv.passes (quiet_opened hc)).trans hp) fun u hu hsame => ⟨hsame, ?_, x, ?_, hsrc, hdst, hbody, hk.trans hkind, fun hrep => ?_, fun b hb hrep => ?_⟩
  · rw [hu.region, ← hsv.rgnOf, hedge, hsv.edge]
    rfl
  · rw [hu.net, hnet, hsv.net]
  · rw [hs, hst.isReplica, hrep, hsv.rgnOf, hsv.edge]
    rfl
  · rw [hs, hst.isReplica, hrep, if_pos rfl, hsv.rgnOf, hsv.edge, hseq (by rw [hst.isReplica, hrep]) b (by rw [hst.ts, hb]), Nat.mod_mod]

/-- A packet that cannot leave at once waits as the last of its thread set (R146). -/
theorem commitsTo_of_waits {e : Effect} (hc : commitsSole s k f e) (he : e.leaves = true) (hs : s.stands k f = true) {v m : State} {o : OutTok}
    (hv : State.Passes k (s.opened k f) v) (hnet : v.net = s.net) (houts : (v.ts k).outs = (s.ts k).outs)
    (heq : (s.opened k f).commitSends k f = v.sendNow k o) (hw : ¬clearWay v k) (hm : v.regions = m.regions) {Q : State → Prop}
    (hQ : ∀ u, sameBytes s u → u.net = s.net → (u.ts k).outs = (s.ts k).outs ++ [o] → (∀ r, u.region r = m.region r) → Q u) : commitsTo s k Q := by
  refine commitsTo_of_leaves hc he hs (heq.trans (State.sendNow_of_waits hw o)) (hv.trans (hv.quiet.passes_wait o)) fun u hu hsame =>
    hQ u hsame (hu.net.trans hnet) ?_ fun r => ?_
  · rw [hu.outs, State.ts_updTs]
    exact congrArg (· ++ [o]) houts
  · rw [hu.region]
    simp [State.region, hm]

theorem commitsTo_send_waits {o : Nat} {h a : Word} (hc : commitsSole s k f (.send o h a)) (hw : ¬clearWay s k) : commitsTo s k fun u =>
    u.net = s.net ∧ ∃ q, (u.ts k).outs = (s.ts k).outs ++ [q] ∧ q.edge = s.outEdge (tileOf k) o ∧
      q.body = s.bytes (poolKey (tileOf k) (a.toNat % 2 ^ 17)) (bodyLen h) := by
  have hsol := Solely.of_commitsSole hc
  have hst := s.still_opened k f
  obtain ⟨v, g, hv, -, -, heq⟩ := (s.opened k f).commitSend_eq k o h a
  have hsv := hst.readied.trans hv
  rw [hst.outEdge, hst.bytes] at heq
  exact commitsTo_of_waits hc rfl (hsol.stands rfl (fun _ _ => nofun) fun _ => nofun) (hv.passes (quiet_opened hc)) hsv.net hsv.outs
    (hsol.commitSends.trans heq) (fun hv' => hw (hsv.clearWay_iff.1 hv')) rfl fun u _ hnet houts _ => ⟨hnet, _, houts, rfl, rfl⟩

/-! ## SPAWN -/

/-- The packet of a SPAWN (R296). -/
theorem State.commitSpawn_eq (s : State) (k : Nat) (h g a : Word) : ∃ (u : State) (h' : Word), State.Readied k s u ∧
    h0Kind h' = h0Kind h ∧
    s.commitSpawn k h g a = u.sendNow k
      { port := h1Port g, dst := h1Dst g, h0 := h', body := s.bytes (poolKey (tileOf k) (a.toNat % 2 ^ 17)) (bodyLen h),
        edge := none, spawn := true, send := true, keep := false, slices := [] } := by
  have h1 : State.Readied k s (s.chargePayload k h) := (State.still_charge ..).readied
  rw [← field_pool]
  exact ⟨_, _, h1.trans (State.readied_clamp (s.chargePayload k h) (tileOf k) h), h0Kind_clampPrio _ h, rfl⟩
theorem commitsTo_spawn_clear {h g a : Word} {d : Nat} (hc : commitsSole s k f (.spawn h g a)) (hw : clearWay s k) (hk : h0Kind h = 0)
    (hd : d ≠ tileOf k) (ht : (s.region (s.rgnOf (tileOf k))).translate (h1Dst g) (decide (s.level (tileOf k) = .user)) = .at d) :
    commitsTo s k fun u => sameBytes s u ∧
      ∃ q, u.net = s.net ++ [q] ∧ q.src = tileOf k ∧ q.dst = d ∧ q.body = s.bytes (poolKey (tileOf k) (a.toNat % 2 ^ 17)) (bodyLen h) ∧
        h0Kind q.h0 = 0 ∧ h1Port q.h1 = h1Port g := by
  have hsol := Solely.of_commitsSole hc
  have hst := s.still_opened k f
  obtain ⟨v, h', hv, hkind, heq⟩ := (s.opened k f).commitSpawn_eq k h g a
  have hsv := hst.readied.trans hv
  have hkind' : h0Kind h' = 0 := hkind.trans hk
  rw [hst.bytes, State.sendNow_of_clear (hsv.clearWay_iff.2 hw), State.emitOut_at (d := d) _ rfl (by simp [hkind'])
    (by rw [hsv.rgnOf, hsv.level, hsv.translate, ht]) hd] at heq
  have hE := (hv.quiet (quiet_opened hc)).emits d h' (mkH1 (h1Dst g) (v.tile (tileOf k)).coord (v.region (v.rgnOf (tileOf k))).ctx (h1Port g))
    (s.bytes (poolKey (tileOf k) (a.toNat % 2 ^ 17)) (bodyLen h)) none none [] (tsNum k)
  obtain ⟨x, hnet, hsrc, hdst, hbody, hh1, -, hk', -⟩ := hE.packet
  refine commitsTo_of_leaves hc rfl (hsol.stands rfl (fun _ _ => nofun) fun _ => nofun) (hsol.commitSends.trans heq)
    ((hv.passes (quiet_opened hc)).trans hE.toPasses) fun u hu hsame => ⟨hsame, x, ?_, hsrc, hdst, hbody, hk'.trans hkind', ?_⟩
  · rw [hu.net, hnet, hsv.net]
  · rw [hh1, h1Port_mkH1]
    exact Nat.mod_mod _ 4096
theorem commitsTo_spawn_waits {h g a : Word} (hc : commitsSole s k f (.spawn h g a)) (hw : ¬clearWay s k) :
    commitsTo s k fun u => sameBytes s u ∧ u.net = s.net ∧
      ∃ q, (u.ts k).outs = (s.ts k).outs ++ [q] ∧ q.edge = none ∧ q.spawn = true ∧ q.dst = h1Dst g ∧ q.port = h1Port g ∧
        h0Kind q.h0 = h0Kind h ∧ q.body = s.bytes (poolKey (tileOf k) (a.toNat % 2 ^ 17)) (bodyLen h) := by
  have hsol := Solely.of_commitsSole hc
  have hst := s.still_opened k f
  obtain ⟨v, h', hv, hkind, heq⟩ := (s.opened k f).commitSpawn_eq k h g a
  have hsv := hst.readied.trans hv
  rw [hst.bytes] at heq
  exact commitsTo_of_waits hc rfl (hsol.stands rfl (fun _ _ => nofun) fun _ => nofun) (hv.passes (quiet_opened hc)) hsv.net hsv.outs
    (hsol.commitSends.trans heq) (fun hv' => hw (hsv.clearWay_iff.1 hv')) rfl
    fun u hsame hnet houts _ => ⟨hsame, hnet, _, houts, rfl, rfl, rfl, rfl, hkind, rfl⟩

/-! ## EOS -/

/-- The packet of an EOS, and the edge that it closes (R299, R444). -/
theorem State.commitEos_eq {o e : Nat} (ho : s.outEdge (tileOf k) o = some e) : ∃ (u : State) (h' : Word),
    State.Readied k (s.updEdge (s.rgnOf (tileOf k)) e fun d => { d with closed := true }) u ∧ h0Kind h' = 2 ∧
    s.commitEos k o = u.sendNow k
      { port := 0, dst := 0, h0 := h', body := zero16, edge := some e, spawn := false, send := true,
        keep := false, slices := [] } := by
  have hclamp := fun h => State.readied_clamp (k := k) (s.updEdge (s.rgnOf (tileOf k)) e fun d => { d with closed := true }) (tileOf k) h
  have hkind : ∀ prio handler stage, h0Kind (((s.updEdge (s.rgnOf (tileOf k)) e fun d => { d with closed := true }).clamp (tileOf k)
      (mkH0 2 prio handler 1 0 false stage 0)).1) = 2 := fun prio handler stage =>
    (h0Kind_clampPrio _ _).trans (h0_mkH0 2 prio handler 1 0 false stage 0).1
  simp only [State.commitEos, ho]
  exact ⟨_, _, hclamp _, hkind _ _ _, rfl⟩
/-- What the packet of an EOS meets: the edge that it closes, as its region had it. -/
theorem commitsTo_eos {o e : Nat} (hc : commitsSole s k f (.eos o)) (hr : s.hasRegion (s.rgnOf (tileOf k)) = true)
    (ho : s.outEdge (tileOf k) o = some e) (he : (AMap.find e (s.region (s.rgnOf (tileOf k))).edges).isSome = true) :
    ∃ (v : State) (h' : Word), State.Passes k (s.opened k f) v ∧ h0Kind h' = 2 ∧ v.net = s.net ∧ (v.ts k).outs = (s.ts k).outs ∧
      (clearWay v k ↔ clearWay s k) ∧ v.rgnOf (tileOf k) = s.rgnOf (tileOf k) ∧ v.hasRegion (s.rgnOf (tileOf k)) = true ∧
      (AMap.find e (v.region (s.rgnOf (tileOf k))).edges).isSome = true ∧
      (v.region (s.rgnOf (tileOf k))).edge e = { (s.region (s.rgnOf (tileOf k))).edge e with closed := true } ∧
      (∀ c, (v.region (s.rgnOf (tileOf k))).translate c true = (s.region (s.rgnOf (tileOf k))).translate c true) ∧
      (s.opened k f).commitSends k f = v.sendNow k
        { port := 0, dst := 0, h0 := h', body := zero16, edge := some e, spawn := false, send := true, keep := false, slices := [] } := by
  have hst := s.still_opened k f
  obtain ⟨v, h', hv, hkind, heq⟩ := State.commitEos_eq (k := k) (s := s.opened k f) (by rw [hst.outEdge, ho])
  rw [hst.rgnOf] at hv
  have hp := (quiet_opened hc).passes_updEdge (s.rgnOf (tileOf k)) e fun d => { d with closed := true }
  have hr' : (s.opened k f).hasRegion (s.rgnOf (tileOf k)) = true := by rw [hst.hasRegion, hr]
  have he' : (AMap.find e ((s.opened k f).region (s.rgnOf (tileOf k))).edges).isSome = true := by rw [hst.region, he]
  have hreg := State.region_updEdge hr' e fun d => { d with closed := true }
  refine ⟨v, h', hp.trans (hv.passes hp.quiet), hkind, hv.net.trans hst.net, hv.outs.trans (by rw [State.updEdge, State.updRegion_ts, hst.ts]),
    hv.clearWay_iff.trans hst.readied.clearWay_iff, (hv.rgnOf _).trans (hst.rgnOf _), ?_, ?_, ?_, fun c => ?_,
    (Solely.of_commitsSole hc).commitSends.trans heq⟩
  · rw [hv.hasRegion, State.updEdge, State.hasRegion_updRegion, hr']
  · rw [hv.edges, hreg, AMap.find_modify_same, Option.isSome_map, he']
  · rw [hv.edge, State.edge_updEdge hr' he', hst.region]
  · rw [hv.translate, hreg, ← hst.region]
    rfl
theorem commitsTo_eos_clear {o e c p d : Nat} (hc : commitsSole s k f (.eos o))
    (hr : s.hasRegion (s.rgnOf (tileOf k)) = true) (ho : s.outEdge (tileOf k) o = some e) (hw : clearWay s k)
    (hz : ((s.region (s.rgnOf (tileOf k))).edge e).frozen = none) (hl : ((s.region (s.rgnOf (tileOf k))).edge e).eosLeft = false)
    (hd : ((s.region (s.rgnOf (tileOf k))).edge e).dst = .tile c p) (ht : (s.region (s.rgnOf (tileOf k))).translate c true = .at d)
    (he : (AMap.find e (s.region (s.rgnOf (tileOf k))).edges).isSome = true) : commitsTo s k fun u =>
      sameBytes s u ∧ ((u.region (s.rgnOf (tileOf k))).edge e).closed = true ∧ ((u.region (s.rgnOf (tileOf k))).edge e).eosLeft = true ∧
      ∃ q, u.net = s.net ++ [q] ∧ q.dst = d ∧ h0Kind q.h0 = 2 := by
  obtain ⟨v, h', hp, hkind, hnet, -, hcw, hrg, hr', he', hedge, htr, heq⟩ := commitsTo_eos hc hr ho he
  rw [State.sendNow_of_clear (hcw.2 hw), State.emitOut_edge _ rfl rfl, hrg] at heq
  obtain ⟨hp', hedge', x, hnet', -, hdst, -, hk, -⟩ := hp.quiet.sendEdge_tile (d := d) (h0 := h') (body := zero16) (keep := false)
    (ts := tsNum k) hr' he' (by rw [hedge, hl]) (by rw [hedge, hz]) (by rw [hedge, hd]) (by rw [htr, ht])
  refine commitsTo_of_leaves hc rfl ((Solely.of_commitsSole hc).stands rfl (fun _ _ => nofun) fun _ => nofun) heq (hp.trans hp')
    fun u hu hsame => ⟨hsame, ?_, ?_, x, ?_, hdst, hk.trans hkind⟩
  · rw [hu.region, hedge', hedge, hkind]
    rfl
  · rw [hu.region, hedge', hkind]
    rfl
  · rw [hu.net, hnet', hnet]
theorem commitsTo_eos_waits {o e : Nat} (hc : commitsSole s k f (.eos o)) (hr : s.hasRegion (s.rgnOf (tileOf k)) = true)
    (ho : s.outEdge (tileOf k) o = some e) (he : (AMap.find e (s.region (s.rgnOf (tileOf k))).edges).isSome = true)
    (hw : ¬clearWay s k) : commitsTo s k fun u => sameBytes s u ∧ u.net = s.net ∧
      ((u.region (s.rgnOf (tileOf k))).edge e).closed = true ∧
      ∃ q, (u.ts k).outs = (s.ts k).outs ++ [q] ∧ q.edge = some e ∧ h0Kind q.h0 = 2 := by
  obtain ⟨v, h', hp, hkind, hnet, houts, hcw, -, -, -, hedge, -, heq⟩ := commitsTo_eos hc hr ho he
  refine commitsTo_of_waits hc rfl ((Solely.of_commitsSole hc).stands rfl (fun _ _ => nofun) fun _ => nofun) hp hnet houts heq
    (fun h => hw (hcw.1 h)) rfl fun u hsame hn ho' hreg => ⟨hsame, hn, ?_, _, ho', rfl, hkind⟩
  rw [hreg, hedge]

/-! ## RESUME -/

theorem commitsTo_resume_clear {i w : Word} {v : Option Word} {d : Nat} (hc : commitsSole s k f (.resume i w v)) (hw : clearWay s k)
    (hd : s.systemTile (tileOf k) (field i 0 20) = some d) : commitsTo s k fun u =>
      sameBytes s u ∧ ∃ q, u.net = s.net ++ [q] ∧ q.dst = d ∧ h0Kind q.h0 = 6 ∧ h0Prio q.h0 = 47 ∧ h0Handler q.h0 = field i 20 2 ∧
        q.body = leBytes 8 w.toNat ++ leBytes 8 (v.getD 0).toNat := by
  have hsol := Solely.of_commitsSole hc
  have hst := s.still_opened k f
  obtain ⟨hkind, hprio, hhand⟩ := h0_mkH0 6 47 (field i 20 2) 1 0 false 0 0
  have hE := (quiet_opened hc).emits d (mkH0 6 47 (field i 20 2) 1 0 false 0 0) (mkH1 (field i 0 20) ((s.opened k f).tile (tileOf k)).coord
    ((s.opened k f).ctxOf (tileOf k)) (field (csrOf ((s.opened k f).region ((s.opened k f).rgnOf (tileOf k))).csr 0x100) 0 12))
    (leBytes 8 w.toNat ++ leBytes 8 (v.getD 0).toNat) none none [] (tsNum k)
  obtain ⟨x, hnet, -, hdst, hbody, -, -, hk, hp, hh, -⟩ := hE.packet
  have heq : (s.opened k f).commitSends k f = _ := hsol.commitSends.trans ((State.sendNow_of_clear (hst.readied.clearWay_iff.2 hw) _).trans
    (State.emitOut_system (d := d) _ rfl (by rw [hkind]) (by rw [hst.systemTile, hd])))
  refine commitsTo_of_leaves hc rfl (hsol.stands rfl (fun _ _ => nofun) fun _ => nofun) heq hE.toPasses
    fun u hu hsame => ⟨hsame, x, ?_, hdst, hk.trans hkind, hp.trans hprio, hh.trans (hhand.trans ?_), hbody⟩
  · rw [hu.net, hnet, hst.net]
  · exact Nat.mod_eq_of_lt ((Nat.mod_lt _ (by decide)).trans (by decide))
theorem commitsTo_resume_waits {i w : Word} {v : Option Word} (hc : commitsSole s k f (.resume i w v)) (hw : ¬clearWay s k) :
    commitsTo s k fun u => sameBytes s u ∧ u.net = s.net ∧
      ∃ q, (u.ts k).outs = (s.ts k).outs ++ [q] ∧ q.edge = none ∧ q.dst = field i 0 20 ∧ h0Kind q.h0 = 6 ∧ h0Prio q.h0 = 47 ∧
        h0Handler q.h0 = field i 20 2 ∧ q.body = leBytes 8 w.toNat ++ leBytes 8 (v.getD 0).toNat := by
  have hsol := Solely.of_commitsSole hc
  have hst := s.still_opened k f
  obtain ⟨hkind, hprio, hhand⟩ := h0_mkH0 6 47 (field i 20 2) 1 0 false 0 0
  refine commitsTo_of_waits hc rfl (hsol.stands rfl (fun _ _ => nofun) fun _ => nofun) (quiet_opened hc).passes_refl hst.net
    (by rw [hst.ts]) hsol.commitSends (fun h => hw (hst.readied.clearWay_iff.1 h)) rfl
    fun u hsame hnet houts _ => ⟨hsame, hnet, _, houts, rfl, rfl, hkind, hprio, hhand.trans ?_, rfl⟩
  exact Nat.mod_eq_of_lt ((Nat.mod_lt _ (by decide)).trans (by decide))

end Sys2Proof.Machine
end

section
/-! SUPPORT. What the commit of STEAL.SPLIT does (R300); and O52. -/

namespace Sys2Proof.Machine

open Sys2Proof Sys2Proof.Claims

variable {k : Nat} {s : State} {f : Flight}

/-! ## System and steal packets -/

/-- A system or steal packet is emitted to the tile that it names, where there is one, or waits (R63, R146, R304). -/
theorem State.Quiet.sendNow_system (q : s.Quiet k) {o : OutTok} (he : o.edge = none) (hk : 6 ≤ h0Kind o.h0) :
    State.Passes k s (s.sendNow k o) ∧ (s.sendNow k o).regions = s.regions ∧
      (clearWay s k → ∀ d, s.systemTile (tileOf k) o.dst = some d → ∃ p, (s.sendNow k o).net = s.net ++ [p] ∧ p.src = tileOf k ∧ p.dst = d ∧
        h0Kind p.h0 = h0Kind o.h0 ∧ h0Handler p.h0 = h0Handler o.h0 ∧ p.slices = o.slices) ∧
      (¬clearWay s k → (s.sendNow k o).net = s.net ∧ ((s.sendNow k o).ts k).outs = (s.ts k).outs ++ [o]) := by
  by_cases hw : clearWay s k
  · rw [State.sendNow_of_clear hw]
    cases hd : s.systemTile (tileOf k) o.dst with
    | none =>
      have hn : s.emitOut k o = s := by simp [State.emitOut, he, hk, hd]
      rw [hn]
      exact ⟨q.passes_refl, rfl, fun _ _ => nofun, fun h => absurd hw h⟩
    | some d =>
      have hE := q.emits d o.h0 (mkH1 o.dst (s.tile (tileOf k)).coord (s.ctxOf (tileOf k)) o.port) o.body none none o.slices (tsNum k)
      obtain ⟨p, hnet, hsrc, hdst, -, -, hsl, hkind, -, hh, -⟩ := hE.packet
      rw [s.emitOut_system he hk hd]
      exact ⟨hE.toPasses, hE.regions, fun _ d' hd' => ⟨p, hnet, hsrc, hdst.trans (Option.some.inj hd'), hkind, hh, hsl⟩, fun h => absurd hw h⟩
  · rw [State.sendNow_of_waits hw]
    exact ⟨q.passes_wait o, rfl, fun h => absurd h hw, fun _ => ⟨rfl, by rw [State.ts_updTs]⟩⟩

/-! ## Stages -/

theorem State.region_updStage {r : Nat} (hr : s.hasRegion r = true) (n : Nat) (g : Stage → Stage) :
    (s.updStage r n g).region r = { s.region r with stages := AMap.modify n g (s.region r).stages } := State.region_updRegion s r _ hr
/-- A change of a stage that is there, in the region that has it. -/
theorem State.stage_updStage {r n : Nat} (hr : s.hasRegion r = true) (hn : (AMap.find n (s.region r).stages).isSome = true)
    (g : Stage → Stage) : ((s.updStage r n g).region r).stage n = g ((s.region r).stage n) := by
  obtain ⟨y, hy⟩ := Option.isSome_iff_exists.1 hn
  rw [State.region_updStage hr]
  simp [Region.stage, AMap.get, AMap.find_modify_same, hy]
theorem State.Quiet.passes_updStage (q : s.Quiet k) (r n : Nat) (g : Stage → Stage) : State.Passes k s (s.updStage r n g) :=
  q.passes_updRegion r fun _ => ⟨rfl, rfl, rfl⟩

theorem State.systemTile_updStage (s : State) (r n t c : Nat) (g : Stage → Stage) :
    (s.updStage r n g).systemTile t c = s.systemTile t c := by
  have ht : ((s.updStage r n g).region (s.rgnOf t)).tileAt? c = (s.region (s.rgnOf t)).tileAt? c := by
    rcases s.region_updRegion_cases r (s.rgnOf t) (fun y => { y with stages := AMap.modify n g y.stages }) with e | ⟨-, e⟩
    · rw [State.updStage, e]
    · rw [State.updStage, e]
      rfl
  simp only [State.systemTile, ← ht]
  rfl

/-! ## STEAL.SPLIT -/

theorem h0_stealH0 (n : Nat) (use : StealUse) (body : List Byte) :
    h0Kind (stealH0 n use body) = 7 ∧ h0Handler (stealH0 n use body) = use.code := by
  obtain ⟨hk, -, hh⟩ := h0_mkH0 7 45 use.code (body.length / 16) 0 false n 0
  exact ⟨hk, hh.trans (by cases use <;> rfl)⟩
/-- Slices given away: a replica's slices leave it, and travel in a steal packet (R63, R300). -/
def State.give (s : State) (k r n owner dst : Nat) (use : StealUse) (body : List Byte) (up : List Nat) : State :=
  (s.takeSlices r n owner up).sendNow k
    { port := 0, dst := dst, h0 := stealH0 n use body, body := body, edge := none, spawn := false, send := true, keep := false, slices := up }
/-- A steal packet of a thread set's tile with the slices `up` goes to a coordinate, or waits (R300). -/
def GivesAway (s : State) (k c : Nat) (use : StealUse) (up : List Nat) (u : State) : Prop :=
  (clearWay s k → ∀ d, s.systemTile (tileOf k) c = some d →
    ∃ q, u.net = s.net ++ [q] ∧ q.src = tileOf k ∧ q.dst = d ∧ h0Kind q.h0 = 7 ∧ h0Handler q.h0 = use.code ∧ q.slices = up) ∧
  (¬clearWay s k → u.net = s.net ∧ ∃ q, (u.ts k).outs = (s.ts k).outs ++ [q] ∧ q.dst = c ∧ q.slices = up)
theorem State.Quiet.give (q : s.Quiet k) {r n : Nat} (hr : s.hasRegion r = true) (hn : (AMap.find n (s.region r).stages).isSome = true)
    (owner dst : Nat) (use : StealUse) (body : List Byte) (up : List Nat) :
    State.Passes k s (s.give k r n owner dst use body up) ∧
      ((s.give k r n owner dst use body up).region r).stage n = { (s.region r).stage n with
        rem := AMap.put [] owner ((AMap.get [] owner ((s.region r).stage n).rem).filter fun i => !up.contains i) ((s.region r).stage n).rem } ∧
      GivesAway s k dst use up (s.give k r n owner dst use body up) := by
  obtain ⟨hkind, hhand⟩ := h0_stealH0 n use body
  have hp : State.Passes k s (s.takeSlices r n owner up) := q.passes_updStage r n _
  obtain ⟨hp', hreg, hsent, hwait⟩ := hp.quiet.sendNow_system (k := k) (o :=
    { port := 0, dst := dst, h0 := stealH0 n use body, body := body, edge := none, spawn := false, send := true, keep := false, slices := up }) rfl (by simp [hkind])
  refine ⟨hp.trans hp', ?_, fun hw d hd => ?_, fun hw => ?_⟩
  · rw [State.region, State.give, hreg]
    exact State.stage_updStage hr hn _
  · obtain ⟨p, hnet, hsrc, hdst, hk, hh, hsl⟩ := hsent hw d (by rw [State.takeSlices, State.systemTile_updStage, hd])
    exact ⟨p, hnet, hsrc, hdst, hk.trans hkind, hh.trans hhand, hsl⟩
  · obtain ⟨hnet, houts⟩ := hwait hw
    exact ⟨hnet, _, houts, rfl, rfl⟩

/-- What STEAL.SPLIT does (R300). -/
theorem State.commitSteal_eq (s : State) (k n : Nat) (remain : List Nat) :
    let x := s.tile (tileOf k)
    let r := s.rgnOf (tileOf k)
    let y := (s.region r).stage x.conf.stage
    let up := remain.drop (remain.length - n)
    let next := ringNext ((s.region r).ring y ((s.region r).fieldAt x.coord)) x.coord 1
    (n = 0 → s.commitSteal k n remain = s) ∧
    (∀ a, n ≠ 0 → y.asks.find? (fun a => a.2 == x.coord) = some a → s.commitSteal k n remain =
      (s.updStage r x.conf.stage fun y => { y with asks := y.asks.erase a }).give k r x.conf.stage x.coord a.1 .reply (y.stealBody up) up) ∧
    (n ≠ 0 → y.asks.find? (fun a => a.2 == x.coord) = none → s.commitSteal k n remain =
      if next = x.coord then s else s.give k r x.conf.stage x.coord next .given (y.stealBody up) up) := by
  refine ⟨fun hn => by simp [State.commitSteal, hn], fun a hn ha => ?_, fun hn ha => ?_⟩
  · simp only [State.commitSteal, if_neg hn, ha]
    rfl
  · simp only [State.commitSteal, if_neg hn, ha]
    rfl

/-- The slices that a block's split counted are still its replica's: its checks stand (R300). -/
theorem stands_of_steal {n : Nat} (h : f.Solely (.steal n)) (hup : ∀ i ∈ f.snap.remain.drop (f.snap.remain.length - n),
    i ∈ AMap.get [] (s.tile (tileOf k)).coord ((s.region (s.rgnOf (tileOf k))).stage (s.tile (tileOf k)).conf.stage).rem) :
    s.stands k f = true := by
  refine State.stands_of_plain fun p hp => ?_
  rcases h.mem hp with he | ⟨kd, a, l, he⟩ <;> rw [he]
  · refine ⟨rfl, fun _ _ => nofun, fun n' hn' => ?_⟩
    cases hn'
    exact List.all_eq_true.2 fun i hi => List.contains_iff_mem.2 (hup i hi)
  · exact ⟨rfl, fun _ _ => nofun, fun _ => nofun⟩

section
variable {n : Nat}

theorem commitsTo_steal_none (hc : commitsSole s k f (.steal 0)) : commitsTo s k fun u => u.regions = s.regions ∧ u.net = s.net := by
  have hst := s.still_opened k f
  have hsol := Solely.of_commitsSole hc
  refine commitsTo_of_leaves hc rfl (stands_of_steal hsol fun i hi => ?_) (hsol.commitSends.trans ((State.commitSteal_eq ..).1 rfl))
    (quiet_opened hc).passes_refl fun u hu _ => ⟨hu.regions.trans hst.regions, hu.net.trans hst.net⟩
  rw [Nat.sub_zero, List.drop_length] at hi
  cases hi

/-- A split whose slices are given away. -/
theorem commitsTo_steal_give {c : Nat} {use : StealUse} {asks : List (Nat × Nat)} {v : State} (hc : commitsSole s k f (.steal n))
    (hup : ∀ i ∈ f.snap.remain.drop (f.snap.remain.length - n),
      i ∈ AMap.get [] (s.tile (tileOf k)).coord ((s.region (s.rgnOf (tileOf k))).stage (s.tile (tileOf k)).conf.stage).rem)
    (hp : State.Passes k (s.opened k f) v) (hts : ∀ j, v.ts j = s.ts j) (hnet : v.net = s.net) (hsys : ∀ c, v.systemTile (tileOf k) c = s.systemTile (tileOf k) c)
    (hr : v.hasRegion (s.rgnOf (tileOf k)) = true)
    (hn : (AMap.find (s.tile (tileOf k)).conf.stage (v.region (s.rgnOf (tileOf k))).stages).isSome = true)
    (hy : (v.region (s.rgnOf (tileOf k))).stage (s.tile (tileOf k)).conf.stage =
      { (s.region (s.rgnOf (tileOf k))).stage (s.tile (tileOf k)).conf.stage with asks := asks })
    (heq : (s.opened k f).commitSteal k n f.snap.remain = v.give k (s.rgnOf (tileOf k)) (s.tile (tileOf k)).conf.stage (s.tile (tileOf k)).coord c use
      (((s.region (s.rgnOf (tileOf k))).stage (s.tile (tileOf k)).conf.stage).stealBody (f.snap.remain.drop (f.snap.remain.length - n)))
      (f.snap.remain.drop (f.snap.remain.length - n))) :
    commitsTo s k fun u => sameBytes s u ∧ ((u.region (s.rgnOf (tileOf k))).stage (s.tile (tileOf k)).conf.stage).asks = asks ∧
      AMap.get [] (s.tile (tileOf k)).coord ((u.region (s.rgnOf (tileOf k))).stage (s.tile (tileOf k)).conf.stage).rem =
        (AMap.get [] (s.tile (tileOf k)).coord ((s.region (s.rgnOf (tileOf k))).stage (s.tile (tileOf k)).conf.stage).rem).filter
          (fun i => decide (i ∉ f.snap.remain.drop (f.snap.remain.length - n))) ∧
      GivesAway s k c use (f.snap.remain.drop (f.snap.remain.length - n)) u := by
  have hsol := Solely.of_commitsSole hc
  have hstands := stands_of_steal hsol hup
  generalize f.snap.remain.drop (f.snap.remain.length - n) = up at heq ⊢
  obtain ⟨hp', hstage, hsent, hwait⟩ := hp.quiet.give hr hn (s.tile (tileOf k)).coord c use
    (((s.region (s.rgnOf (tileOf k))).stage (s.tile (tileOf k)).conf.stage).stealBody up) up
  have hcw : clearWay v k ↔ clearWay s k := by simp only [clearWay, State.relClear, hts]
  refine commitsTo_of_leaves hc rfl hstands (hsol.commitSends.trans heq) (hp.trans hp')
    fun u hu hsame => ⟨hsame, ?_, ?_, fun hw d hd => ?_, fun hw => ?_⟩
  · rw [hu.region, hstage, hy]
  · rw [hu.region, hstage, hy]
    simp only [AMap.get_put_same]
    exact List.filter_congr fun i _ => by simp
  · obtain ⟨q, hq, hx⟩ := hsent (hcw.2 hw) d (by rw [hsys, hd])
    exact ⟨q, by rw [hu.net, hq, hnet], hx⟩
  · obtain ⟨hq, o, ho, hx⟩ := hwait (fun h => hw (hcw.1 h))
    exact ⟨by rw [hu.net, hq, hnet], o, by rw [hu.outs, ho, hts], hx⟩

theorem commitsTo_steal_reply {a : Nat × Nat} (hc : commitsSole s k f (.steal n)) (hn : n ≠ 0)
    (ha : ((s.region (s.rgnOf (tileOf k))).stage (s.tile (tileOf k)).conf.stage).asks.find? (fun a => a.2 == (s.tile (tileOf k)).coord) = some a)
    (hup : ∀ i ∈ f.snap.remain.drop (f.snap.remain.length - n),
      i ∈ AMap.get [] (s.tile (tileOf k)).coord ((s.region (s.rgnOf (tileOf k))).stage (s.tile (tileOf k)).conf.stage).rem)
    (hr : s.hasRegion (s.rgnOf (tileOf k)) = true)
    (hy : (AMap.find (s.tile (tileOf k)).conf.stage (s.region (s.rgnOf (tileOf k))).stages).isSome = true) :
    commitsTo s k fun u => sameBytes s u ∧ ((u.region (s.rgnOf (tileOf k))).stage (s.tile (tileOf k)).conf.stage).asks =
        ((s.region (s.rgnOf (tileOf k))).stage (s.tile (tileOf k)).conf.stage).asks.erase a ∧
      AMap.get [] (s.tile (tileOf k)).coord ((u.region (s.rgnOf (tileOf k))).stage (s.tile (tileOf k)).conf.stage).rem =
        (AMap.get [] (s.tile (tileOf k)).coord ((s.region (s.rgnOf (tileOf k))).stage (s.tile (tileOf k)).conf.stage).rem).filter
          (fun i => decide (i ∉ f.snap.remain.drop (f.snap.remain.length - n))) ∧
      GivesAway s k a.1 .reply (f.snap.remain.drop (f.snap.remain.length - n)) u := by
  have hst := s.still_opened k f
  have heq := ((s.opened k f).commitSteal_eq k n f.snap.remain).2.1 a hn
  rw [hst.rgnOf, hst.conf, hst.coord, hst.region] at heq
  have hr' : (s.opened k f).hasRegion (s.rgnOf (tileOf k)) = true := by rw [hst.hasRegion, hr]
  have hy' : (AMap.find (s.tile (tileOf k)).conf.stage ((s.opened k f).region (s.rgnOf (tileOf k))).stages).isSome = true := by
    rw [hst.region, hy]
  refine commitsTo_steal_give hc hup ((quiet_opened hc).passes_updStage _ _ _) hst.ts hst.net (fun c => ?_) ?_ ?_ ?_ (heq ha)
  · rw [State.systemTile_updStage, hst.systemTile]
  · rw [State.updStage, State.hasRegion_updRegion, hr']
  · rw [State.region_updStage hr', AMap.find_modify_same, Option.isSome_map, hy']
  · rw [State.stage_updStage hr' hy', hst.region]

theorem commitsTo_steal_ring (hc : commitsSole s k f (.steal n)) (hn : n ≠ 0)
    (ha : ((s.region (s.rgnOf (tileOf k))).stage (s.tile (tileOf k)).conf.stage).asks.find? (fun a => a.2 == (s.tile (tileOf k)).coord) = none)
    (hup : ∀ i ∈ f.snap.remain.drop (f.snap.remain.length - n),
      i ∈ AMap.get [] (s.tile (tileOf k)).coord ((s.region (s.rgnOf (tileOf k))).stage (s.tile (tileOf k)).conf.stage).rem)
    (hr : s.hasRegion (s.rgnOf (tileOf k)) = true)
    (hy : (AMap.find (s.tile (tileOf k)).conf.stage (s.region (s.rgnOf (tileOf k))).stages).isSome = true) {next : Nat}
    (hnext : ringNext ((s.region (s.rgnOf (tileOf k))).ring ((s.region (s.rgnOf (tileOf k))).stage (s.tile (tileOf k)).conf.stage)
      ((s.region (s.rgnOf (tileOf k))).fieldAt (s.tile (tileOf k)).coord)) (s.tile (tileOf k)).coord 1 = next) :
    commitsTo s k fun u => sameBytes s u ∧ ((u.region (s.rgnOf (tileOf k))).stage (s.tile (tileOf k)).conf.stage).asks =
        ((s.region (s.rgnOf (tileOf k))).stage (s.tile (tileOf k)).conf.stage).asks ∧
      (next ≠ (s.tile (tileOf k)).coord →
        AMap.get [] (s.tile (tileOf k)).coord ((u.region (s.rgnOf (tileOf k))).stage (s.tile (tileOf k)).conf.stage).rem =
          (AMap.get [] (s.tile (tileOf k)).coord ((s.region (s.rgnOf (tileOf k))).stage (s.tile (tileOf k)).conf.stage).rem).filter
            (fun i => decide (i ∉ f.snap.remain.drop (f.snap.remain.length - n))) ∧
        GivesAway s k next .given (f.snap.remain.drop (f.snap.remain.length - n)) u) ∧
      (next = (s.tile (tileOf k)).coord → u.net = s.net ∧
        AMap.get [] (s.tile (tileOf k)).coord ((u.region (s.rgnOf (tileOf k))).stage (s.tile (tileOf k)).conf.stage).rem =
          AMap.get [] (s.tile (tileOf k)).coord ((s.region (s.rgnOf (tileOf k))).stage (s.tile (tileOf k)).conf.stage).rem) := by
  have hst := s.still_opened k f
  have hsol := Solely.of_commitsSole hc
  have heq := ((s.opened k f).commitSteal_eq k n f.snap.remain).2.2 hn
  rw [hst.rgnOf, hst.conf, hst.coord, hst.region, hnext] at heq
  by_cases hx : next = (s.tile (tileOf k)).coord
  · rw [if_pos hx] at heq
    refine commitsTo_of_leaves hc rfl (stands_of_steal hsol hup) (hsol.commitSends.trans (heq ha)) (quiet_opened hc).passes_refl
      fun u hu hsame => ⟨hsame, ?_, fun h => absurd hx h, fun _ => ⟨hu.net.trans hst.net, ?_⟩⟩ <;> rw [hu.region, hst.region]
  · rw [if_neg hx] at heq
    refine commitsTo_mono (commitsTo_steal_give hc hup (quiet_opened hc).passes_refl hst.ts hst.net (fun c => hst.systemTile _ c)
      (by rw [hst.hasRegion, hr]) (by rw [hst.region, hy]) (by rw [hst.region]) (heq ha)) fun u hu => ?_
    obtain ⟨hsame, hasks, hrem, hgive⟩ := hu
    exact ⟨hsame, hasks, fun _ => ⟨hrem, hgive⟩, fun h => absurd h hx⟩

end

/-! ## O52 -/

theorem commitPackets_holds : commitPackets := by
  intro s k f
  refine ⟨fun o h a e c p d hc hr ho hw hz hl hd ht he => commitsTo_send_clear hc hr ho hw hz hl hd ht he,
    fun o h a hc hw => commitsTo_send_waits hc hw,
    fun h g a d hc hw hk hd ht => commitsTo_spawn_clear hc hw hk hd ht,
    fun h g a hc hw => commitsTo_spawn_waits hc hw,
    fun o e c p d hc hr ho hw hz hl hd ht he => commitsTo_eos_clear hc hr ho hw hz hl hd ht he,
    fun o e hc hr ho he hw => commitsTo_eos_waits hc hr ho he hw,
    fun i w v d hc hw hd => commitsTo_resume_clear hc hw hd,
    fun i w v hc hw => commitsTo_resume_waits hc hw,
    fun n hc => ⟨fun hn => ?_, fun a hn ha hup hr hy => ?_, fun hn ha hup hr hy => ?_⟩⟩
  · subst hn
    exact commitsTo_steal_none hc
  · exact commitsTo_mono (commitsTo_steal_reply hc hn ha hup hr hy) fun u ⟨hsame, hasks, hrem, hsent, hwait⟩ =>
      ⟨hsame, hasks, hrem, hsent, hwait⟩
  · exact commitsTo_mono (commitsTo_steal_ring hc hn ha hup hr hy rfl) fun u ⟨hsame, hasks, hgive, hkeep⟩ =>
      ⟨hsame, hasks, fun h => ⟨(hgive h).1, (hgive h).2.1, (hgive h).2.2⟩, hkeep⟩

/-- Local stores and atomics change the bytes that they store to, and no others (R85, R89, R92). -/
theorem commits_stores {ix : Nat} {kd : ExitKind} {dest link : Word} (h : Commits s k f ix kd dest link) (hk : kd = .goto ∨ kd = .call)
    (hall : ∀ p ∈ f.effs, (∃ l off bs, p.2 = .store l off bs) ∨ (∃ l off o r, p.2 = .amoLocal l off o r) ∨ ∃ x a l, p.2 = .exit x a l) :
    ∃ u : State, exec (.blockCommit k) s = .next u ∧ u.flight k = none ∧ (u.ts k).regs.bpc = dest ∧
      (∀ a, (∀ st ∈ f.stored, ∀ i b, st.2[i]? = some (some b) → a ≠ poolKey (tileOf k) st.1 + i) → u.byte a = s.byte a) ∧
      (∀ p ∈ f.effs, ∀ l off bs, p.2 = .store l off bs → f.stored = [(off, bs)] →
        ∀ i b, bs[i]? = some (some b) → u.byte (poolKey (tileOf k) off + i) = b) ∧
      (∀ j ≠ k, (u.ts j).regs = (s.ts j).regs) := by
  have hst := s.still_opened k f
  have hkeep := (s.opened k f).keeps_commitLocal k f
  have hposts : f.effs.countP (fun p => p.2.posts) = 0 := by
    refine List.countP_eq_zero.2 fun p hp => ?_
    rcases hall p hp with ⟨l, off, bs, e⟩ | ⟨l, off, o, r, e⟩ | ⟨x, a, l, e⟩ <;> simp [e, Effect.posts]
  have hstands : s.stands k f = true := by
    refine State.stands_of_plain fun p hp => ?_
    rcases hall p hp with ⟨l, off, bs, e⟩ | ⟨l, off, o, r, e⟩ | ⟨x, a, l, e⟩ <;> rw [e] <;>
      exact ⟨rfl, fun _ _ => nofun, fun _ => nofun⟩
  have hrun : ∀ q ∈ f.effs, q.2.lsid?.isSome = true → q.2.run?.isSome = true := by
    intro q hq hl
    rcases hall q hq with ⟨l, off, bs, e⟩ | ⟨l, off, o, r, e⟩ | ⟨x, a, l, e⟩ <;> rw [e] at hl ⊢
    · rfl
    · rfl
    · cases hl
  obtain ⟨u, hu, hfl, he, hb⟩ := commit_of_acted h hk (by omega) hstands (State.acted_of_local _ hall)
    (((State.Quiet.of_commits h).of_still hst).of_keeps hkeep) ((hkeep.rgnOf _).trans (hst.rgnOf _)) (hkeep.flight k (s.flight_opened k f))
  refine ⟨u, hu, hfl, hb, fun a ha => ?_, fun p hp l off bs hpe ho i b hi => ?_, fun j hj => ?_⟩
  · rw [he.byte, State.byte_commitLocal _ ha, hst.byte]
  · rw [he.byte, State.byte_commitLocal_of_only _ hp hpe ho hrun hi]
  · rw [he.others j hj, hkeep.others j hj, hst.ts]

/-- Settles O52: the acts of the block are followed from the state that opens the commit (`State.opened`) to the one that they make,
which the end of a commit keeps (`State.Ends`). -/
theorem commitStoresBytes : Obligations.CommitStoresBytes :=
  ⟨fun _ _ _ _ _ _ _ h hk hall => commits_stores h hk hall, commitPostings_holds, commitPackets_holds⟩

end Sys2Proof.Machine
end

section
/-! SUPPORT. What tracing, logging, sending and reporting leave alone: the stages of regions, and what tiles and thread sets do. -/

namespace Sys2Proof.Machine

open Sys2Proof Sys2Proof.Claims

/-! ## Records of the trace and the log -/

/-- A number in memory changes memory alone. -/
theorem State.putNum_eq (s : State) (a n v : Nat) : s.putNum a n v = { s with mem := (s.putNum a n v).mem } := State.putBytes_eq ..
theorem State.putRecord_eq (s : State) (r w0 w1 w2 w3 : Nat) (force : Bool) :
    ∃ m rs, s.putRecord r w0 w1 w2 w3 force = { s with mem := m, regions := rs } := by
  unfold State.putRecord
  dsimp only
  split
  · rw [State.putNum_eq, State.putNum_eq, State.putNum_eq, s.putNum_eq]
    exact ⟨_, _, rfl⟩
  · exact ⟨_, _, rfl⟩
/-- A trace record changes memory and its region (R421). -/
theorem State.trace_eq_with (s : State) (r kind ts coord cyc w1 w2 w3 : Nat) :
    ∃ m rs, s.trace r kind ts coord cyc w1 w2 w3 = { s with mem := m, regions := rs } := by
  unfold State.trace
  dsimp only
  split
  · exact State.putRecord_eq ..
  · exact ⟨_, _, rfl⟩
theorem State.traceTile_eq_with (s : State) (t kind ts w1 w2 w3 : Nat) :
    ∃ m rs, s.traceTile t kind ts w1 w2 w3 = { s with mem := m, regions := rs } := State.trace_eq_with ..
/-- A ticket changes memory and its region (R406). -/
theorem State.ticket_eq_with (s : State) (r t ts kind : Nat) : ∃ m rs, s.ticket r t ts kind = { s with mem := m, regions := rs } := by
  unfold State.ticket
  dsimp only
  split
  · rw [State.putNum_eq, s.putNum_eq]
    exact ⟨_, _, rfl⟩
  · exact ⟨_, _, rfl⟩
  · exact ⟨_, _, rfl⟩

/-! ## States with the same stages -/

/-- The same regions are there, with the same stages, state and place in a launch sequence. -/
structure State.Staged (s u : State) : Prop where
  has : ∀ r, u.hasRegion r = s.hasRegion r
  stages : ∀ r, (u.region r).stages = (s.region r).stages
  st : ∀ r, (u.region r).st = (s.region r).st
  seqOn : ∀ r, (u.region r).seqOn = (s.region r).seqOn

theorem State.Staged.of_regions {s u : State} (h : u.regions = s.regions) : s.Staged u := by
  have hr : ∀ r, u.region r = s.region r := fun r => by simp [State.region, h]
  exact ⟨fun r => by simp [State.hasRegion, h], fun r => by rw [hr], fun r => by rw [hr], fun r => by rw [hr]⟩
theorem State.Staged.refl (s : State) : s.Staged s := .of_regions rfl
theorem State.Staged.trans {s u v : State} (h : s.Staged u) (g : u.Staged v) : s.Staged v :=
  ⟨fun r => (g.has r).trans (h.has r), fun r => (g.stages r).trans (h.stages r), fun r => (g.st r).trans (h.st r),
    fun r => (g.seqOn r).trans (h.seqOn r)⟩
theorem State.Staged.foldl {α : Type} {f : State → α → State} (h : ∀ (s : State) x, s.Staged (f s x)) (l : List α) (s : State) :
    s.Staged (l.foldl f s) := by
  induction l generalizing s with
  | nil => exact .refl s
  | cons x l ih => exact (h s x).trans (ih _)
theorem State.Staged.ite {s u v : State} {p : Prop} [Decidable p] (hu : s.Staged u) (hv : s.Staged v) :
    s.Staged (if p then u else v) := by
  split
  · exact hu
  · exact hv
/-- A change of a region that keeps them. -/
theorem State.Staged.updRegion (s : State) (r : Nat) {f : Region → Region}
    (hf : ∀ g, (f g).stages = g.stages ∧ (f g).st = g.st ∧ (f g).seqOn = g.seqOn) : s.Staged (s.updRegion r f) := by
  have hr : ∀ j, (s.updRegion r f).region j = s.region j ∨ (s.updRegion r f).region j = f (s.region j) := fun j =>
    (s.region_updRegion_cases r j f).imp_right And.right
  refine ⟨fun j => State.hasRegion_updRegion .., fun j => ?_, fun j => ?_, fun j => ?_⟩ <;> rcases hr j with e | e <;> rw [e]
  · exact (hf _).1
  · exact (hf _).2.1
  · exact (hf _).2.2
theorem State.staged_updEdge (s : State) (r e : Nat) (f : Edge → Edge) : s.Staged (s.updEdge r e f) :=
  State.Staged.updRegion s r fun _ => ⟨rfl, rfl, rfl⟩
theorem State.staged_returnCredit (s : State) (r : Nat) (e : Option Nat) (q : Nat) : s.Staged (s.returnCredit r e q) := by
  cases e with
  | none => exact .refl s
  | some e => exact s.staged_updEdge ..
theorem State.staged_putNum (s : State) (a n v : Nat) : s.Staged (s.putNum a n v) := by
  rw [s.putNum_eq]
  exact .of_regions rfl
theorem State.staged_trace (s : State) (r kind ts coord cyc w1 w2 w3 : Nat) : s.Staged (s.trace r kind ts coord cyc w1 w2 w3) := by
  unfold State.trace State.putRecord
  dsimp only
  split
  · split
    · exact ((((s.staged_putNum ..).trans (State.staged_putNum ..)).trans (State.staged_putNum ..)).trans (State.staged_putNum ..)).trans
        (State.Staged.updRegion _ _ fun _ => ⟨rfl, rfl, rfl⟩)
    · exact State.Staged.updRegion _ _ fun _ => ⟨rfl, rfl, rfl⟩
  · exact .refl s
/-- A packet into the network. -/
theorem State.staged_emit (s : State) (src dst : Nat) (h0 h1 : Word) (body : List Byte) (st ed : Option (Nat × Nat)) (sl : List Nat)
    (ts : Nat) : s.Staged (s.emit src dst h0 h1 body st ed sl ts) := by
  have h : s.Staged ((s.updTile src fun x => { x with sent := countPair x.sent (s.tile src).colour }).charge src
      ((s.updTile src fun x => { x with sent := countPair x.sent (s.tile src).colour }).ctxOf src) 8
      ((h0Len (setField h0 39 1 (s.tile src).colour.toNat) + 1) * hops src dst)) := .of_regions rfl
  exact (h.trans (State.staged_trace ..)).trans (.of_regions rfl)
/-- A report is a token that halts nothing (R370). -/
theorem State.staged_sendToken (s : State) {u : Subject} (hu : u.thread = false) (f : FaultInfo) (cls : Nat) (port : Bool) :
    s.Staged (s.sendToken u f cls port) := by
  have hp : ∀ (v : State) src c h0 h1 body ts, v.Staged (v.passToken u.rgn src (some c) h0 h1 body ts) := by
    intro v src c h0 h1 body ts
    simp only [State.passToken]
    split
    · exact State.staged_emit ..
    · exact .refl v
  have ht : s.Staged (s.updRegion u.rgn fun g => { g with
      serial := (((s.region u.rgn).serial + 1) % 65536), reports := if cls = 2 then min (2 ^ 32 - 1) (g.reports + 1) else g.reports }) :=
    State.Staged.updRegion _ _ fun _ => ⟨rfl, rfl, rfl⟩
  simp only [State.sendToken, hu, Bool.and_false, Bool.false_eq_true, if_false]
  exact State.Staged.ite ((ht.trans (State.staged_trace ..)).trans (.of_regions rfl)) ((ht.trans (State.staged_trace ..)).trans (hp ..))
theorem State.staged_report (s : State) (t : Nat) (f : FaultInfo) : s.Staged (s.report t f) := s.staged_sendToken rfl ..
theorem State.staged_freezeRecord (s : State) (r fld kind wher ts oport target : Nat) :
    s.Staged (s.freezeRecord r fld kind wher ts oport target).2 :=
  (State.Staged.updRegion s r (f := fun g => { g with
    frzSerial := ((s.region r).frzSerial + 1) % 65536,
    freezes := g.freezes ++ [⟨((s.region r).frzSerial + 1) % 65536, kind, wher, ts, oport, target⟩] }) fun _ => ⟨rfl, rfl, rfl⟩).trans (.of_regions rfl)
/-- A packet on an edge, wherever it leads. -/
theorem State.staged_sendEdge (s : State) (src r e : Nat) (h0 : Word) (body : List Byte) (keep : Bool) (ts : Nat) :
    s.Staged (s.sendEdge src r e h0 body keep ts) := by
  unfold State.sendEdge
  dsimp only
  split
  · exact .refl s
  · split
    · exact (State.staged_updEdge ..).trans (State.staged_updEdge ..)
    · split
      · split
        · exact (State.staged_updEdge ..).trans (State.staged_emit ..)
        · exact ((State.staged_updEdge ..).trans (State.staged_report ..)).trans (State.staged_returnCredit ..)
        · exact ((State.staged_updEdge ..).trans (State.staged_freezeRecord ..)).trans (State.staged_updEdge ..)
      · split
        · exact (State.staged_updEdge ..).trans (State.staged_emit ..)
        · exact ((State.staged_updEdge ..).trans (State.staged_report ..)).trans (State.staged_returnCredit ..)
      · split
        · exact (State.staged_updEdge ..).trans (State.staged_emit ..)
        · exact (State.staged_updEdge ..).trans (State.staged_returnCredit ..)

namespace State.Staged
variable {s u : State} (h : s.Staged u)
include h

theorem stage (r n : Nat) : (u.region r).stage n = (s.region r).stage n := by simp [Region.stage, h.stages]

end State.Staged

end Sys2Proof.Machine
end

section
/-! SUPPORT. Events of packets and tasks: arrival, ageing, YIELD, dispatch and the tokens of an ended task (R46 to R53, R241, R381). -/

namespace Sys2Proof.Machine

open Sys2Proof Sys2Proof.Claims

/-! ## Events -/

theorem comes_of_eq {name : String} {i : Instr} {s : State} {ok : Bool} {t : State} (h : exec i s = whenEnabled name ok t) :
    comes name i s ok t :=
  ⟨fun e => by rw [h, e]; rfl, fun e => by rw [h, e]; rfl⟩
/-- An event that has come about has led to its state. -/
theorem eq_of_comes {name : String} {i : Instr} {s u : State} {ok : Bool} {t : State} (h : comes name i s ok t)
    (hu : exec i s = .next u) : u = t := by
  cases ok with
  | true => exact (Host.Outcome.next.inj ((h.1 rfl).symm.trans hu)).symm
  | false => cases (h.2 rfl).symm.trans hu

section
variable (s : State)

theorem comes_packetArrival (n : Nat) : comes "PACKET_ARRIVAL" (.packetArrival n) s (s.canArrive n) (s.packetArrival n) := comes_of_eq rfl
theorem comes_taskDispatch (k : Nat) : comes "TASK_DISPATCH" (.taskDispatch k) s (s.canDispatch k) (s.taskDispatch k) := comes_of_eq rfl
theorem comes_packetAgeing (t pos : Nat) : comes "PACKET_AGEING" (.packetAgeing t pos) s (s.canAge t pos) (s.age t pos) := comes_of_eq rfl
theorem comes_yieldReeligible (t pos : Nat) : comes "YIELD_REELIGIBLE" (.yieldReeligible t pos) s (s.canReelig t pos) (s.reelig t pos) :=
  comes_of_eq rfl
theorem comes_completionToken (k : Nat) : comes "COMPLETION_TOKEN" (.completionToken k) s
    (s.canToken k && decide (s.mode (s.rgnOf (tileOf k)) ≠ 3)) (s.completionToken k) := comes_of_eq rfl
theorem comes_creditReturn (r n : Nat) : comes "CREDIT_RETURN" (.creditReturn r n) s (s.canCredit r n) (s.creditReturn r n) := comes_of_eq rfl
theorem comes_distributorDeal (r n rep : Nat) : comes "DISTRIBUTOR_DEAL" (.distributorDeal r n rep) s
    (s.canDeal r n rep && decide (s.mode r ≠ 3)) (s.deal r n rep) := comes_of_eq rfl
theorem comes_stageEos (r n : Nat) : comes "STAGE_EOS" (.stageEos r n) s (s.canStageEos r n && decide (s.mode r ≠ 3)) (s.stageEos r n) :=
  comes_of_eq rfl
theorem comes_rangeTokenTake (r n : Nat) : comes "RANGE_TOKEN_TAKE" (.rangeTokenTake r n) s (s.canTake r n && decide (s.mode r ≠ 3))
    (s.takeToken r n) := comes_of_eq rfl
theorem comes_stealRequest (t : Nat) : comes "STEAL_REQUEST" (.stealRequest t) s (s.canAsk t && decide (s.mode (s.rgnOf t) ≠ 3)) (s.ask t) :=
  comes_of_eq rfl
theorem comes_stealService (t : Nat) : comes "STEAL_SERVICE" (.stealService t) s (s.canServe t && decide (s.mode (s.rgnOf t) ≠ 3))
    (s.serve t) := comes_of_eq rfl
theorem comes_crossFieldSplit (r n d : Nat) : comes "CROSS_FIELD_SPLIT" (.crossFieldSplit r n d) s
    (s.canCross r n d && decide (s.mode r ≠ 3)) (s.cross r n d) := comes_of_eq rfl
theorem comes_rangeStageEos (r n : Nat) : comes "RANGE_STAGE_EOS" (.rangeStageEos r n) s (s.canRangeEos r n && decide (s.mode r ≠ 3))
    (s.rangeEos r n) := comes_of_eq rfl
theorem comes_spawnAdmission (t : Nat) : comes "SPAWN_ADMISSION" (.spawnAdmission t) s (s.canAdmit t) (s.spawnAdmission t) := comes_of_eq rfl
theorem comes_regionCompletion (r : Nat) : comes "REGION_COMPLETION" (.regionCompletion r) s (s.canComplete r) (s.complete r) := comes_of_eq rfl
theorem comes_dormancyRound (r : Nat) : comes "DORMANCY_ROUND" (.dormancyRound r) s (s.canDorm r) (s.dormancy r) := comes_of_eq rfl

end

/-! ## Ageing and YIELD -/

variable {s : State}

/-- Ageing adds one level to the named packet (R53). -/
theorem State.mails_age (s : State) (t pos : Nat) : ((s.age t pos).tile t).mbox.mails =
    (s.tile t).mbox.mails.map fun m => if m.pos = pos then { m with age := m.age + 1 } else m := by rw [State.age, State.tile_updTile]
/-- A packet is eligible again after a YIELD (R241). -/
theorem State.mails_reelig (s : State) (t pos : Nat) : ((s.reelig t pos).tile t).mbox.mails =
    (s.tile t).mbox.mails.map fun m => if m.pos = pos then { m with wait := false } else m := by rw [State.reelig, State.tile_updTile]
theorem canAge_of_mem {t : Nat} {m : Mail} (h3 : s.mode (s.rgnOf t) ≠ 3) (hm : m ∈ (s.tile t).mbox.mails) (ht : m.taken = false)
    (hp : h0Prio m.h0 < 40) (ha : m.age < s.waitLevels t m) : s.canAge t m.pos = true := by
  simp only [State.canAge, Bool.and_eq_true, decide_eq_true_eq, List.any_eq_true]
  exact ⟨h3, m, hm, by simp [ht, hp, ha]⟩
theorem canReelig_of_mem {t : Nat} {m : Mail} (h3 : s.mode (s.rgnOf t) ≠ 3) (hn : (s.region (s.rgnOf t)).modeOn ≠ 3)
    (hm : m ∈ (s.tile t).mbox.mails) (hb : m.begun = true) (hw : m.wait = true) (hy : m.yieldAt + 1024 ≤ s.clock t) :
    s.canReelig t m.pos = true := by
  simp only [State.canReelig, if_neg hn, Bool.and_eq_true, decide_eq_true_eq, List.any_eq_true]
  exact ⟨h3, m, hm, by simp [hb, hw, hy]⟩

/-! ## Arrival -/

theorem canArrive_of_oldest {n : Nat} {f : Flying} (hf : s.net[n]? = some f) (hp : s.toPort f = false) (h3 : s.mode (s.rgnOf f.dst) ≠ 3)
    (ho : s.oldestFlying n f = true) (hh : f.vc ≤ 1 → s.heldAt f.src f.dst = false) : s.canArrive n = true := by
  have hheld : (decide (f.vc ≤ 1) && s.heldAt f.src f.dst) = false := by
    by_cases hv : f.vc ≤ 1
    · simp [hh hv]
    · simp [hv]
  simp [State.canArrive, hf, hp, h3, ho, hheld]
/-- A charge changes a tile's meters. -/
theorem State.tile_charge (s : State) (t ctx cls n j : Nat) : ∃ m, (s.charge t ctx cls n).tile j = { s.tile j with meters := m } := by
  rw [State.charge, State.chargeRaw]
  by_cases h : j = t
  · subst h
    exact ⟨_, State.tile_updTile ..⟩
  · exact ⟨_, State.tile_updTile_of_ne s h _⟩
/-- A packet is out of the network, and its way is charged (R402). -/
def State.received (s : State) (n : Nat) (f : Flying) : State := { s with net := s.net.eraseIdx n }.chargeRecv f
theorem State.tile_received (s : State) (n : Nat) (f : Flying) (j : Nat) :
    ∃ m, (s.received n f).tile j = { s.tile j with meters := m } := State.tile_charge ..
/-- A packet that a forwarding entry leads on (R381). -/
theorem State.packetArrival_forward {n : Nat} {f : Flying} {e : Forward} (hf : s.net[n]? = some f)
    (he : (s.tile f.dst).fwds.find? (fun e => e.ctx == field f.h1 12 12) = some e) :
    (s.packetArrival n).net = s.net.eraseIdx n ++ [{ f with src := f.dst, dst := e.dst, fwd := true }] ∧
      (∀ t, ((s.packetArrival n).tile t).sent = (s.tile t).sent ∧ ((s.packetArrival n).tile t).recv = (s.tile t).recv ∧
        ((s.packetArrival n).tile t).mbox = (s.tile t).mbox) ∧ (s.packetArrival n).mem = s.mem ∧ (s.packetArrival n).tss = s.tss := by
  have hfw : ((s.received n f).tile f.dst).forwardOf f.h0 f.h1 = some e := by
    obtain ⟨m, hm⟩ := s.tile_received n f f.dst
    rw [hm, Tile.forwardOf, he]
    rfl
  have htile : ∀ t, ∃ m, ((s.received n f).charge f.dst e.ctx 8 ((h0Len f.h0 + 1) * hops f.dst e.dst)).tile t =
      { s.tile t with meters := m } := fun t => by
    obtain ⟨m, hm⟩ := s.tile_received n f t
    obtain ⟨m', hm'⟩ := (s.received n f).tile_charge f.dst e.ctx 8 ((h0Len f.h0 + 1) * hops f.dst e.dst) t
    exact ⟨m', by rw [hm', hm]⟩
  rw [State.received] at hfw htile
  simp only [State.packetArrival, hf, hfw]
  refine ⟨rfl, fun t => ?_, rfl, rfl⟩
  obtain ⟨m, h⟩ := htile t
  exact ⟨(congrArg Tile.sent h :), (congrArg Tile.recv h :), (congrArg Tile.mbox h :)⟩

/-! ## The mailbox -/

theorem State.mbox_putAll_charge (s : State) (a : Nat) (bs : List Byte) (t ctx cls n j : Nat) :
    (((s.putAll a bs).charge t ctx cls n).tile j).mbox = (s.tile j).mbox := by
  obtain ⟨m, hm⟩ := State.tile_charge (s.putAll a bs) t ctx cls n j
  rw [hm, State.putAll, State.putBytes_eq]
  rfl
/-- A packet placed in a mailbox, at the address that it gets (R49). -/
theorem State.mails_putMail (s : State) (t : Nat) (m : Mail) :
    ∃ a, ((s.putMail t m).tile t).mbox.mails = (s.tile t).mbox.mails ++ [{ m with addr := a }] := by
  simp only [State.putMail, State.putMailFor, State.tile_updTile, Mailbox.rehead, State.mbox_putAll_charge]
  exact ⟨_, rfl⟩
theorem State.mem_putMail (s : State) (t : Nat) (m : Mail) : ∃ x ∈ ((s.putMail t m).tile t).mbox.mails,
    x.h0 = m.h0 ∧ x.h1 = m.h1 ∧ x.body = m.body ∧ x.kind = m.kind := by
  obtain ⟨a, ha⟩ := s.mails_putMail t m
  rw [ha]
  exact ⟨_, List.mem_append_right _ (List.mem_singleton.2 rfl), rfl, rfl, rfl, rfl⟩
theorem State.grants_putMail (s : State) (t : Nat) (m : Mail) : ((s.putMail t m).tile t).mbox.grants = (s.tile t).mbox.grants := by
  simp only [State.putMail, State.putMailFor, State.tile_updTile, Mailbox.rehead, State.mbox_putAll_charge]
/-- Placing a packet changes one tile and memory. -/
theorem State.putMail_eq (s : State) (t : Nat) (m : Mail) : ∃ x y, s.putMail t m = { s with mem := x, tiles := y } := by
  simp only [State.putMail, State.putMailFor]
  rw [State.putAll, State.putBytes_eq]
  exact ⟨_, _, rfl⟩


/-! ## Arrival at a mailbox -/

/-- Of a packet that is no hole the bytes alone decide whether it is rejected, not the edge that it came on (R47). -/
theorem rejects_of_not_hole {h0 : Word} (h : isHole h0 = false) (c : TileConf) (ml : Option Nat) (ri : Bool) (port : Nat) (body : List Byte)
    (hw : Bool) : rejects c ml ri port h0 body hw = rejects c ml ri port h0 body := by
  have hn : decide (h0Nsucc h0 = 15) = false := h
  simp only [rejects, badPacket, hn, Bool.false_and]
theorem State.net_countRecv (s : State) (t : Nat) (h0 : Word) : (s.countRecv t h0).net = s.net := by
  unfold State.countRecv
  split <;> rfl
theorem State.edge_updRegion (s : State) (r j e : Nat) {f : Region → Region} (hf : ∀ g, (f g).edges = g.edges) :
    ((s.updRegion r f).region j).edge e = (s.region j).edge e := by
  rcases s.region_updRegion_cases r j f with h | ⟨-, h⟩
  · rw [h]
  · rw [h, Region.edge, hf, Region.edge]
theorem State.edge_countRecv (s : State) (t : Nat) (h0 : Word) (r e : Nat) :
    ((s.countRecv t h0).region r).edge e = (s.region r).edge e := by
  unfold State.countRecv
  split
  · exact State.edge_updRegion s _ r e fun _ => rfl
  · rfl
/-- A fault or repair packet, and a packet of an edge that passes every check, is placed in the mailbox (R47, R49, R369). -/
theorem State.arrive_eq_putMail {t : Nat} {f : Flying} {p : Port} (hp : p = AMap.get Port.init (h1Port f.h1) (s.tile t).conf.ports)
    (h : h0Kind f.h0 = 5 ∨ h0Kind f.h0 = 6 ∨ (p.edge.isSome = true ∧ isHole f.h0 = false ∧ f.edge.isSome = true ∧
      rejects (s.tile t).conf (p.edge.map fun e => ((s.region (s.rgnOf t)).edge e).len) false (h1Port f.h1) f.h0 f.body = false)) :
    ∃ m : Mail, m.h0 = f.h0 ∧ m.h1 = f.h1 ∧ m.body = f.body ∧ s.arrive t f = ((s.countRecv t f.h0).nextPos t).2.putMail t m := by
  by_cases hk : h0Kind f.h0 = 5 ∨ h0Kind f.h0 = 6
  · have hlt : decide (h0Kind f.h0 < 3) = false := by
      rw [decide_eq_false_iff_not]
      omega
    simp only [State.arrive, hlt, Bool.false_and, Bool.false_eq_true, if_false, if_pos hk]
    exact ⟨_, rfl, rfl, rfl, rfl⟩
  · obtain ⟨hedge, hhole, hf, hrej⟩ := (or_assoc.2 h).resolve_left hk
    have hlen : (p.edge.map fun e => ((((s.countRecv t f.h0).nextPos t).2.region (s.rgnOf t)).edge e).len) =
        p.edge.map fun e => ((s.region (s.rgnOf t)).edge e).len := by
      refine congrArg (p.edge.map ·) (funext fun e => ?_)
      exact congrArg Edge.len (State.edge_countRecv ..)
    obtain ⟨q, hq⟩ : ∃ q, AMap.find (h1Port f.h1) (s.tile t).conf.ports = some q := by
      cases hfind : AMap.find (h1Port f.h1) (s.tile t).conf.ports with
      | none =>
        have hnone : p = Port.init := by rw [hp, AMap.get, hfind]; rfl
        rw [hnone] at hedge
        cases hedge
      | some q => exact ⟨q, rfl⟩
    have hpq : p = q := by rw [hp, AMap.get, hq]; rfl
    subst hpq
    have hsome : p.edge.isNone = false := by rw [← Option.not_isSome, hedge]; rfl
    have hfsome : f.edge.isNone = false := by rw [← Option.not_isSome, hf]; rfl
    have hget : AMap.get Port.init (h1Port f.h1) (s.tile t).conf.ports = p := hp.symm
    simp only [State.arrive, hq, hsome, hfsome, hget, if_neg hk, hhole, Bool.and_false, Bool.false_and, Bool.false_eq_true, if_false,
      rejects_of_not_hole hhole, hlen, hrej]
    exact ⟨_, rfl, rfl, rfl, rfl⟩
theorem State.packetArrival_mail {n : Nat} {f : Flying} {p : Port} (hf : s.net[n]? = some f) (hw : (s.tile f.dst).fwds = [])
    (hs : f.stage = none) (hp : p = AMap.get Port.init (h1Port f.h1) (s.tile f.dst).conf.ports)
    (h : h0Kind f.h0 = 5 ∨ h0Kind f.h0 = 6 ∨ (h0Kind f.h0 ≠ 7 ∧ p.edge.isSome = true ∧ isHole f.h0 = false ∧ f.edge.isSome = true ∧
      rejects (s.tile f.dst).conf (p.edge.map fun e => ((s.region (s.rgnOf f.dst)).edge e).len) false (h1Port f.h1) f.h0 f.body = false)) :
    (s.packetArrival n).net = s.net.eraseIdx n ∧
      ∃ m ∈ ((s.packetArrival n).tile f.dst).mbox.mails, m.h0 = f.h0 ∧ m.h1 = f.h1 ∧ m.body = f.body := by
  have hk : h0Kind f.h0 ≠ 7 := by omega
  have hfw : ((s.received n f).tile f.dst).forwardOf f.h0 f.h1 = none := by
    obtain ⟨x, hx⟩ := s.tile_received n f f.dst
    rw [hx, Tile.forwardOf, hw]
    split <;> rfl
  have hconf : ((s.received n f).tile f.dst).conf = (s.tile f.dst).conf := by
    obtain ⟨x, hx⟩ := s.tile_received n f f.dst
    rw [hx]
  have hrgn : (s.received n f).rgnOf f.dst = s.rgnOf f.dst := by
    obtain ⟨x, hx⟩ := s.tile_received n f f.dst
    rw [State.rgnOf, hx, State.rgnOf]
  obtain ⟨m, h0, h1, hb, heq⟩ := (s.received n f).arrive_eq_putMail (t := f.dst) (f := f) (p := p) (by rw [hconf, hp])
    (h.imp_right (Or.imp_right fun h => by rw [hconf, hrgn]; exact h.2))
  have harr : s.packetArrival n = (((s.received n f).countRecv f.dst f.h0).nextPos f.dst).2.putMail f.dst m := by
    rw [← heq]
    rw [State.received] at hfw
    simp only [State.packetArrival, hf, hfw, hs, if_neg hk]
    rfl
  rw [harr]
  obtain ⟨x, y, hmail⟩ := State.putMail_eq (((s.received n f).countRecv f.dst f.h0).nextPos f.dst).2 f.dst m
  obtain ⟨z, hz, e0, e1, eb, -⟩ := State.mem_putMail (((s.received n f).countRecv f.dst f.h0).nextPos f.dst).2 f.dst m
  refine ⟨?_, z, hz, e0.trans h0, e1.trans h1, eb.trans hb⟩
  rw [hmail]
  exact State.net_countRecv ..

end Sys2Proof.Machine
end

section
/-! SUPPORT. Dispatch, completion tokens, credits and admission (R39, R46, R50, R52, R297). -/

namespace Sys2Proof.Machine

open Sys2Proof Sys2Proof.Claims

variable {s : State}

/-! ## Dispatch -/

/-- A fold of steps that change memory and the count of unpredictable values does so. -/
theorem State.foldl_mem_fresh {α : Type} {f : State → α → State} (h : ∀ (s : State) x, ∃ m n, f s x = { s with mem := m, fresh := n })
    (l : List α) (s : State) : ∃ m n, l.foldl f s = { s with mem := m, fresh := n } := by
  induction l generalizing s with
  | nil => exact ⟨_, _, rfl⟩
  | cons x l ih =>
    obtain ⟨m, n, e⟩ := h s x
    rw [List.foldl_cons, e]
    exact ih _
theorem State.putFree_eq (s : State) (a n : Nat) : ∃ m c, s.putFree a n = { s with mem := m, fresh := c } := by
  unfold State.putFree
  refine State.foldl_mem_fresh (fun s i => ?_) _ _
  exact ⟨_, _, State.putBytes_eq ..⟩
theorem State.putRoData_eq (s : State) (t : Nat) (ds : List (Nat × List Byte)) :
    ∃ m c, s.putRoData t ds = { s with mem := m, fresh := c } := by
  unfold State.putRoData
  refine State.foldl_mem_fresh (fun s i => ?_) _ _
  exact ⟨_, _, State.putBytes_eq ..⟩
/-- A replica's pad is made anew in memory (R58). -/
theorem State.freshPad_eq (s : State) (t : Nat) : ∃ m c, s.freshPad t = { s with mem := m, fresh := c } := by
  unfold State.freshPad
  dsimp only
  split
  · obtain ⟨m, c, e⟩ := s.putFree_eq (poolKey t 0) (mboxBase (s.tile t).conf.part)
    rw [e]
    exact State.putRoData_eq ..
  · exact ⟨_, _, rfl⟩
theorem State.tile_freshPad (s : State) (t j : Nat) : (s.freshPad t).tile j = s.tile j := by
  obtain ⟨m, c, e⟩ := s.freshPad_eq t
  rw [e]
  rfl
theorem State.ts_freshPad (s : State) (t j : Nat) : (s.freshPad t).ts j = s.ts j := by
  obtain ⟨m, c, e⟩ := s.freshPad_eq t
  rw [e]
  rfl
theorem State.ts_traceTile (s : State) (t kind ts w1 w2 w3 j : Nat) : (s.traceTile t kind ts w1 w2 w3).ts j = s.ts j := by
  obtain ⟨m, rs, e⟩ := s.traceTile_eq_with t kind ts w1 w2 w3
  rw [e]
  rfl
theorem State.ts_ticket (s : State) (r t ts kind j : Nat) : (s.ticket r t ts kind).ts j = s.ts j := by
  obtain ⟨m, rs, e⟩ := s.ticket_eq_with r t ts kind
  rw [e]
  rfl
theorem State.tile_ticket (s : State) (r t ts kind j : Nat) : (s.ticket r t ts kind).tile j = s.tile j := by
  obtain ⟨m, rs, e⟩ := s.ticket_eq_with r t ts kind
  rw [e]
  rfl

/-- The registers that a task starts with (R50). -/
theorem State.regs_startTask (s : State) (k : Nat) (m : Mail) :
    ((s.startTask k m).ts k).regs = startRegs (s.ts k).regs m.h0 m.h1 (m.addr + 16) (payloadLen m.h0) (s.tile (tileOf k)).conf.ox
        (AMap.get 0 (h0Handler m.h0) (s.tile (tileOf k)).conf.handlers) := by
  simp only [State.startTask, State.ts_traceTile, State.ts_updTs, State.updTile_ts, State.ts_freshPad, State.tile_freshPad]
/-- The task that a packet starts (R52). -/
theorem State.task_startTask (s : State) (k : Nat) (m : Mail) :
    ∃ a, ((s.startTask k m).ts k).task = some a ∧ a.h0 = m.h0 ∧ a.h1 = m.h1 := by
  simp only [State.startTask, State.ts_traceTile, State.ts_updTs]
  exact ⟨_, rfl, rfl, rfl⟩
/-- A port's expected SEQ passes the holes that wait, and nothing of the thread sets changes (R57). -/
theorem State.ts_eatHoles (s : State) (t port n j : Nat) : (s.eatHoles t port n).ts j = s.ts j := by
  induction n generalizing s with
  | zero => rfl
  | succ n ih =>
    simp only [State.eatHoles]
    split
    · rename_i m _
      have hc : ∀ e : Option Nat, (s.returnCredit (s.rgnOf t) e (h0Seq m.h0)).ts j = s.ts j := fun e => by cases e <;> rfl
      exact (ih _).trans (hc m.edge)
    · rfl
theorem State.ts_advancePort (s : State) (t : Nat) (m : Mail) (j : Nat) : (s.advancePort t m).ts j = s.ts j := by
  unfold State.advancePort
  dsimp only
  split
  · exact State.ts_eatHoles ..
  · rfl
theorem State.freeBytes_eq (s : State) (n : Nat) : ∃ c, (s.freeBytes n).2 = { s with fresh := c } := by
  have h : ∀ (l : List Nat) (p : List Byte × State), ∃ c, (l.foldl (fun (p : List Byte × State) _ =>
      let (w, s) := p.2.free; (p.1 ++ [BitVec.ofNat 8 w.toNat], s)) p).2 = { p.2 with fresh := c } := by
    intro l
    induction l with
    | nil => exact fun p => ⟨_, rfl⟩
    | cons x l ih =>
      intro p
      obtain ⟨c, hc⟩ := ih (p.1 ++ [BitVec.ofNat 8 p.2.free.1.toNat], p.2.free.2)
      exact ⟨c, hc⟩
  exact h _ _
theorem State.ts_putMail (s : State) (t : Nat) (m : Mail) (j : Nat) : (s.putMail t m).ts j = s.ts j := by
  obtain ⟨x, y, e⟩ := s.putMail_eq t m
  rw [e]
  rfl
theorem State.ts_spillReturn (s : State) (t j : Nat) : (s.spillReturn t).ts j = s.ts j := by
  unfold State.spillReturn
  dsimp only
  split
  · split
    · split
      · exact State.ts_putMail ..
      · rename_i m _ _ _ _
        obtain ⟨c, e⟩ := s.freeBytes_eq m.body.length
        refine (State.ts_putMail ..).trans ?_
        exact (congrArg (fun v : State => v.ts j) e :)
    · rfl
  · rfl

/-- A packet that is no eos starts its task, and what follows leaves the thread sets (R50, R52). -/
theorem State.ts_startPacket {m : Mail} (h : h0Kind m.h0 ≠ 2) (s : State) (k j : Nat) :
    (s.startPacket k m).ts j = (s.startTask k m).ts j := by
  have h2 : decide (h0Kind m.h0 = 2) = false := decide_eq_false h
  simp only [State.startPacket, h2, Bool.false_and, Bool.false_eq_true, if_false]
  split
  · exact (State.ts_spillReturn ..).trans (State.ts_advancePort ..)
  · exact State.ts_advancePort ..
theorem State.taskDispatch_eq {k : Nat} {m : Mail} (hs : s.sliceNext (tileOf k) = false) (hc : s.choice (tileOf k) = some m) :
    s.taskDispatch k = (s.ticket (s.rgnOf (tileOf k)) (tileOf k) (tsNum k) 3).startPacket k m := by
  simp only [State.taskDispatch, hs, hc, Bool.false_eq_true, if_false]
theorem canDispatch_of_choice {k : Nat} {m : Mail} (hf : s.freeFor k = true) (hc : s.choice (tileOf k) = some m) (hk : m.kind ≠ .fault)
    (hy : s.yieldsToSteal (tileOf k) = false) (ht : s.ticketOk (s.rgnOf (tileOf k)) (tileOf k) (tsNum k) 3 = true) :
    s.canDispatch k = true := by simp [State.canDispatch, hf, hc, hk, hy, ht]
/-- The scalar registers of a new task: H0, the payload's address and length, H1, and zeros (R50). -/
theorem startRegs_s (old : Regs) (h0 h1 : Word) (a n : Nat) (ox : List Word) (bpc : Word) :
    AMap.get 0 1 (startRegs old h0 h1 a n ox bpc).s = h0 ∧ AMap.get 0 2 (startRegs old h0 h1 a n ox bpc).s = word a ∧
      AMap.get 0 3 (startRegs old h0 h1 a n ox bpc).s = word n ∧ AMap.get 0 4 (startRegs old h0 h1 a n ox bpc).s = h1 ∧
      AMap.get 0 5 (startRegs old h0 h1 a n ox bpc).s = 0 := by
  have hne : ∀ {i j : Nat} (x : Word) (m : AMap Word), i ≠ j → AMap.get 0 i (AMap.put 0 j x m) = AMap.get 0 i m :=
    fun x m h => AMap.get_put_of_ne h _ _ _ _
  refine ⟨AMap.get_put_same .., ?_, ?_, ?_, ?_⟩
  · rw [startRegs, hne _ _ (by decide), AMap.get_put_same]
  · rw [startRegs, hne _ _ (by decide), hne _ _ (by decide), AMap.get_put_same]
  · rw [startRegs, hne _ _ (by decide), hne _ _ (by decide), hne _ _ (by decide), AMap.get_put_same]
  · rw [startRegs, hne _ _ (by decide), hne _ _ (by decide), hne _ _ (by decide), hne _ _ (by decide)]
    rfl

/-! ## Tokens of an ended task -/

/-- A packet into the network is its last (R25). -/
theorem State.net_emit (s : State) (src dst : Nat) (h0 h1 : Word) (body : List Byte) (st ed : Option (Nat × Nat)) (sl : List Nat)
    (ts : Nat) : (s.emit src dst h0 h1 body st ed sl ts).net = s.net ++ [⟨src, dst, vcOf (h0Kind (setField h0 39 1 (s.tile src).colour.toNat)),
      setField h0 39 1 (s.tile src).colour.toNat, h1, body, st, ed, false, sl⟩] := by
  obtain ⟨m, rs, e⟩ := State.traceTile_eq_with ((s.updTile src fun x => { x with sent := countPair x.sent (s.tile src).colour }).charge src
      ((s.updTile src fun x => { x with sent := countPair x.sent (s.tile src).colour }).ctxOf src) 8
      ((h0Len (setField h0 39 1 (s.tile src).colour.toNat) + 1) * hops src dst)) src 2 ts
      (setField h0 39 1 (s.tile src).colour.toNat).toNat h1.toNat 0
  simp only [State.emit, e]
  rfl
theorem State.net_tryFree (s : State) (k : Nat) : (s.tryFree k).net = s.net := by
  have hend : ∀ a, (s.stageTaskEnd k a).net = s.net := fun a => by
    unfold State.stageTaskEnd
    dsimp only
    split <;> rfl
  unfold State.tryFree
  dsimp only
  split
  · cases h : (s.ts k).task with
    | none => rfl
    | some a => exact hend a
  · rfl
theorem State.completionToken_last {k : Nat} {o : OutTok} (h : (s.ts k).outs = [o]) :
    s.completionToken k = ((s.updTs k fun a => { a with outs := [] }).emitOut k o).tryFree k := by
  simp only [State.completionToken, h, List.length_nil, State.drainHoles]

/-! ## Credits -/

/-- What passes the SEQs whose credits are back keeps the credits and those under way (R55). -/
theorem Edge.settle_keeps (n : Nat) (d : Edge) : (d.settle n).credits = d.credits ∧ (d.settle n).returning = d.returning := by
  induction n generalizing d with
  | zero => exact ⟨rfl, rfl⟩
  | succ n ih =>
    simp only [Edge.settle]
    split
    · exact ih _
    · exact ⟨rfl, rfl⟩
theorem State.feedSource_of_none {r e : Nat} (h : ∀ z ∈ s.links.sources, ¬(z.ctx = (s.region r).ctx ∧ z.edge = e)) (n : Nat) :
    s.feedSource r e n = s := by
  cases n with
  | zero => rfl
  | succ n =>
    have hn : (s.links.sources.find? fun q => q.ctx == (s.region r).ctx && q.edge == e) = none :=
      List.find?_eq_none.2 fun z hz => by simpa using h z hz
    simp only [State.feedSource, hn]
/-- A table that has more than its default at a number lists the number. -/
theorem AMap.isSome_of_get_ne {β : Type} {d : β} {k : Nat} {m : AMap β} (h : AMap.get d k m ≠ d) : (AMap.find k m).isSome = true := by
  cases hf : AMap.find k m with
  | none => exact absurd (by rw [AMap.get, hf]; rfl) h
  | some x => rfl
/-- A credit that comes back is the source's again (R39). -/
theorem State.creditReturn_edge {r n q : Nat} {rest : List Nat} (hr : s.hasRegion r = true)
    (hq : ((s.region r).edge n).returning = q :: rest) (hh : ((s.region r).edge n).holes = [])
    (hz : ∀ z ∈ s.links.sources, ¬(z.ctx = (s.region r).ctx ∧ z.edge = n)) :
    (((s.creditReturn r n).region r).edge n).credits = ((s.region r).edge n).credits + 1 ∧
      (((s.creditReturn r n).region r).edge n).returning = rest := by
  have he : (AMap.find n (s.region r).edges).isSome = true := by
    refine AMap.isSome_of_get_ne (d := Edge.init) fun h => ?_
    rw [Region.edge, h] at hq
    cases hq
  have hu : s.creditReturn r n = (s.updEdge r n fun d => Edge.credited { d with returning := rest } q).wakeAll := by
    have hz' : ∀ z ∈ (s.updEdge r n fun d => Edge.credited { d with returning := rest } q).links.sources,
        ¬(z.ctx = ((s.updEdge r n fun d => Edge.credited { d with returning := rest } q).region r).ctx ∧ z.edge = n) := by
      rw [State.region_updEdge hr]
      exact hz
    simp only [State.creditReturn, hq, hh, List.length_nil, State.flushHoles, State.feedSource_of_none hz']
  rw [hu, (State.still_wakeAll _).region, State.edge_updEdge hr he]
  obtain ⟨h1, h2⟩ := Edge.settle_keeps (((s.region r).edge n).above.length + 1)
    { (s.region r).edge n with returning := rest, credits := ((s.region r).edge n).credits + 1, above := q :: ((s.region r).edge n).above }
  exact ⟨h1, h2⟩

/-! ## Admission -/

theorem State.tile_putRing (s : State) (t off : Nat) (bs : List Byte) (j : Nat) : (s.putRing t off bs).tile j = s.tile j := by
  simp only [State.putRing]
  rw [State.putAll, State.putBytes_eq, State.putAll, State.putBytes_eq]
  rfl
theorem State.grants_spill (s : State) (t : Nat) (m : Mail) : ((s.spill t m).tile t).mbox.grants = (s.tile t).mbox.grants := by
  obtain ⟨c, hc⟩ := s.freeBytes_eq (packetLen m.h0)
  have hg : ∀ (v : State) ctx bs n, (∀ j, v.tile j = s.tile j) →
      (((v.putRing t (s.tile t).mbox.ringEnd bs).charge t ctx 7 n).tile t).mbox.grants = (s.tile t).mbox.grants := by
    intro v ctx bs n hv
    obtain ⟨x, hx⟩ := (v.putRing t (s.tile t).mbox.ringEnd bs).tile_charge t ctx 7 n t
    rw [hx, State.tile_putRing, hv]
  simp only [State.spill, State.tile_updTile, hc]
  exact hg { s with fresh := c } _ _ _ fun _ => rfl
theorem State.tile_wakeAll (s : State) (t : Nat) : s.wakeAll.tile t = s.tile t := rfl
/-- An admission takes the packet that waits first (R297). -/
theorem State.grants_spawnAdmission {t : Nat} {g : Waiting} {rest : List Waiting} (h : (s.tile t).mbox.grants = g :: rest) :
    ((s.spawnAdmission t).tile t).mbox.grants = rest := by
  simp only [State.spawnAdmission, h, State.tile_wakeAll]
  split
  · rw [State.grants_putMail, State.tile_updTile]
  · rw [State.grants_spill, State.tile_updTile]
theorem canAdmit_of_first {t : Nat} {g : Waiting} {rest : List Waiting} (h3 : s.mode (s.rgnOf t) ≠ 3) (hs : s.shut t = false)
    (h : (s.tile t).mbox.grants = g :: rest) (ha : (s.admits t (packetLen g.pkt.1) || s.spillsTo t (packetLen g.pkt.1)) = true) :
    s.canAdmit t = true := by
  simp only [State.canAdmit, h, ha, hs]
  simpa using h3

end Sys2Proof.Machine
end

section
/-! SUPPORT. Events of stages, of completion and of the Dormancy round (R56, R60 to R64, R67, R69). -/

namespace Sys2Proof.Machine

open Sys2Proof Sys2Proof.Claims

variable {s : State} {r n : Nat}

/-! ## Stages that are there -/

theorem State.region_of_not_has (h : s.hasRegion r = false) : s.region r = Region.init := by
  have hf : AMap.find r s.regions = none := by simpa [State.hasRegion] using h
  rw [State.region, AMap.get, hf]
  rfl
/-- A stage is listed, in a region that is there. -/
def State.HasStage (s : State) (r n : Nat) : Prop := s.hasRegion r = true ∧ (AMap.find n (s.region r).stages).isSome = true
theorem State.hasStage_of_ne (h : (s.region r).stage n ≠ Stage.init) : s.HasStage r n := by
  refine ⟨?_, AMap.isSome_of_get_ne h⟩
  cases hr : s.hasRegion r with
  | true => rfl
  | false =>
    rw [State.region_of_not_has hr] at h
    exact absurd rfl h
theorem State.HasStage.staged {u : State} (h : s.HasStage r n) (g : s.Staged u) : u.HasStage r n :=
  ⟨by rw [g.has, h.1], by rw [g.stages, h.2]⟩
theorem State.HasStage.updStage (h : s.HasStage r n) (g : Stage → Stage) : (s.updStage r n g).HasStage r n :=
  ⟨by rw [State.updStage, State.hasRegion_updRegion, h.1], by rw [State.region_updStage h.1, AMap.find_modify_same, Option.isSome_map, h.2]⟩
theorem State.HasStage.stage_updStage (h : s.HasStage r n) (g : Stage → Stage) :
    ((s.updStage r n g).region r).stage n = g ((s.region r).stage n) := State.stage_updStage h.1 h.2 g
theorem State.staged_sendSteal (s : State) (r n src dst : Nat) (use : StealUse) (sl : List Nat) : s.Staged (s.sendSteal r n src dst use sl) := by
  unfold State.sendSteal
  dsimp only
  split
  · exact State.staged_emit ..
  · exact .refl s

theorem State.tile_updStage (s : State) (r n : Nat) (g : Stage → Stage) (t : Nat) : (s.updStage r n g).tile t = s.tile t := rfl

/-! ## Dealing -/

theorem canDeal_of_next {rep t : Nat} {p : Word × Word × List Byte} (hp : ((s.region r).stage n).nextPkt = some p)
    (hk : ((s.region r).stage n).kind = .stateless) (hrep : rep < ((s.region r).stage n).replicas.length)
    (ht : (s.region r).tileAt? (((s.region r).stage n).replicas.getD rep 0) = some t) (hs : s.shut t = false) : s.canDeal r n rep = true := by
  simp only [State.canDeal, hp, hk, ht, hs, hrep]
  rfl
/-- A packet that is no hole, no eos and not rejected is placed at its replica (R56). -/
theorem State.mails_deal {rep t : Nat} {h0 h1 : Word} {body : List Byte} (hp : ((s.region r).stage n).nextPkt = some (h0, h1, body))
    (hh : isHole h0 = false) (hk : h0Kind h0 ≠ 2)
    (hrej : rejects ((s.region r).stage n).conf (some ((s.region r).edge ((s.region r).stage n).inEdge).len) false
      ((s.region r).edge ((s.region r).stage n).inEdge).port h0 body = false)
    (ht : (s.region r).tileAt? (((s.region r).stage n).replicas.getD rep 0) = some t) :
    ∃ m ∈ ((s.deal r n rep).tile t).mbox.mails, m.h0 = h0 ∧ m.h1 = h1 ∧ m.body = body ∧ m.kind = .edge := by
  simp only [State.deal, hp, hh, rejects_of_not_hole hh, hrej, if_neg hk, ht, Bool.false_and, Bool.false_eq_true, if_false, State.tile_updStage]
  exact State.mem_putMail ..

/-! ## The end of a stage -/

theorem canStageEos_of_ended {seq : Nat} {h0 : Word} (hk : ((s.region r).stage n).kind = .stateless)
    (he : ((s.region r).stage n).eosIn = some (h0, seq)) (ho : ((s.region r).stage n).eosOut = false)
    (hn : ((s.region r).stage n).nextIn = seq) (hs : ((s.region r).stage n).openSeqs = []) (hr : s.outsReady r n seq = true)
    (ht : (s.tile ((s.region r).leadTile n)).stopped = false) : s.canStageEos r n = true := by
  simp only [State.canStageEos, he, hk, ho, hn, hs, hr, ht]
  rfl
theorem canRangeEos_of_ended {seq : Nat} {h0 : Word} (hk : ((s.region r).stage n).kind = .range)
    (he : ((s.region r).stage n).eosIn = some (h0, seq)) (ho : ((s.region r).stage n).eosOut = false)
    (hn : ((s.region r).stage n).nextIn = seq) (hm : ((s.region r).stage n).rem = []) (hb : ((s.region r).stage n).busy = [])
    (hl : ∀ k, ((s.region r).stage n).tok = some k → k.left = 0)
    (hr : s.outsReady r n (((s.region r).stage n).total % 2 ^ 32) = true)
    (ht : (s.tile ((s.region r).leadTile n)).stopped = false) : s.canRangeEos r n = true := by
  simp only [State.canRangeEos, he, hk, ho, hn, hm, hb, hr, ht]
  cases hx : ((s.region r).stage n).tok with
  | none => rfl
  | some k =>
    have := hl k hx
    simp [this]
/-- The eos of a stage leaves on its output edges (R60, R64). -/
theorem State.eosOut_stageEosOut (hne : (s.region r).stage n ≠ Stage.init) (h0 : Word) (seq : Nat) :
    (((s.stageEosOut r n h0 seq).region r).stage n).eosOut = true := by
  have hput : ∀ v : State, s.Staged v → (((v.updStage r n fun x => { x with eosOut := true }).region r).stage n).eosOut = true := by
    intro v hv
    rw [((State.hasStage_of_ne hne).staged hv).stage_updStage]
  exact hput _ (State.Staged.foldl (fun s p => s.staged_sendEdge ..) _ s)

/-! ## Ranges -/

theorem canTake_of_next {p : Word × Word × List Byte} (hk : ((s.region r).stage n).kind = .range)
    (hp : ((s.region r).stage n).nextPkt = some p) (hl : ∀ k, ((s.region r).stage n).tok = some k → k.left = 0) :
    s.canTake r n = true := by
  simp only [State.canTake, hk, hp]
  cases hx : ((s.region r).stage n).tok with
  | none => rfl
  | some k =>
    have := hl k hx
    simp [this]
/-- A range token that is taken is split into slices (R61, R62). -/
theorem State.tok_takeToken {h0 h1 : Word} {body : List Byte} (hk : ((s.region r).stage n).kind = .range)
    (hp : ((s.region r).stage n).nextPkt = some (h0, h1, body)) (hh : isHole h0 = false) (h2 : h0Kind h0 ≠ 2)
    (hrej : rejects ((s.region r).stage n).conf (some ((s.region r).edge ((s.region r).stage n).inEdge).len) true
      ((s.region r).edge ((s.region r).stage n).inEdge).port h0 body = false) :
    ∃ k, (((s.takeToken r n).region r).stage n).tok = some k ∧ k.lo = ofBytes (body.take 8) ∧ k.hi = ofBytes ((body.drop 8).take 8) ∧
      k.count = (k.hi - k.lo + ((s.region r).stage n).slice - 1) / ((s.region r).stage n).slice ∧ k.left = k.count := by
  have hst : s.HasStage r n := State.hasStage_of_ne fun e => by rw [e] at hk; cases hk
  have hst' : ∀ g, ((s.returnCredit r (some ((s.region r).stage n).inEdge) (h0Seq h0)).updStage r n g).HasStage r n := fun g =>
    (hst.staged (s.staged_returnCredit ..)).updStage g
  simp only [State.takeToken, hp, hh, rejects_of_not_hole hh, hrej, if_neg h2, Bool.false_and, Bool.false_eq_true, if_false]
  rw [(hst' _).stage_updStage]
  exact ⟨_, rfl, rfl, rfl, rfl, rfl⟩

/-! ## Stealing -/

/-- A replica that asks is listed as asking (R63). -/
theorem State.asking_ask {t : Nat} (h : ((s.region (s.rgnOf t)).stage (s.tile t).conf.stage).tok.isSome = true) :
    (s.tile t).coord ∈ (((s.ask t).region (s.rgnOf t)).stage (s.tile t).conf.stage).asking := by
  have hst : s.HasStage (s.rgnOf t) (s.tile t).conf.stage := State.hasStage_of_ne fun e => by rw [e] at h; cases h
  simp only [State.ask]
  rw [(State.staged_sendSteal ..).stage, hst.stage_updStage]
  exact List.mem_cons_self
theorem State.asks_serve {t : Nat} {a : Nat × Nat}
    (h : ((s.region (s.rgnOf t)).stage (s.tile t).conf.stage).asks.find? (fun a => a.2 == (s.tile t).coord) = some a) :
    (((s.serve t).region (s.rgnOf t)).stage (s.tile t).conf.stage).asks =
      ((s.region (s.rgnOf t)).stage (s.tile t).conf.stage).asks.erase a := by
  have hst : s.HasStage (s.rgnOf t) (s.tile t).conf.stage := State.hasStage_of_ne fun e => by rw [e] at h; cases h
  simp only [State.serve, h, (State.still_wakeAll _).region, State.takeSlices]
  rw [(State.staged_sendSteal ..).stage, (hst.updStage _).stage_updStage, hst.stage_updStage]
theorem canServe_of_asks {t : Nat} {a : Nat × Nat} (ha : (s.tile t).conf.actor = some .range)
    (h : ((s.region (s.rgnOf t)).stage (s.tile t).conf.stage).asks.find? (fun a => a.2 == (s.tile t).coord) = some a)
    (hb : AMap.get 0 (s.tile t).coord ((s.region (s.rgnOf t)).stage (s.tile t).conf.stage).busy = 0) (hf : s.splitInFlight t = false)
    (hs : (s.tile t).stopped = false) (hg : s.gatedAt t = false) : s.canServe t = true := by
  have hany : ((s.region (s.rgnOf t)).stage (s.tile t).conf.stage).asks.any (fun a => decide (a.2 = (s.tile t).coord)) = true :=
    List.any_eq_true.2 ⟨a, List.mem_of_find?_eq_some h, by simpa using List.find?_some h⟩
  simp only [State.canServe, ha, hany, hb, hf, hs, hg]
  rfl
/-- The donor of a dry field keeps the lower half of its slices (R64). -/
theorem State.rem_cross {fld c : Nat} (h : s.canCross r n fld = true) (hd : (s.region r).donor ((s.region r).stage n) fld = some c) :
    AMap.get [] c (((s.cross r n fld).region r).stage n).rem =
      (AMap.get [] c ((s.region r).stage n).rem).filter fun i => !(((s.region r).stage n).upper c).contains i := by
  have hidle : ∃ d, (s.region r).idle ((s.region r).stage n) fld = some d := by
    cases hi : (s.region r).idle ((s.region r).stage n) fld with
    | some d => exact ⟨d, rfl⟩
    | none => simp [State.canCross, hd, hi] at h
  obtain ⟨d, hi⟩ := hidle
  have hst : s.HasStage r n := State.hasStage_of_ne fun e => by rw [e] at hd; cases hd
  simp only [State.cross, hd, hi, State.takeSlices]
  rw [(State.staged_sendSteal ..).stage, hst.stage_updStage]
  exact AMap.get_put_same _ _ _ _

/-! ## Completion -/

theorem State.regions_dramAddr (s : State) (r p a : Nat) (w : Want) : (s.dramAddr r p a w).2.regions = s.regions := by
  unfold State.dramAddr
  dsimp only
  split
  · rfl
  · split
    · split_ifs <;> rfl
    · split
      · rfl
      · split_ifs <;> rfl
theorem State.regions_dramKey (s : State) (r p a n : Nat) (w : Want) : (s.dramKey r p a n w).2.regions = s.regions := by
  have h := s.regions_dramAddr r p a w
  unfold State.dramKey
  split
  · rename_i x v e
    rw [e] at h
    dsimp only
    split_ifs
    · split <;> exact h
    · exact h
    · exact h
  · rename_i v e
    rw [e] at h
    exact h
  · rename_i v e
    rw [e] at h
    exact h

theorem State.regions_boderAsk (s : State) (p : Nat) (o : BoderOut) : (s.boderAsk p o).2.regions = s.regions := by
  have hc : ∀ v : State, v.choose.2.regions = v.regions := fun v => by
    unfold State.choose
    split <;> rfl
  unfold State.boderAsk
  split
  · rfl
  · exact hc _
theorem State.staged_dramRefused (s : State) (told walked : Bool) (r p c : Nat) (m : Bool) (a : Nat) :
    s.Staged (s.dramRefused told walked r p c m a) := by
  have hm : s.Staged (s.shareMiss r p (a / 65536)) := .of_regions rfl
  unfold State.dramRefused
  dsimp only
  refine State.Staged.ite (.refl s) ?_
  split
  · exact hm.trans (State.staged_sendToken _ rfl ..)
  · exact State.staged_sendToken _ rfl ..
/-- The word that reports the completion is written, or its refusal is reported (R67). -/
theorem State.staged_storeCompletion (s : State) (r : Nat) : s.Staged (s.storeCompletion r) := by
  unfold State.storeCompletion
  dsimp only
  split
  · exact s.staged_putNum ..
  · split
    · rename_i p _
      have hk := State.Staged.of_regions (s.regions_dramKey r p (field (csrOf (s.region r).csr 0x049) 0 57) 8 .write)
      split
      · rename_i k v e
        rw [e] at hk
        exact hk.trans (State.staged_putNum ..)
      · rename_i d b v e
        rw [e] at hk
        have ha := hk.trans (State.Staged.of_regions (State.regions_boderAsk v p
          (remoteAsk d (s.region r).ctx 1 b 8 ((leBytes 8 (csrOf (s.region r).csr 0x048).toNat).map some))))
        split
        · rename_i v' e'
          rw [e'] at ha
          exact ha
        · rename_i c v' _ e'
          rw [e'] at ha
          exact ha.trans (State.staged_dramRefused ..)
      · rename_i c m w v e
        rw [e] at hk
        exact hk.trans (State.staged_dramRefused ..)
    · exact .refl s
theorem State.staged_updTile (s : State) (t : Nat) (f : Tile → Tile) : s.Staged (s.updTile t f) := .of_regions rfl
theorem State.staged_harvest (s : State) (r : Nat) (final : Bool) : s.Staged (s.harvest r final) := by
  unfold State.harvest
  refine State.Staged.foldl (fun s t => ?_) _ s
  exact (State.staged_updTile _ t _).trans (State.Staged.updRegion _ r (f := Region.harvested _ _) fun _ => ⟨rfl, rfl, rfl⟩)
theorem State.region_commitUpdate (s : State) (r : Nat) : s.commitUpdate.region r = s.region r := by
  unfold State.commitUpdate
  dsimp only
  split <;> rfl
/-- A region that completes is completed, and ends unless a launch sequence goes on (R67). -/
theorem State.region_complete (hr : s.hasRegion r = true) : ((s.complete r).region r).outcome = .completed ∧
    ((s.complete r).region r).st = if (s.region r).seqOn then (s.region r).st else .ended := by
  have hst : s.Staged ((s.storeCompletion r).harvest r true) := (s.staged_storeCompletion r).trans (State.staged_harvest ..)
  simp only [State.complete, State.region_commitUpdate]
  rw [State.region_updRegion _ _ _ (by rw [hst.has, hr])]
  exact ⟨rfl, by rw [← hst.seqOn, ← hst.st]⟩
theorem canComplete_of_done (hr : s.hasRegion r = true) (h1 : (s.region r).st = .running) (h2 : (s.region r).outcome = .pending)
    (h3 : (s.region r).ran = true) (h4 : s.allReported r = true) (hd : ∀ d ∈ s.dreqs, d.rgn = r → field d.ctl 60 4 = 0)
    (ht : ∀ t ∈ (s.region r).tilesOf, (∀ p ∈ (s.tile t).slots, p.2.toWrite = []) ∧
      ∀ i < 4, (s.ts (4 * t + i)).eng.journal = [] ∧ (s.ts (4 * t + i)).eng.copies = []) : s.canComplete r = true := by
  have hstores : s.storesDone r = true := by
    simp only [State.storesDone, Bool.and_eq_true, List.all_eq_true]
    refine ⟨fun d hd' => ?_, fun t ht' i hi => ?_⟩
    · by_cases hdr : d.rgn = r
      · simp [hd d hd' hdr]
      · simp [hdr]
    · obtain ⟨hj, hc⟩ := (ht t ht').2 i (List.mem_range.1 hi)
      simp [hj, hc]
  have htiles : ((s.region r).tilesOf.all fun t => (s.tile t).slots.all (fun p => p.2.toWrite.isEmpty) &&
      (List.range 4).all fun i => (s.ts (4 * t + i)).eng.journal.isEmpty) = true := by
    simp only [List.all_eq_true, Bool.and_eq_true]
    refine fun t ht' => ⟨fun p hp => ?_, fun i hi => ?_⟩
    · rw [(ht t ht').1 p hp]
      rfl
    · rw [((ht t ht').2 i (List.mem_range.1 hi)).1]
      rfl
  simp only [State.canComplete, hr, h1, h2, h3, h4, hstores, htiles]
  rfl

/-! ## The Dormancy round -/

/-- A round during an open cut starts the count anew (R69). -/
theorem State.dormancy_cut (hc : (s.region r).cut.phase = 1) :
    ((s.dormancy r).region r).dorm = (0, 0, 0) ∧ (s.dormancy r).mem = s.mem ∧ (s.dormancy r).tss = s.tss := by
  have hr : s.hasRegion r = true := by
    cases h : s.hasRegion r with
    | true => rfl
    | false =>
      rw [State.region_of_not_has h] at hc
      cases hc
  have hd : s.dormancy r = s.updRegion r fun g => { g with dorm := (0, 0, 0) } := by
    simp only [State.dormancy, hc, true_or, if_true]
  rw [hd, State.region_updRegion s r _ hr]
  exact ⟨rfl, rfl, rfl⟩

end Sys2Proof.Machine
end

section
/-! SUPPORT. O42: the events of blocks, packets, tasks, stages and completion. -/

namespace Sys2Proof.Machine

open Sys2Proof Sys2Proof.Claims

variable {s : State}

/-- An event whose condition holds leads to its state. -/
theorem next_of_comes {name : String} {i : Instr} {ok : Bool} {t : State} (h : comes name i s ok t) (hok : ok = true) {Q : State → Prop}
    (hQ : Q t) : ∃ u, exec i s = .next u ∧ Q u := ⟨t, h.1 hok, hQ⟩
/-- A condition that holds, in a region that does not run in rounds. -/
theorem enabled_of_mode {c : Bool} {r : Nat} (hc : c = true) (h3 : s.mode r ≠ 3) : (c && decide (s.mode r ≠ 3)) = true := by simp [hc, h3]

theorem dispatches {k : Nat} {m : Mail} (hf : s.freeFor k = true) (hs : s.sliceNext (tileOf k) = false) (hc : s.choice (tileOf k) = some m)
    (hk : m.kind ≠ .fault) (hy : s.yieldsToSteal (tileOf k) = false) (ht : s.ticketOk (s.rgnOf (tileOf k)) (tileOf k) (tsNum k) 3 = true)
    (h2 : h0Kind m.h0 ≠ 2) : ∃ (u : State) (a : Task), exec (.taskDispatch k) s = .next u ∧ (u.ts k).task = some a ∧ a.h0 = m.h0 ∧ a.h1 = m.h1 ∧
      AMap.get 0 1 (u.ts k).regs.s = m.h0 ∧ AMap.get 0 2 (u.ts k).regs.s = word (m.addr + 16) ∧
      AMap.get 0 3 (u.ts k).regs.s = word (payloadLen m.h0) ∧ AMap.get 0 4 (u.ts k).regs.s = m.h1 ∧ AMap.get 0 5 (u.ts k).regs.s = 0 ∧
      (u.ts k).regs.blr = 0 ∧ (u.ts k).regs.flags = 0 ∧
      (u.ts k).regs.bpc = AMap.get 0 (h0Handler m.h0) (s.tile (tileOf k)).conf.handlers := by
  have hts : (s.taskDispatch k).ts k = ((s.ticket (s.rgnOf (tileOf k)) (tileOf k) (tsNum k) 3).startTask k m).ts k := by
    rw [State.taskDispatch_eq hs hc, State.ts_startPacket h2]
  obtain ⟨a, ha, h0, h1⟩ := (s.ticket (s.rgnOf (tileOf k)) (tileOf k) (tsNum k) 3).task_startTask k m
  obtain ⟨e1, e2, e3, e4, e5⟩ := startRegs_s (s.ts k).regs m.h0 m.h1 (m.addr + 16) (payloadLen m.h0) (s.tile (tileOf k)).conf.ox
    (AMap.get 0 (h0Handler m.h0) (s.tile (tileOf k)).conf.handlers)
  refine ⟨_, a, (comes_taskDispatch s k).1 (canDispatch_of_choice hf hc hk hy ht), by rw [hts, ha], h0, h1, ?_⟩
  rw [hts, State.regs_startTask, State.ts_ticket, State.tile_ticket]
  exact ⟨e1, e2, e3, e4, e5, rfl, rfl, rfl⟩

theorem tokens_leave {k d : Nat} {o : OutTok} (h3 : s.mode (s.rgnOf (tileOf k)) ≠ 3) (ho : (s.ts k).outs = [o]) (hr : s.relClear k = true)
    (hs : (s.tile (tileOf k)).stopped = false) (hg : s.gatedAt (tileOf k) = false) (hk : h0Kind o.h0 < 6) (hm : s.roomFor k o = true)
    (he : o.edge = none) (ht : (s.region (s.rgnOf (tileOf k))).translate o.dst (decide (s.level (tileOf k) = .user)) = .at d)
    (hd : d ≠ tileOf k) : ∃ (u : State) (f : Flying), exec (.completionToken k) s = .next u ∧ u.net = s.net ++ [f] ∧ f.src = tileOf k ∧
      f.dst = d ∧ f.body = o.body ∧ h1Port f.h1 = o.port % 4096 := by
  have hcan : s.canToken k = true := by simp [State.canToken, ho, hr, hs, hg, hm]
  have hemit := congrArg State.net (State.emitOut_at (s.updTs k fun a => { a with outs := [] }) he hk ht hd)
  have hnet := (congrArg State.net (State.completionToken_last ho)).trans
    ((State.net_tryFree ..).trans (hemit.trans (State.net_emit ..)))
  exact ⟨_, _, (comes_completionToken s k).1 (enabled_of_mode hcan h3), hnet, rfl, rfl, rfl, h1Port_mkH1 ..⟩

/-- Settles O42: each event is its condition and its state (`comes_of_eq`); the clauses on results follow the state's steps, of which
those that send and report keep the stages of every region (`State.Staged`). -/
theorem taskAndStageEvents : Obligations.TaskAndStageEvents := by
  refine ⟨fun _ _ => comes_of_eq rfl, fun _ _ => comes_of_eq rfl, fun n s => comes_packetArrival s n, fun k s => comes_taskDispatch s k,
    fun t p s => comes_packetAgeing s t p, fun t p s => comes_yieldReeligible s t p, fun k s => comes_completionToken s k,
    fun r n s => comes_creditReturn s r n, fun r n d s => comes_distributorDeal s r n d, fun r n s => comes_stageEos s r n,
    fun r n s => comes_rangeTokenTake s r n, fun t s => comes_stealRequest s t, fun t s => comes_stealService s t,
    fun r n d s => comes_crossFieldSplit s r n d, fun r n s => comes_rangeStageEos s r n, fun t s => comes_spawnAdmission s t,
    fun r s => comes_regionCompletion s r, fun r s => comes_dormancyRound s r, ?_, ?_, ?_, ?_, ?_, ?_, ?_, ?_, ?_, ?_, ?_, ?_, ?_, ?_, ?_, ?_,
    ?_, ?_, ?_⟩
  · intro n s f e hf hp h3 ho hh he
    exact next_of_comes (comes_packetArrival s n) (canArrive_of_oldest hf hp h3 ho hh) (State.packetArrival_forward hf he)
  · intro n s f p hf hp h3 ho hh hw hs hport h
    exact next_of_comes (comes_packetArrival s n) (canArrive_of_oldest hf hp h3 ho hh) (State.packetArrival_mail hf hw hs hport h)
  · intro k s m hf hs hc hk hy ht h2
    exact dispatches hf hs hc hk hy ht h2
  · intro t s m h3 hm ht hp ha
    exact next_of_comes (comes_packetAgeing s t m.pos) (canAge_of_mem h3 hm ht hp ha) (State.mails_age ..)
  · intro t s m h3 hn hm hb hw hy
    exact next_of_comes (comes_yieldReeligible s t m.pos) (canReelig_of_mem h3 hn hm hb hw hy) (State.mails_reelig ..)
  · intro k d s o h3 ho hr hs hg hk hm he ht hd
    exact tokens_leave h3 ho hr hs hg hk hm he ht hd
  · intro r n q rest s hr h3 hq hh hz
    have hcan : s.canCredit r n = true := by simp [State.canCredit, hr, h3, hq]
    exact next_of_comes (comes_creditReturn s r n) hcan (State.creditReturn_edge hr hq hh hz)
  · intro r n rep t h0 h1 body s h3 hp hk hrep hh h2 hrej ht hs
    exact next_of_comes (comes_distributorDeal s r n rep) (enabled_of_mode (canDeal_of_next hp hk hrep ht hs) h3)
      (State.mails_deal hp hh h2 hrej ht)
  · intro r n seq h0 s h3 hk he ho hn hs hr ht
    refine next_of_comes (comes_stageEos s r n) (enabled_of_mode (canStageEos_of_ended hk he ho hn hs hr ht) h3) ?_
    simp only [State.stageEos, he]
    exact State.eosOut_stageEosOut (fun e => by rw [e] at he; cases he) h0 seq
  · intro r n h0 h1 body s h3 hk hp hl hh h2 hrej
    obtain ⟨k, hk'⟩ := State.tok_takeToken hk hp hh h2 hrej
    exact ⟨_, k, (comes_rangeTokenTake s r n).1 (enabled_of_mode (canTake_of_next hk hp hl) h3), hk'⟩
  · intro t s ha h3
    have htok : ((s.region (s.rgnOf t)).stage (s.tile t).conf.stage).tok.isSome = true := by
      simp only [State.canAsk, Bool.and_eq_true] at ha
      exact ha.2
    exact next_of_comes (comes_stealRequest s t) (enabled_of_mode ha h3) (State.asking_ask htok)
  · intro t a s h3 ha h hb hf hs hg
    exact next_of_comes (comes_stealService s t) (enabled_of_mode (canServe_of_asks ha h hb hf hs hg) h3) (State.asks_serve h)
  · intro r n d c s h3 h hd
    exact next_of_comes (comes_crossFieldSplit s r n d) (enabled_of_mode h h3) (State.rem_cross h hd)
  · intro r n seq h0 s h3 hk he ho hn hm hb hl hr ht
    refine next_of_comes (comes_rangeStageEos s r n) (enabled_of_mode (canRangeEos_of_ended hk he ho hn hm hb hl hr ht) h3) ?_
    simp only [State.rangeEos, he]
    exact State.eosOut_stageEosOut (fun e => by rw [e] at he; cases he) h0 _
  · intro t g rest s h3 hs h ha
    exact next_of_comes (comes_spawnAdmission s t) (canAdmit_of_first h3 hs h ha) (State.grants_spawnAdmission h)
  · intro r s hr h1 h2 h3 h4 hd ht
    obtain ⟨ho, hst⟩ := State.region_complete hr
    rw [h1] at hst
    exact next_of_comes (comes_regionCompletion s r) (canComplete_of_done hr h1 h2 h3 h4 hd ht) ⟨ho, hst⟩
  · intro r s hr h1 h2 hc
    have hcan : s.canDorm r = true := by simp [State.canDorm, hr, h1, h2]
    exact next_of_comes (comes_dormancyRound s r) hcan (State.dormancy_cut hc)
  · intro t pos s u hu
    rw [eq_of_comes (comes_packetAgeing s t pos) hu, State.mails_age]
  · intro r s u hu hc
    rw [eq_of_comes (comes_dormancyRound s r) hu]
    exact State.dormancy_cut hc

end Sys2Proof.Machine
end

section
/-! SUPPORT. The model's integer functions by the operations in which the statements give them (R231 to R236). -/

namespace Sys2Proof.Machine

open Sys2Proof Sys2Proof.Claims

/-! ## Products and quotients (R231, R232) -/

theorem mulHi_eq (a b : Word) : mulHi a b = (a.signExtend 128 * b.signExtend 128).extractLsb' 64 64 := by
  have hp : a.signExtend 128 * b.signExtend 128 = BitVec.ofInt 128 (a.toInt * b.toInt) := (BitVec.ofInt_mul ..).symm
  refine BitVec.eq_of_toNat_eq ?_
  rw [hp, mulHi, wordOfInt, BitVec.toNat_ofInt, BitVec.extractLsb'_toNat, BitVec.toNat_ofInt, Nat.shiftRight_eq_div_pow]
  generalize a.toInt * b.toInt = x
  omega
theorem mulHiu_eq (a b : Word) : mulHiu a b = (a.setWidth 128 * b.setWidth 128).extractLsb' 64 64 := by
  have hlt : a.toNat * b.toNat < 2 ^ 128 :=
    calc a.toNat * b.toNat < 2 ^ 64 * 2 ^ 64 := Nat.mul_lt_mul'' a.isLt b.isLt
      _ = 2 ^ 128 := by norm_num
  have hw : ∀ x : Word, (x.setWidth 128).toNat = x.toNat := fun x => by
    rw [BitVec.toNat_setWidth, Nat.mod_eq_of_lt (by omega)]
  refine BitVec.eq_of_toNat_eq ?_
  rw [mulHiu, BitVec.toNat_ofNat, BitVec.extractLsb'_toNat, BitVec.toNat_mul, hw, hw, Nat.mod_eq_of_lt hlt,
    Nat.shiftRight_eq_div_pow]
theorem idiv_eq (a b : Word) : idiv a b = if b = 0 then (0, idz) else (a.sdiv b, 0) := by
  have h : wordOfInt (a.toInt.tdiv b.toInt) = a.sdiv b :=
    BitVec.eq_of_toInt_eq (by rw [wordOfInt, BitVec.toInt_ofInt, BitVec.toInt_sdiv])
  rw [idiv, h]
  rfl
theorem irem_eq (a b : Word) : irem a b = if b = 0 then (a, idz) else (a.srem b, 0) := by
  have h : wordOfInt (a.toInt.tmod b.toInt) = a.srem b := by rw [wordOfInt, ← BitVec.toInt_srem, BitVec.ofInt_toInt]
  rw [irem, h]
  rfl

/-! ## Shifts, minima and maxima (R231) -/

theorem rotate_eq (a : Word) {k : Nat} (h : k < 64) : rotate a k = rotl a k := by
  rw [rotate, BitVec.rotateLeft_def, Nat.mod_eq_of_lt h]
  rfl
theorem imin_eq (a b : Word) : imin a b = if a.toInt ≤ b.toInt then a else b := by
  simp only [imin, BitVec.slt_iff_toInt_lt, ← not_lt, ite_not]
theorem imax_eq (a b : Word) : imax a b = if a.toInt ≤ b.toInt then b else a := by
  simp only [imax, BitVec.slt_iff_toInt_lt]
  split <;> split
  · rfl
  · omega
  · exact BitVec.eq_of_toInt_eq (by omega)
  · rfl
theorem iminu_eq (a b : Word) : iminu a b = if a.toNat ≤ b.toNat then a else b := by
  simp only [iminu, BitVec.ult_iff_lt, BitVec.lt_def, ← not_lt, ite_not]
theorem imaxu_eq (a b : Word) : imaxu a b = if a.toNat ≤ b.toNat then b else a := by
  simp only [imaxu, BitVec.ult_iff_lt, BitVec.lt_def]
  split <;> split
  · rfl
  · omega
  · exact BitVec.eq_of_toNat_eq (by omega)
  · rfl

/-! ## Bits (R231) -/

/-- The leading zeros of a tail of n bits are found from its top. -/
theorem leadFrom_eq (x n : Nat) : leadFrom x n = ((List.range n).find? fun i => x.testBit (n - 1 - i)).getD n := by
  induction n with
  | zero => rfl
  | succ n ih =>
    have hs : ((fun i => x.testBit (n + 1 - 1 - i)) ∘ Nat.succ) = fun i => x.testBit (n - 1 - i) :=
      funext fun i => congrArg x.testBit (by omega)
    rw [leadFrom, ih, List.range_succ_eq_map, List.find?_cons, List.find?_map, hs, Nat.add_sub_cancel, Nat.sub_zero,
      Nat.testBit_eq_decide_div_mod_eq]
    by_cases hb : x / 2 ^ n % 2 = 1
    · rw [if_pos hb, decide_eq_true hb]
      rfl
    · rw [if_neg hb, decide_eq_false hb]
      cases (List.range n).find? fun i => x.testBit (n - 1 - i) <;> simp [Nat.add_comm]
theorem clz_eq (a : Word) : clz a = BitVec.ofNat 64 (((List.range 64).find? fun i => a.getLsbD (63 - i)).getD 64) := by
  rw [clz, leadFrom_eq]
  rfl
/-- The reversed tail of n bits stands in the top n bits. -/
theorem revFrom_eq (x : Nat) {n : Nat} (h : n ≤ 64) : revFrom x n = 2 ^ (64 - n) * (BitVec.ofNat n x).reverse.toNat := by
  induction n with
  | zero => simp [revFrom, BitVec.reverse, Nat.mod_one]
  | succ n ih =>
    have ht : (BitVec.ofNat (n + 1) x).truncate n = BitVec.ofNat n x :=
      BitVec.eq_of_toNat_eq (by simp)
    have hm : (BitVec.ofNat (n + 1) x).msb.toNat = x / 2 ^ n % 2 := by
      rw [BitVec.msb_eq_getLsbD_last, BitVec.getLsbD_ofNat, Nat.testBit_eq_decide_div_mod_eq]
      rcases Nat.mod_two_eq_zero_or_one (x / 2 ^ n) with e | e <;> simp [e]
    have hp : 2 ^ (64 - n) = 2 ^ (63 - n) * 2 := by rw [← Nat.pow_succ]; congr 1; omega
    rw [revFrom, ih (by omega), BitVec.reverse, ht, BitVec.toNat_concat, hm, hp, show 64 - (n + 1) = 63 - n by omega]
    ring
theorem brev_eq (a : Word) : brev a = a.reverse := by
  rw [brev, revFrom_eq a.toNat le_rfl, BitVec.ofNat_toNat, BitVec.setWidth_eq]
  simp
theorem ctz_eq (a : Word) : ctz a = BitVec.ofNat 64 (((List.range 64).find? a.getLsbD).getD 64) := by
  have h : (List.range 64).find? (fun i => (brev a).getLsbD (63 - i)) = (List.range 64).find? a.getLsbD := by
    refine List.find?_congr fun i hi => ?_
    have := List.mem_range.1 hi
    rw [brev_eq, BitVec.getLsbD_reverse, BitVec.getMsbD, decide_eq_true (by omega), Bool.true_and]
    exact congrArg a.getLsbD (by omega)
  rw [ctz, clz_eq, h]
theorem popFrom_eq (x n : Nat) : popFrom x n = (List.range n).countP x.testBit := by
  induction n with
  | zero => rfl
  | succ n ih =>
    rw [popFrom, ih, List.range_succ, List.countP_append, List.countP_singleton, Nat.testBit_eq_decide_div_mod_eq, Nat.add_comm]
    rcases Nat.mod_two_eq_zero_or_one (x / 2 ^ n) with e | e <;> simp [e]
theorem popc_eq (a : Word) : popc a = BitVec.ofNat 64 ((List.range 64).countP a.getLsbD) := by
  rw [popc, popFrom_eq]
  rfl

/-! ## Fields (R231, R234, R236) -/

/-- The bytes of a number, each by its place (R5). -/
theorem leBytes_eq (n x : Nat) : leBytes n x = (List.range n).map fun i => BitVec.ofNat 8 (x / 256 ^ i) := by
  induction n generalizing x with
  | zero => rfl
  | succ n ih =>
    rw [leBytes, ih, List.range_succ_eq_map, List.map_cons, List.map_map, pow_zero, Nat.div_one]
    exact congrArg _ (List.map_congr_left fun i _ => by
      rw [Function.comp_apply, Nat.succ_eq_add_one, Nat.pow_succ', Nat.div_div_eq_div_mul])
theorem toNat_append_eq {n m : Nat} (x : BitVec n) (y : BitVec m) : (x ++ y).toNat = x.toNat * 2 ^ m + y.toNat := by
  rw [BitVec.toNat_append, ← Nat.shiftLeft_add_eq_or_of_lt y.isLt, Nat.shiftLeft_eq]
theorem ofNat_div_eq_extractLsb' (a : Word) (i : Nat) : BitVec.ofNat 8 (a.toNat / 256 ^ i) = a.extractLsb' (8 * i) 8 := by
  rw [show (256 : Nat) = 2 ^ 8 from rfl, ← Nat.pow_mul, ← Nat.shiftRight_eq_div_pow]
  rfl
theorem bswap_eq (a : Word) : bswap a = a.extractLsb' 0 8 ++ a.extractLsb' 8 8 ++ a.extractLsb' 16 8 ++ a.extractLsb' 24 8 ++
    a.extractLsb' 32 8 ++ a.extractLsb' 40 8 ++ a.extractLsb' 48 8 ++ a.extractLsb' 56 8 := by
  have h : ∀ b : Nat → Byte, ofBytes ((List.range 8).map b).reverse =
      (b 0 ++ b 1 ++ b 2 ++ b 3 ++ b 4 ++ b 5 ++ b 6 ++ b 7).toNat := fun b => by
    simp only [toNat_append_eq, List.range_succ, List.range_zero, List.nil_append, List.cons_append, List.map_cons, List.map_nil,
      List.reverse_cons, List.reverse_nil, ofBytes]
    ring
  simp only [bswap, leBytes_eq, ofNat_div_eq_extractLsb', h, Nat.mul_zero, Nat.mul_one, Nat.reduceMul]
  exact BitVec.ofNat_toNat ..
theorem sextN_eq {n : Nat} (h : 0 < n) (a : Word) : sextN n a = sextOf n a := by
  obtain ⟨m, rfl⟩ := Nat.exists_eq_add_one.2 h
  rw [sextN, sextOf, BitVec.signExtend, BitVec.toInt_eq_toNat_cond, BitVec.toNat_setWidth, sintN, Nat.add_sub_cancel, Nat.pow_succ]
  congr 1
  split <;> split
  · rfl
  · omega
  · omega
  · rfl
theorem zextN_eq (n : Nat) (a : Word) : zextN n a = zextOf n a :=
  BitVec.eq_of_toNat_eq (by simp [zextN, zextOf])
theorem bfxOf_eq (pos : Nat) {w : Nat} (h : w ≤ 64) (a : Word) : bfxOf pos w a = (a >>> pos) &&& maskOf 0 w := by
  have hw : (2 ^ w - 1) % 2 ^ 64 = 2 ^ w - 1 :=
    Nat.mod_eq_of_lt (by have := Nat.pow_le_pow_right (show 0 < 2 by omega) h; have := Nat.two_pow_pos w; omega)
  have hlt : a.toNat / 2 ^ pos % 2 ^ w < 2 ^ 64 :=
    (Nat.mod_le _ _).trans_lt ((Nat.div_le_self _ _).trans_lt a.isLt)
  refine BitVec.eq_of_toNat_eq ?_
  rw [bfxOf, maskOf, BitVec.toNat_ofNat, Nat.mod_eq_of_lt hlt, BitVec.toNat_and, BitVec.toNat_ushiftRight, BitVec.toNat_ofNat,
    pow_zero, Nat.mul_one, hw, Nat.and_two_pow_sub_one_eq_mod, Nat.shiftRight_eq_div_pow]
theorem crdpkOf_eq (a b : Word) : crdpkOf a b = ((b.extractLsb' 0 10) ++ (a.extractLsb' 0 10)).setWidth 64 := by
  refine BitVec.eq_of_toNat_eq ?_
  simp only [crdpkOf, BitVec.toNat_ofNat, BitVec.toNat_setWidth, toNat_append_eq, BitVec.extractLsb'_toNat,
    Nat.shiftRight_eq_div_pow]
  omega
theorem rectOf_eq (a b : Word) : rectOf a b =
    let lo (x y : BitVec 10) : BitVec 10 := if x ≤ y then x else y
    let hi (x y : BitVec 10) : BitVec 10 := if x ≤ y then y else x
    let ax := a.extractLsb' 0 10
    let ay := a.extractLsb' 10 10
    let bx := b.extractLsb' 0 10
    let by_ := b.extractLsb' 10 10
    (hi ay by_ ++ hi ax bx ++ lo ay by_ ++ lo ax bx).setWidth 64 := by
  have hlo : ∀ x y : BitVec 10, Nat.min x.toNat y.toNat = (if x ≤ y then x else y).toNat := fun x y => by
    rw [apply_ite BitVec.toNat]
    rfl
  have hhi : ∀ x y : BitVec 10, Nat.max x.toNat y.toNat = (if x ≤ y then y else x).toNat := fun x y => by
    rw [apply_ite BitVec.toNat]
    rfl
  have hx : ∀ w : Word, cx w.toNat = (w.extractLsb' 0 10).toNat := fun w => by simp [cx]
  have hy : ∀ w : Word, cy w.toNat = (w.extractLsb' 10 10).toNat := fun w => by simp [cy, Nat.shiftRight_eq_div_pow]
  refine BitVec.eq_of_toNat_eq ?_
  simp only [rectOf, BitVec.toNat_ofNat, BitVec.toNat_setWidth, toNat_append_eq, hx, hy, hlo, hhi]
  congr 1
  ring
theorem crdx_eq (a : Word) : BitVec.ofNat 64 (cx a.toNat) = (a.extractLsb' 0 10).setWidth 64 :=
  BitVec.eq_of_toNat_eq (by simp [cx])
theorem crdy_eq (a : Word) : BitVec.ofNat 64 (cy a.toNat) = (a.extractLsb' 10 10).setWidth 64 :=
  BitVec.eq_of_toNat_eq (by simp [cy, Nat.shiftRight_eq_div_pow])

end Sys2Proof.Machine
end

section
/-! SUPPORT. Rows of lane-wise instructions (R218, R245): a row whose constructor is the shared form of one, two or three operands
for its function computes lane by lane and rejects what the form rejects. -/

namespace Sys2Proof.Machine

open Sys2Proof Sys2Proof.Claims

/-- A group charges a class: a scalar or a fault counts as it, a vector as `wide` of it (R403). -/
def Grp.charges (g : Grp) (cls : Nat) : Prop := g.cls .null = cls ∧ ∀ w n, g.cls (.vector w n) = wide cls

theorem Grp.charges_plumb : Grp.plumb.charges 0 := ⟨rfl, fun _ _ => rfl⟩
theorem Grp.charges_int : Grp.int.charges 1 := ⟨rfl, fun _ _ => rfl⟩
theorem Grp.charges_mulDiv : Grp.mulDiv.charges 2 := ⟨rfl, fun _ _ => rfl⟩
theorem Grp.charges_float : Grp.float.charges 3 := ⟨rfl, fun _ _ => rfl⟩
theorem Grp.charges_slow : Grp.slow.charges 4 := ⟨rfl, fun _ _ => rfl⟩

end Sys2Proof.Machine

namespace Sys2Proof.Claims

open Sys2Proof Sys2Proof.Machine

/-- What an instruction of a row asserts about its operands: V where it has two targets (R196), else nothing. -/
def Row.assert (r : Row) (v : Bool) : Assert := if r.two then .v v else .free

/-- A row is the form of one operand for its function. -/
def Row.IsLane1 (r : Row) : Prop := ∃ g : Grp, g.charges r.cls ∧ ∀ v i p t u s,
  ∃ f, exec (r.instr v i p t u) s = s.lane1 g (r.assert v) p (r.targets t u) f ∧ ∀ x y z, f x = r.fn i x y z
/-- See `Row.IsLane1`. -/
def Row.IsLane2 (r : Row) : Prop := ∃ g : Grp, g.charges r.cls ∧ ∀ v i p t u s,
  ∃ f, exec (r.instr v i p t u) s = s.lane2 g (r.assert v) p (r.targets t u) f ∧ ∀ x y z, f x y = r.fn i x y z
/-- See `Row.IsLane1`. -/
def Row.IsLane3 (r : Row) : Prop := ∃ g : Grp, g.charges r.cls ∧ ∀ v i p t u s,
  ∃ f, exec (r.instr v i p t u) s = s.lane3 g (r.assert v) p (r.targets t u) f ∧ ∀ x y z, f x y z = r.fn i x y z

theorem Row.assert_true (r : Row) : r.assert true = .free ∨ r.assert true = .v true := by
  cases h : r.two <;> simp [Row.assert, h]

/-- Operands that a row rejects do not meet its assertion. -/
theorem Row.assert_fails {r : Row} {v mask : Bool} {os : List Token}
    (h : os.any (fun x => !x.isData) = true ∨ (mask = true ∧ os.any Token.isVector = false) ∨
      (r.two = true ∧ v ≠ os.any Token.isVector)) : (r.assert v).holds mask os = false := by
  rcases h with h | ⟨hm, hv⟩ | ⟨h2, hv⟩
  · obtain ⟨x, hx, hd⟩ := List.any_eq_true.1 h
    have : os.all Token.isData = false := List.all_eq_false.2 ⟨x, hx, by simpa using hd⟩
    simp [Assert.holds, this]
  · simp [Assert.holds, hm, hv]
  · simp [Row.assert, Assert.holds, h2, hv]

section
variable {r : Row}

/-- A row that gives lanes for its function on data with a vector among them computes lane by lane. -/
theorem Row.vectors_of_givesLanes {n : Nat} (h : ∀ (i : Nat) (p : Pr) (t u : Target) (s : State) (c : Fire), s.view p = some c →
    computes (operands n c) = true → ∃ g : Grp, g.charges r.cls ∧ c.givesLanes g (r.targets t u) (operands n c)
      (fun j => r.fn i (c.left.lane j) (c.right.lane j) (c.third.lane j)) (exec (r.instr true i p t u) s)) : r.vectors n := by
  intro i p t u s c hv hc
  obtain ⟨g, ⟨-, hw⟩, w, nulls, he, hj⟩ := h i p t u s c hv hc
  exact ⟨w, nulls, hw w nulls ▸ he, hj⟩

theorem Row.IsLane1.vectors (h : r.IsLane1) : r.vectors 1 := by
  refine Row.vectors_of_givesLanes fun i p t u s c hv hc => ?_
  obtain ⟨g, hg, h⟩ := h
  obtain ⟨f, he, hf⟩ := h true i p t u s
  simp only [he, ← hf]
  exact ⟨g, hg, State.lane1_vector hv hc r.assert_true⟩
theorem Row.IsLane2.vectors (h : r.IsLane2) : r.vectors 2 := by
  refine Row.vectors_of_givesLanes fun i p t u s c hv hc => ?_
  obtain ⟨g, hg, h⟩ := h
  obtain ⟨f, he, hf⟩ := h true i p t u s
  simp only [he, ← hf]
  exact ⟨g, hg, State.lane2_vector hv hc r.assert_true⟩
theorem Row.IsLane3.vectors (h : r.IsLane3) : r.vectors 3 := by
  refine Row.vectors_of_givesLanes fun i p t u s c hv hc => ?_
  obtain ⟨g, hg, h⟩ := h
  obtain ⟨f, he, hf⟩ := h true i p t u s
  simp only [he, ← hf]
  exact ⟨g, hg, State.lane3_vector hv hc r.assert_true⟩

theorem Row.IsLane1.rejects (h : r.IsLane1) : r.rejects 1 := by
  intro v i p t u s c hv hn hb
  obtain ⟨g, ⟨hg, -⟩, he⟩ := h
  obtain ⟨f, he, -⟩ := he v i p t u s
  have hl : c.left.isNull = false := by simpa [operands] using hn
  rw [he, State.lane1_rejects hv hl (Row.assert_fails hb), hg]
theorem Row.IsLane2.rejects (h : r.IsLane2) : r.rejects 2 := by
  intro v i p t u s c hv hn hb
  obtain ⟨g, ⟨hg, -⟩, he⟩ := h
  obtain ⟨f, he, -⟩ := he v i p t u s
  have hl : c.left.isNull = false ∧ c.right.isNull = false := by simpa [operands] using hn
  rw [he, State.lane2_rejects hv hl.1 hl.2 (Row.assert_fails hb), hg]
theorem Row.IsLane3.rejects (h : r.IsLane3) : r.rejects 3 := by
  intro v i p t u s c hv hn hb
  obtain ⟨g, ⟨hg, -⟩, he⟩ := h
  obtain ⟨f, he, -⟩ := he v i p t u s
  have hl : c.left.isNull = false ∧ c.right.isNull = false ∧ c.third.isNull = false := by simpa [operands] using hn
  rw [he, State.lane3_rejects hv hl.1 hl.2.1 hl.2.2 (Row.assert_fails hb), hg]

end

theorem Row.isLane1_of {r : Row} {g : Grp} (hg : g.charges r.cls) (f : Nat → Word → Word × Flags)
    (he : ∀ v i p t u s, exec (r.instr v i p t u) s = s.lane1 g (r.assert v) p (r.targets t u) (f i))
    (hf : ∀ i x y z, f i x = r.fn i x y z) : r.IsLane1 := ⟨g, hg, fun v i p t u s => ⟨f i, he v i p t u s, hf i⟩⟩
theorem Row.isLane2_of {r : Row} {g : Grp} (hg : g.charges r.cls) (f : Nat → Word → Word → Word × Flags)
    (he : ∀ v i p t u s, exec (r.instr v i p t u) s = s.lane2 g (r.assert v) p (r.targets t u) (f i))
    (hf : ∀ i x y z, f i x y = r.fn i x y z) : r.IsLane2 := ⟨g, hg, fun v i p t u s => ⟨f i, he v i p t u s, hf i⟩⟩
theorem Row.isLane3_of {r : Row} {g : Grp} (hg : g.charges r.cls) (f : Word → Word → Word → Word × Flags)
    (he : ∀ v i p t u s, exec (r.instr v i p t u) s = s.lane3 g (r.assert v) p (r.targets t u) f)
    (hf : ∀ i x y z, f x y z = r.fn i x y z) : r.IsLane3 := ⟨g, hg, fun v i p t u s => ⟨f, he v i p t u s, hf i⟩⟩

/-- A 6-bit immediate by its number. -/
theorem imm6_toNat (n : Nat) : (imm6 n).toNat = n % 64 := BitVec.toNat_ofNat n 6

/-- Every integer and address instruction with two operands is the form of two operands for its function (R231 to R236). -/
theorem integerPairs_isLane2 : ∀ r ∈ integerPairs, r.IsLane2 := by
  simp only [integerPairs, List.forall_mem_cons, List.not_mem_nil, false_implies, implies_true, and_true]
  exact ⟨
    Row.isLane2_of Grp.charges_int (fun _ => plain2 fun a b => a + b) (fun _ _ _ _ _ _ => rfl) fun _ _ _ _ => rfl,
    Row.isLane2_of Grp.charges_int (fun _ => plain2 fun a b => a - b) (fun _ _ _ _ _ _ => rfl) fun _ _ _ _ => rfl,
    Row.isLane2_of Grp.charges_int (fun _ => plain2 fun a b => a &&& b) (fun _ _ _ _ _ _ => rfl) fun _ _ _ _ => rfl,
    Row.isLane2_of Grp.charges_int (fun _ => plain2 fun a b => a ||| b) (fun _ _ _ _ _ _ => rfl) fun _ _ _ _ => rfl,
    Row.isLane2_of Grp.charges_int (fun _ => plain2 fun a b => a ^^^ b) (fun _ _ _ _ _ _ => rfl) fun _ _ _ _ => rfl,
    Row.isLane2_of Grp.charges_mulDiv (fun _ => plain2 mulLo) (fun _ _ _ _ _ _ => rfl) fun _ _ _ _ => rfl,
    Row.isLane2_of Grp.charges_mulDiv (fun _ => plain2 mulHi) (fun _ _ _ _ _ _ => rfl) fun _ a b _ => congrArg (·, 0) (mulHi_eq a b),
    Row.isLane2_of Grp.charges_mulDiv (fun _ => plain2 mulHiu) (fun _ _ _ _ _ _ => rfl) fun _ a b _ => congrArg (·, 0) (mulHiu_eq a b),
    Row.isLane2_of Grp.charges_mulDiv (fun _ => idiv) (fun _ _ _ _ _ _ => rfl) fun _ a b _ => idiv_eq a b,
    Row.isLane2_of Grp.charges_mulDiv (fun _ => idivu) (fun _ _ _ _ _ _ => rfl) fun _ _ _ _ => rfl,
    Row.isLane2_of Grp.charges_mulDiv (fun _ => irem) (fun _ _ _ _ _ _ => rfl) fun _ a b _ => irem_eq a b,
    Row.isLane2_of Grp.charges_mulDiv (fun _ => iremu) (fun _ _ _ _ _ _ => rfl) fun _ _ _ _ => rfl,
    Row.isLane2_of Grp.charges_int (fun _ => plain2 fun a b => shiftL a (shAmount b)) (fun _ _ _ _ _ _ => rfl) fun _ _ _ _ => rfl,
    Row.isLane2_of Grp.charges_int (fun _ => plain2 fun a b => shiftR a (shAmount b)) (fun _ _ _ _ _ _ => rfl) fun _ _ _ _ => rfl,
    Row.isLane2_of Grp.charges_int (fun _ => plain2 fun a b => shiftA a (shAmount b)) (fun _ _ _ _ _ _ => rfl) fun _ _ _ _ => rfl,
    Row.isLane2_of Grp.charges_int (fun _ => plain2 fun a b => rotate a (shAmount b)) (fun _ _ _ _ _ _ => rfl)
      fun _ a b _ => congrArg (·, 0) (rotate_eq a (Nat.mod_lt b.toNat (by decide))),
    Row.isLane2_of Grp.charges_int (fun _ => plain2 imin) (fun _ _ _ _ _ _ => rfl) fun _ a b _ => congrArg (·, 0) (imin_eq a b),
    Row.isLane2_of Grp.charges_int (fun _ => plain2 imax) (fun _ _ _ _ _ _ => rfl) fun _ a b _ => congrArg (·, 0) (imax_eq a b),
    Row.isLane2_of Grp.charges_int (fun _ => plain2 iminu) (fun _ _ _ _ _ _ => rfl) fun _ a b _ => congrArg (·, 0) (iminu_eq a b),
    Row.isLane2_of Grp.charges_int (fun _ => plain2 imaxu) (fun _ _ _ _ _ _ => rfl) fun _ a b _ => congrArg (·, 0) (imaxu_eq a b),
    Row.isLane2_of Grp.charges_int (fun n => plain2 (bfiOf (imm6 n).toNat ((imm6 (n / 64)).toNat + 1))) (fun _ _ _ _ _ _ => rfl)
      fun n _ _ _ => by simp only [imm6_toNat]; rfl,
    Row.isLane2_of Grp.charges_int (fun n => plain2 (leaOf (BitVec.ofNat 3 n).toNat)) (fun _ _ _ _ _ _ => rfl)
      fun n _ _ _ => by rw [BitVec.toNat_ofNat]; rfl,
    Row.isLane2_of Grp.charges_int (fun _ => plain2 crdpkOf) (fun _ _ _ _ _ _ => rfl) fun _ a b _ => congrArg (·, 0) (crdpkOf_eq a b),
    Row.isLane2_of Grp.charges_int (fun _ => plain2 rectOf) (fun _ _ _ _ _ _ => rfl) fun _ a b _ => congrArg (·, 0) (rectOf_eq a b)⟩

/-- Every integer and address instruction with one operand is the form of one operand for its function (R222, R231, R234, R236). -/
theorem integerSingles_isLane1 : ∀ r ∈ integerSingles, r.IsLane1 := by
  simp only [integerSingles, List.forall_mem_cons, List.not_mem_nil, false_implies, implies_true, and_true]
  exact ⟨
    Row.isLane1_of Grp.charges_int (fun n => plain1 fun a => a + sext12 (BitVec.ofNat 12 n)) (fun _ _ _ _ _ _ => rfl) fun _ _ _ _ => rfl,
    Row.isLane1_of Grp.charges_int (fun n => plain1 fun a => a &&& sext12 (BitVec.ofNat 12 n)) (fun _ _ _ _ _ _ => rfl) fun _ _ _ _ => rfl,
    Row.isLane1_of Grp.charges_int (fun n => plain1 fun a => a ||| sext12 (BitVec.ofNat 12 n)) (fun _ _ _ _ _ _ => rfl) fun _ _ _ _ => rfl,
    Row.isLane1_of Grp.charges_int (fun n => plain1 fun a => a ^^^ sext12 (BitVec.ofNat 12 n)) (fun _ _ _ _ _ _ => rfl) fun _ _ _ _ => rfl,
    Row.isLane1_of Grp.charges_plumb (fun n => plain1 fun a => (a <<< 12) ||| zext12 (BitVec.ofNat 12 n)) (fun _ _ _ _ _ _ => rfl)
      fun n a _ _ => congrArg (fun w => ((a <<< 12) ||| w, 0)) (BitVec.eq_of_toNat_eq (by simp [zext12])),
    Row.isLane1_of Grp.charges_int (fun n => plain1 fun a => shiftL a (imm6 n).toNat) (fun _ _ _ _ _ _ => rfl)
      fun n _ _ _ => by rw [imm6_toNat]; rfl,
    Row.isLane1_of Grp.charges_int (fun n => plain1 fun a => shiftR a (imm6 n).toNat) (fun _ _ _ _ _ _ => rfl)
      fun n _ _ _ => by rw [imm6_toNat]; rfl,
    Row.isLane1_of Grp.charges_int (fun n => plain1 fun a => shiftA a (imm6 n).toNat) (fun _ _ _ _ _ _ => rfl)
      fun n _ _ _ => by rw [imm6_toNat]; rfl,
    Row.isLane1_of Grp.charges_int (fun n => plain1 fun a => rotate a (imm6 n).toNat) (fun _ _ _ _ _ _ => rfl)
      fun n a _ _ => by rw [imm6_toNat, plain1, rotate_eq a (Nat.mod_lt n (by decide))],
    Row.isLane1_of Grp.charges_int (fun _ => plain1 clz) (fun _ _ _ _ _ _ => rfl) fun _ a _ _ => congrArg (·, 0) (clz_eq a),
    Row.isLane1_of Grp.charges_int (fun _ => plain1 ctz) (fun _ _ _ _ _ _ => rfl) fun _ a _ _ => congrArg (·, 0) (ctz_eq a),
    Row.isLane1_of Grp.charges_int (fun _ => plain1 popc) (fun _ _ _ _ _ _ => rfl) fun _ a _ _ => congrArg (·, 0) (popc_eq a),
    Row.isLane1_of Grp.charges_int (fun _ => plain1 brev) (fun _ _ _ _ _ _ => rfl) fun _ a _ _ => congrArg (·, 0) (brev_eq a),
    Row.isLane1_of Grp.charges_int (fun _ => plain1 bswap) (fun _ _ _ _ _ _ => rfl) fun _ a _ _ => congrArg (·, 0) (bswap_eq a),
    Row.isLane1_of Grp.charges_int (fun _ => plain1 (sextN 8)) (fun _ _ _ _ _ _ => rfl) fun _ a _ _ => congrArg (·, 0) (sextN_eq (by decide) a),
    Row.isLane1_of Grp.charges_int (fun _ => plain1 (sextN 16)) (fun _ _ _ _ _ _ => rfl) fun _ a _ _ => congrArg (·, 0) (sextN_eq (by decide) a),
    Row.isLane1_of Grp.charges_int (fun _ => plain1 (sextN 32)) (fun _ _ _ _ _ _ => rfl) fun _ a _ _ => congrArg (·, 0) (sextN_eq (by decide) a),
    Row.isLane1_of Grp.charges_int (fun _ => plain1 (zextN 8)) (fun _ _ _ _ _ _ => rfl) fun _ a _ _ => congrArg (·, 0) (zextN_eq 8 a),
    Row.isLane1_of Grp.charges_int (fun _ => plain1 (zextN 16)) (fun _ _ _ _ _ _ => rfl) fun _ a _ _ => congrArg (·, 0) (zextN_eq 16 a),
    Row.isLane1_of Grp.charges_int (fun _ => plain1 (zextN 32)) (fun _ _ _ _ _ _ => rfl) fun _ a _ _ => congrArg (·, 0) (zextN_eq 32 a),
    Row.isLane1_of Grp.charges_int (fun n => plain1 (bfxOf (imm6 n).toNat ((imm6 (n / 64)).toNat + 1))) (fun _ _ _ _ _ _ => rfl)
      fun n a _ _ => by rw [imm6_toNat, imm6_toNat, plain1, bfxOf_eq _ (Nat.mod_lt (n / 64) (by decide))],
    Row.isLane1_of Grp.charges_int (fun _ => plain1 fun a => BitVec.ofNat 64 (cx a.toNat)) (fun _ _ _ _ _ _ => rfl)
      fun _ a _ _ => congrArg (·, 0) (crdx_eq a),
    Row.isLane1_of Grp.charges_int (fun _ => plain1 fun a => BitVec.ofNat 64 (cy a.toNat)) (fun _ _ _ _ _ _ => rfl)
      fun _ a _ _ => congrArg (·, 0) (crdy_eq a)⟩

/-- Every floating-point instruction is the form of its number of operands for its function (R244 to R256). -/
theorem floatSingles_isLane1 : ∀ r ∈ floatSingles, r.IsLane1 := by
  have hrm : ∀ n, (BitVec.ofNat 2 n).toNat = n % 4 := fun n => BitVec.toNat_ofNat n 2
  simp only [floatSingles, List.forall_mem_cons, List.not_mem_nil, false_implies, implies_true, and_true]
  exact ⟨
    Row.isLane1_of Grp.charges_slow (fun _ => fsqrt) (fun _ _ _ _ _ _ => rfl) fun _ _ _ _ => rfl,
    Row.isLane1_of Grp.charges_float (fun _ => fabsNeg false) (fun _ _ _ _ _ _ => rfl) fun _ _ _ _ => rfl,
    Row.isLane1_of Grp.charges_float (fun _ => fabsNeg true) (fun _ _ _ _ _ _ => rfl) fun _ _ _ _ => rfl,
    Row.isLane1_of Grp.charges_slow (fun _ => frcp) (fun _ _ _ _ _ _ => rfl) fun _ _ _ _ => rfl,
    Row.isLane1_of Grp.charges_slow (fun _ => frsq) (fun _ _ _ _ _ _ => rfl) fun _ _ _ _ => rfl,
    Row.isLane1_of Grp.charges_slow (fun _ => fexp2) (fun _ _ _ _ _ _ => rfl) fun _ _ _ _ => rfl,
    Row.isLane1_of Grp.charges_slow (fun _ => flog2) (fun _ _ _ _ _ _ => rfl) fun _ _ _ _ => rfl,
    Row.isLane1_of Grp.charges_slow (fun _ => ftanh) (fun _ _ _ _ _ _ => rfl) fun _ _ _ _ => rfl,
    Row.isLane1_of Grp.charges_slow (fun _ => fsin) (fun _ _ _ _ _ _ => rfl) fun _ _ _ _ => rfl,
    Row.isLane1_of Grp.charges_float (fun n => f2i true (n / 4 % 2 == 1) (BitVec.ofNat 2 n).toNat) (fun _ _ _ _ _ _ => rfl)
      fun n _ _ _ => by rw [hrm],
    Row.isLane1_of Grp.charges_float (fun n => f2i false (n / 4 % 2 == 1) (BitVec.ofNat 2 n).toNat) (fun _ _ _ _ _ _ => rfl)
      fun n _ _ _ => by rw [hrm],
    Row.isLane1_of Grp.charges_float (fun n => i2f true (BitVec.ofNat 2 n).toNat) (fun _ _ _ _ _ _ => rfl) fun n _ _ _ => by rw [hrm],
    Row.isLane1_of Grp.charges_float (fun n => i2f false (BitVec.ofNat 2 n).toNat) (fun _ _ _ _ _ _ => rfl) fun n _ _ _ => by rw [hrm],
    Row.isLane1_of Grp.charges_float (fun _ => plain1 fclass) (fun _ _ _ _ _ _ => rfl) fun _ _ _ _ => rfl,
    Row.isLane1_of Grp.charges_float (fun _ => frnd 0) (fun _ _ _ _ _ _ => rfl) fun _ _ _ _ => rfl,
    Row.isLane1_of Grp.charges_float (fun _ => frnd 1) (fun _ _ _ _ _ _ => rfl) fun _ _ _ _ => rfl,
    Row.isLane1_of Grp.charges_float (fun _ => frnd 2) (fun _ _ _ _ _ _ => rfl) fun _ _ _ _ => rfl,
    Row.isLane1_of Grp.charges_float (fun _ => frnd 3) (fun _ _ _ _ _ _ => rfl) fun _ _ _ _ => rfl⟩
/-- See `floatSingles_isLane1`. -/
theorem floatPairs_isLane2 : ∀ r ∈ floatPairs, r.IsLane2 := by
  simp only [floatPairs, List.forall_mem_cons, List.not_mem_nil, false_implies, implies_true, and_true]
  exact ⟨
    Row.isLane2_of Grp.charges_float (fun _ => fadd) (fun _ _ _ _ _ _ => rfl) fun _ _ _ _ => rfl,
    Row.isLane2_of Grp.charges_float (fun _ => fsub) (fun _ _ _ _ _ _ => rfl) fun _ _ _ _ => rfl,
    Row.isLane2_of Grp.charges_float (fun _ => fmul) (fun _ _ _ _ _ _ => rfl) fun _ _ _ _ => rfl,
    Row.isLane2_of Grp.charges_slow (fun _ => fdiv) (fun _ _ _ _ _ _ => rfl) fun _ _ _ _ => rfl,
    Row.isLane2_of Grp.charges_float (fun _ => fscale) (fun _ _ _ _ _ _ => rfl) fun _ _ _ _ => rfl,
    Row.isLane2_of Grp.charges_float (fun _ => fminmax false) (fun _ _ _ _ _ _ => rfl) fun _ _ _ _ => rfl,
    Row.isLane2_of Grp.charges_float (fun _ => fminmax true) (fun _ _ _ _ _ _ => rfl) fun _ _ _ _ => rfl⟩
/-- See `floatSingles_isLane1`. -/
theorem floatTriples_isLane3 : ∀ r ∈ floatTriples, r.IsLane3 := by
  simp only [floatTriples, List.forall_mem_cons, List.not_mem_nil, false_implies, implies_true, and_true]
  exact ⟨Row.isLane3_of Grp.charges_float fma (fun _ _ _ _ _ _ => rfl) fun _ _ _ _ => rfl,
    Row.isLane3_of Grp.charges_float fnma (fun _ _ _ _ _ _ => rfl) fun _ _ _ _ => rfl⟩

/-- Settles O2: each row is the form of its number of operands for its function. -/
theorem integerLaneWise : Obligations.IntegerLaneWise :=
  ⟨fun r hr => ⟨(integerPairs_isLane2 r hr).vectors, (integerPairs_isLane2 r hr).rejects⟩,
    fun r hr => ⟨(integerSingles_isLane1 r hr).vectors, (integerSingles_isLane1 r hr).rejects⟩⟩
/-- Settles O9: each row is the form of its number of operands for its function. -/
theorem floatLaneWise : Obligations.FloatLaneWise :=
  ⟨fun r hr => ⟨(floatSingles_isLane1 r hr).vectors, (floatSingles_isLane1 r hr).rejects⟩,
    fun r hr => ⟨(floatPairs_isLane2 r hr).vectors, (floatPairs_isLane2 r hr).rejects⟩,
    fun r hr => ⟨(floatTriples_isLane3 r hr).vectors, (floatTriples_isLane3 r hr).rejects⟩⟩

end Sys2Proof.Claims
end

section
/-! SUPPORT. Every encoded instruction fires through `State.fire`, with the shape that its block sees (R81 to R85), and what nulls
such a firing. -/

namespace Sys2Proof.Machine

open Sys2Proof Sys2Proof.Claims

/-- An instruction with a shape, the compact NOP apart, is a firing of that shape; only JOIN lets a null operand through (R224). -/
theorem exec_eq_fire {i : Instr} {sh : Shape} (h : i.shape = some sh) (hn : i ≠ .compactNop) :
    ∃ (g : Grp) (maskOk : Bool) (body : Fire → Out), ∀ s, exec i s = s.fire sh g maskOk (joins i) body := by
  cases i
  case compactNop => exact absurd rfl hn
  all_goals cases h
  all_goals exact ⟨_, _, _, fun _ => rfl⟩

/-! ## Nulled firings (R83, R84, R224) -/

variable {s : State} {sh : Shape} {f : Flight} {ix : Nat}

/-- A required data slot of a shape holds null. -/
def Flight.lacks (f : Flight) (sh : Shape) (ix : Nat) : Prop :=
  (sh.left = true ∧ f.token ix 0 = .null) ∨ (sh.right = true ∧ f.token ix 1 = .null) ∨ (sh.third = .data ∧ f.token ix 3 = .null)

/-- A predicate that is null or a scalar of the opposite value skips the firing. -/
theorem predicate_skips {pr : Pr} {t : Token} (h : (pr = .onTrue ∧ t = .scalar 0) ∨ (∃ w, pr = .onFalse ∧ t = .scalar w ∧ w ≠ 0) ∨
    (pr ≠ .always ∧ t = .null)) : predicate pr t = .skip := by
  obtain ⟨rfl, rfl⟩ | ⟨w, rfl, rfl, hw⟩ | ⟨hp, rfl⟩ := h
  · rfl
  · exact if_neg hw
  · cases pr with
    | always => exact absurd rfl hp
    | onTrue | onFalse => rfl
theorem outcome_of_skip {maskOk nullOk : Bool} {body : Fire → Out} {k : Nat} (h : predicate sh.pr (f.token ix 2) = .skip) :
    outcome sh maskOk nullOk body s k f ix = Out.null := by simp only [outcome, h]
/-- A null operand nulls a firing whose predicate is met, and one whose predicate has a type that it cannot have (R84). -/
theorem outcome_of_lacks {maskOk : Bool} {body : Fire → Out} {k : Nat} (h : f.lacks sh ix) :
    outcome sh maskOk false body s k f ix = Out.null := by
  have hnull : ((sh.left && (f.token ix 0).isNull) || (sh.right && (f.token ix 1).isNull) ||
      (sh.third == .data && (f.token ix 3).isNull)) = true := by
    obtain ⟨h, ht⟩ | ⟨h, ht⟩ | ⟨h, ht⟩ := h <;> simp [h, ht]
  unfold outcome
  dsimp only
  split
  · rfl
  · rw [hnull]
    rfl
/-- A firing that comes to null gives its token to every target and does nothing else. -/
theorem State.fire_nulls {g : Grp} {maskOk nullOk : Bool} {body : Fire → Out} (hf : s.flight s.focus = some f) (hix : f.cursor = some ix)
    (ho : outcome sh maskOk nullOk body s s.focus f ix = Out.null) :
    s.fire sh g maskOk nullOk body = .next (s.nulled f ix (g.cls .null) sh.targets (nulledToken sh)) := by
  simp only [State.fire, hf, hix, ho]
  rfl

/-- Settles O50: a skipped predicate or a null operand makes the outcome null, whatever the instruction. -/
theorem nulledFirings : Obligations.NulledFirings := by
  intro i sh s f ix hsh hf hix h
  have hn : i ≠ .compactNop := by
    rintro rfl
    cases hsh
    simp [mkShape] at h
  obtain ⟨g, maskOk, body, he⟩ := exec_eq_fire hsh hn
  refine ⟨g.cls .null, (he s).trans (State.fire_nulls hf hix ?_)⟩
  rcases h with h | h | h | ⟨hj, h⟩
  · exact outcome_of_skip (predicate_skips (.inl h))
  · exact outcome_of_skip (predicate_skips (.inr (.inl h)))
  · exact outcome_of_skip (predicate_skips (.inr (.inr h)))
  · rw [hj]
    exact outcome_of_lacks h

end Sys2Proof.Machine
end

section
/-! SUPPORT. Firings that change the block in flight alone (R79, R89, R97): those whose rule asks for nothing at once. A rule that
waits for journal entries asks for nothing while none of them is withheld (R140, R279). -/

namespace Sys2Proof.Machine

open Sys2Proof Sys2Proof.Claims

/-! ## Rules that ask for nothing at once -/

/-- No journal entry of the thread set that fires is withheld. -/
def Fire.Clear (c : Fire) : Prop := ∀ e ∈ (c.s.ts c.k).eng.journal, e.state ≠ .withheld

section
variable {c : Fire}

theorem side_ite {p : Prop} [Decidable p] {a b : Out} (ha : a.side = none) (hb : b.side = none) :
    (if p then a else b).side = none := by
  split
  · exact ha
  · exact hb
theorem side_withAddr {a : Word} {ok : Nat → Bool} {size n : Nat} {load : Bool} {k : Out} (h : k.side = none) :
    (withAddr c a ok size n load k).side = none := by
  unfold withAddr
  split
  · rfl
  · split
    · rfl
    · exact h
theorem side_withPlace {a : Word} {ok : Nat → Bool} {size n : Nat} {load : Bool} {k : Dest → Out} (h : ∀ d, (k d).side = none) :
    (withPlace c a ok size n load k).side = none := by
  refine side_withAddr ?_
  split
  · exact side_ite rfl (h _)
  · exact h _
theorem side_withWord {a : Word} {k : Nat → Out} (h : ∀ off, (k off).side = none) : (withWord c a k).side = none :=
  side_ite rfl (side_withAddr (h _))
theorem side_withPayload {a h0 : Word} {k : Out} (h : k.side = none) : (withPayload c a h0 k).side = none :=
  side_withAddr (side_ite rfl h)
theorem side_withSlot {n : Nat} {k : Slot → Out} (h : ∀ z, (k z).side = none) : (withSlot c n k).side = none := by
  unfold withSlot
  split
  · exact h _
  · rfl
theorem side_depFault {depv : Word} {o : Out} (h : c.depFault depv = some o) : o.side = none := by
  unfold Fire.depFault at h
  dsimp only at h
  split at h
  · cases h
  · split at h <;> cases h
    rfl
  · split at h <;> cases h
    rfl
  · cases h
    rfl
theorem side_append {depv : Word} {b : RecBody} : (c.append depv b).side = none := by
  unfold Fire.append
  split
  · exact side_depFault ‹_›
  · exact side_ite rfl rfl

theorem side_waitsFor (hc : c.Clear) {p : JEntry → Bool} {o : Out} (h : o.side = none) : (c.waitsFor p o).side = none := by
  rw [Fire.waitsFor_of_clear hc, h]
theorem side_afterAcquire (hc : c.Clear) {o : Out} (h : o.side = none) : (c.afterAcquire o).side = none :=
  side_ite (side_waitsFor hc rfl) h
theorem side_awaits (hc : c.Clear) {e : Effect} {among : JEntry → Bool} {o : Out} (h : o.side = none) :
    (c.awaits e among o).side = none := side_ite (side_waitsFor hc rfl) h
theorem side_load (hc : c.Clear) {lsid n : Nat} {a : Word} {d : Dest} {acq : Bool} {give : List Byte → Out}
    (h : ∀ bs, (give bs).side = none) : (c.load lsid a d n acq give).side = none := by
  unfold Fire.load
  refine side_ite rfl (side_ite (side_ite rfl (h _)) ?_)
  split
  · exact side_waitsFor hc rfl
  · refine side_ite (side_waitsFor hc rfl) ?_
    split
    · exact h _
    · rfl
    · rfl

end

/-! ## Firings that change the block in flight alone -/

/-- A result, if it goes on, changes nothing but the block in flight of the thread set in focus. -/
def State.Frames (s : State) (r : Res) : Prop := ∀ u, r = .next u → ∃ g : Flight, u = { s with flights := AMap.ins s.focus g s.flights }

section
variable {s : State} {sh : Shape} {g : Grp} {maskOk nullOk : Bool} {body : Fire → Out} {pr : Pr} {ts : List Target} {t : Target}

/-- The outcome of a firing is null, the operand-type fault, or that of its rule. -/
theorem outcome_induction {k ix : Nat} {f : Flight} {P : Out → Prop} (hnull : P Out.null) (hbad : P Out.badType)
    (h : ∀ c : Fire, c.s = s → c.k = k → P (body c)) : P (outcome sh maskOk nullOk body s k f ix) := by
  unfold outcome
  dsimp only
  split
  · exact hnull
  · split
    · exact hnull
    · split
      · split
        · exact hbad
        · exact h _ rfl rfl
      · exact hbad
theorem State.frames_fire (h : ∀ c : Fire, c.s = s → c.k = s.focus → (body c).side = none) :
    s.Frames (s.fire sh g maskOk nullOk body) := by
  intro u hu
  obtain ⟨f, ix, o, -, -, ho, h'⟩ := State.fire_cases hu
  have hs : o.side = none := ho ▸ outcome_induction (P := fun o => o.side = none) rfl rfl h
  rcases h' with ⟨hd, -⟩ | ⟨-, rfl⟩
  · rw [hs] at hd
    cases hd
  · rw [hs]
    exact ⟨_, rfl⟩
theorem State.frames_plain (h : ∀ c, (body c).side = none) : s.Frames (s.fire sh g maskOk nullOk body) :=
  State.frames_fire fun c _ _ => h c
theorem State.frames_waiting (hj : ∀ e ∈ (s.ts s.focus).eng.journal, e.state ≠ .withheld) (h : ∀ c : Fire, c.Clear → (body c).side = none) :
    s.Frames (s.fire sh g maskOk nullOk body) :=
  State.frames_fire fun c hs hk => h c (by rw [Fire.Clear, hs, hk]; exact hj)

/-! ### The shared forms -/

theorem State.frames_lane1 {a : Assert} {f : Word → Word × Flags} : s.Frames (s.lane1 g a pr ts f) :=
  State.frames_plain fun _ => side_ite rfl rfl
theorem State.frames_lane2 {a : Assert} {f : Word → Word → Word × Flags} : s.Frames (s.lane2 g a pr ts f) :=
  State.frames_plain fun _ => side_ite rfl rfl
theorem State.frames_lane3 {a : Assert} {f : Word → Word → Word → Word × Flags} : s.Frames (s.lane3 g a pr ts f) :=
  State.frames_plain fun _ => side_ite rfl rfl
theorem State.frames_cmp2 {f : Word → Word → Bool × Flags} : s.Frames (s.cmp2 g pr ts f) :=
  State.frames_plain fun _ => side_ite rfl rfl
theorem State.frames_cmpImm {i : BitVec 12} {f : Word → Word → Bool} : s.Frames (s.cmpImm pr t i f) :=
  State.frames_plain fun _ => side_ite rfl rfl
theorem State.frames_exitVia {f : Fire → Word → Out} (h : ∀ c a, (f c a).side = none) : s.Frames (s.exitVia pr f) :=
  State.frames_plain fun c => by
    split
    · exact side_ite (h _ _) rfl
    · rfl
theorem State.frames_vector1 {f : Token → BitVec 8 → Token × Flags} : s.Frames (s.vector1 pr t f) :=
  State.frames_plain fun _ => side_ite rfl rfl
theorem State.frames_mask1 {f : BitVec 8 → Token} : s.Frames (s.mask1 pr t f) :=
  State.frames_plain fun c => by split <;> rfl
theorem State.frames_mask2 {f : BitVec 8 → BitVec 8 → BitVec 8} : s.Frames (s.mask2 pr t f) :=
  State.frames_plain fun c => by split <;> rfl
theorem State.frames_countWait {issued : Fire → Nat} {ready : Fire → Nat → Bool} : s.Frames (s.countWait pr t issued ready) :=
  State.frames_plain fun c => by
    split
    · exact side_ite rfl (side_ite rfl rfl)
    · rfl
theorem State.frames_sysOp {l r : Bool} {third : Third} (h : ∀ c, (body c).side = none) : s.Frames (s.sysOp pr l r third t body) :=
  State.frames_plain fun c => side_ite rfl (h c)

section
variable (hj : ∀ e ∈ (s.ts s.focus).eng.journal, e.state ≠ .withheld)
include hj

theorem State.frames_memOp {l r : Bool} {lsid : BitVec 5} {role : Role} (h : ∀ c : Fire, c.Clear → (body c).side = none) :
    s.Frames (s.memOp pr l r lsid t role maskOk body) :=
  State.frames_waiting hj fun c hc => side_afterAcquire hc (h c hc)
theorem State.frames_loadOp {lsid : BitVec 5} {ok : Nat → Bool} {n : Nat} : s.Frames (s.loadOp pr lsid t ok n) :=
  State.frames_memOp hj fun c hc => by
    split
    · exact side_withPlace fun _ => side_load hc fun _ => rfl
    · rfl
theorem State.frames_storeOp {lsid : BitVec 5} {ok : Nat → Bool} {n : Nat} : s.Frames (s.storeOp pr lsid t ok n) :=
  State.frames_memOp hj fun c _ => by
    split
    · refine side_withPlace fun d => ?_
      split
      · exact side_ite rfl rfl
      · rfl
    · rfl
theorem State.frames_amoOp {op : Nat} {lsid : BitVec 5} {dbl : Bool} {o : BitVec 2} : s.Frames (s.amoOp op pr lsid dbl o t) :=
  State.frames_memOp hj fun c _ => by
    dsimp only
    split
    · refine side_withPlace fun d => ?_
      split
      · exact side_ite rfl rfl
      · rfl
    · rfl
    · rfl
theorem State.frames_copyOp {minor : Nat} : s.Frames (s.copyOp minor pr t) :=
  State.frames_waiting hj fun c hc => by
    dsimp only
    split
    · refine side_withAddr (side_afterAcquire hc (side_ite rfl (side_ite rfl ?_)))
      split
      · rfl
      · refine side_ite rfl ?_
        split <;> rfl
    · rfl

/-! ### Instructions of their own form that wait for journal entries -/

theorem frames_read {r : Reg} : s.Frames (execRead r t s) :=
  State.frames_waiting hj fun c hc => by
    split
    · unfold readStream
      refine side_ite rfl ?_
      dsimp only
      split
      · rfl
      · split <;> rfl
    · exact side_ite (side_waitsFor hc rfl) rfl
theorem frames_getx {n : BitVec 4} {pos : BitVec 6} : s.Frames (execGetx pr n pos t s) :=
  State.frames_waiting hj fun _ hc => side_ite (side_waitsFor hc rfl) rfl
theorem frames_fenceLocal {lsid : BitVec 5} : s.Frames (execFenceLocal pr lsid t s) :=
  State.frames_memOp hj fun _ _ => side_ite rfl rfl
theorem frames_fenceRect {lsid : BitVec 5} : s.Frames (execFenceRect pr lsid t s) :=
  State.frames_memOp hj fun c hc => by
    split
    · exact side_ite (side_awaits hc rfl) rfl
    · rfl
theorem frames_fenceCluster {lsid : BitVec 5} : s.Frames (execFenceCluster pr lsid t s) :=
  State.frames_memOp hj fun _ hc => side_awaits hc rfl
theorem frames_fenceRegion {lsid : BitVec 5} : s.Frames (execFenceRegion pr lsid t s) :=
  State.frames_memOp hj fun _ hc => side_awaits hc rfl
theorem frames_acq {lsid : BitVec 5} : s.Frames (execAcq pr lsid t s) :=
  State.frames_memOp hj fun c hc => by
    split
    · exact side_withPlace fun _ => side_ite (side_load hc fun _ => rfl) rfl
    · rfl
theorem frames_rel {lsid : BitVec 5} : s.Frames (execRel pr lsid t s) :=
  State.frames_memOp hj fun c hc => by
    split
    · exact side_withPlace fun _ => side_ite (side_awaits hc rfl) rfl
    · rfl
theorem frames_lwait : s.Frames (execLwait pr t s) :=
  State.frames_waiting hj fun c hc => by
    dsimp only
    split
    · exact side_withWord fun _ => side_afterAcquire hc (side_ite rfl (side_ite rfl rfl))
    · rfl
theorem frames_lwarm : s.Frames (execLwarm pr t s) :=
  State.frames_waiting hj fun c hc => by
    split
    · exact side_withWord fun _ => side_afterAcquire hc rfl
    · rfl
theorem frames_sbind {n : BitVec 3} : s.Frames (execSbind pr n t s) :=
  State.frames_waiting hj fun c hc => by
    dsimp only
    split
    · exact side_withAddr (side_afterAcquire hc (side_ite rfl (side_ite rfl (side_ite rfl rfl))))
    · rfl
theorem frames_send {o : BitVec 4} : s.Frames (execSend pr o t s) :=
  State.frames_waiting hj fun c hc => by
    dsimp only
    split
    · split
      · rfl
      · exact side_ite rfl (side_afterAcquire hc (side_withPayload (side_ite rfl (side_ite rfl rfl))))
    · rfl
theorem frames_spawn : s.Frames (execSpawn pr t s) :=
  State.frames_waiting hj fun c hc => by
    split
    · refine side_ite rfl (side_afterAcquire hc (side_withPayload ?_))
      split
      · rfl
      · rfl
      · exact side_ite rfl rfl
    · rfl

end

/-! ### Instructions of their own form that wait for no journal entry -/

theorem frames_write {r : Reg} : s.Frames (execWrite r s) :=
  State.frames_plain fun c => by
    refine side_ite rfl ?_
    split
    · exact side_ite rfl rfl
    · rfl
theorem side_passOn {v : Option Bool} {c : Fire} {k : Token} : (passOn v c k).side = none := side_ite rfl rfl
theorem side_joinOut {v : Option Bool} {c : Fire} : (joinOut v c).side = none := by
  unfold joinOut
  split
  · rfl
  · rfl
  · exact side_ite rfl rfl
theorem side_select {v : Bool} {c : Fire} : (select v c).side = none := by
  unfold select
  refine side_ite rfl ?_
  split
  · exact side_ite rfl rfl
  · exact side_ite rfl rfl
  · exact side_ite rfl rfl
  · rfl
theorem frames_tcwait {me : Bool} : s.Frames (execTcwait pr me t s) := State.frames_countWait
theorem frames_cwait : s.Frames (execCwait pr t s) := State.frames_countWait
theorem frames_setx {n : BitVec 4} {pos : BitVec 6} : s.Frames (execSetx pr n pos t s) :=
  State.frames_plain fun c => by split <;> rfl
theorem frames_compactNop : s.Frames (execCompactNop s) := by
  intro u hu
  unfold execCompactNop at hu
  split at hu
  · cases hu
  · split at hu
    · cases hu
    · cases hu
      exact ⟨_, rfl⟩
theorem frames_vbcast {v : Bool} {t' : Target} : s.Frames (execVbcast pr v t t' s) :=
  State.frames_plain fun c => by split <;> rfl
theorem frames_vcomp {v : Bool} {t' : Target} : s.Frames (execVcomp pr v t t' s) :=
  State.frames_plain fun c => by
    split
    · exact side_ite rfl rfl
    · rfl
theorem frames_mfroms : s.Frames (execMfroms pr t s) := State.frames_plain fun c => by split <;> rfl
theorem frames_vidx {i : BitVec 12} : s.Frames (execVidx pr i t s) := State.frames_plain fun c => by split <;> rfl
theorem frames_bind : s.Frames (execBind pr t s) :=
  State.frames_plain fun c => by
    split
    · exact side_withPlace fun _ => side_ite rfl rfl
    · rfl
theorem frames_unbind : s.Frames (execUnbind pr t s) :=
  State.frames_plain fun c => by
    split
    · exact side_withPlace fun _ => rfl
    · rfl
theorem frames_sskip {n : BitVec 3} : s.Frames (execSskip pr n t s) :=
  State.frames_plain fun c => by
    split
    · exact side_withSlot fun _ => rfl
    · rfl
theorem frames_mldb {kph : BitVec 7} : s.Frames (execMldb pr kph t s) :=
  State.frames_plain fun c => by
    refine side_ite rfl (side_ite rfl ?_)
    split
    · exact side_ite rfl (side_ite rfl (side_ite rfl (side_ite side_append rfl)))
    · rfl
theorem frames_mq {dep : Bool} {acc : BitVec 4} : s.Frames (execMq pr dep acc t s) :=
  State.frames_plain fun c => by
    refine side_ite rfl ?_
    split
    · exact side_ite rfl (side_ite rfl (side_ite rfl side_append))
    · rfl
theorem frames_mdrain {dep : Bool} {acc : BitVec 4} : s.Frames (execMdrain pr dep acc t s) :=
  State.frames_plain fun c => by
    refine side_ite rfl ?_
    split
    · refine side_ite rfl ?_
      split
      · exact side_ite rfl rfl
      · exact side_ite rfl (side_ite rfl (side_ite rfl side_append))
    · rfl
theorem frames_eos {o : BitVec 4} : s.Frames (execEos pr o t s) :=
  State.frames_plain fun c => by
    refine side_ite rfl ?_
    split
    · rfl
    · exact side_ite rfl (side_ite rfl rfl)
theorem frames_mbpeek : s.Frames (execMbpeek pr t s) := State.frames_plain fun c => by split <;> rfl
theorem frames_mbhw : s.Frames (execMbhw pr t s) :=
  State.frames_plain fun c => by
    split
    · exact side_ite rfl rfl
    · rfl
theorem frames_stealRange : s.Frames (execStealRange pr t s) := State.frames_plain fun c => by split <;> rfl
theorem frames_csrr : s.Frames (execCsrr pr t s) :=
  State.frames_sysOp fun c => by
    split
    · split <;> rfl
    · rfl
theorem frames_csrw : s.Frames (execCsrw pr t s) :=
  State.frames_sysOp fun c => by
    split
    · split
      · exact side_ite rfl rfl
      · rfl
    · rfl
theorem side_resume {c : Fire} {v : Option Word} : (c.resume v).side = none := by
  unfold Fire.resume
  split
  · exact side_ite rfl rfl
  · rfl
theorem frames_resumeVal : s.Frames (execResumeVal pr t s) :=
  State.frames_sysOp fun c => by
    split
    · exact side_resume
    · rfl
theorem frames_wake : s.Frames (execWake pr t s) :=
  State.frames_sysOp fun c => by
    split
    · split <;> rfl
    · rfl
theorem side_context {c : Fire} {save : Bool} : (c.context save).side = none := by
  unfold Fire.context
  split
  · exact side_ite rfl (side_withWord fun _ => rfl)
  · rfl
theorem frames_slotw : s.Frames (execSlotw pr t s) :=
  State.frames_sysOp fun c => by
    split
    · split
      · exact side_ite rfl rfl
      · rfl
    · rfl
theorem frames_pwrqSet : s.Frames (execPwrqSet pr t s) :=
  State.frames_sysOp fun c => by
    split
    · exact side_ite rfl rfl
    · rfl
theorem frames_pmark : s.Frames (execPmark pr t s) := State.frames_plain fun c => by split <;> rfl
theorem frames_trc {tag : BitVec 8} : s.Frames (execTrc pr tag t s) := State.frames_plain fun c => by split <;> rfl

end

end Sys2Proof.Machine
end

section
/-! SUPPORT. O49: what firing leaves alone (R79, R89, R97), instruction by instruction; and what XLATI and HALT leave alone, which act
at once (R305, R307). -/

namespace Sys2Proof.Machine

open Sys2Proof Sys2Proof.Claims

/-! ## All but HALT and XLATI -/

/-- Every encoded instruction but HALT and XLATI changes the block in flight alone; one that may wait for a journal entry does so
while none is withheld. -/
theorem frames_exec {i : Instr} {s : State} (h : (encode i).isSome = true) (hr : reachesOut i = false)
    (hj : awaitsEntries i = true → ∀ e ∈ (s.ts s.focus).eng.journal, e.state ≠ .withheld) : s.Frames (exec i s) := by
  cases i with
  | halt | haltRegion | xlati => cases hr
  | add | sub | mulLo | mulHi | mulHiu | div | divu | rem | remu | and | or | xor | shl | shr | sar | rot | min | max | minu | maxu
  | bfi | lea | crdpk | rect | fadd | fsub | fmul | fmin | fmax | fdiv | fscale | compactAdd | compactSub | compactAnd | compactOr
  | compactXor | compactShl | compactShr | compactFadd | compactFmul => exact State.frames_lane2
  | movhi | addi | andi | ori | xori | shli | shri | sari | roti | clz | ctz | popc | brev | bswap | sextb | sexth | sextw | zextb
  | zexth | zextw | bfx | crdx | crdy | fsqrt | fabs | fneg | frcp | frsq | fexp2 | flog2 | ftanh | fsin | f2i | f2n | i2f | n2f
  | fclass | frndRne | frndRz | frndRu | frndRd | not | neg => exact State.frames_lane1
  | fma | fnma => exact State.frames_lane3
  | cmpeq | cmpne | cmplt | cmple | cmpltu | cmpleu | fcmpeq | fcmplt | fcmple | fcmpun => exact State.frames_cmp2
  | cmpeqi | cmplti | cmpltui => exact State.frames_cmpImm
  | vredSum | vredFsum | vredMin | vredMax | vredFmin | vredFmax | vredAnd | vredOr | vredXor | vscanSum | vscanFsum =>
    exact State.frames_vector1
  | mand | mor => exact State.frames_mask2
  | mnot | mpopc | mfirst | mtos => exact State.frames_mask1
  | bri | calli => exact State.frames_exitVia fun _ _ => rfl
  | tcwait => exact frames_tcwait
  | cwait => exact frames_cwait
  | ldB | ldH | ldW | ldD | ldL | ldrB | ldrH | ldrW | ldrD | ldrQ | ldrO | ldrL => exact State.frames_loadOp (hj rfl)
  | stB | stH | stW | stD | stL | strB | strH | strW | strD | strQ | strO | strL => exact State.frames_storeOp (hj rfl)
  | amoAadd | amoAand | amoAor | amoAxor | amoAmin | amoAmax | amoAminn | amoAmaxn | amoAxchg | amoAcas =>
    exact State.frames_amoOp (hj rfl)
  | copyLinear | copyPlane | copyTensor | copyGather => exact State.frames_copyOp (hj rfl)
  | read => exact frames_read (hj rfl)
  | getx => exact frames_getx (hj rfl)
  | fenceLocal => exact frames_fenceLocal (hj rfl)
  | fenceRect => exact frames_fenceRect (hj rfl)
  | fenceCluster => exact frames_fenceCluster (hj rfl)
  | fenceRegion => exact frames_fenceRegion (hj rfl)
  | acq => exact frames_acq (hj rfl)
  | rel => exact frames_rel (hj rfl)
  | lwait => exact frames_lwait (hj rfl)
  | lwarm => exact frames_lwarm (hj rfl)
  | sbind => exact frames_sbind (hj rfl)
  | send => exact frames_send (hj rfl)
  | spawn => exact frames_spawn (hj rfl)
  | movi | getxBlr | statCoord | statTsid | statStage | statSeq | statCycle | statTlcce | statTlcme | statFlags | statMexc | statEnergy
  | statw | br | call | ret | done | trap | sstat | bkpt => exact State.frames_plain fun _ => rfl
  | yield | vextr | vins | vshuf | vslide | cseal | mbpop | stealSplit => exact State.frames_plain fun _ => side_ite rfl rfl
  | mfence => exact State.frames_plain fun _ => side_ite rfl (side_ite rfl rfl)
  | mstat => exact State.frames_plain fun _ => side_ite rfl rfl
  | mzero => exact State.frames_plain fun _ => side_ite rfl (side_ite rfl side_append)
  | mov | null | compactMov | compactNull => exact State.frames_plain fun _ => side_passOn
  | join | compactJoin => exact State.frames_plain fun _ => side_joinOut
  | sel => exact State.frames_plain fun _ => side_select
  | sunbind => exact State.frames_plain fun _ => side_withSlot fun _ => rfl
  | sflush => exact State.frames_plain fun _ => side_withSlot fun _ => side_ite rfl rfl
  | pwrq => exact State.frames_sysOp fun _ => rfl
  | resume => exact State.frames_sysOp fun _ => side_resume
  | ctxsv | ctxrs => exact State.frames_sysOp fun _ => side_context
  | write => exact frames_write
  | setx => exact frames_setx
  | compactNop => exact frames_compactNop
  | vbcast => exact frames_vbcast
  | vcomp => exact frames_vcomp
  | mfroms => exact frames_mfroms
  | vidx => exact frames_vidx
  | bind => exact frames_bind
  | unbind => exact frames_unbind
  | sskip => exact frames_sskip
  | mldb => exact frames_mldb
  | mq => exact frames_mq
  | mdrain => exact frames_mdrain
  | eos => exact frames_eos
  | mbpeek => exact frames_mbpeek
  | mbhw => exact frames_mbhw
  | stealRange => exact frames_stealRange
  | csrr => exact frames_csrr
  | csrw => exact frames_csrw
  | resumeVal => exact frames_resumeVal
  | wake => exact frames_wake
  | slotw => exact frames_slotw
  | pwrqSet => exact frames_pwrqSet
  | pmark => exact frames_pmark
  | trc => exact frames_trc
  | _ => cases h

/-! ## XLATI -/

/-- XLATI changes no more than the cached translations and the requests at the entry ports, and the block in flight. -/
theorem xlati_eq {p : Pr} {t : Target} {s u : State} (h : exec (.xlati p t) s = .next u) :
    ∃ tlb dreqs flights, u = { s with tlb := tlb, dreqs := dreqs, flights := flights } := by
  obtain ⟨f, ix, o, -, -, ho, h'⟩ := State.fire_cases h
  have hs : o.side = none ∨ ∃ a ctx, o.side = some (.xlati a ctx) := by
    rw [ho]
    refine outcome_induction (P := fun o => o.side = none ∨ ∃ a ctx, o.side = some (.xlati a ctx)) (.inl rfl) (.inl rfl) fun c _ _ => ?_
    dsimp only
    split
    · exact .inl rfl
    · split
      · split
        · exact .inr ⟨_, _, rfl⟩
        · exact .inl rfl
      · exact .inl rfl
  rcases h' with ⟨hd, -⟩ | ⟨-, rfl⟩
  · rw [hd] at hs
    simp at hs
  · rcases hs with hs | ⟨a, ctx, hs⟩ <;> rw [hs]
    · exact ⟨_, _, _, rfl⟩
    · exact ⟨_, _, _, rfl⟩

/-! ## HALT -/

/-- A state in which thread sets have stopped: it differs in tiles, blocks in flight and the thread sets' records, but in no register
and no task, and nothing new is recorded. -/
def State.Stopped (s u : State) : Prop :=
  (∃ tiles flights tss, u = { s with tiles := tiles, flights := flights, tss := tss }) ∧
    ∀ k, (u.ts k).regs = (s.ts k).regs ∧ (u.ts k).task = (s.ts k).task ∧ (u.ts k).stops.pendingFaults = (s.ts k).stops.pendingFaults
/-- No thread set has a recorded fault. -/
def State.Unmarked (s : State) : Prop := ∀ k, (s.ts k).stops.pendingFaults = []

theorem State.Stopped.refl (s : State) : s.Stopped s := ⟨⟨_, _, _, rfl⟩, fun _ => ⟨rfl, rfl, rfl⟩⟩
theorem State.Stopped.trans {s u v : State} (h : s.Stopped u) (g : u.Stopped v) : s.Stopped v := by
  obtain ⟨⟨_, _, _, rfl⟩, hk⟩ := h
  obtain ⟨⟨_, _, _, rfl⟩, gk⟩ := g
  refine ⟨⟨_, _, _, rfl⟩, fun k => ?_⟩
  obtain ⟨h1, h2, h3⟩ := hk k
  obtain ⟨g1, g2, g3⟩ := gk k
  exact ⟨g1.trans h1, g2.trans h2, g3.trans h3⟩
theorem State.Unmarked.stopped {s u : State} (h : s.Unmarked) (g : s.Stopped u) : u.Unmarked := fun k => by
  rw [(g.2 k).2.2, h k]
theorem State.Unmarked.foldl {α : Type} {f : State → α → State} (hf : ∀ (s : State) x, s.Unmarked → s.Stopped (f s x)) (l : List α)
    {s : State} (h : s.Unmarked) : s.Stopped (l.foldl f s) := by
  induction l generalizing s with
  | nil => exact .refl s
  | cons x l ih => exact (hf s x h).trans (ih (h.stopped (hf s x h)))
/-- A change of a thread set's stops and engines. -/
theorem State.Stopped.updTs (s : State) (k : Nat) {f : ThreadSet → ThreadSet} (hr : (f (s.ts k)).regs = (s.ts k).regs)
    (ht : (f (s.ts k)).task = (s.ts k).task) (hp : (f (s.ts k)).stops.pendingFaults = (s.ts k).stops.pendingFaults) :
    s.Stopped (s.updTs k f) := by
  refine ⟨⟨_, _, _, rfl⟩, fun j => ?_⟩
  by_cases e : j = k
  · subst e
    rw [State.ts_updTs]
    exact ⟨hr, ht, hp⟩
  · rw [State.ts_updTs_of_ne s e]
    exact ⟨rfl, rfl, rfl⟩

theorem State.stopped_discard (s : State) (k : Nat) : s.Stopped (s.discard k) := by
  have hcharge : ∀ (l : List (Nat × Nat)) (s : State), ∃ tiles, l.foldl (fun s p =>
      if p.1 < 512 then s.charge (tileOf k) (s.ctxOf (tileOf k)) (p.2 - 1) 1
      else s.charge (tileOf k) (s.ctxOf (tileOf k)) 7 p.2) s = { s with tiles := tiles } := by
    intro l
    induction l with
    | nil => exact fun s => ⟨_, rfl⟩
    | cons p l ih =>
      intro s
      obtain ⟨tiles, ht⟩ := ih (if p.1 < 512 then s.charge (tileOf k) (s.ctxOf (tileOf k)) (p.2 - 1) 1
        else s.charge (tileOf k) (s.ctxOf (tileOf k)) 7 p.2)
      rw [List.foldl_cons, ht]
      split <;> exact ⟨_, rfl⟩
  unfold State.discard
  split
  · rename_i f _
    obtain ⟨tiles, ht⟩ := hcharge f.counts s
    rw [State.chargeFlight, ht]
    exact ⟨⟨_, _, _, rfl⟩, fun _ => ⟨rfl, rfl, rfl⟩⟩
  · exact .refl s
theorem State.stopped_haltTs (s : State) (k : Nat) : s.Stopped (s.haltTs k) := by
  have hg : (s.discard k).Stopped ((s.discard k).dropGroups k) := ⟨⟨_, _, _, rfl⟩, fun _ => ⟨rfl, rfl, rfl⟩⟩
  refine ((s.stopped_discard k).trans hg).trans (State.Stopped.updTs _ k ?_ ?_ ?_) <;> split <;> rfl
theorem State.Unmarked.takeRecorded {s : State} (h : s.Unmarked) (k : Nat) : s.Stopped (s.takeRecorded k) := by
  simp only [State.takeRecorded, h k, List.foldl_nil]
  exact State.Stopped.updTs s k rfl rfl (h k).symm
theorem State.Unmarked.settleOne {s : State} (h : s.Unmarked) (k : Nat) : s.Stopped (s.settleOne k) := by
  unfold State.settleOne
  split
  · exact .refl s
  · exact h.takeRecorded k
theorem State.Unmarked.boundary {s : State} (h : s.Unmarked) (k : Nat) : s.Stopped (s.boundary k) := by
  have ht := h.takeRecorded k
  unfold State.boundary
  dsimp only
  split
  · exact ht.trans (State.Unmarked.foldl (fun _ j hs => hs.settleOne j) _ (h.stopped ht))
  · exact ht
theorem State.Unmarked.halt {s : State} (h : s.Unmarked) (k : Nat) : s.Stopped (s.halt k) := by
  have hh := s.stopped_haltTs k
  unfold State.halt State.settle
  split
  · exact hh
  · exact hh.trans ((h.stopped hh).boundary k)

/-- A firing that asks for nothing at once but a HALT stops thread sets and changes the block in flight. -/
theorem State.fire_halts {sh : Shape} {g : Grp} {maskOk nullOk : Bool} {body : Fire → Out} {s u : State}
    (hb : ∀ c, (body c).side = none ∨ ∃ tss, (body c).side = some (.halt tss)) (hp : s.Unmarked)
    (h : s.fire sh g maskOk nullOk body = .next u) : s.Stopped u := by
  obtain ⟨f, ix, o, -, -, ho, h'⟩ := State.fire_cases h
  have hs : o.side = none ∨ ∃ tss, o.side = some (.halt tss) := by
    rw [ho]
    exact outcome_induction (P := fun o => o.side = none ∨ ∃ tss, o.side = some (.halt tss)) (.inl rfl) (.inl rfl) fun c _ _ => hb c
  rcases h' with ⟨hd, -⟩ | ⟨-, rfl⟩
  · rw [hd] at hs
    simp at hs
  · have hset : ∀ v : State, s.Stopped v → ∀ f, s.Stopped (v.setFlight s.focus f) := fun v hv f =>
      hv.trans ⟨⟨_, _, _, rfl⟩, fun _ => ⟨rfl, rfl, rfl⟩⟩
    rcases hs with hs | ⟨tss, hs⟩ <;> rw [hs]
    · exact hset s (.refl s) _
    · exact hset _ (State.Unmarked.foldl (fun _ k hs => hs.halt k) tss hp) _
/-- HALT of one thread set, and of a region (R305). -/
theorem halt_stopped {p : Pr} {t : Target} {i : Instr} {s u : State} (hi : i = .halt p t ∨ i = .haltRegion p t)
    (hp : s.Unmarked) (h : exec i s = .next u) : s.Stopped u := by
  obtain rfl | rfl := hi
  · refine State.fire_halts (fun c => ?_) hp h
    split
    · exact .inl rfl
    · dsimp only
      split
      · split
        · exact .inr ⟨_, rfl⟩
        · exact .inl rfl
      · exact .inl rfl
  · refine State.fire_halts (fun c => ?_) hp h
    split
    · exact .inl rfl
    · exact .inr ⟨_, rfl⟩

/-! ## O49 -/

/-- Settles O49: of the encoded instructions only HALT and XLATI ask for something at once, and what they ask for is stated by
`xlati_eq` and `halt_stopped`. -/
theorem firingFrame : Obligations.FiringFrame := by
  refine ⟨fun i s u he hr hj h => ?_, fun p t s u h => ?_, fun p t i s u hi hp h => ?_⟩
  · obtain ⟨g, rfl⟩ := frames_exec he hr hj u h
    exact ⟨⟨g, rfl⟩, fun _ => rfl, fun _ => rfl, fun _ => rfl, fun _ => rfl, fun k hk => AMap.find_ins_of_ne hk g s.flights⟩
  · obtain ⟨_, _, _, rfl⟩ := xlati_eq h
    exact ⟨fun _ => rfl, fun _ => ⟨rfl, rfl⟩, fun _ => rfl, fun _ => rfl, rfl⟩
  · obtain ⟨⟨_, _, _, rfl⟩, hk⟩ := halt_stopped hi hp h
    exact ⟨fun _ => rfl, fun k => ⟨(hk k).1, (hk k).2.1⟩, fun _ => rfl, fun _ => rfl, rfl, rfl⟩

end Sys2Proof.Machine
end

section
/-! SUPPORT. What refutes the statement about taking a fault: the thread set that stops has an asynchronous fault recorded, which
its block boundary reports with a second token (R366, R371). -/

namespace Sys2Proof.Machine

open Sys2Proof Sys2Proof.Claims

/-- Tile 0 bears coordinate (4, 0) of region 0. Thread set 0 has the asynchronous fault of a refused store recorded, and holds a settled block
without an exit. -/
def recordedFault : State := { State.reset with
  flights := [(0, { trapFlight with effs := [] })],
  tss := [(0, { ThreadSet.init with stops := { ThreadSet.init.stops with pendingFaults := [FaultInfo.plain .storeRefused 255] } })],
  tiles := [(0, { Tile.init with rgn := some 0, coord := 4 })],
  regions := [(0, { Region.init with geom := 0x2020000 })] }

/-- Its region traces no more than the regions at reset do. -/
theorem recordedFault_untraced (x : Nat) : bitAt (csrOf (recordedFault.region x).csr 0x310) 0 = false := by
  by_cases hx : x = 0
  · subst hx
    decide +kernel
  · have h : recordedFault.region x = Region.init := by simp [recordedFault, State.region, AMap.get, AMap.find, Ne.symm hx]
    rw [h]
    decide +kernel

/-- The block faults, and both faults send a token: that of the block and that which was recorded. -/
theorem recordedFault_reports : (recordedFault.blockCommit 0).net.length ≠ recordedFault.net.length + 1 := by decide +kernel

/-- Refutes O53: in `recordedFault` two packets leave, not one. -/
theorem not_takingAFault : ¬ Obligations.TakingAFault := by
  intro h
  obtain ⟨u, p, hu, -, -, -, -, hnet, -⟩ := h recordedFault 0 { trapFlight with effs := [] } (FaultInfo.plain .exit 255) rfl
    (by decide +kernel) rfl rfl rfl (by decide +kernel) (by decide +kernel) recordedFault_untraced 0 (by decide +kernel)
  refine recordedFault_reports ?_
  rw [← exec_blockCommit hu, hnet, List.length_append]
  rfl

end Sys2Proof.Machine
end

section
/-! SUPPORT. O10 and O16: READ of a register and of an input stream (R99, R220), and what STATW does at the commit (R103, R228). -/

namespace Sys2Proof.Machine

open Sys2Proof Sys2Proof.Claims

/-! ## READ -/

/-- An instruction without a predicate fires under no lane mask. -/
theorem mask_of_always {s : State} {c : Fire} (h : s.view .always = some c) : c.mask = false := by
  obtain ⟨-, -, -, -, hp, -⟩ := State.view_cases h
  injection hp with _ hm
  exact hm.symm
/-- Settles O10: the rule of READ comes down to the block-start value, or to the group that the stream has fetched. -/
theorem readDeliversRegister : Obligations.ReadDeliversRegister := by
  refine ⟨fun r t s c hv hr hp => ?_, fun r t s c k z v nulls fl m hv hr ho hg hm => ?_⟩
  · refine (State.fire_delivers (c := c) (t := c.set.regs.token r) (fl := 0) (e := none) (ld := none) hv
      (by simp [mask_of_always hv]) rfl ?_).trans ?_
    · simp only [hr, hp]
      rfl
    · cases r <;> rfl
  · refine State.fire_delivers (c := c) (t := .vector v nulls) (fl := fl) (e := some (.popped k 1)) (ld := none) hv
      (by simp [mask_of_always hv]) rfl ?_
    simp only [hr, readStream, ho, hg, hm]
    rfl

/-! ## Bits of FLAGS -/

theorem bitAt_eq (w : Word) (n : Nat) : bitAt w n = w.getLsbD n := by
  rw [bitAt, BitVec.getLsbD, Nat.testBit_eq_decide_div_mod_eq]
  rfl
/-- A field of two bits is told by its bits. -/
theorem field_two (w : Word) (lo : Nat) : field w lo 2 = (bitAt w lo).toNat + 2 * (bitAt w (lo + 1)).toNat := by
  have hbit : ∀ m : Nat, (m % 2 == 1).toNat = m % 2 := fun m => by
    rcases Nat.mod_two_eq_zero_or_one m with h | h <;> rw [h] <;> rfl
  rw [bitAt, bitAt, hbit, hbit, field, Nat.pow_succ _ lo, ← Nat.div_div_eq_div_mul]
  omega
theorem field_two_congr {w u : Word} {lo : Nat} (h : bitAt w lo = bitAt u lo) (h' : bitAt w (lo + 1) = bitAt u (lo + 1)) :
    field w lo 2 = field u lo 2 := by rw [field_two, field_two, h, h']
/-- FLAGS after the flags of a block are merged, perhaps over cleared ones. -/
def mergedFlags (clear : Bool) (w : Word) (fl : BitVec 7) : Word := mergeFlags (if clear then clearFlags w else w) fl
/-- FLAGS after the defaults are perhaps set. -/
def defaultedFlags (sets : Bool) (drm : BitVec 2) (dsat : Bool) (w : Word) : Word := if sets then setDefaults w drm dsat else w

theorem bitAt_clearFlags (w : Word) {n : Nat} (hn : n < 64) : bitAt (clearFlags w) n = (decide (7 ≤ n) && bitAt w n) := by
  have hk : ∀ n < 64, (~~~(0x7F : Word)).getLsbD n = decide (7 ≤ n) := by decide
  rw [bitAt_eq, bitAt_eq, clearFlags, BitVec.getLsbD_and, hk n hn, Bool.and_comm]
theorem bitAt_mergedFlags (clear : Bool) (w : Word) (fl : BitVec 7) {n : Nat} (hn : n < 64) :
    bitAt (mergedFlags clear w fl) n = (fl.getLsbD n || ((!clear || decide (7 ≤ n)) && bitAt w n)) := by
  have hm : ∀ w, bitAt (mergeFlags w fl) n = (fl.getLsbD n || bitAt w n) := fun w => by
    rw [bitAt_eq, bitAt_eq, mergeFlags, BitVec.getLsbD_or, BitVec.getLsbD_setWidth, Bool.or_comm]
    simp [hn]
  cases clear with
  | true =>
    rw [mergedFlags, hm, if_pos rfl, bitAt_clearFlags w hn]
    rfl
  | false =>
    rw [mergedFlags, hm]
    rfl
theorem bitAt_setDefaults (w : Word) (drm : BitVec 2) (dsat : Bool) {n : Nat} (hn : n < 64) :
    bitAt (setDefaults w drm dsat) n = if n < 16 ∨ 18 < n then bitAt w n else if n = 18 then dsat else drm.getLsbD (n - 16) := by
  have hkeep : ∀ n < 64, (~~~(0x70000 : Word)).getLsbD n = decide (n < 16 ∨ 18 < n) := by decide
  have hsat : ∀ n < 64, (if dsat then (0x40000 : Word) else 0).getLsbD n = (dsat && decide (n = 18)) := by
    cases dsat <;> decide
  rw [bitAt_eq, bitAt_eq, setDefaults, BitVec.getLsbD_or, BitVec.getLsbD_or, BitVec.getLsbD_and, hkeep n hn, hsat n hn,
    BitVec.getLsbD_shiftLeft, BitVec.getLsbD_setWidth]
  have hhigh : 18 ≤ n → drm.getLsbD (n - 16) = false := fun h => BitVec.getLsbD_of_ge _ _ (by omega)
  by_cases hlo : n < 16
  · simp [hlo, show n ≠ 18 by omega]
  · by_cases hhi : 18 < n
    · simp [hhi, hhigh (by omega), show n ≠ 18 by omega]
    · by_cases he : n = 18
      · subst he
        simp
      · simp [hlo, hhi, he, hn, show n - 16 < 64 by omega]
theorem field_setDefaults (w : Word) (drm : BitVec 2) (dsat : Bool) : field (setDefaults w drm dsat) 16 2 = drm.toNat := by
  have htwo : ∀ drm : BitVec 2, (drm.getLsbD 0).toNat + 2 * (drm.getLsbD 1).toNat = drm.toNat := by decide
  rw [field_two, bitAt_setDefaults w drm dsat (by omega), bitAt_setDefaults w drm dsat (by omega), ← htwo drm]
  rfl

/-! ## STATW at the commit -/

variable {x : Regs} {f : Flight} {fl : BitVec 7} {ix : Nat} {cf cm sd cf' cm' sd' : Bool} {drm drm' : BitVec 2} {dsat dsat' : Bool}

theorem commitFlags_statw (h : f.effs = [(ix, .statw cf cm sd drm.toNat dsat)]) : x.commitFlags f fl =
    { x with flags := defaultedFlags sd drm dsat (mergedFlags cf x.flags fl), mexc := if cm then 0 else x.mexc } := by
  simp only [Regs.commitFlags, h, List.any_cons, List.any_nil, Bool.or_false, List.foldl_cons, List.foldl_nil]
  cases cf <;> cases cm <;> cases sd <;> simp [defaultedFlags, mergedFlags]
theorem commitFlags_two_statw {i j : Nat}
    (h : f.effs = [(i, .statw cf cm sd drm.toNat dsat), (j, .statw cf' cm' sd' drm'.toNat dsat')]) : x.commitFlags f fl =
    { x with
      flags := defaultedFlags sd' drm' dsat' (defaultedFlags sd drm dsat (mergedFlags (cf || cf') x.flags fl)),
      mexc := if cm || cm' then 0 else x.mexc } := by
  simp only [Regs.commitFlags, h, List.any_cons, List.any_nil, Bool.or_false, List.foldl_cons, List.foldl_nil]
  cases hc : cf || cf' <;> cases hm : cm || cm' <;> cases sd <;> cases sd' <;> simp [defaultedFlags, mergedFlags]

/-- The raised flags are merged below the defaults. -/
theorem bitAt_defaulted_low {w : Word} {n : Nat} (hn : n < 7) : bitAt (defaultedFlags sd drm dsat w) n = bitAt w n := by
  cases sd with
  | true => exact (bitAt_setDefaults w drm dsat (by omega)).trans (if_pos (by omega))
  | false => rfl
theorem bitAt_merged_low {w : Word} {n : Nat} (hn : n < 7) :
    bitAt (mergedFlags cf w fl) n = (fl.getLsbD n || (!cf && bitAt w n)) := by
  rw [bitAt_mergedFlags cf w fl (by omega), decide_eq_false (by omega), Bool.or_false]
theorem bitAt_merged_high {w : Word} {n : Nat} (h7 : 7 ≤ n) (hn : n < 64) : bitAt (mergedFlags cf w fl) n = bitAt w n := by
  rw [bitAt_mergedFlags cf w fl hn, BitVec.getLsbD_of_ge _ _ h7]
  simp [h7]

/-- Settles O16: one STATW, and two, bit by bit. -/
theorem statwAtCommit : Obligations.StatwAtCommit := by
  refine ⟨fun p cf cm sd drm dsat s c hv hm => ?_, fun x f ix fl cf cm sd drm dsat h => ?_,
    fun x f i j fl cf cm sd cf' cm' drm drm' dsat dsat' h => ?_⟩
  · exact State.fire_delivers (c := c) (e := some (.statw cf cm sd drm.toNat dsat)) (ld := none) hv (by simp [hm]) rfl rfl
  · rw [commitFlags_statw h]
    refine ⟨fun n hn => (bitAt_defaulted_low hn).trans (bitAt_merged_low hn), fun h => if_pos h, fun h => by simp [h], rfl, rfl, rfl,
      rfl, rfl, ?_, ?_, fun n h7 hn h16 h17 h18 => ?_⟩
    · cases sd with
      | true => exact field_setDefaults _ drm dsat
      | false => exact field_two_congr (bitAt_merged_high (by omega) (by omega)) (bitAt_merged_high (by omega) (by omega))
    · cases sd with
      | true => exact bitAt_setDefaults _ drm dsat (by omega)
      | false => exact bitAt_merged_high (by omega) (by omega)
    · refine Eq.trans ?_ (bitAt_merged_high (cf := cf) (fl := fl) h7 hn)
      cases sd with
      | true => exact (bitAt_setDefaults _ drm dsat hn).trans (if_pos (by omega))
      | false => rfl
  · rw [commitFlags_two_statw h]
    exact ⟨fun n hn => (bitAt_defaulted_low hn).trans ((bitAt_defaulted_low hn).trans (bitAt_merged_low hn)), rfl,
      field_setDefaults _ drm' dsat', bitAt_setDefaults _ drm' dsat' (by omega)⟩

end Sys2Proof.Machine
end

section
/-! SUPPORT. O23, O24, O26 and O27: the memory instructions on the tile's own pool and, for stores and atomics, on another place
(R92, R93, R270 to R275), by the forms that they share. -/

namespace Sys2Proof.Machine

open Sys2Proof Sys2Proof.Claims

/-! ## The shared form -/

variable {s : State} {c : Fire} {p : Pr} {l : BitVec 5} {t : Target} {a : Word} {n : Nat} {ok : Nat → Bool}

/-- An instruction with an LSID whose operands are there, and that no acquire AMO holds back, delivers what its rule gives. -/
theorem State.memOp_delivers {right maskOk : Bool} {role : Role} {body : Fire → Out} {k : Token} {e : Option Effect} {ld : Option (Nat × Nat)}
    (hv : s.view p = some c) (hm : c.mask = true → maskOk = true) (ha : c.acquiring = false) (hl : c.left = .scalar a)
    (hr : right = true → c.right.isNull = false) (hb : body c = { given := .deliver k, eff := e, load := ld }) :
    s.memOp p true right l t role maskOk body = .next (c.after 6 [t] k 0 e ld) := by
  refine State.fire_delivers (c := c) (t := k) (fl := 0) (e := e) (ld := ld) hv hm ?_
    ((Fire.afterAcquire_of_clear ha _).trans hb)
  have hleft : c.left.isNull = false := by
    rw [hl]
    rfl
  cases right with
  | true => simp [Fire.filled, memShape, hleft, hr rfl]
  | false => simp [Fire.filled, memShape, hleft]

/-! ## Loads -/

theorem Fire.load_own {lsid : Nat} {acq : Bool} {give : List Byte → Out} (ha : a.toNat < 2 ^ 17)
    (hx : ∀ x ∈ c.below lsid (poolKey c.tile a.toNat) n, x.bytes.isSome = true) (hp : c.s.poisoned (poolKey c.tile a.toNat) n = false) :
    c.load lsid a (.pool c.tile a.toNat) n acq give =
      { give (overlayBytes (c.below lsid (poolKey c.tile a.toNat) n) (poolKey c.tile a.toNat) (c.s.bytes (poolKey c.tile a.toNat) n)) with
        load := some (a.toNat, n) } := by
  have hany : ((c.below lsid (poolKey c.tile a.toNat) n).any fun x => x.bytes.isNone && (!x.rel || acq)) = false := by
    rw [List.any_eq_false]
    intro x hmem
    simp [Option.isNone_eq_false_iff.mpr (hx x hmem)]
  simp only [Fire.load, Dest.key?, Option.getD_some, Option.isSome_some, if_true, hany, Bool.false_eq_true, if_false, decide_true, hp,
    poolKey_mod ha]
/-- A load of the own pool delivers memory's bytes under those of the block's earlier stores. -/
theorem State.loadOp_own (hv : s.view p = some c) (hm : c.mask = false) (ha : c.acquiring = false) (hl : c.left = .scalar a)
    (ho : ownAddress c a n true) (hok : ok 0 = true) (hp : s.poisoned (poolKey c.tile a.toNat) n = false)
    (hx : ∀ x ∈ c.below l.toNat (poolKey c.tile a.toNat) n, x.bytes.isSome = true) :
    s.loadOp p l t ok n = .next (c.after 6 [t] (loaded n (overlayBytes (c.below l.toNat (poolKey c.tile a.toNat) n)
      (poolKey c.tile a.toNat) (s.bytes (poolKey c.tile a.toNat) n))) 0 none (some (a.toNat, n))) := by
  obtain ⟨hlt, hal, hpad⟩ := ho
  obtain ⟨hs, -⟩ := State.view_cases hv
  refine State.memOp_delivers hv (by simp [hm]) ha hl nofun ?_
  simp only [hl, withPlace_own hlt hal hpad hok, Fire.load_own hlt hx (hs.symm ▸ hp), hs]
  rfl
theorem localLoads_eq : ∀ r ∈ localLoads, ∃ ok : Nat → Bool, ok 0 = true ∧ 0 < r.2 ∧ ∀ p l t s, exec (r.1 p l t) s = s.loadOp p l t ok r.2 := by
  simp only [localLoads, List.forall_mem_cons]
  exact ⟨⟨_, rfl, by decide, fun _ _ _ _ => rfl⟩, ⟨_, rfl, by decide, fun _ _ _ _ => rfl⟩, ⟨_, rfl, by decide, fun _ _ _ _ => rfl⟩,
    ⟨_, rfl, by decide, fun _ _ _ _ => rfl⟩, ⟨_, rfl, by decide, fun _ _ _ _ => rfl⟩, nofun⟩
theorem remoteLoads_eq : ∀ r ∈ remoteLoads, ∀ p l t s, exec (r.1 p l t) s = s.loadOp p l t (remoteSpaces r.2) r.2 := by
  simp only [remoteLoads, List.forall_mem_cons]
  exact ⟨fun _ _ _ _ => rfl, fun _ _ _ _ => rfl, fun _ _ _ _ => rfl, fun _ _ _ _ => rfl, fun _ _ _ _ => rfl, fun _ _ _ _ => rfl,
    fun _ _ _ _ => rfl, nofun⟩

/-- A byte that one store covers is that of the store. -/
theorem overlayByte_store {lsid key i : Nat} {bs : List Byte} {b : Byte} (hi : i < bs.length) :
    overlayByte [⟨lsid, some key, n, some (bs.map some), false⟩] (key + i) b = bs[i] := by
  simp [overlayByte, hi]
/-- Bytes that one store covers are those of the store. -/
theorem overlayBytes_store {lsid key : Nat} {bs ms : List Byte} (h : bs.length = ms.length) :
    overlayBytes [⟨lsid, some key, n, some (bs.map some), false⟩] key ms = bs := by
  refine List.ext_getElem (by simp [overlayBytes, h]) fun i _ hi => ?_
  simp only [overlayBytes, List.getElem_map, List.getElem_zipIdx, Nat.zero_add]
  exact overlayByte_store hi
/-- The one store of a block, at the loaded address and of the loaded size, is the access below the load. -/
theorem Fire.below_store {ix lsid lsid' off : Nat} {bs : Bytes} (he : c.fl.effs = [(ix, .store lsid off bs)]) (hlt : lsid < lsid')
    (hn : bs.length = n) (hpos : 0 < n) : c.below lsid' (poolKey c.tile off) n = [⟨lsid, some (poolKey c.tile off), n, some bs, false⟩] := by
  simp [Fire.below, he, Fire.access, hlt, hn, hpos]

/-- Settles O24: the bytes over memory's are those of the one store. -/
theorem loadsSeeEarlierStore : Obligations.LoadsSeeEarlierStore := by
  intro r hr p l t s c a ix lsid bs hv hm ha hl ho hp hn hlt he
  obtain ⟨ok, hok, hpos, hx⟩ := localLoads_eq r hr
  have hb := Fire.below_store he hlt (by simp [hn]) hpos
  rw [hx, State.loadOp_own hv hm ha hl ho hok hp (by simp [hb]), hb, overlayBytes_store (by simp [State.bytes, hn])]

/-! ## Stores -/

/-- Lanes of 8 bytes, one after the other. -/
theorem flatMap_lanes {α : Type} (f : Nat → Nat → α) (m : Nat) :
    ((List.range m).flatMap fun i => (List.range 8).map (f i)) = (List.range (8 * m)).map fun j => f (j / 8) (j % 8) := by
  induction m with
  | zero => rfl
  | succ m ih =>
    rw [List.range_succ (n := m), List.flatMap_append, ih, Nat.mul_succ, List.range_add, List.map_append, List.map_map, List.flatMap_singleton]
    congr 1
    refine List.map_congr_left fun j hj => ?_
    have hj := List.mem_range.mp hj
    simp only [Function.comp_apply]
    rw [show (8 * m + j) / 8 = m by omega, show (8 * m + j) % 8 = j by omega]
/-- The sizes that stores have. -/
def laneSize (n : Nat) : Prop := n ≤ 8 ∨ n % 8 = 0
/-- A store takes the bytes that the statement names. -/
theorem storeBytes_of_stored {bs : Bytes} (hn : laneSize n) (h : stored c n bs) : storeBytes n c.right c.en = some bs := by
  have hlane : 8 < n → 8 * (n / 8) = n := fun _ => by unfold laneSize at hn; omega
  unfold stored at h
  split at h
  · rename_i w hw
    rw [hw, storeBytes]
    split at h
    · rename_i h8
      rw [if_pos h8, h, leBytes_eq, List.map_map]
      rfl
    · rename_i h8
      rw [if_neg h8, h]
      simp only [leBytes_eq, List.map_map, Function.comp_def]
      rw [flatMap_lanes fun i j => if maskBit c.en i = true then some (BitVec.ofNat 8 (w.toNat / 256 ^ j)) else none, hlane (by omega)]
  · rename_i v nulls hw
    obtain ⟨h8, rfl⟩ := h
    rw [hw, storeBytes, if_neg (by omega)]
    simp only [leBytes_eq, List.map_map, Function.comp_def]
    rw [flatMap_lanes fun i j => if (maskBit c.en i && !maskBit nulls i) = true then some (BitVec.ofNat 8 ((v.get i).toNat / 256 ^ j))
      else none, hlane h8]
  · exact h.elim
theorem right_of_stored {bs : Bytes} (h : stored c n bs) : c.right.isNull = false := by
  unfold stored at h
  split at h
  · rename_i hw
    rw [hw]
    rfl
  · rename_i hw
    rw [hw]
    rfl
  · exact h.elim

section
variable {bs : Bytes} (hv : s.view p = some c) (hm : c.mask = true → 8 < n) (ha : c.acquiring = false) (hl : c.left = .scalar a)
  (hn : laneSize n) (hb : stored c n bs)
include hv hm ha hl hn hb

/-- A store to the own pool keeps its offset and bytes. -/
theorem State.storeOp_own (ho : ownAddress c a n false) (hok : ok 0 = true) :
    s.storeOp p l t ok n = .next (acts c t (.store l.toNat a.toNat bs)) := by
  obtain ⟨hlt, hal, hpad⟩ := ho
  refine State.memOp_delivers hv (by simpa using hm) ha hl (fun _ => right_of_stored hb) ?_
  simp only [hl, storeBytes_of_stored hn hb, withPlace_own hlt hal hpad hok, if_true]
  rfl
/-- A store to another place keeps its address and bytes. -/
theorem State.storeOp_far (hc : checkAddr s c.tile a ok n n false = none) (ho : outsideCoord s c.tile a = none)
    (hd : ∀ off, s.destOf c.tile a ≠ .pool c.tile off) :
    s.storeOp p l t ok n = .next (acts c t (.rstore l.toNat a n bs)) := by
  obtain ⟨hs, -⟩ := State.view_cases hv
  refine State.memOp_delivers hv (by simpa using hm) ha hl (fun _ => right_of_stored hb) ?_
  simp only [hl, storeBytes_of_stored hn hb]
  rw [withPlace_far (hs.symm ▸ hc) (hs.symm ▸ ho) (hs.symm ▸ hd)]
  split
  · rename_i u off hdest
    rw [if_neg]
    · rfl
    · rintro rfl
      exact hd off (hs ▸ hdest)
  · rfl

end

theorem localStores_eq : ∀ r ∈ localStores, ∃ ok : Nat → Bool, ok 0 = true ∧ laneSize r.2 ∧ ∀ p l t s, exec (r.1 p l t) s = s.storeOp p l t ok r.2 := by
  simp only [localStores, List.forall_mem_cons]
  exact ⟨⟨_, rfl, .inl (by decide), fun _ _ _ _ => rfl⟩, ⟨_, rfl, .inl (by decide), fun _ _ _ _ => rfl⟩,
    ⟨_, rfl, .inl (by decide), fun _ _ _ _ => rfl⟩, ⟨_, rfl, .inl (by decide), fun _ _ _ _ => rfl⟩,
    ⟨_, rfl, .inr rfl, fun _ _ _ _ => rfl⟩, nofun⟩
theorem remoteStores_eq : ∀ r ∈ remoteStores, laneSize r.2 ∧ ∀ p l t s, exec (r.1 p l t) s = s.storeOp p l t (remoteSpaces r.2) r.2 := by
  simp only [remoteStores, List.forall_mem_cons]
  exact ⟨⟨.inl (by decide), fun _ _ _ _ => rfl⟩, ⟨.inl (by decide), fun _ _ _ _ => rfl⟩, ⟨.inl (by decide), fun _ _ _ _ => rfl⟩,
    ⟨.inl (by decide), fun _ _ _ _ => rfl⟩, ⟨.inr rfl, fun _ _ _ _ => rfl⟩, ⟨.inr rfl, fun _ _ _ _ => rfl⟩,
    ⟨.inr rfl, fun _ _ _ _ => rfl⟩, nofun⟩

/-- Settles O26: one lemma for the own pool and one for another place. -/
theorem storesKeepBytes : Obligations.StoresKeepBytes := by
  refine ⟨fun r hr p l t s c a bs hv hm ha hl ho hb => ?_, fun r hr p l t s c a bs hv hm ha hl hc ho hd hb => ?_⟩
  · rcases List.mem_append.mp hr with hr | hr
    · obtain ⟨ok, hok, hn, he⟩ := localStores_eq r hr
      rw [he, State.storeOp_own hv hm ha hl hn hb ho hok]
    · obtain ⟨hn, he⟩ := remoteStores_eq r hr
      rw [he, State.storeOp_own hv hm ha hl hn hb ho rfl]
  · obtain ⟨hn, he⟩ := remoteStores_eq r hr
    rw [he, State.storeOp_far hv hm ha hl hn hb hc ho hd]

/-! ## Atomics -/

/-- The arguments of an atomic are those that the statement names. -/
theorem amoArg_of_args {op b cmp : Nat} {dbl : Bool} {x : Token} (h : atomicArgs op dbl x b cmp) : amoArg op dbl x = .vals b cmp := by
  unfold atomicArgs at h
  dsimp only at h
  unfold amoArg
  dsimp only
  split at h
  · rename_i w
    split at h
    · rename_i hop
      obtain ⟨rfl, rfl, rfl⟩ := h
      have hw := w.isLt
      simp only [hop, if_true, Bool.false_eq_true, if_false, field, Nat.pow_zero, Nat.div_one]
      rw [Nat.mod_eq_of_lt (by omega)]
    · rename_i hop
      obtain ⟨rfl, rfl⟩ := h
      simp [hop, field]
  · rename_i v m
    obtain ⟨rfl, h0, h1, rfl, rfl⟩ := h
    simp only [h0, h1, ne_eq, not_true, if_false, Bool.or_self, Bool.false_eq_true, field, Nat.pow_zero, Nat.div_one]
    rfl
  · exact h.elim
theorem right_of_args {op b cmp : Nat} {dbl : Bool} {x : Token} (h : atomicArgs op dbl x b cmp) : x.isNull = false := by
  cases x with
  | scalar | vector => rfl
  | _ => exact h.elim

section
variable {op b cmp : Nat} {dbl : Bool} {o : BitVec 2} (hv : s.view p = some c) (hm : c.mask = false) (ha : c.acquiring = false)
  (hl : c.left = .scalar a) (hb : atomicArgs op dbl c.right b cmp)
include hv hm ha hl hb

/-- An atomic on the own pool keeps its operation. -/
theorem State.amoOp_own (ho : ownAddress c a (if dbl then 8 else 4) false) : s.amoOp op p l dbl o t =
    .next (c.after 6 [t] (.scalar 0) 0 (some (.amoLocal l.toNat a.toNat ⟨op, dbl, o.toNat, b, cmp⟩ (c.fl.amoReg t)))) := by
  obtain ⟨hlt, hal, hpad⟩ := ho
  refine State.memOp_delivers hv (by simp [hm]) ha hl (fun _ => right_of_args hb) ?_
  simp only [hl, amoArg_of_args hb, AmoOp.bytes]
  rw [withPlace_own hlt hal hpad rfl]
  simp only [if_true]
  rfl
/-- An atomic on another place keeps its operation. -/
theorem State.amoOp_far (hc : checkAddr s c.tile a (fun sp => decide (sp < 4)) (if dbl then 8 else 4) (if dbl then 8 else 4) false = none)
    (ho : outsideCoord s c.tile a = none) (hd : ∀ off, s.destOf c.tile a ≠ .pool c.tile off) : s.amoOp op p l dbl o t =
    .next (c.after 6 [t] (.scalar 0) 0 (some (.amoRemote l.toNat a ⟨op, dbl, o.toNat, b, cmp⟩ (c.fl.amoReg t)))) := by
  obtain ⟨hs, -⟩ := State.view_cases hv
  refine State.memOp_delivers hv (by simp [hm]) ha hl (fun _ => right_of_args hb) ?_
  simp only [hl, amoArg_of_args hb, AmoOp.bytes]
  rw [withPlace_far (hs.symm ▸ hc) (hs.symm ▸ ho) (hs.symm ▸ hd)]
  split
  · rename_i u off hdest
    rw [if_neg]
    · rfl
    · rintro rfl
      exact hd off (hs ▸ hdest)
  · rfl

end

theorem atomics_eq : ∀ r ∈ atomics, ∀ p l d o t s, exec (r.1 p l d o t) s = s.amoOp r.2 p l d o t := by
  simp only [atomics, List.forall_mem_cons]
  exact ⟨fun _ _ _ _ _ _ => rfl, fun _ _ _ _ _ _ => rfl, fun _ _ _ _ _ _ => rfl, fun _ _ _ _ _ _ => rfl, fun _ _ _ _ _ _ => rfl,
    fun _ _ _ _ _ _ => rfl, fun _ _ _ _ _ _ => rfl, fun _ _ _ _ _ _ => rfl, fun _ _ _ _ _ _ => rfl, fun _ _ _ _ _ _ => rfl, nofun⟩

/-- Settles O27: one lemma for the own pool and one for another place. -/
theorem atomicsKeepOperation : Obligations.AtomicsKeepOperation := by
  intro r hr p l dbl o t s c a b cmp hv hm ha hl hb n
  rw [atomics_eq r hr]
  exact ⟨State.amoOp_own hv hm ha hl hb, State.amoOp_far hv hm ha hl hb⟩

/-! ## O23, whose name is also that of the list of its instructions -/

/-- Settles O23: with no earlier access of the block nothing lies over memory's bytes. -/
theorem localLoads : Obligations.LocalLoads := by
  intro r hr p l t s c a hv hm ha hl ho key hp hx
  have hop : ∃ ok : Nat → Bool, ok 0 = true ∧ ∀ p l t s, exec (r.1 p l t) s = s.loadOp p l t ok r.2 := by
    rcases List.mem_append.mp hr with hr | hr
    · obtain ⟨ok, hok, -, he⟩ := localLoads_eq r hr
      exact ⟨ok, hok, he⟩
    · exact ⟨_, rfl, remoteLoads_eq r hr⟩
  obtain ⟨ok, hok, he⟩ := hop
  rw [he, State.loadOp_own hv hm ha hl ho hok hp (by rw [hx]; nofun), hx, overlayBytes_nil]

end Sys2Proof.Machine
end

section
/-! SUPPORT. O48: a step runs the decoded instruction at the cursor, a block starts with the words at BPC, and an agenda event is
carried out (R73, R77, R81, R192). -/

namespace Sys2Proof.Machine

open Sys2Proof Sys2Proof.Claims

/-! ## Steps -/

/-- A move that goes on is made before all others. -/
theorem firstMove_of_next {m : Move} {ms : List Move} {s u : State} (h : m s = .next u) : firstMove (m :: ms) s = .next u := by
  simp only [firstMove, h]
/-- Where nothing else is asked for, the block that fired last fires its next instruction. -/
theorem step_of_cursor {s u : State} {f : Flight} {ix : Nat} {i : Instr} (hst : s.started = []) (hsc : s.schedule = []) (hag : s.agenda = [])
    (hf : s.flight s.focus = some f) (hix : f.cursor = some ix) (hi : AMap.find ix (bodyInstrs 0 f.body) = some i)
    (hr : s.runnable s.focus = true) (h : exec i s = .next u) : step s = .next u := by
  have hn : s.nextInstr s.focus = some i := by simp only [State.nextInstr, hf, hix, hi]
  have hm : fireNext s.focus s = .next u := by
    simp only [fireNext, hn, hr, if_true]
    exact h
  simp only [step, State.advance, hst, hsc, deliverNext, hag]
  exact firstMove_of_next hm
/-- The next event of the agenda is carried out. -/
theorem step_of_agenda {s : State} {i : Instr} {rest : List Instr} (hst : s.started = []) (hsc : s.schedule = []) (hag : s.agenda = i :: rest)
    (hi : encode i = none) : step s = exec i { s with agenda := rest } := by
  simp only [step, State.advance, hst, hsc, deliverNext, hag, hi]

/-! ## Words of a body -/

theorem find_bodyInstrs_one {n : Nat} {w : BitVec 32} {ws : List (BitVec 32)} {i : Instr} (h : decodeSlot w = .ok (.one i)) :
    AMap.find (2 * n) (bodyInstrs n (w :: ws)) = some i := by
  simp [bodyInstrs, h, AMap.find]
theorem find_bodyInstrs_pair {n : Nat} {w : BitVec 32} {ws : List (BitVec 32)} {i j : Instr} (h : decodeSlot w = .ok (.pair i j))
    (hn : n < 127) : AMap.find (2 * n) (bodyInstrs n (w :: ws)) = some i ∧ AMap.find (2 * n + 1) (bodyInstrs n (w :: ws)) = some j := by
  have hne : n ≠ 127 := by omega
  constructor <;> simp [bodyInstrs, h, hne, AMap.find]
/-- The slots of a body are its words in order. -/
theorem slotsOf_getElem {n m : Nat} {cs : List Byte} (hm : m < n) :
    (slotsOf n cs)[m]? = some (BitVec.ofNat 32 (ofBytes ((cs.drop (4 * m)).take 4))) := by
  induction n generalizing m cs with
  | zero => omega
  | succ n ih =>
    cases m with
    | zero => rfl
    | succ m =>
      rw [slotsOf, List.getElem?_cons_succ, ih (by omega), List.drop_drop, show 4 + 4 * m = 4 * (m + 1) by omega]

/-! ## The start of a block -/

/-- Marking the instructions that cannot fire changes their status alone. -/
theorem Flight.sweep_eq (f : Flight) : ∃ stat, f.sweep = { f with stat := stat } := by
  have hfold : ∀ (l : List (Nat × List Nat)) (f : Flight), ∃ stat, l.foldl (fun f p =>
      if f.status p.1 = .idle ∧ p.2.any f.depSilent then { f with stat := AMap.ins p.1 .dead f.stat } else f) f =
        { f with stat := stat } := by
    intro l
    induction l with
    | nil => exact fun f => ⟨f.stat, rfl⟩
    | cons p l ih =>
      intro f
      rw [List.foldl_cons]
      split
      · exact ih _
      · exact ih f
  exact hfold f.order f
/-- A legal block that the fetch delivers is in flight with its words. -/
theorem blockStart_eq {s s₁ s₂ : State} {k : Nat} {h cs : List Byte} (hsp : space (s.ts k).regs.bpc = 3)
    (hhi : field (s.ts k).regs.bpc 57 3 = 0) (hlo : field (s.ts k).regs.bpc 0 4 = 0)
    (hh : s.fetchAcross (tileOf k) (s.ts k).regs.bpc 8 = (.bytes h, s₁))
    (hcs : s₁.fetchAcross (tileOf k) ((s.ts k).regs.bpc + 8) (4 * (nslotOf (word (ofBytes h)) + 1)) = (.bytes cs, s₂))
    (hd : blockDefect (s₂.ts k).kindOk (word (ofBytes h)) (slotsOf (nslotOf (word (ofBytes h)) + 1) cs) = none) :
    s.blockStart k = s₂.setFlight k (mkFlight (s.ts k).regs.bpc (word (ofBytes h)) (slotsOf (nslotOf (word (ofBytes h)) + 1) cs)
      (s₂.inputSlot k) (s₂.snapshot k)).sweep := by
  simp only [State.blockStart, hsp, hhi, hlo, ne_eq, not_true, or_self, if_false, hh, hcs, hd]

/-- Settles O48: the parts above, put together. -/
theorem stepRunsDecoded : Obligations.StepRunsDecoded := by
  refine ⟨fun s u f ix i => step_of_cursor, fun n w ws i j => ⟨find_bodyInstrs_one, find_bodyInstrs_pair⟩,
    ?_, fun n m cs hm _ => slotsOf_getElem hm, fun s i rest => step_of_agenda⟩
  intro s s₁ s₂ k h cs hc a n hsp hhi hlo hh hcs hd
  have hx : exec (.blockStart k) s = .next (s.blockStart k) := by
    have he : exec (.blockStart k) s = whenEnabled "BLOCK_START" (s.canStart k) (s.blockStart k) := rfl
    rw [he, whenEnabled, if_pos hc]
  obtain ⟨stat, hf⟩ := Flight.sweep_eq (mkFlight a (word (ofBytes h)) (slotsOf n cs) (s₂.inputSlot k) (s₂.snapshot k))
  refine ⟨_, _, hx.trans (congrArg _ (blockStart_eq hsp hhi hlo hh hcs hd)), AMap.find_ins_same _ _ _, ?_⟩
  rw [hf]
  exact ⟨rfl, rfl, rfl, rfl, rfl, rfl, rfl⟩

end Sys2Proof.Machine
end

section
/-! SUPPORT. O11 and O15: WRITE keeps its token or faults by the type of the token and the direction of a bound stream (R102, R221),
and the STAT minors deliver their values (R106, R107, R227). -/

namespace Sys2Proof.Machine

open Sys2Proof Sys2Proof.Claims

/-! ## WRITE -/

section
variable {r : Reg} {s : State} {c : Fire}

/-- WRITE has its one operand where the token in its left slot is not null. -/
theorem Fire.filled_write (hl : c.left ≠ .null) : c.filled (mkShape .always true false .none [] (.write r)) = true := by
  have hn : c.left.isNull = false := by
    cases ht : c.left with
    | null => exact absurd ht hl
    | _ => rfl
  simp [Fire.filled, mkShape, hn]

variable (hv : s.view .always = some c) (hl : c.left ≠ .null)
include hv hl

/-- A token of the register's type is kept, unless the register names an input stream. -/
theorem write_keeps (ht : regTakes r c.left = true) (hs : ∀ k z, c.stream r = some (k, z) → z.desc.out = true) :
    exec (.write r) s = .next (c.after 0 [] .completion 0 (some (.wr r c.left))) := by
  refine State.fire_delivers (e := some (.wr r c.left)) (ld := none) hv (by simp [mask_of_always hv]) (Fire.filled_write hl) ?_
  cases hr : c.stream r with
  | none =>
    simp only [ht]
    rfl
  | some kz =>
    simp only [ht, hs _ _ hr]
    rfl
/-- A register that names an input stream takes no token (R102). -/
theorem write_faults_of_input {k : Nat} {z : Slot} (ht : regTakes r c.left = true) (hr : c.stream r = some (k, z))
    (ho : z.desc.out = false) : exec (.write r) s = .next (c.faulted 0 .streamDirection 0 0) := by
  refine State.fire_faults hv (by simp [mask_of_always hv]) (Fire.filled_write hl) ?_
  simp only [ht, hr, ho]
  rfl
/-- A token of another type than the register's is the operand-type fault, whatever the register names (assumption 121). -/
theorem write_faults_of_type (ht : regTakes r c.left = false) : exec (.write r) s = .next (c.faulted 0 .operandType 0 0) := by
  refine State.fire_faults hv (by simp [mask_of_always hv]) (Fire.filled_write hl) ?_
  simp only [ht]
  rfl

end

/-- Settles O11: the type that the statement asks for is that of `regTakes`, and each outcome of WRITE has its lemma. -/
theorem writeKeepsToken : Obligations.WriteKeepsToken := by
  intro r s c hv hl fits
  have hfits : fits = regTakes r c.left := by cases r <;> rfl
  rw [hfits]
  exact ⟨write_keeps hv hl, fun ht _ _ => write_faults_of_input hv hl ht, write_faults_of_type hv hl⟩

/-! ## STAT -/

/-- A STAT minor that no lane mask governs delivers its value to its target. -/
theorem State.stat_delivers {s : State} {p : Pr} {t : Target} {c : Fire} (f : Fire → Word) (hv : s.view p = some c)
    (hm : c.mask = false) : s.stat p t f = .next (c.after 0 [t] (.scalar (f c))) :=
  State.fire_delivers (e := none) (ld := none) hv (by simp [hm]) rfl rfl

/-- Settles O15: each minor is `State.stat` of its value. -/
theorem statDelivers : Obligations.StatDelivers := by
  intro p t s c hv hm gives
  have hgives : ∀ (i : Instr) (f : Fire → Word), exec i s = s.stat p t f → gives i (f c) :=
    fun _ f he => he.trans (State.stat_delivers f hv hm)
  exact ⟨hgives _ (fun c => word c.tileRec.coord) rfl, hgives _ (fun c => word (tsNum c.k)) rfl,
    hgives _ (fun c => word (h0Stage c.h0)) rfl, hgives _ (fun c => word (h0Seq c.h0)) rfl,
    hgives _ (fun c => word c.tileRec.cycle) rfl, hgives _ (fun c => word c.fl.snap.ce) rfl,
    hgives _ (fun c => word c.fl.snap.me) rfl, hgives _ (fun c => c.fl.snap.flags) rfl,
    hgives _ (fun c => c.fl.snap.mexc) rfl, hgives _ (fun c => c.fl.snap.energy &&& 0x8000FFFFFFFFFFFF) rfl⟩

end Sys2Proof.Machine
end

section
/-! SUPPORT. WF64 patterns (R113 to R115): the value of a pattern by its class, its units, and the pattern of an exponent and a
significand. -/

namespace Sys2Proof.Claims

open Sys2Proof Sys2Proof.Machine

/-! ## The classes of R114 -/

/-- The sign is the bit that the model reads. -/
theorem bitAt_63 (w : Word) : bitAt w 63 = negative w := by
  rw [bitAt, negative, BitVec.getLsbD, Nat.testBit_eq_decide_div_mod_eq]
  rfl
theorem field_exp (w : Word) : field w 53 10 = expOf w := rfl
theorem field_sig (w : Word) : field w 0 53 = sigOf w := by simp [field, sigOf]
theorem expOf_lt (w : Word) : expOf w < 1024 := Nat.mod_lt _ (by decide)
theorem sigOf_lt (w : Word) : sigOf w < 2 ^ 53 := Nat.mod_lt _ (by decide)

/-- Bit 51 of a pattern, read from its significand. -/
theorem getLsbD_51 (w : Word) : w.getLsbD 51 = decide (sigOf w / 2 ^ 51 % 2 = 1) := by
  rw [BitVec.getLsbD, Nat.testBit_eq_decide_div_mod_eq, sigOf, decide_eq_decide]
  omega

/-- A pattern is of exactly one class: a NaN, an infinity, a zero or a nonzero number. -/
theorem class_cases (w : Word) : isNaN w ∨ isInf w ∨ isZero w ∨ (finite w ∧ ¬isZero w) := by
  have := expOf_lt w
  simp only [isNaN, isInf, isZero, finite]
  omega

theorem not_isNaN_of_finite {w : Word} (h : finite w) : ¬isNaN w := fun hn => absurd hn.1 (Nat.ne_of_lt h)
theorem not_isInf_of_finite {w : Word} (h : finite w) : ¬isInf w := fun hn => absurd hn.1 (Nat.ne_of_lt h)
theorem not_isNaN_of_isInf {w : Word} (h : isInf w) : ¬isNaN w := fun hn => hn.2 h.2
/-- What is no NaN is finite or an infinity. -/
theorem finite_or_isInf {w : Word} (h : ¬isNaN w) : finite w ∨ isInf w := by
  rcases class_cases w with hn | hi | hz | hf
  exacts [absurd hn h, .inr hi, .inl hz.1, .inl hf.1]

/-- The exponent of the last place of a finite pattern. -/
def lastPlace (w : Word) : Int := ((expOf w - 1 : Nat) : Int) - 562

theorem wfVal_of_isNaN {w : Word} (h : isNaN w) : wfVal w = .nan (decide (signals w)) := by
  have hs : decide (signals w) = !decide (sigOf w / 2 ^ 51 % 2 = 1) := by
    have hq : w.getLsbD 51 = false ↔ ¬sigOf w / 2 ^ 51 % 2 = 1 := by rw [getLsbD_51, decide_eq_false_iff_not]
    rw [← decide_not]
    exact decide_eq_decide.2 ((and_iff_right h).trans hq)
  rw [wfVal, field_exp, field_sig, if_pos h.1, if_neg h.2, hs]
theorem wfVal_of_isInf {w : Word} (h : isInf w) : wfVal w = .inf (negative w) := by
  rw [wfVal, bitAt_63, field_exp, field_sig, if_pos h.1, if_pos h.2]
theorem wfVal_of_isZero {w : Word} (h : isZero w) : wfVal w = .zero (negative w) := by
  rw [wfVal, bitAt_63, field_exp, field_sig, if_neg (Nat.ne_of_lt h.1), if_pos h.2]
theorem wfVal_of_nonzero {w : Word} (hf : finite w) (hz : ¬isZero w) :
    wfVal w = .fin (negative w) (sigOf w) (lastPlace w) := by
  have he : (if expOf w = 0 then (-562 : Int) else (expOf w : Int) - 563) = lastPlace w := by
    unfold lastPlace
    split <;> omega
  rw [wfVal, bitAt_63, field_exp, field_sig, if_neg (Nat.ne_of_lt hf), if_neg fun h => hz ⟨hf, h⟩, he]

theorem sigOf_pos {w : Word} (hf : finite w) (hz : ¬isZero w) : 0 < sigOf w := Nat.pos_of_ne_zero fun h => hz ⟨hf, h⟩

theorem isNan_iff (w : Word) : (wfVal w).isNan = true ↔ isNaN w := by
  rcases class_cases w with h | h | h | ⟨hf, hz⟩
  · rw [wfVal_of_isNaN h]; exact iff_of_true rfl h
  · rw [wfVal_of_isInf h]; exact iff_of_false Bool.false_ne_true (not_isNaN_of_isInf h)
  · rw [wfVal_of_isZero h]; exact iff_of_false Bool.false_ne_true (not_isNaN_of_finite h.1)
  · rw [wfVal_of_nonzero hf hz]; exact iff_of_false Bool.false_ne_true (not_isNaN_of_finite hf)
theorem signals_iff (w : Word) : (wfVal w).signals = true ↔ signals w := by
  by_cases h : isNaN w
  · rw [wfVal_of_isNaN h]
    exact decide_eq_true_iff
  · refine iff_of_false (fun hs => h ((isNan_iff w).1 ?_)) fun hs => h hs.1
    revert hs
    cases wfVal w <;> simp [FVal.signals, FVal.isNan]
theorem isNan_eq_false {w : Word} (h : ¬isNaN w) : (wfVal w).isNan = false := Bool.eq_false_iff.2 ((isNan_iff w).not.2 h)
theorem isNan_or_iff (a b : Word) : ((wfVal a).isNan || (wfVal b).isNan) = true ↔ isNaN a ∨ isNaN b := by
  rw [Bool.or_eq_true, isNan_iff, isNan_iff]
theorem signals_or_iff (a b : Word) : ((wfVal a).signals || (wfVal b).signals) = true ↔ signals a ∨ signals b := by
  rw [Bool.or_eq_true, signals_iff, signals_iff]
theorem neg_wfVal {w : Word} (h : ¬isNaN w) : (wfVal w).neg = negative w := by
  rcases class_cases w with hn | hi | hz | ⟨hf, hz⟩
  · exact absurd hn h
  · rw [wfVal_of_isInf hi]; rfl
  · rw [wfVal_of_isZero hz]; rfl
  · rw [wfVal_of_nonzero hf hz]; rfl

theorem wfVal_of_finite {w : Word} (hf : finite w) :
    (∃ n, wfVal w = .zero n) ∨ ∃ n m e, wfVal w = .fin n m e := by
  by_cases hz : isZero w
  · exact .inl ⟨_, wfVal_of_isZero hz⟩
  · exact .inr ⟨_, _, _, wfVal_of_nonzero hf hz⟩
theorem isInf_of_wfVal {w : Word} {n : Bool} (h : wfVal w = .inf n) : isInf w := by
  rcases class_cases w with hw | hw | hw | ⟨hf, hz⟩
  · cases (wfVal_of_isNaN hw).symm.trans h
  · exact hw
  · cases (wfVal_of_isZero hw).symm.trans h
  · cases (wfVal_of_nonzero hf hz).symm.trans h
theorem isZero_of_wfVal {w : Word} {n : Bool} (h : wfVal w = .zero n) : isZero w := by
  rcases class_cases w with hw | hw | hw | ⟨hf, hz⟩
  · cases (wfVal_of_isNaN hw).symm.trans h
  · cases (wfVal_of_isInf hw).symm.trans h
  · exact hw
  · cases (wfVal_of_nonzero hf hz).symm.trans h

/-! ## The other sign -/

@[simp] theorem negative_opposite (w : Word) : negative (opposite w) = !negative w := by
  simp [negative, opposite]
@[simp] theorem expOf_opposite (w : Word) : expOf (opposite w) = expOf w := by
  have h (v : Word) : expOf v = (v.extractLsb' 53 10).toNat := by simp [expOf, Nat.shiftRight_eq_div_pow]
  rw [h, h, opposite, BitVec.extractLsb'_xor, show (0x8000000000000000#64).extractLsb' 53 10 = 0#_ from rfl, BitVec.xor_zero]
@[simp] theorem sigOf_opposite (w : Word) : sigOf (opposite w) = sigOf w := by
  have h (v : Word) : sigOf v = (v.extractLsb' 0 53).toNat := by simp [sigOf]
  rw [h, h, opposite, BitVec.extractLsb'_xor, show (0x8000000000000000#64).extractLsb' 0 53 = 0#_ from rfl, BitVec.xor_zero]

/-- The other sign is the value negated. -/
theorem wfVal_opposite (w : Word) : wfVal (opposite w) = (wfVal w).negate := by
  have hq : (opposite w).getLsbD 51 = w.getLsbD 51 := by simp only [getLsbD_51, sigOf_opposite]
  rcases class_cases w with h | h | h | ⟨hf, hz⟩
  · rw [wfVal_of_isNaN h, wfVal_of_isNaN (by simpa [isNaN] using h)]
    simp only [signals, isNaN, expOf_opposite, sigOf_opposite, hq, FVal.negate]
  · rw [wfVal_of_isInf h, wfVal_of_isInf (by simpa [isInf] using h), negative_opposite]; rfl
  · rw [wfVal_of_isZero h, wfVal_of_isZero (by simpa [isZero, finite] using h), negative_opposite]; rfl
  · rw [wfVal_of_nonzero hf hz, wfVal_of_nonzero (by simpa [finite] using hf) (by simpa [isZero, finite] using hz),
      negative_opposite, sigOf_opposite, lastPlace, expOf_opposite]; rfl

/-! ## Units -/

theorem natAbs_units (w : Word) : (units w).natAbs = sigOf w * 2 ^ (expOf w - 1) := by
  rw [units, Int.natAbs_mul, Int.natAbs_natCast]
  cases negative w <;> simp
theorem units_eq_signed (w : Word) : units w = signed (negative w) (units w).natAbs := by
  rw [natAbs_units, units, signed]
  cases negative w <;> simp
theorem units_eq_zero {w : Word} (hf : finite w) : units w = 0 ↔ isZero w := by
  rw [← Int.natAbs_eq_zero, natAbs_units]
  simp [isZero, hf]
theorem mul_two_pow_lt {m k s n : Nat} (hm : m < 2 ^ k) (h : k + s ≤ n) : m * 2 ^ s < 2 ^ n :=
  calc m * 2 ^ s < 2 ^ k * 2 ^ s := Nat.mul_lt_mul_of_pos_right hm (Nat.two_pow_pos s)
    _ = 2 ^ (k + s) := (Nat.pow_add 2 k s).symm
    _ ≤ 2 ^ n := Nat.pow_le_pow_right (by decide) h
/-- No finite value reaches 2^1074 units. -/
theorem natAbs_units_lt {w : Word} (h : finite w) : (units w).natAbs < 2 ^ 1074 := by
  rw [natAbs_units]
  exact mul_two_pow_lt (sigOf_lt w) (by unfold finite at h; omega)

/-! ## Patterns from their fields -/

/-- The pattern of a sign, an exponent and a significand (R113). -/
def pattern (neg : Bool) (ex sig : Nat) : Word := BitVec.ofNat 64 ((if neg then 2 ^ 63 else 0) + ex * 2 ^ 53 + sig)

section
variable {neg : Bool} {ex sig : Nat} (he : ex < 1024) (hs : sig < 2 ^ 53)
include he hs

theorem toNat_pattern : (pattern neg ex sig).toNat = (if neg then 2 ^ 63 else 0) + ex * 2 ^ 53 + sig := by
  rw [pattern, BitVec.toNat_ofNat, Nat.mod_eq_of_lt]
  cases neg <;> simp <;> omega
theorem negative_pattern : negative (pattern neg ex sig) = neg := by
  rw [negative, BitVec.getLsbD, Nat.testBit_eq_decide_div_mod_eq, toNat_pattern he hs]
  cases neg <;> simp <;> omega
theorem expOf_pattern : expOf (pattern neg ex sig) = ex := by
  rw [expOf, toNat_pattern he hs]
  cases neg <;> simp <;> omega
theorem sigOf_pattern : sigOf (pattern neg ex sig) = sig := by
  rw [sigOf, toNat_pattern he hs]
  cases neg <;> simp <;> omega
end

end Sys2Proof.Claims
end

section
/-! SUPPORT. Rounding (R116): `roundWf` of a magnitude delivers the nearest 53-bit number, ties to even, with its flags. Magnitudes
are real numbers of units of 2^−562, so that quotients and roots are among them. -/

namespace Sys2Proof.Claims

open Sys2Proof Sys2Proof.Machine

/-! ## Nearest numbers -/

/-- k steps of 2^q units are nearest to the magnitude x, of two nearest the even one; a step is the last of 53 bits, or a unit. -/
structure Nearest (x : ℝ) (q k : ℕ) : Prop where
  normal : q = 0 ∨ (2 : ℝ) ^ (52 + q) ≤ x
  small : x < 2 ^ (53 + q)
  le : 2 * x ≤ (2 * k + 1) * 2 ^ q
  ge : 2 * k * 2 ^ q ≤ 2 * x + 2 ^ q
  even : 2 * x = (2 * k + 1) * 2 ^ q ∨ 2 * k * 2 ^ q = 2 * x + 2 ^ q → k % 2 = 0

/-- A magnitude of 53 bits may round up to 2^53 steps. -/
theorem Nearest.le_two_pow {x : ℝ} {q k : ℕ} (h : Nearest x q k) : k ≤ 2 ^ 53 := by
  have hq : (0 : ℝ) < 2 ^ q := by positivity
  have hx : x < 2 ^ 53 * 2 ^ q := (pow_add (2 : ℝ) 53 q) ▸ h.small
  have hk : (2 * k : ℝ) * 2 ^ q < (2 ^ 54 + 1) * 2 ^ q := by have := h.ge; linarith
  have : 2 * k < 2 ^ 54 + 1 := by exact_mod_cast lt_of_mul_lt_mul_right hk hq.le
  omega
/-- A nearest number of less than 53 bits counts whole units. -/
theorem Nearest.units_of_small {x : ℝ} {q k : ℕ} (h : Nearest x q k) (hk : k < 2 ^ 52) : q = 0 := by
  refine h.normal.resolve_right fun hn => ?_
  have hq : (0 : ℝ) < 2 ^ q := by positivity
  have hx : 2 ^ 52 * 2 ^ q ≤ x := (pow_add (2 : ℝ) 52 q) ▸ hn
  have : (2 ^ 53 : ℝ) * 2 ^ q ≤ (2 * k + 1) * 2 ^ q := by have := h.le; linarith
  have : 2 ^ 53 ≤ 2 * k + 1 := by exact_mod_cast le_of_mul_le_mul_right this hq
  omega
/-- A number of at most 53 bits is its own nearest number. -/
theorem Nearest.of_fits {x : ℝ} {q k n t : ℕ} (h : Nearest x q k) (hn : n < 2 ^ 53) (hx : x = n * 2 ^ t) : k * 2 ^ q = n * 2 ^ t := by
  have hqt : q ≤ t := by
    rcases h.normal with rfl | hl
    · exact Nat.zero_le t
    · by_contra hlt
      have : (n * 2 ^ t : ℝ) < 2 ^ (52 + q) := by exact_mod_cast mul_two_pow_lt hn (by omega)
      exact absurd (hx ▸ hl) (not_le.2 this)
  obtain ⟨d, rfl⟩ := Nat.exists_eq_add_of_le hqt
  have hq : (0 : ℝ) < 2 ^ q := by positivity
  have hx' : x = (n * 2 ^ d : ℕ) * 2 ^ q := by rw [hx, pow_add]; push_cast; ring
  have h1 : ((2 * (n * 2 ^ d) : ℕ) : ℝ) * 2 ^ q ≤ ((2 * k + 1 : ℕ) : ℝ) * 2 ^ q := by
    have := h.le; rw [hx'] at this; push_cast at this ⊢; linarith
  have h2 : ((2 * k : ℕ) : ℝ) * 2 ^ q ≤ ((2 * (n * 2 ^ d) + 1 : ℕ) : ℝ) * 2 ^ q := by
    have := h.ge; rw [hx'] at this; push_cast at this ⊢; linarith
  have h1 := Nat.cast_le.1 (le_of_mul_le_mul_right h1 hq)
  have h2 := Nat.cast_le.1 (le_of_mul_le_mul_right h2 hq)
  have : k = n * 2 ^ d := by omega
  rw [this, pow_add]; ring

/-! ## Lengths -/

theorem bitLen_eq {m l : ℕ} (h : 2 ^ l ≤ m) (h' : m < 2 ^ (l + 1)) : bitLen m = l + 1 := by
  have hm : m ≠ 0 := by have := Nat.two_pow_pos l; omega
  rw [bitLen, if_neg hm, (Nat.log2_eq_iff hm).2 ⟨h, h'⟩]
theorem bitLen_bounds {m : ℕ} (h : 0 < m) : ∃ l, bitLen m = l + 1 ∧ 2 ^ l ≤ m ∧ m < 2 ^ (l + 1) :=
  ⟨m.log2, if_neg h.ne', Nat.log2_self_le h.ne', Nat.lt_log2_self⟩
theorem bitLen_le_iff {m n : ℕ} : bitLen m ≤ n ↔ m < 2 ^ n := by
  rcases Nat.eq_zero_or_pos m with rfl | hm
  · simp [bitLen]
  · rw [bitLen, if_neg hm.ne', Nat.add_one_le_iff, Nat.log2_lt hm.ne']

/-! ## What a rounding reads -/

/-- m × 2^e with the mark `sticky` stands for the magnitude x: exactly, or strictly between it and (m + 1) × 2^e, where m has more
than 53 bits. -/
def Reads (x : ℝ) (m : ℕ) (e : ℤ) (sticky : Bool) : Prop :=
  0 < m ∧ (sticky = true → 2 ^ 53 ≤ m) ∧ ∃ θ : ℝ, 0 ≤ θ ∧ θ < 1 ∧ (sticky = true ↔ θ ≠ 0) ∧ x = (m + θ) * 2 ^ (e + 562)

theorem reads_exact {m : ℕ} (e : ℤ) (h : 0 < m) : Reads (m * 2 ^ (e + 562)) m e false :=
  ⟨h, nofun, 0, le_rfl, one_pos, by simp, by simp⟩

theorem Reads.bounds {x : ℝ} {m : ℕ} {e : ℤ} {sticky : Bool} (h : Reads x m e sticky) :
    (2 : ℝ) ^ ((bitLen m : ℤ) + e + 561) ≤ x ∧ x < 2 ^ ((bitLen m : ℤ) + e + 562) := by
  obtain ⟨hm, -, θ, h0, h1, -, rfl⟩ := h
  obtain ⟨l, hl, hle, hlt⟩ := bitLen_bounds hm
  have he : (0 : ℝ) < 2 ^ (e + 562) := by positivity
  have hle : (2 : ℝ) ^ l ≤ m := by exact_mod_cast hle
  have hlt : (m : ℝ) + 1 ≤ 2 ^ (l + 1) := by exact_mod_cast hlt
  rw [hl, show ((l + 1 : ℕ) : ℤ) + e + 561 = l + (e + 562) by push_cast; ring,
    show ((l + 1 : ℕ) : ℤ) + e + 562 = (l + 1 : ℕ) + (e + 562) by ring, zpow_add₀ two_ne_zero (l : ℤ),
    zpow_add₀ two_ne_zero ((l + 1 : ℕ) : ℤ), zpow_natCast, zpow_natCast]
  exact ⟨mul_le_mul_of_nonneg_right (by linarith) he.le, mul_lt_mul_of_pos_right (by linarith) he⟩

/-- A magnitude lies below 2^n units exactly where its first bit does. -/
theorem Reads.lt_iff {x : ℝ} {m : ℕ} {e : ℤ} {sticky : Bool} (h : Reads x m e sticky) (n : ℕ) :
    x < 2 ^ n ↔ (bitLen m : ℤ) + e + 562 ≤ n := by
  obtain ⟨hlo, hhi⟩ := h.bounds
  rw [← zpow_natCast]
  constructor
  · intro hx
    have := (zpow_lt_zpow_iff_right₀ (one_lt_two (α := ℝ))).1 (hlo.trans_lt hx)
    omega
  · exact fun hn => hhi.trans_le (zpow_le_zpow_right₀ one_le_two hn)

/-- The model's test for R116's UF. -/
theorem Reads.belowNormal_iff {x : ℝ} {m : ℕ} {e : ℤ} {sticky : Bool} (h : Reads x m e sticky) : belowNormal m e = true ↔ x < 2 ^ 52 := by
  rw [h.lt_iff, belowNormal, decide_eq_true_iff]
  omega

/-! ## Rounding a magnitude -/

section
variable {rest h : ℕ} {θ : ℝ} {sticky : Bool} (h0 : 0 ≤ θ) (h1 : θ < 1) (hs : sticky = true ↔ θ ≠ 0)
include h0 h1 hs

/-- The remainder of a division with a part θ below 1, compared with a half as `roundMag` does. -/
theorem aboveHalf_iff : (decide (h < rest) || (decide (rest = h) && sticky)) = true ↔ (h : ℝ) < rest + θ := by
  rw [Bool.or_eq_true, Bool.and_eq_true, decide_eq_true_iff, decide_eq_true_iff, hs]
  constructor
  · rintro (hr | ⟨rfl, hθ⟩)
    · have : (h : ℝ) < rest := by exact_mod_cast hr
      linarith
    · linarith [lt_of_le_of_ne h0 hθ.symm]
  · intro hlt
    have : h < rest + 1 := by exact_mod_cast (by linarith : (h : ℝ) < rest + 1)
    rcases Nat.lt_or_eq_of_le (Nat.lt_add_one_iff.1 this) with h | rfl
    · exact .inl h
    · exact .inr ⟨rfl, fun hθ => by linarith⟩
theorem half_iff : (decide (rest = h) && !sticky) = true ↔ (rest : ℝ) + θ = h := by
  have hs : sticky = false ↔ θ = 0 := by rw [← Bool.not_eq_true, hs, not_not]
  rw [Bool.and_eq_true, decide_eq_true_iff, Bool.not_eq_true', hs]
  constructor
  · rintro ⟨rfl, rfl⟩
    exact add_zero _
  · intro heq
    have hlo : rest ≤ h := by exact_mod_cast (by linarith : (rest : ℝ) ≤ h)
    have hhi : h < rest + 1 := by exact_mod_cast (by linarith : (h : ℝ) < rest + 1)
    obtain rfl : rest = h := by omega
    exact ⟨rfl, by linarith⟩
theorem belowHalf_iff (hh : 0 < h) : ((decide (0 < rest) && decide (rest < h)) || (decide (rest = 0) && sticky)) = true ↔
    0 < (rest : ℝ) + θ ∧ (rest : ℝ) + θ < h := by
  rw [Bool.or_eq_true, Bool.and_eq_true, Bool.and_eq_true, decide_eq_true_iff, decide_eq_true_iff, decide_eq_true_iff, hs]
  have hcast (a b : ℕ) (hab : a < b) : (a : ℝ) + 1 ≤ b := by exact_mod_cast hab
  constructor
  · rintro (⟨hr, hlt⟩ | ⟨rfl, hθ⟩)
    · have := hcast _ _ hlt
      have : (0 : ℝ) < rest := by exact_mod_cast hr
      constructor <;> linarith
    · have := hcast _ _ hh
      have := lt_of_le_of_ne h0 hθ.symm
      push_cast at *
      constructor <;> linarith
  · rintro ⟨hpos, hlt⟩
    rcases Nat.eq_zero_or_pos rest with rfl | hr
    · exact .inr ⟨rfl, fun hθ => by simp [hθ] at hpos⟩
    · exact .inl ⟨hr, by exact_mod_cast (by linarith : (rest : ℝ) < h)⟩
theorem roundsUp_iff (neg : Bool) (keep : ℕ) (low : Bool) :
    roundsUp 0 neg keep (decide (h < rest) || (decide (rest = h) && sticky)) (decide (rest = h) && !sticky) low = true ↔
      (h : ℝ) < rest + θ ∨ (rest : ℝ) + θ = h ∧ keep % 2 = 1 := by
  rw [← aboveHalf_iff h0 h1 hs, ← half_iff h0 h1 hs, ← decide_eq_true_iff (p := keep % 2 = 1), ← Bool.and_eq_true, ← Bool.or_eq_true]
  rfl
/-- Rounding changes a magnitude exactly where something remains. -/
theorem inexact_iff (hh : 0 < h) : ((decide (h < rest) || (decide (rest = h) && sticky)) || (decide (rest = h) && !sticky) ||
    ((decide (0 < rest) && decide (rest < h)) || (decide (rest = 0) && sticky))) = true ↔ (rest : ℝ) + θ ≠ 0 := by
  rw [Bool.or_eq_true, Bool.or_eq_true, aboveHalf_iff h0 h1 hs, half_iff h0 h1 hs, belowHalf_iff h0 h1 hs hh]
  have : (0 : ℝ) < h := by exact_mod_cast hh
  have : (0 : ℝ) ≤ rest := Nat.cast_nonneg rest
  constructor
  · rintro ((hr | hr) | ⟨hr, -⟩) <;> exact fun h' => by linarith
  · intro hne
    have hpos := lt_of_le_of_ne (by linarith : 0 ≤ (rest : ℝ) + θ) hne.symm
    rcases lt_trichotomy ((rest : ℝ) + θ) h with hlt | heq | hgt
    exacts [.inr ⟨hpos, hlt⟩, .inl (.inr heq), .inl (.inl hgt)]
end

/-- A quotient by 2h, a step up where the remainder ρ is above h, or h beside an odd quotient, is nearest to the whole, ties to even;
it is the whole only where nothing remains. -/
theorem nearest_quotient {keep h : ℕ} {ρ y : ℝ} {up : Bool} (h0 : 0 ≤ ρ) (hlt : ρ < 2 * h)
    (hup : up = true ↔ (h : ℝ) < ρ ∨ (ρ = h ∧ keep % 2 = 1)) (hy : y = keep * (2 * h) + ρ) :
    let k : ℕ := if up then keep + 1 else keep
    2 * y ≤ (2 * k + 1) * (2 * h) ∧ 2 * k * (2 * h) ≤ 2 * y + 2 * h ∧
      (2 * y = (2 * k + 1) * (2 * h) ∨ 2 * k * (2 * h) = 2 * y + 2 * h → k % 2 = 0) ∧ (ρ ≠ 0 ↔ (k : ℝ) * (2 * h) ≠ y) := by
  subst hy
  cases up
  · have hle : ρ ≤ h := not_lt.1 fun h => by simp [h] at hup
    simp only [Bool.false_eq_true, if_false]
    refine ⟨by linarith, by linarith, ?_, ?_⟩
    · rintro (heq | heq)
      · have : ρ = h := by linarith
        simpa [this] using hup
      · linarith
    · constructor <;> exact fun hne heq => hne (by linarith)
  · have hge : h ≤ ρ := (hup.1 rfl).elim le_of_lt fun h => h.1.ge
    simp only [if_true, Nat.cast_add, Nat.cast_one]
    refine ⟨by linarith, by linarith, ?_, ?_⟩
    · rintro (heq | heq)
      · linarith
      · rcases hup.1 rfl with h | ⟨-, h⟩
        · linarith
        · omega
    · constructor
      · exact fun _ heq => by linarith
      · exact fun _ heq => by linarith

theorem remainder_split {m n : ℕ} {θ : ℝ} (hn : 0 < n) (h1 : θ < 1) :
    ((m % n : ℕ) : ℝ) + θ < n ∧ (m : ℝ) + θ = (m / n : ℕ) * (n : ℝ) + ((m % n : ℕ) + θ) := by
  have hlt : ((m % n : ℕ) : ℝ) + 1 ≤ n := by exact_mod_cast Nat.mod_lt m hn
  have hsplit : ((m / n : ℕ) : ℝ) * n + (m % n : ℕ) = m := by exact_mod_cast Nat.div_add_mod' m n
  constructor <;> linarith

theorem Nearest.of_eq {x : ℝ} {q k : ℕ} (hnormal : q = 0 ∨ (2 : ℝ) ^ (52 + q) ≤ x) (hsmall : x < 2 ^ (53 + q)) (hx : x = k * 2 ^ q) :
    Nearest x q k := by
  have hstep : (0 : ℝ) < 2 ^ q := by positivity
  refine ⟨hnormal, hsmall, by rw [hx]; linarith, by rw [hx]; linarith, ?_⟩
  rw [hx]
  rintro (h | h) <;> linarith
/-- A number of steps of 2h that is nearest to y, each step and y scaled by W. -/
theorem Nearest.of_scaled {x y h W : ℝ} {q k : ℕ} (hnormal : q = 0 ∨ (2 : ℝ) ^ (52 + q) ≤ x) (hsmall : x < 2 ^ (53 + q))
    (hW : 0 < W) (hx : x = y * W) (hstep : (2 : ℝ) ^ q = 2 * h * W) (hle : 2 * y ≤ (2 * k + 1) * (2 * h))
    (hge : 2 * k * (2 * h) ≤ 2 * y + 2 * h)
    (heven : 2 * y = (2 * k + 1) * (2 * h) ∨ 2 * k * (2 * h) = 2 * y + 2 * h → k % 2 = 0) : Nearest x q k := by
  have hle := mul_le_mul_of_nonneg_right hle hW.le
  have hge := mul_le_mul_of_nonneg_right hge hW.le
  refine ⟨hnormal, hsmall, by rw [hx, hstep]; linarith, by rw [hx, hstep]; linarith, fun heq => heven ?_⟩
  rw [hx, hstep] at heq
  exact heq.imp (fun h => mul_right_cancel₀ hW.ne' (by linarith)) fun h => mul_right_cancel₀ hW.ne' (by linarith)

/-- The last place that `roundMag` keeps of 53 bits, counted from the unit. -/
theorem Reads.lastStep {x : ℝ} {m : ℕ} {e : ℤ} {sticky : Bool} (h : Reads x m e sticky) :
    ∃ q : ℕ, max (e + (bitLen m : ℤ) - (53 : ℕ)) (-562) = q - 562 ∧ (q = 0 ∨ (2 : ℝ) ^ (52 + q) ≤ x) ∧ x < 2 ^ (53 + q) := by
  obtain ⟨q, hq⟩ := Int.le.dest (le_max_right (e + (bitLen m : ℤ) - (53 : ℕ)) (-562))
  refine ⟨q, by omega, or_iff_not_imp_left.2 fun h0 => not_lt.1 fun hlt => ?_, (h.lt_iff _).2 (by omega)⟩
  have := (h.lt_iff _).1 hlt
  omega

/-- `roundMag` to 53 bits, to nearest with ties to even, keeps a nearest number and says whether it is the exact one. -/
theorem Reads.roundMag_nearest {x : ℝ} {m : ℕ} {e : ℤ} {sticky : Bool} (h : Reads x m e sticky) (neg : Bool) :
    ∃ (q k : ℕ) (inexact : Bool), roundMag 53 (-562) 0 neg m e sticky = ⟨k, q - 562, inexact⟩ ∧ Nearest x q k ∧
      (inexact = true ↔ (k : ℝ) * 2 ^ q ≠ x) := by
  obtain ⟨q, hq, hnormal, hsmall⟩ := h.lastStep
  obtain ⟨hm, hlong, θ, h0, h1, hs, hx⟩ := h
  simp only [roundMag, hq]
  split
  next hqe =>
    obtain ⟨d, hd⟩ := Int.le.dest hqe
    have hst : sticky = false := by
      refine Bool.eq_false_iff.2 fun hst => ?_
      have := (bitLen_le_iff (m := m) (n := 53)).not.2 (not_lt.2 (hlong hst))
      omega
    obtain rfl : θ = 0 := by simpa [hst] using hs
    have hx : x = (m * 2 ^ d : ℕ) * 2 ^ q := by
      rw [hx, show e + 562 = ((d + q : ℕ) : ℤ) by omega, zpow_natCast, pow_add]
      push_cast
      ring
    rw [show (e - (q - 562)).toNat = d by omega]
    exact ⟨q, _, _, rfl, .of_eq hnormal hsmall hx, by simp [hst, hx]⟩
  next hqe =>
    obtain ⟨d, hd⟩ := Int.le.dest (show e + 1 ≤ q - 562 by omega)
    have hW : (0 : ℝ) < 2 ^ (e + 562) := by positivity
    have hstep : (2 : ℝ) ^ q = 2 * (2 ^ d : ℕ) * 2 ^ (e + 562) := by
      rw [← zpow_natCast, show (q : ℤ) = ((d + 1 : ℕ) : ℤ) + (e + 562) by omega, zpow_add₀ two_ne_zero, zpow_natCast, pow_succ]
      push_cast
      ring
    rw [show ((q : ℤ) - 562 - e).toNat = d + 1 by omega, Nat.add_sub_cancel]
    obtain ⟨hρ, hy⟩ := remainder_split (m := m) (Nat.two_pow_pos (d + 1)) h1
    rw [show ((2 ^ (d + 1) : ℕ) : ℝ) = 2 * (2 ^ d : ℕ) by push_cast; ring] at hρ hy
    generalize hr : roundsUp 0 neg _ _ _ _ = up
    have hup : up = true ↔ ((2 ^ d : ℕ) : ℝ) < (m % 2 ^ (d + 1) : ℕ) + θ ∨
        ((m % 2 ^ (d + 1) : ℕ) : ℝ) + θ = (2 ^ d : ℕ) ∧ m / 2 ^ (d + 1) % 2 = 1 := by
      rw [← hr]
      exact roundsUp_iff h0 h1 hs neg _ _
    obtain ⟨hle, hge, heven, hex⟩ := nearest_quotient (add_nonneg (Nat.cast_nonneg _) h0) hρ hup hy
    refine ⟨q, _, _, rfl, .of_scaled hnormal hsmall hW hx hstep hle hge heven,
      (inexact_iff h0 h1 hs (Nat.two_pow_pos d)).trans (hex.trans (not_congr ?_))⟩
    rw [hx, hstep, ← mul_assoc _ (2 * ((2 ^ d : ℕ) : ℝ)), mul_left_inj' hW.ne']

end Sys2Proof.Claims
end

section
/-! SUPPORT. What a rounding delivers (R115, R116): the canonical encoding of the nearest number, or an infinity, with NX, UF and OF. -/

namespace Sys2Proof.Claims

open Sys2Proof Sys2Proof.Machine

/-! ## Canonical encodings -/

/-- r is the canonical encoding of n units with a sign. -/
structure IsEncoding (neg : Bool) (n : ℕ) (r : Word) : Prop where
  isFinite : finite r
  isCanonical : canonical r
  sign : negative r = neg
  magnitude : (units r).natAbs = n

theorem isEncoding_pattern (neg : Bool) {ex sig : ℕ} (he : ex < 1023) (hs : sig < 2 ^ 53)
    (hc : if ex = 0 then sig < 2 ^ 52 else 2 ^ 52 ≤ sig) : IsEncoding neg (sig * 2 ^ (ex - 1)) (pattern neg ex sig) := by
  have he' : ex < 1024 := by omega
  refine ⟨?_, ?_, negative_pattern he' hs, ?_⟩
  · rwa [finite, expOf_pattern he' hs]
  · rwa [canonical, expOf_pattern he' hs, sigOf_pattern he' hs]
  · rw [natAbs_units, expOf_pattern he' hs, sigOf_pattern he' hs]

/-- `wfEncode` of a significand of at most 53 bits that is not to be shifted. -/
theorem wfEncode_unshifted (neg : Bool) {m : ℕ} {e : ℤ} (h0 : m ≠ 0) (h : m < 2 ^ 53) (hup : min (53 - bitLen m) (e + 562).toNat = 0) :
    wfEncode neg m e = pattern neg ((if m < 2 ^ 52 then 0 else (e + 563).toNat) % 1024) m := by
  unfold wfEncode
  rw [if_neg h0]
  simp only [if_neg (not_le.2 h), hup, pow_zero, mul_one, Nat.cast_zero, sub_zero, Nat.mod_eq_of_lt h]
  rfl
theorem wfEncode_small (neg : Bool) {k : ℕ} (h : k < 2 ^ 52) : wfEncode neg k (-562) = pattern neg 0 k := by
  rcases Nat.eq_zero_or_pos k with rfl | hk
  · cases neg <;> rfl
  · rw [wfEncode_unshifted neg hk.ne' (by omega) (Nat.min_zero _), if_pos h]
theorem wfEncode_normal (neg : Bool) {k q : ℕ} (h : 2 ^ 52 ≤ k) (h' : k < 2 ^ 53) (hq : q < 1022) :
    wfEncode neg k (q - 562) = pattern neg (q + 1) k := by
  rw [wfEncode_unshifted neg (by omega) h' (by rw [bitLen_eq h h']; exact Nat.zero_min _), if_neg (not_lt.2 h)]
  congr 1
  omega
theorem wfEncode_carry (neg : Bool) (e : ℤ) : wfEncode neg (2 ^ 53) e = wfEncode neg (2 ^ 52) (e + 1) := rfl

/-- The length of a number of steps. -/
theorem two_pow_le_steps {k q n : ℕ} (hk : 0 < k) : 2 ^ n ≤ k * 2 ^ q ↔ n < bitLen k + q := by
  obtain ⟨l, hl, hle, hlt⟩ := bitLen_bounds hk
  rw [hl]
  constructor
  · intro h
    by_contra hc
    exact absurd h (not_le.2 (mul_two_pow_lt hlt (by omega)))
  · intro h
    calc 2 ^ n ≤ 2 ^ (l + q) := Nat.pow_le_pow_right (by decide) (by omega)
      _ = 2 ^ l * 2 ^ q := Nat.pow_add 2 l q
      _ ≤ k * 2 ^ q := Nat.mul_le_mul_right _ hle

/-- A number of steps that a rounding keeps, encoded. -/
theorem isEncoding_wfEncode (neg : Bool) {k q : ℕ} (hk : k ≤ 2 ^ 53) (hq : k < 2 ^ 52 → q = 0) (hlt : k * 2 ^ q < 2 ^ 1074) :
    IsEncoding neg (k * 2 ^ q) (wfEncode neg k (q - 562)) := by
  have hnormal {k q : ℕ} (h : 2 ^ 52 ≤ k) (h' : k < 2 ^ 53) (hlt : k * 2 ^ q < 2 ^ 1074) :
      IsEncoding neg (k * 2 ^ q) (wfEncode neg k (q - 562)) := by
    have hq := (two_pow_le_steps (by omega)).not.1 (not_le.2 hlt)
    rw [bitLen_eq h h'] at hq
    have hq : q < 1022 := by omega
    rw [wfEncode_normal neg h h' hq]
    exact isEncoding_pattern neg (Nat.succ_lt_succ hq) h' ((if_neg q.succ_ne_zero).mpr h)
  rcases Nat.lt_or_ge k (2 ^ 52) with h | h
  · obtain rfl := hq h
    rw [show ((0 : ℕ) : ℤ) - 562 = -562 from rfl, wfEncode_small neg h]
    exact isEncoding_pattern neg (ex := 0) (by decide) (h.trans (by decide)) ((if_pos rfl).mpr h)
  · rcases Nat.lt_or_eq_of_le hk with h' | rfl
    · exact hnormal h h' hlt
    · have hcarry : 2 ^ 53 * 2 ^ q = 2 ^ 52 * 2 ^ (q + 1) := by rw [Nat.pow_succ 2 q, Nat.pow_succ 2 52, mul_assoc, mul_comm 2]
      rw [hcarry] at hlt ⊢
      rw [wfEncode_carry, show (q : ℤ) - 562 + 1 = ((q + 1 : ℕ) : ℤ) - 562 by push_cast; ring]
      exact hnormal le_rfl (by decide) hlt

/-- The model's test for overflow. -/
theorem aboveWf_iff {k q : ℕ} (hq : k < 2 ^ 52 → q = 0) : aboveWf k (q - 562) = true ↔ 2 ^ 1074 ≤ k * 2 ^ q := by
  rcases Nat.eq_zero_or_pos k with rfl | hk
  · obtain rfl := hq (by decide)
    rw [zero_mul, Nat.le_zero]
    exact iff_of_false (by decide) (pow_ne_zero _ two_ne_zero)
  rw [two_pow_le_steps hk, aboveWf, decide_eq_true_iff]
  omega

/-! ## Delivery -/

/-- `delivers`, its two cases apart: tactics do not evaluate 2^1074 in them. -/
structure Delivered (neg : Bool) (k q : ℕ) (exact tiny : Bool) (r : Word × BitVec 7) : Prop where
  overflow : 2 ^ 1074 ≤ k * 2 ^ q → r = (infinity neg, of_ ||| nx)
  value : k * 2 ^ q < 2 ^ 1074 → IsEncoding neg (k * 2 ^ q) r.1
  flags : k * 2 ^ q < 2 ^ 1074 → r.2 = if exact then 0 else if tiny then nx ||| uf else nx

theorem delivers_eq (neg : Bool) (k q : ℕ) (exact tiny : Bool) (r : Word × BitVec 7) :
    delivers neg k q exact tiny r = Delivered neg k q exact tiny r := by
  rw [delivers]
  by_cases h : 2 ^ 1074 ≤ k * 2 ^ q
  · rw [if_pos h]
    exact propext ⟨fun hr => ⟨fun _ => hr, fun hlt => absurd h (Nat.not_le.2 hlt), fun hlt => absurd h (Nat.not_le.2 hlt)⟩,
      fun hd => hd.overflow h⟩
  · have hlt := Nat.not_le.1 h
    rw [if_neg h]
    exact propext ⟨fun ⟨hf, hc, hs, hu, hfl⟩ => ⟨fun hle => absurd hle h, fun _ => ⟨hf, hc, hs, hu⟩, fun _ => hfl⟩,
      fun hd => ⟨(hd.value hlt).isFinite, (hd.value hlt).isCanonical, (hd.value hlt).sign, (hd.value hlt).magnitude, hd.flags hlt⟩⟩

/-- `roundWf` of what is no zero, by what `roundMag` keeps. -/
theorem roundWf_eq {neg : Bool} {m k : ℕ} {e p : ℤ} {sticky inexact : Bool} (h0 : m ≠ 0)
    (hr : roundMag 53 (-562) 0 neg m e sticky = ⟨k, p, inexact⟩) : roundWf neg m e sticky =
      if aboveWf k p = true then (wInf neg, fOF ||| fNX)
      else (wfEncode neg k p, flagIf inexact fNX ||| flagIf (inexact && belowNormal m e) fUF) := by
  rw [roundWf, roundWfMode, if_neg fun h => h0 h.1, hr]
  rfl

/-- `round_wf64` of a magnitude x: the nearest number, delivered. -/
theorem Reads.roundWf_delivers {x : ℝ} {m : ℕ} {e : ℤ} {sticky : Bool} (h : Reads x m e sticky) (neg : Bool) :
    ∃ q k : ℕ, Nearest x q k ∧ ∀ exact tiny : Bool, (exact = true ↔ (k : ℝ) * 2 ^ q = x) → (tiny = true ↔ x < 2 ^ 52) →
      Delivered neg k q exact tiny (roundWf neg m e sticky) := by
  obtain ⟨q, k, inexact, hr, hn, hi⟩ := h.roundMag_nearest neg
  refine ⟨q, k, hn, fun exact tiny hex htiny => ?_⟩
  obtain rfl : inexact = !exact := by rw [Bool.eq_iff_iff, hi, Bool.not_eq_true', ← Bool.not_eq_true, hex]
  obtain rfl : tiny = belowNormal m e := by rw [Bool.eq_iff_iff, htiny, h.belowNormal_iff]
  have hab := aboveWf_iff hn.units_of_small
  rw [roundWf_eq h.1.ne' hr]
  refine ⟨fun hle => ?_, fun hlt => ?_, fun hlt => ?_⟩
  · rw [if_pos (hab.2 hle)]
    rfl
  · rw [if_neg (hab.not.2 (Nat.not_le.2 hlt))]
    exact isEncoding_wfEncode neg hn.le_two_pow hn.units_of_small hlt
  · rw [if_neg (hab.not.2 (Nat.not_le.2 hlt))]
    cases exact <;> cases belowNormal m e <;> rfl

end Sys2Proof.Claims
end

section
/-! SUPPORT. WF64 results by the exact values of the operands (R116): what `rounds` asks for, of sums, products and quotients. -/

namespace Sys2Proof.Claims

open Sys2Proof Sys2Proof.Machine

/-- A magnitude of N / D units, rounded. -/
theorem Reads.rounds {x : ℝ} {m : ℕ} {e : ℤ} {sticky : Bool} (h : Reads x m e sticky) {N : ℤ} {D : ℕ} (hD : 0 < D)
    (hx : x * D = N.natAbs) : rounds N D (roundWf (decide (N < 0)) m e sticky) := by
  have hD : (0 : ℝ) < D := by exact_mod_cast hD
  obtain ⟨q, k, hn, hd⟩ := h.roundWf_delivers (decide (N < 0))
  have hle := mul_le_mul_of_nonneg_right hn.le hD.le
  have hge := mul_le_mul_of_nonneg_right hn.ge hD.le
  refine ⟨q, k, hn.normal.imp_right fun hl => ?_, ?_, ?_, ?_, fun heq => hn.even (heq.imp (fun he => ?_) fun he => ?_), ?_⟩
  · have := mul_le_mul_of_nonneg_right hl hD.le
    rw [hx] at this
    exact_mod_cast this
  · have := mul_lt_mul_of_pos_right hn.small hD
    rw [hx] at this
    exact_mod_cast this
  · rw [mul_assoc 2 x, hx] at hle
    have : 2 * (N.natAbs : ℝ) ≤ (2 * k + 1) * (D * 2 ^ q) := by linarith
    exact_mod_cast this
  · rw [add_mul, mul_assoc 2 x, hx] at hge
    have : 2 * (k : ℝ) * (D * 2 ^ q) ≤ 2 * N.natAbs + D * 2 ^ q := by linarith
    exact_mod_cast this
  · have he : 2 * (N.natAbs : ℝ) = (2 * k + 1) * (D * 2 ^ q) := by exact_mod_cast he
    rw [← hx] at he
    exact mul_right_cancel₀ hD.ne' (by linarith)
  · have he : 2 * (k : ℝ) * (D * 2 ^ q) = 2 * N.natAbs + D * 2 ^ q := by exact_mod_cast he
    rw [← hx] at he
    exact mul_right_cancel₀ hD.ne' (by linarith)
  · have hex : k * 2 ^ q * D = N.natAbs ↔ (k : ℝ) * 2 ^ q = x := by
      rw [← mul_left_inj' hD.ne', hx]
      norm_cast
    have htiny : N.natAbs < 2 ^ 52 * D ↔ x < 2 ^ 52 := by
      rw [← mul_lt_mul_iff_left₀ hD, hx]
      norm_cast
    rw [delivers_eq]
    exact hd _ _ (decide_eq_true_iff.trans hex) (decide_eq_true_iff.trans htiny)

/-! ## Exact numbers -/

@[simp] theorem natAbs_signed (neg : Bool) (m : ℕ) : (signed neg m).natAbs = m := by cases neg <;> simp [signed]
theorem signed_natAbs (n : ℤ) : signed (decide (n < 0)) n.natAbs = n := by
  rw [signed]
  split
  next h => have := of_decide_eq_true h; omega
  next h => have := of_decide_eq_false (Bool.eq_false_iff.2 h); omega
theorem signed_mul (na nb : Bool) (m p : ℕ) : signed (na != nb) (m * p) = signed na m * signed nb p := by
  cases na <;> cases nb <;> simp [signed]

theorem cast_natAbs_units (w : Word) : ((units w).natAbs : ℝ) = sigOf w * 2 ^ (lastPlace w + 562) := by
  rw [natAbs_units, lastPlace, sub_add_cancel, zpow_natCast, Nat.cast_mul, Nat.cast_pow, Nat.cast_ofNat]
/-- The units of a pattern as its sign, significand and last place give them. -/
theorem cast_units (w : Word) : (units w : ℝ) = signed (negative w) (sigOf w) * 2 ^ (lastPlace w + 562) := by
  rw [units_eq_signed]
  have h := cast_natAbs_units w
  generalize (units w).natAbs = n at h ⊢
  cases negative w <;> simp [signed, h]

/-- A nonzero exact number, rounded: one of N / D units. -/
theorem roundWf_rounds {neg : Bool} {m : ℕ} {e : ℤ} {N : ℤ} {D : ℕ} (hm : 0 < m) (hD : 0 < D)
    (h : (signed neg m : ℝ) * 2 ^ (e + 562) * D = N) : rounds N D (roundWf neg m e false) := by
  have hD' : (0 : ℝ) < D := by exact_mod_cast hD
  have hm' : (0 : ℝ) < m := by exact_mod_cast hm
  have hpos : 0 < (m : ℝ) * 2 ^ (e + 562) * D := by positivity
  have hneg : neg = decide (N < 0) := by
    rw [Bool.eq_iff_iff, decide_eq_true_iff, ← Int.cast_lt_zero (R := ℝ), ← h]
    cases neg
    · simp only [signed, Bool.false_eq_true, if_false, Int.cast_natCast, false_iff, not_lt]
      exact hpos.le
    · simp only [signed, if_true, Int.cast_neg, Int.cast_natCast, true_iff]
      linarith
  have habs : (m : ℝ) * 2 ^ (e + 562) * D = N.natAbs := by
    rw [Nat.cast_natAbs, Int.cast_abs, ← h]
    cases neg <;> simp only [signed, Bool.false_eq_true, if_false, if_true, Int.cast_neg, Int.cast_natCast, neg_mul, abs_neg] <;>
      exact (abs_of_pos hpos).symm
  rw [hneg]
  exact (reads_exact e hm).rounds hD habs

theorem roundWf_eq_roundSigned (neg : Bool) {m : ℕ} (e : ℤ) (z : Bool) (hm : 0 < m) :
    roundWf neg m e false = roundSigned (signed neg m) e z := by
  have hne : signed neg m ≠ 0 := by rw [← Int.natAbs_ne_zero, natAbs_signed]; exact hm.ne'
  have hneg : decide (signed neg m < 0) = neg := by cases neg <;> simp [signed, hm]
  rw [roundSigned, if_neg hne, natAbs_signed, hneg]

/-- An exact number of N / D units, rounded; an exact zero has its sign. -/
theorem roundSigned_rounds {n e : ℤ} {z : Bool} {N : ℤ} {D : ℕ} (hD : 0 < D) (h : (n : ℝ) * 2 ^ (e + 562) * D = N) :
    (N = 0 → roundSigned n e z = (zero z, 0)) ∧ (N ≠ 0 → rounds N D (roundSigned n e z)) := by
  have hD' : (D : ℝ) ≠ 0 := by exact_mod_cast hD.ne'
  have hn : N = 0 ↔ n = 0 := by
    rw [← Int.cast_eq_zero (α := ℝ), ← h]
    simp [hD', zpow_ne_zero]
  refine ⟨fun h0 => if_pos (hn.1 h0), fun h0 => ?_⟩
  rw [roundSigned, if_neg (hn.not.1 h0)]
  exact roundWf_rounds (Int.natAbs_pos.2 (hn.not.1 h0)) hD (by rw [signed_natAbs, h])

theorem sumOf_value (a ea b eb : ℤ) :
    ((sumOf a ea b eb).1 : ℝ) * 2 ^ ((sumOf a ea b eb).2 + 562) = a * 2 ^ (ea + 562) + b * 2 ^ (eb + 562) := by
  have hsplit (e : ℤ) (he : min ea eb ≤ e) : (2 : ℝ) ^ (e + 562) = 2 ^ (e - min ea eb).toNat * 2 ^ (min ea eb + 562) := by
    rw [← zpow_natCast, ← zpow_add₀ two_ne_zero]
    congr 1
    omega
  rw [hsplit ea (min_le_left _ _), hsplit eb (min_le_right _ _)]
  simp only [sumOf]
  push_cast
  ring

end Sys2Proof.Claims
end

section
/-! SUPPORT. FADD, FSUB, FMUL, FMA and FNMA by the exact values of their operands (R116, R246, R247). -/

namespace Sys2Proof.Claims

open Sys2Proof Sys2Proof.Machine

/-! ## NaN operands -/

theorem nanRule_of_signals {ops : List Word} {b : Bool} (h : b = true ↔ ∃ w ∈ ops, signals w) : nanRule ops (nanRes b) := by
  refine ⟨fun hs => ?_, fun hs => ?_⟩
  · rw [h.2 hs]
    rfl
  · rw [Bool.eq_false_iff.2 fun hb => (h.1 hb).elim fun w hw => hs w hw.1 hw.2]
    rfl
theorem nanRule_pair (a b : Word) : nanRule [a, b] (nanRes ((wfVal a).signals || (wfVal b).signals)) :=
  nanRule_of_signals (by
    rw [signals_or_iff]
    simp only [List.mem_cons, List.not_mem_nil, or_false, exists_eq_or_imp, exists_eq_left])

/-! ## FADD and FSUB -/

theorem fadd_isNaN {a b : Word} (h : isNaN a ∨ isNaN b) : fadd a b = nanRes ((wfVal a).signals || (wfVal b).signals) :=
  if_pos ((isNan_or_iff a b).2 h)

/-- A finite sum is the exact sum, rounded; the sum of two zeros has the sign that both have. -/
theorem fadd_finite {a b : Word} (ha : finite a) (hb : finite b) : ∃ n e : ℤ,
    fadd a b = roundSigned n e (decide (isZero a ∧ isZero b ∧ negative a = true ∧ negative b = true)) ∧
      (n : ℝ) * 2 ^ (e + 562) = units a + units b := by
  by_cases hza : isZero a <;> by_cases hzb : isZero b
  · refine ⟨0, 0, ?_, by simp [(units_eq_zero ha).2 hza, (units_eq_zero hb).2 hzb]⟩
    rw [fadd, wfVal_of_isZero hza, wfVal_of_isZero hzb]
    have hz : decide (isZero a ∧ isZero b ∧ negative a = true ∧ negative b = true) = (negative a && negative b) := by
      rw [Bool.eq_iff_iff, decide_eq_true_iff, Bool.and_eq_true]
      exact ⟨fun h => h.2.2, fun h => ⟨hza, hzb, h⟩⟩
    rw [hz]
    rfl
  · refine ⟨signed (negative b) (sigOf b), lastPlace b, ?_, by rw [(units_eq_zero ha).2 hza, cast_units b, Int.cast_zero, zero_add]⟩
    rw [fadd, wfVal_of_isZero hza, wfVal_of_nonzero hb hzb, ← roundWf_eq_roundSigned _ _ _ (sigOf_pos hb hzb)]
    rfl
  · refine ⟨signed (negative a) (sigOf a), lastPlace a, ?_, by rw [(units_eq_zero hb).2 hzb, cast_units a, Int.cast_zero, add_zero]⟩
    rw [fadd, wfVal_of_nonzero ha hza, wfVal_of_isZero hzb, ← roundWf_eq_roundSigned _ _ _ (sigOf_pos ha hza)]
    rfl
  · have hv := sumOf_value (signed (negative a) (sigOf a)) (lastPlace a) (signed (negative b) (sigOf b)) (lastPlace b)
    rw [← cast_units a, ← cast_units b] at hv
    refine ⟨_, _, ?_, hv⟩
    rw [fadd, wfVal_of_nonzero ha hza, wfVal_of_nonzero hb hzb, decide_eq_false fun h => hza h.1]
    rfl

theorem fadd_rounds {a b : Word} (ha : finite a) (hb : finite b) :
    (units a + units b = 0 → fadd a b = (zero (decide (isZero a ∧ isZero b ∧ negative a = true ∧ negative b = true)), 0)) ∧
    (units a + units b ≠ 0 → rounds (units a + units b) 1 (fadd a b)) := by
  obtain ⟨n, e, hr, hv⟩ := fadd_finite ha hb
  rw [hr]
  exact roundSigned_rounds one_pos (by rw [hv]; push_cast; ring)

theorem fadd_isInf_finite {a b : Word} (ha : isInf a) (hb : finite b) :
    fadd a b = (infinity (negative a), 0) ∧ fadd b a = (infinity (negative a), 0) := by
  rw [fadd, fadd, wfVal_of_isInf ha]
  by_cases hz : isZero b
  · rw [wfVal_of_isZero hz]
    exact ⟨rfl, rfl⟩
  · rw [wfVal_of_nonzero hb hz]
    exact ⟨rfl, rfl⟩

theorem addRule_holds : addRule := by
  refine ⟨fun a b h => ?_, fun a b ha hb => ?_, fun a b => fadd_isInf_finite, fun a b ha hb => (fadd_rounds ha hb).1,
    fun a b ha hb => (fadd_rounds ha hb).2, fun a b => ?_⟩
  · rw [fadd_isNaN h]
    exact nanRule_pair a b
  · rw [fadd, wfVal_of_isInf ha, wfVal_of_isInf hb]
    rfl
  · rw [fsub, fadd, wfVal_opposite]

/-! ## FMUL -/

theorem two_zpow_mul (n : ℕ) (i j : ℤ) : (2 : ℝ) ^ (i + j + n) * (2 ^ n : ℕ) = 2 ^ (i + n) * 2 ^ (j + n) := by
  rw [Nat.cast_pow, Nat.cast_ofNat, ← zpow_natCast, ← zpow_add₀ two_ne_zero, ← zpow_add₀ two_ne_zero]
  congr 1
  ring
/-- The exact product, in units of 2^−562. -/
theorem product_value (a b : Word) : (signed (negative a != negative b) (sigOf a * sigOf b) : ℝ) *
    2 ^ (lastPlace a + lastPlace b + 562) * (2 ^ 562 : ℕ) = units a * units b := by
  have h := two_zpow_mul 562 (lastPlace a) (lastPlace b)
  rw [Nat.cast_ofNat] at h
  rw [mul_assoc, h, signed_mul, Int.cast_mul, cast_units a, cast_units b]
  ring

theorem fmul_isInf {a b : Word} (ha : isInf a) (hn : ¬isNaN b) (hz : ¬isZero b) :
    fmul a b = (infinity (negative a != negative b), 0) ∧ fmul b a = (infinity (negative a != negative b), 0) := by
  rw [fmul, fmul, wfVal_of_isInf ha, bne_comm (a := negative a)]
  rcases finite_or_isInf hn with hf | hi
  · rw [wfVal_of_nonzero hf hz]
    exact ⟨congrArg (fun n => (infinity n, 0)) (bne_comm ..), rfl⟩
  · rw [wfVal_of_isInf hi]
    exact ⟨congrArg (fun n => (infinity n, 0)) (bne_comm ..), rfl⟩
theorem fmul_isZero {a b : Word} (ha : finite a) (hb : finite b) (hz : isZero a ∨ isZero b) :
    fmul a b = (zero (negative a != negative b), 0) := by
  rw [fmul]
  by_cases hza : isZero a <;> by_cases hzb : isZero b
  · rw [wfVal_of_isZero hza, wfVal_of_isZero hzb]
    rfl
  · rw [wfVal_of_isZero hza, wfVal_of_nonzero hb hzb]
    rfl
  · rw [wfVal_of_nonzero ha hza, wfVal_of_isZero hzb]
    rfl
  · exact absurd hz (not_or.2 ⟨hza, hzb⟩)

theorem mulRule_holds : mulRule := by
  refine ⟨fun a b h => ?_, fun a b ha hb => ?_, fun a b => fmul_isInf, fun a b => fmul_isZero, fun a b ha hb hza hzb => ?_⟩
  · rw [show fmul a b = _ from if_pos ((isNan_or_iff a b).2 h)]
    exact nanRule_pair a b
  · rw [fmul, fmul, wfVal_of_isZero ha, wfVal_of_isInf hb]
    exact ⟨rfl, rfl⟩
  · rw [fmul, wfVal_of_nonzero ha hza, wfVal_of_nonzero hb hzb]
    exact roundWf_rounds (Nat.mul_pos (sigOf_pos ha hza) (sigOf_pos hb hzb)) (by positivity)
      ((product_value a b).trans (Int.cast_mul _ _).symm)

/-! ## FMA and FNMA -/

/-- An exact zero product beside a finite c. -/
theorem fma_isZero {a b c : Word} (ha : finite a) (hb : finite b) (hz : isZero a ∨ isZero b) :
    (isZero c → fma a b c = (wZero ((negative a != negative b) && negative c), 0)) ∧
    (finite c → ¬isZero c → fma a b c = roundWf (negative c) (sigOf c) (lastPlace c) false) := by
  have hn := Bool.bne_false (negative a != negative b)
  constructor
  · intro hzc
    rw [fma, wfVal_of_isZero hzc]
    by_cases hza : isZero a <;> by_cases hzb : isZero b
    · rw [wfVal_of_isZero hza, wfVal_of_isZero hzb, ← hn]
      rfl
    · rw [wfVal_of_isZero hza, wfVal_of_nonzero hb hzb, ← hn]
      rfl
    · rw [wfVal_of_nonzero ha hza, wfVal_of_isZero hzb, ← hn]
      rfl
    · exact absurd hz (not_or.2 ⟨hza, hzb⟩)
  · intro hc hzc
    rw [fma, wfVal_of_nonzero hc hzc]
    by_cases hza : isZero a <;> by_cases hzb : isZero b
    · rw [wfVal_of_isZero hza, wfVal_of_isZero hzb]
      rfl
    · rw [wfVal_of_isZero hza, wfVal_of_nonzero hb hzb]
      rfl
    · rw [wfVal_of_nonzero ha hza, wfVal_of_isZero hzb]
      rfl
    · exact absurd hz (not_or.2 ⟨hza, hzb⟩)

/-- A finite product and a finite c give the exact sum, rounded; that of zeros has the sign that both have. -/
theorem fma_finite {a b c : Word} (ha : finite a) (hb : finite b) (hc : finite c) : ∃ n e : ℤ,
    fma a b c = roundSigned n e
      (decide ((isZero a ∨ isZero b) ∧ isZero c ∧ (negative a != negative b) = true ∧ negative c = true)) ∧
      (n : ℝ) * 2 ^ (e + 562) * (2 ^ 562 : ℕ) = units a * units b + units c * (2 ^ 562 : ℕ) := by
  by_cases hz : isZero a ∨ isZero b
  · have hprod : (units a : ℝ) * units b = 0 :=
      mul_eq_zero.2 (hz.imp (fun h => by rw [(units_eq_zero ha).2 h, Int.cast_zero]) fun h => by rw [(units_eq_zero hb).2 h, Int.cast_zero])
    rw [hprod, zero_add]
    by_cases hzc : isZero c
    · refine ⟨0, 0, ?_, by rw [(units_eq_zero hc).2 hzc, Int.cast_zero, zero_mul]⟩
      have hsign : decide ((isZero a ∨ isZero b) ∧ isZero c ∧ (negative a != negative b) = true ∧ negative c = true) =
          ((negative a != negative b) && negative c) := by
        rw [Bool.eq_iff_iff, decide_eq_true_iff, Bool.and_eq_true]
        exact ⟨fun h => h.2.2, fun h => ⟨hz, hzc, h⟩⟩
      rw [(fma_isZero ha hb hz).1 hzc, hsign]
      rfl
    · refine ⟨signed (negative c) (sigOf c), lastPlace c, ?_, by rw [cast_units c]⟩
      rw [(fma_isZero ha hb hz).2 hc hzc]
      exact roundWf_eq_roundSigned _ _ _ (sigOf_pos hc hzc)
  · obtain ⟨hza, hzb⟩ := not_or.1 hz
    have hprod := product_value a b
    rw [← hprod, decide_eq_false fun h => hz h.1, fma, wfVal_of_nonzero ha hza, wfVal_of_nonzero hb hzb,
      ← Bool.bne_false (negative a != negative b)]
    by_cases hzc : isZero c
    · refine ⟨signed ((negative a != negative b) != false) (sigOf a * sigOf b), lastPlace a + lastPlace b, ?_,
        by rw [(units_eq_zero hc).2 hzc, Int.cast_zero, zero_mul, add_zero]⟩
      rw [wfVal_of_isZero hzc, ← roundWf_eq_roundSigned _ _ _ (Nat.mul_pos (sigOf_pos ha hza) (sigOf_pos hb hzb))]
      rfl
    · have hv := sumOf_value (signed ((negative a != negative b) != false) (sigOf a * sigOf b)) (lastPlace a + lastPlace b)
        (signed (negative c) (sigOf c)) (lastPlace c)
      rw [← cast_units c] at hv
      refine ⟨_, _, ?_, by rw [hv, add_mul]⟩
      rw [wfVal_of_nonzero hc hzc]
      rfl

/-- What an infinite product of sign n and a c that is no NaN come to. -/
theorem infinite_sum {f : FVal → Word × BitVec 7} {n : Bool} (hinf : ∀ k, f (.inf k) = if n = k then (wInf k, 0) else invalid)
    (hzero : ∀ k, f (.zero k) = (wInf n, 0)) (hfin : ∀ k m e, f (.fin k m e) = (wInf n, 0)) {c : Word} (hc : ¬isNaN c) :
    f (wfVal c) = if isInf c ∧ negative c ≠ n then (quietNaN, nv) else (infinity n, 0) := by
  rcases finite_or_isInf hc with hf | hi
  · rw [if_neg fun h => not_isInf_of_finite hf h.1]
    rcases wfVal_of_finite hf with ⟨k, h⟩ | ⟨k, m, e, h⟩
    · exact h ▸ hzero k
    · exact h ▸ hfin k m e
  · rw [wfVal_of_isInf hi, hinf]
    by_cases hn : n = negative c
    · rw [if_pos hn, if_neg fun h => h.2 hn.symm, hn]
      rfl
    · rw [if_neg hn, if_pos ⟨hi, fun h => hn h.symm⟩]
      rfl

theorem fma_infinite {a b c : Word} (ha : ¬isNaN a) (hb : ¬isNaN b) (hc : ¬isNaN c)
    (hv : ¬(isZero a ∧ isInf b ∨ isInf a ∧ isZero b)) (hi : isInf a ∨ isInf b) :
    fma a b c = if isInf c ∧ negative c ≠ (negative a != negative b) then (quietNaN, nv)
      else (infinity (negative a != negative b), 0) := by
  rw [← Bool.bne_false (negative a != negative b), fma]
  rcases finite_or_isInf ha with hfa | hia <;> rcases finite_or_isInf hb with hfb | hib
  · exact absurd hi (not_or.2 ⟨not_isInf_of_finite hfa, not_isInf_of_finite hfb⟩)
  · rw [wfVal_of_nonzero hfa fun h => hv (.inl ⟨h, hib⟩), wfVal_of_isInf hib]
    exact infinite_sum (f := (fmaVal _ _ · false)) (fun _ => rfl) (fun _ => rfl) (fun _ _ _ => rfl) hc
  · rw [wfVal_of_isInf hia, wfVal_of_nonzero hfb fun h => hv (.inr ⟨hia, h⟩)]
    exact infinite_sum (f := (fmaVal _ _ · false)) (fun _ => rfl) (fun _ => rfl) (fun _ _ _ => rfl) hc
  · rw [wfVal_of_isInf hia, wfVal_of_isInf hib]
    exact infinite_sum (f := (fmaVal _ _ · false)) (fun _ => rfl) (fun _ => rfl) (fun _ _ _ => rfl) hc

/-- R247's NaN cases. -/
theorem fma_signals {a b c : Word} (h : signals a ∨ signals b ∨ signals c) : fma a b c = (quietNaN, nv) := by
  refine if_pos ?_
  rwa [Bool.or_eq_true, Bool.or_eq_true, signals_iff, signals_iff, signals_iff, or_assoc]
theorem fma_zero_times_infinity {a b : Word} (h : isZero a ∧ isInf b ∨ isInf a ∧ isZero b) (c : Word) :
    fma a b c = (quietNaN, nv) := by
  unfold fma fmaVal
  rcases h with ⟨ha, hb⟩ | ⟨ha, hb⟩
  · rw [wfVal_of_isZero ha, wfVal_of_isInf hb]
    exact ite_self _
  · rw [wfVal_of_isInf ha, wfVal_of_isZero hb]
    exact ite_self _
theorem fma_quiet {a b c : Word} (ha : ¬signals a) (hb : ¬signals b) (hc : ¬signals c)
    (hv : ¬(isZero a ∧ isInf b ∨ isInf a ∧ isZero b)) (hn : isNaN a ∨ isNaN b ∨ isNaN c) : fma a b c = (quietNaN, 0) := by
  have hs : ¬((wfVal a).signals || (wfVal b).signals || (wfVal c).signals) = true := by
    rw [Bool.or_eq_true, Bool.or_eq_true, signals_iff, signals_iff, signals_iff]
    exact not_or.2 ⟨not_or.2 ⟨ha, hb⟩, hc⟩
  have hn : ((wfVal a).isNan || (wfVal b).isNan || (wfVal c).isNan) = true := by
    rwa [Bool.or_eq_true, Bool.or_eq_true, isNan_iff, isNan_iff, isNan_iff, or_assoc]
  unfold fma fmaVal
  rw [if_neg hs]
  split
  next h1 h2 => exact absurd (.inr ⟨isInf_of_wfVal h1, isZero_of_wfVal h2⟩) hv
  next h1 h2 => exact absurd (.inl ⟨isZero_of_wfVal h1, isInf_of_wfVal h2⟩) hv
  next => exact if_pos hn

/-- FNMA is FMA of the first factor negated. -/
theorem fmaVal_negate (x y z : FVal) : fmaVal x.negate y z false = fmaVal x y z true := by
  cases x <;> cases y <;> cases z <;> simp [fmaVal, FVal.negate, FVal.neg, FVal.signals, FVal.isNan]

theorem fmaRule_holds : fmaRule := by
  refine ⟨fun a b c => fma_signals, fun a b c h => fma_zero_times_infinity h c, fun a b c => fma_quiet,
    fun a b c => fma_infinite, fun a b c ha hb hc => ?_, fun a b c ha hb hc => ?_, fun a b c => ?_⟩
  · rw [fma, wfVal_of_isInf hc]
    rcases wfVal_of_finite ha with ⟨_, hx⟩ | ⟨_, _, _, hx⟩ <;> rcases wfVal_of_finite hb with ⟨_, hy⟩ | ⟨_, _, _, hy⟩ <;>
      rw [hx, hy] <;> rfl
  · obtain ⟨n, e, hr, hv⟩ := fma_finite ha hb hc
    rw [hr]
    exact roundSigned_rounds (by positivity) (hv.trans (by
      rw [Int.cast_add, Int.cast_mul, Int.cast_mul, Int.cast_pow, Int.cast_ofNat, Nat.cast_pow, Nat.cast_ofNat]))
  · rw [fma, wfVal_opposite, fmaVal_negate]
    rfl

end Sys2Proof.Claims
end

section
/-! SUPPORT. FDIV and FSQRT by the exact values of their operands (R116, R248). -/

namespace Sys2Proof.Claims

open Sys2Proof Sys2Proof.Machine

/-! ## FDIV -/

/-- Enough more bits of a quotient and the mark of what remains stand for the exact quotient. -/
theorem reads_quotient {m p n : ℕ} (e : ℤ) (hn : 106 ≤ n) (hm : 0 < m) (hp : 0 < p) (hp' : p < 2 ^ 53) :
    Reads ((m : ℝ) / p * 2 ^ (e + 562)) (m * 2 ^ n / p) (e - n) (decide (m * 2 ^ n % p ≠ 0)) := by
  have hlong : 2 ^ 53 ≤ m * 2 ^ n / p := (Nat.le_div_iff_mul_le hp).2 <|
    calc 2 ^ 53 * p ≤ 2 ^ 53 * 2 ^ 53 := Nat.mul_le_mul_left _ hp'.le
      _ ≤ 2 ^ n := Nat.pow_le_pow_right two_pos hn
      _ ≤ m * 2 ^ n := Nat.le_mul_of_pos_left _ hm
  have hp0 : (0 : ℝ) < p := by exact_mod_cast hp
  have hrem : ((m * 2 ^ n % p : ℕ) : ℝ) < p := by exact_mod_cast Nat.mod_lt _ hp
  have hsplit : ((m * 2 ^ n / p : ℕ) : ℝ) * p + (m * 2 ^ n % p : ℕ) = m * 2 ^ n := by
    exact_mod_cast Nat.div_add_mod' _ _
  refine ⟨by omega, fun _ => hlong, ((m * 2 ^ n % p : ℕ) : ℝ) / p, by positivity, (div_lt_one hp0).2 hrem, ?_, ?_⟩
  · rw [decide_eq_true_iff, div_ne_zero_iff, Nat.cast_ne_zero]
    exact (and_iff_left hp0.ne').symm
  · have hquot : ((m * 2 ^ n / p : ℕ) : ℝ) + ((m * 2 ^ n % p : ℕ) : ℝ) / p = m / p * 2 ^ n := by
      field_simp
      exact hsplit
    rw [hquot, mul_assoc, show e + 562 = n + (e - n + 562) by ring, zpow_add₀ two_ne_zero, zpow_natCast]

/-- A quotient of M / D units, rounded. -/
theorem divRound_rounds (neg : Bool) {m p M D : ℕ} {i j : ℤ} (hm : 0 < m) (hp : 0 < p) (hp' : p < 2 ^ 53) (hM : 0 < M) (hD : 0 < D)
    (h : (m : ℝ) / p * 2 ^ (i - j + 562) * D = M) : rounds ((if neg then -1 else 1) * (M : ℤ)) D (divRound neg m i p j) := by
  have hneg : decide ((if neg then -1 else 1) * (M : ℤ) < 0) = neg := by cases neg <;> simp [hM]
  have habs : ((if neg then -1 else 1) * (M : ℤ)).natAbs = M := by cases neg <;> simp
  have hr := (reads_quotient (n := 120) (i - j) (by decide) hm hp hp').rounds hD (N := (if neg then -1 else 1) * (M : ℤ)) (by rw [habs, h])
  rw [hneg] at hr
  exact hr

theorem quotient_value {m p : ℝ} (hp : p ≠ 0) (n : ℕ) (i j : ℤ) :
    m / p * 2 ^ (i - j + n) * (p * 2 ^ (j + n)) = m * 2 ^ (i + n) * 2 ^ n := by
  have hpow : (2 : ℝ) ^ (i - j + n) * 2 ^ (j + n) = 2 ^ (i + n) * 2 ^ n := by
    rw [← zpow_natCast, ← zpow_add₀ two_ne_zero, ← zpow_add₀ two_ne_zero]
    congr 1
    ring
  calc m / p * 2 ^ (i - j + n) * (p * 2 ^ (j + n)) = m / p * p * (2 ^ (i - j + n) * 2 ^ (j + n)) := by ring
    _ = m * 2 ^ (i + n) * 2 ^ n := by rw [div_mul_cancel₀ m hp, hpow, mul_assoc]

theorem fdiv_rounds {a b : Word} (ha : finite a) (hb : finite b) (hza : ¬isZero a) (hzb : ¬isZero b) :
    rounds ((if negative a != negative b then -1 else 1) * ((units a).natAbs * 2 ^ 562 : Nat)) (units b).natAbs (fdiv a b) := by
  have hp := sigOf_pos hb hzb
  have hval := quotient_value (m := sigOf a) (p := sigOf b) (by exact_mod_cast hp.ne') 562 (lastPlace a) (lastPlace b)
  rw [Nat.cast_ofNat, ← cast_natAbs_units, ← cast_natAbs_units] at hval
  have hd : fdiv a b = divRound (negative a != negative b) (sigOf a) (lastPlace a) (sigOf b) (lastPlace b) := by
    simp only [fdiv, wfVal_of_nonzero ha hza, wfVal_of_nonzero hb hzb, FVal.isNan, FVal.neg, Bool.or_self, Bool.false_eq_true, if_false]
  rw [hd]
  refine divRound_rounds _ (sigOf_pos ha hza) hp (sigOf_lt b) (Nat.mul_pos (Int.natAbs_pos.2 ((units_eq_zero ha).not.2 hza)) (by positivity))
    (Int.natAbs_pos.2 ((units_eq_zero hb).not.2 hzb)) (hval.trans ?_)
  rw [Nat.cast_mul, Nat.cast_pow, Nat.cast_ofNat]

theorem divRule_holds : divRule := by
  refine ⟨fun a b h => ?_, fun a b h => ?_, fun a b ha hb => ?_, fun a b h => ?_, fun a b ha hza hzb => ?_, fun a b => fdiv_rounds⟩
  · rw [show fdiv a b = _ from if_pos ((isNan_or_iff a b).2 h)]
    exact nanRule_pair a b
  · rw [fdiv]
    rcases h with ⟨ha, hb⟩ | ⟨ha, hb⟩
    · rw [wfVal_of_isZero ha, wfVal_of_isZero hb]
      rfl
    · rw [wfVal_of_isInf ha, wfVal_of_isInf hb]
      rfl
  · rw [fdiv, wfVal_of_isInf ha, ← neg_wfVal (not_isNaN_of_finite hb)]
    rcases wfVal_of_finite hb with ⟨_, hy⟩ | ⟨_, _, _, hy⟩ <;> rw [hy] <;> rfl
  · rw [fdiv]
    rcases h with ⟨ha, hb⟩ | ⟨ha, hb, hzb⟩
    · rw [wfVal_of_isInf hb, ← neg_wfVal (not_isNaN_of_finite ha)]
      rcases wfVal_of_finite ha with ⟨_, hx⟩ | ⟨_, _, _, hx⟩ <;> rw [hx] <;> rfl
    · rw [wfVal_of_isZero ha, wfVal_of_nonzero hb hzb]
      rfl
  · rw [fdiv, wfVal_of_nonzero ha hza, wfVal_of_isZero hzb]
    rfl

/-! ## FSQRT -/

/-- Each bit of the root is decided rightly. -/
theorem isqrtFrom_spec {n : ℕ} : ∀ {k r : ℕ}, r * r ≤ n → n < (r + 2 ^ k) * (r + 2 ^ k) →
    isqrtFrom n k r * isqrtFrom n k r ≤ n ∧ n < (isqrtFrom n k r + 1) * (isqrtFrom n k r + 1)
  | 0, _, h, h' => ⟨h, h'⟩
  | k + 1, r, h, h' => by
    rw [isqrtFrom]
    split
    next hb => exact isqrtFrom_spec hb (by rwa [add_assoc, ← Nat.two_mul, ← Nat.pow_succ'])
    next hb => exact isqrtFrom_spec h (not_le.1 hb)
theorem isqrt_spec (n : ℕ) : isqrt n * isqrt n ≤ n ∧ n < (isqrt n + 1) * (isqrt n + 1) := by
  refine isqrtFrom_spec (Nat.zero_le n) ?_
  calc n < 2 ^ bitLen n := bitLen_le_iff.1 le_rfl
    _ ≤ 2 ^ ((bitLen n / 2 + 1) + (bitLen n / 2 + 1)) := Nat.pow_le_pow_right two_pos (by omega)
    _ = (0 + 2 ^ (bitLen n / 2 + 1)) * (0 + 2 ^ (bitLen n / 2 + 1)) := by rw [zero_add, ← pow_add]

/-- The integer root of n, of more than 53 bits, and the mark of what remains stand for its real root. -/
theorem reads_root {n : ℕ} (e : ℤ) (hn : 2 ^ 108 ≤ n) :
    Reads (√n * 2 ^ (e + 562)) (isqrt n) e (decide (isqrt n * isqrt n ≠ n)) := by
  obtain ⟨hlo, hhi⟩ := isqrt_spec n
  have hlong : 2 ^ 53 ≤ isqrt n := by
    by_contra h
    have h : isqrt n + 1 ≤ 2 ^ 53 := by omega
    have := Nat.mul_le_mul h h
    omega
  have hle : (isqrt n : ℝ) ≤ √n := Real.le_sqrt_of_sq_le (by rw [sq]; exact_mod_cast hlo)
  have hlt : √n < isqrt n + 1 := (Real.sqrt_lt' (by positivity)).2 (by rw [sq]; exact_mod_cast hhi)
  refine ⟨by omega, fun _ => hlong, √n - isqrt n, sub_nonneg.2 hle, by linarith, ?_, by rw [add_sub_cancel]⟩
  rw [decide_eq_true_iff, sub_ne_zero, not_iff_not, Real.sqrt_eq_iff_mul_self_eq (Nat.cast_nonneg n) (Nat.cast_nonneg _)]
  exact_mod_cast eq_comm

/-- No square of an odd number of steps is four times a number of 53 bits with zeros behind it: a root is never in the middle
between two results. -/
theorem odd_square_ne {s t q j : ℕ} (hs : 0 < s) (hs' : s < 2 ^ 53) (hM : 2 ^ (52 + q) * 2 ^ (52 + q) ≤ s * 2 ^ t) :
    ((2 * j + 1) * 2 ^ q) * ((2 * j + 1) * 2 ^ q) ≠ 4 * (s * 2 ^ t) := by
  intro heq
  have hdvd : (2 * j + 1) * (2 * j + 1) ∣ 2 ^ (t + 2) * s := ⟨2 ^ q * 2 ^ q, by rw [pow_add]; linarith⟩
  have hodd : Nat.Coprime ((2 * j + 1) * (2 * j + 1)) (2 ^ (t + 2)) := by
    refine Nat.Coprime.pow_right _ (Nat.Coprime.symm ((Nat.coprime_two_left).2 ?_))
    exact Odd.mul ⟨j, rfl⟩ ⟨j, rfl⟩
  have hle := Nat.le_of_dvd hs (hodd.dvd_of_dvd_mul_left hdvd)
  have hbig : 2 ^ 106 * (2 ^ q * 2 ^ q) ≤ (2 * j + 1) * (2 * j + 1) * (2 ^ q * 2 ^ q) := by
    rw [pow_add] at hM
    linarith
  have := Nat.le_of_mul_le_mul_right hbig (by positivity)
  omega

/-- What `sqrtParts` gives of m × 2^e stands for the real root. -/
theorem reads_sqrtParts {m : ℕ} (e : ℤ) (hm : 0 < m) : ∃ x : ℝ, 0 ≤ x ∧ x * x = m * 2 ^ (e + 562) * 2 ^ (562 : ℤ) ∧
    Reads x (sqrtParts m e).1 (sqrtParts m e).2.1 (sqrtParts m e).2.2 := by
  simp only [sqrtParts]
  generalize hsh : (if e % 2 = 0 then 200 else 201) = sh
  have hlong : 2 ^ 108 ≤ m * 2 ^ sh := by
    calc 2 ^ 108 ≤ 2 ^ sh := Nat.pow_le_pow_right two_pos (by split at hsh <;> omega)
      _ ≤ m * 2 ^ sh := Nat.le_mul_of_pos_left _ hm
  refine ⟨_, by positivity, ?_, reads_root _ hlong⟩
  have hhalf : e + 562 + 562 = sh + (((e - sh) / 2 + 562) + ((e - sh) / 2 + 562)) := by split at hsh <;> omega
  rw [mul_mul_mul_comm, Real.mul_self_sqrt (Nat.cast_nonneg _), mul_assoc (m : ℝ), ← zpow_add₀ two_ne_zero,
    ← zpow_add₀ two_ne_zero, hhalf, zpow_add₀ two_ne_zero (sh : ℤ), zpow_natCast]
  push_cast
  ring

theorem normal_root {x : ℝ} {s t : ℕ} (hx : 0 ≤ x) (hsq : x * x = (s * 2 ^ t : ℕ)) (hs : 0 < s) (ht : 104 ≤ t) : 2 ^ 52 ≤ x := by
  have hlo : 2 ^ 52 * 2 ^ 52 ≤ s * 2 ^ t :=
    calc 2 ^ 52 * 2 ^ 52 ≤ 2 ^ t := by rw [← pow_add]; exact Nat.pow_le_pow_right two_pos ht
      _ ≤ s * 2 ^ t := Nat.le_mul_of_pos_left _ hs
  refine (mul_self_le_mul_self_iff (by positivity) hx).2 ?_
  rw [hsq]
  exact_mod_cast hlo

/-- The number nearest to a root, by squares. -/
theorem Nearest.of_root {x : ℝ} {s t q k : ℕ} (h : Nearest x q k) (hx : 0 ≤ x) (hsq : x * x = (s * 2 ^ t : ℕ)) (hs : 0 < s)
    (hs' : s < 2 ^ 53) (ht : 104 ≤ t) :
    2 ^ (52 + q) * 2 ^ (52 + q) ≤ s * 2 ^ t ∧ s * 2 ^ t < 2 ^ (53 + q) * 2 ^ (53 + q) ∧
      4 * (s * 2 ^ t) < ((2 * k + 1) * 2 ^ q) * ((2 * k + 1) * 2 ^ q) ∧
      (2 * k * 2 ^ q - 2 ^ q) * (2 * k * 2 ^ q - 2 ^ q) < 4 * (s * 2 ^ t) := by
  have hlo : 2 ^ (52 + q) * 2 ^ (52 + q) ≤ s * 2 ^ t := by
    have hl : (2 : ℝ) ^ (52 + q) ≤ x := h.normal.elim (fun h0 => by rw [h0]; exact normal_root hx hsq hs ht) id
    have := mul_self_le_mul_self (by positivity) hl
    rw [hsq] at this
    exact_mod_cast this
  have hup : 4 * (s * 2 ^ t) ≤ ((2 * k + 1) * 2 ^ q) * ((2 * k + 1) * 2 ^ q) := by
    have := mul_self_le_mul_self (by positivity) h.le
    rw [mul_mul_mul_comm, hsq] at this
    exact_mod_cast (by linarith : 4 * ((s * 2 ^ t : ℕ) : ℝ) ≤ ((2 * k + 1) * 2 ^ q) * ((2 * k + 1) * 2 ^ q))
  have hk : k ≠ 0 := by
    rintro rfl
    have hq : 0 < 2 ^ q * 2 ^ q := by positivity
    rw [pow_add] at hlo
    linarith
  obtain ⟨j, rfl⟩ : ∃ j, k = j + 1 := ⟨k - 1, by omega⟩
  refine ⟨hlo, ?_, ?_, ?_⟩
  · have := mul_self_lt_mul_self hx h.small
    rw [hsq] at this
    exact_mod_cast this
  · exact lt_of_le_of_ne hup (odd_square_ne hs hs' hlo).symm
  · rw [show 2 * (j + 1) * 2 ^ q - 2 ^ q = (2 * j + 1) * 2 ^ q from Nat.sub_eq_of_eq_add (by ring)]
    have := mul_self_le_mul_self (b := 2 * x) (by positivity) (show ((2 * j + 1) * 2 ^ q : ℝ) ≤ 2 * x by
      have := h.ge
      push_cast at this
      linarith)
    rw [mul_mul_mul_comm 2 x, hsq] at this
    exact lt_of_le_of_ne
      (by exact_mod_cast (by linarith : (((2 * j + 1) * 2 ^ q) * ((2 * j + 1) * 2 ^ q) : ℝ) ≤ 4 * ((s * 2 ^ t : ℕ) : ℝ)))
      (odd_square_ne hs hs' hlo)

/-- A root of s · 2^t squared units, rounded. -/
theorem Reads.root_delivers {x : ℝ} {m s t : ℕ} {e : ℤ} {sticky : Bool} (h : Reads x m e sticky) (hx : 0 ≤ x)
    (hsq : x * x = (s * 2 ^ t : ℕ)) (hs : 0 < s) (hs' : s < 2 ^ 53) (ht : 104 ≤ t) :
    ∃ q k : ℕ, 2 ^ (52 + q) * 2 ^ (52 + q) ≤ s * 2 ^ t ∧ s * 2 ^ t < 2 ^ (53 + q) * 2 ^ (53 + q) ∧
      4 * (s * 2 ^ t) < ((2 * k + 1) * 2 ^ q) * ((2 * k + 1) * 2 ^ q) ∧
      (2 * k * 2 ^ q - 2 ^ q) * (2 * k * 2 ^ q - 2 ^ q) < 4 * (s * 2 ^ t) ∧
      delivers false k q (decide (k * 2 ^ q * (k * 2 ^ q) = s * 2 ^ t)) false (roundWf false m e sticky) := by
  obtain ⟨q, k, hn, hd⟩ := h.roundWf_delivers false
  obtain ⟨hlo, hhi, hle, hge⟩ := hn.of_root hx hsq hs hs' ht
  have hexact : k * 2 ^ q * (k * 2 ^ q) = s * 2 ^ t ↔ (k : ℝ) * 2 ^ q = x := by
    rw [← mul_self_inj (by positivity) hx, hsq]
    norm_cast
  refine ⟨q, k, hlo, hhi, hle, hge, ?_⟩
  rw [delivers_eq]
  exact hd _ false (decide_eq_true_iff.trans hexact) (iff_of_false Bool.false_ne_true (not_lt.2 (normal_root hx hsq hs ht)))

theorem sqrtRule_holds : sqrtRule := by
  refine ⟨fun a h => ?_, fun a h => ?_, fun a hn hz hneg => ?_, fun a h hneg => ?_, fun a hf hz hneg => ?_⟩
  · rw [fsqrt, wfVal_of_isNaN h]
    exact nanRule_of_signals (by simp only [decide_eq_true_iff, List.mem_singleton, exists_eq_left])
  · rw [fsqrt, wfVal_of_isZero h]
    rfl
  · rw [fsqrt]
    rcases finite_or_isInf hn with hf | hi
    · rw [wfVal_of_nonzero hf hz, hneg]
      rfl
    · rw [wfVal_of_isInf hi, hneg]
      rfl
  · rw [fsqrt, wfVal_of_isInf h, hneg]
    rfl
  · obtain ⟨x, hx, hsq, hr⟩ := reads_sqrtParts (lastPlace a) (sigOf_pos hf hz)
    have hM : (units a).natAbs * 2 ^ 562 = sigOf a * 2 ^ (expOf a - 1 + 562) := by rw [natAbs_units, mul_assoc, ← pow_add]
    have hsq : x * x = (sigOf a * 2 ^ (expOf a - 1 + 562) : ℕ) := by
      rw [← hM, hsq, ← cast_natAbs_units, Nat.cast_mul, Nat.cast_pow, Nat.cast_ofNat, zpow_ofNat]
    rw [hM, fsqrt, wfVal_of_nonzero hf hz, hneg]
    exact hr.root_delivers hx hsq (sigOf_pos hf hz) (sigOf_lt a) (by omega)

end Sys2Proof.Claims
end

section
/-! SUPPORT. The order of WF64 values: FCMP, FMIN and FMAX (R249, R252). -/

namespace Sys2Proof.Claims

open Sys2Proof Sys2Proof.Machine

/-! ## Places -/

theorem place_of_isInf {w : Word} (h : isInf w) : place w = if negative w then -(2 ^ 2000 : Int) else 2 ^ 2000 := if_pos h.1
theorem place_of_finite {w : Word} (h : finite w) : place w = units w := if_neg (Nat.ne_of_lt h)
theorem place_finite_bounds {w : Word} (h : finite w) : -(2 ^ 2000 : Int) < place w ∧ place w < 2 ^ 2000 := by
  have hlt : (units w).natAbs < 2 ^ 2000 := (natAbs_units_lt h).trans_le (pow_le_pow_right₀ one_le_two (by decide))
  have habs : |units w| < (2 : Int) ^ 2000 := by
    rw [Int.abs_eq_natAbs]
    exact_mod_cast hlt
  rw [place_of_finite h]
  exact abs_lt.1 habs

theorem place_of_isZero {w : Word} (h : isZero w) : place w = 0 := (place_of_finite h.1).trans ((units_eq_zero h.1).2 h)
/-- A nonzero number lies on the side of its sign. -/
theorem place_of_nonzero {w : Word} (hf : finite w) (hz : ¬isZero w) : if negative w then place w < 0 else 0 < place w := by
  have hpos : 0 < (units w).natAbs := Int.natAbs_pos.2 ((units_eq_zero hf).not.2 hz)
  rw [place_of_finite hf, units_eq_signed]
  cases negative w <;> simp only [signed, Bool.false_eq_true, if_false, if_true] <;> omega

theorem scaled_sign {n N e : ℤ} (h : (n : ℝ) * 2 ^ e = N) : (n < 0 ↔ N < 0) ∧ (n = 0 ↔ N = 0) := by
  have he : (0 : ℝ) < 2 ^ e := by positivity
  rw [← Int.cast_lt_zero (R := ℝ) (n := N), ← Int.cast_eq_zero (α := ℝ) (n := N), ← h, ← Int.cast_lt_zero (R := ℝ) (n := n),
    ← Int.cast_eq_zero (α := ℝ) (n := n)]
  exact ⟨⟨fun hn => mul_neg_of_neg_of_pos hn he, fun hn => neg_of_mul_neg_left hn he.le⟩, (mul_eq_zero_iff_right he.ne').symm⟩

/-- `cmpVal` orders finite values by their places. -/
theorem cmpVal_finite {a b : Word} (ha : finite a) (hb : finite b) : cmpVal (wfVal a) (wfVal b) = compare (place a) (place b) := by
  by_cases hza : isZero a <;> by_cases hzb : isZero b
  · rw [wfVal_of_isZero hza, wfVal_of_isZero hzb, place_of_isZero hza, place_of_isZero hzb]
    rfl
  · have hside := place_of_nonzero hb hzb
    rw [wfVal_of_isZero hza, wfVal_of_nonzero hb hzb, place_of_isZero hza]
    cases hn : negative b <;> rw [hn] at hside
    · exact (compare_lt_iff_lt.2 hside).symm
    · exact (compare_gt_iff_gt.2 hside).symm
  · have hside := place_of_nonzero ha hza
    rw [wfVal_of_nonzero ha hza, wfVal_of_isZero hzb, place_of_isZero hzb]
    cases hn : negative a <;> rw [hn] at hside
    · exact (compare_gt_iff_gt.2 hside).symm
    · exact (compare_lt_iff_lt.2 hside).symm
  · have hv := sumOf_value (signed (negative a) (sigOf a)) (lastPlace a) (-signed (negative b) (sigOf b)) (lastPlace b)
    rw [Int.cast_neg, neg_mul, ← cast_units, ← cast_units, ← sub_eq_add_neg, ← Int.cast_sub] at hv
    obtain ⟨hneg, hzero⟩ := scaled_sign hv
    rw [wfVal_of_nonzero ha hza, wfVal_of_nonzero hb hzb, place_of_finite ha, place_of_finite hb]
    simp only [cmpVal, hneg, hzero, sub_neg, sub_eq_zero]
    rfl

/-- `cmpVal` orders values by their places. -/
theorem cmpVal_eq {a b : Word} (ha : ¬isNaN a) (hb : ¬isNaN b) : cmpVal (wfVal a) (wfVal b) = compare (place a) (place b) := by
  have hP : -(2 ^ 2000 : Int) < 2 ^ 2000 := neg_lt_self (by positivity)
  rcases finite_or_isInf ha with hfa | hia <;> rcases finite_or_isInf hb with hfb | hib
  · exact cmpVal_finite hfa hfb
  · obtain ⟨hlo, hhi⟩ := place_finite_bounds hfa
    have hc (n : Bool) : cmpVal (wfVal a) (.inf n) = if n then .gt else .lt := by
      rcases wfVal_of_finite hfa with ⟨_, hx⟩ | ⟨_, _, _, hx⟩ <;> rw [hx] <;> rfl
    rw [wfVal_of_isInf hib, place_of_isInf hib, hc]
    cases negative b
    · exact (compare_lt_iff_lt.2 hhi).symm
    · exact (compare_gt_iff_gt.2 hlo).symm
  · obtain ⟨hlo, hhi⟩ := place_finite_bounds hfb
    have hc (n : Bool) : cmpVal (.inf n) (wfVal b) = if n then .lt else .gt := by
      rcases wfVal_of_finite hfb with ⟨_, hx⟩ | ⟨_, _, _, hx⟩ <;> rw [hx] <;> rfl
    rw [wfVal_of_isInf hia, place_of_isInf hia, hc]
    cases negative a
    · exact (compare_gt_iff_gt.2 hhi).symm
    · exact (compare_lt_iff_lt.2 hlo).symm
  · rw [wfVal_of_isInf hia, wfVal_of_isInf hib, place_of_isInf hia, place_of_isInf hib]
    cases negative a <;> cases negative b
    · exact (compare_eq_iff_eq.2 rfl).symm
    · exact (compare_gt_iff_gt.2 hP).symm
    · exact (compare_lt_iff_lt.2 hP).symm
    · exact (compare_eq_iff_eq.2 rfl).symm

/-! ## FCMP -/

theorem flagIf_true {b : Bool} (h : b = true) (f : BitVec 7) : flagIf b f = f := if_pos h
theorem flagIf_false {b : Bool} (h : ¬b = true) (f : BitVec 7) : flagIf b f = 0 := if_neg h

theorem compareRule_holds : compareRule := by
  intro a b
  have hun := isNan_or_iff a b
  have hsig := signals_or_iff a b
  have hord : (!((wfVal a).isNan || (wfVal b).isNan)) = true ↔ ¬isNaN a ∧ ¬isNaN b := by
    rw [Bool.not_eq_true', ← Bool.not_eq_true, hun, not_or]
  have hrel (c : Bool) (p : Prop) (hc : ¬isNaN a → ¬isNaN b → (c = true ↔ p)) :
      (!((wfVal a).isNan || (wfVal b).isNan) && c) = true ↔ (¬isNaN a ∧ ¬isNaN b) ∧ p := by
    rw [Bool.and_eq_true, hord]
    exact and_congr_right fun h => hc h.1 h.2
  refine ⟨hrel _ _ fun ha hb => ?_, hrel _ _ fun ha hb => ?_, hrel _ _ fun ha hb => ?_, ?_, ?_, ?_⟩
  · rw [cmpVal_eq ha hb, beq_iff_eq, compare_eq_iff_eq]
  · rw [cmpVal_eq ha hb, beq_iff_eq, compare_lt_iff_lt]
  · rw [cmpVal_eq ha hb, bne_iff_ne, Ne, compare_gt_iff_gt, not_lt]
  · exact hun.trans (by rw [not_and_or, not_not, not_not])
  · rintro m (rfl | rfl) <;>
      exact ⟨fun h => flagIf_true (hsig.2 h) fNV, fun ha hb => flagIf_false (fun h => (hsig.1 h).elim ha hb) fNV⟩
  · rintro m (rfl | rfl) <;>
      exact ⟨fun h => flagIf_true (hun.2 (by rwa [not_and_or, not_not, not_not] at h)) fNV,
        fun h => flagIf_false (fun hn => (hun.1 hn).elim h.1 h.2) fNV⟩

/-! ## FMIN and FMAX -/

theorem units_eq_of {r w : Word} (hs : negative r = negative w) (hm : (units r).natAbs = (units w).natAbs) : units r = units w := by
  rw [units_eq_signed r, units_eq_signed w, hs, hm]

/-- The encoding of a value is the canonical one (R115). -/
theorem encodes_enc {w : Word} (h : ¬isNaN w) : encodes (wfVal w).enc w := by
  rcases finite_or_isInf h with hf | hi
  · have henc : IsEncoding (negative w) (units w).natAbs (wfVal w).enc := by
      by_cases hz : isZero w
      · rw [wfVal_of_isZero hz, (units_eq_zero hf).2 hz]
        have := isEncoding_pattern (negative w) (ex := 0) (sig := 0) (by decide) (by decide) (by decide)
        rw [← wfEncode_small _ (by decide)] at this
        rwa [zero_mul] at this
      · obtain ⟨q, k, hn, hd⟩ := (reads_exact (lastPlace w) (sigOf_pos hf hz)).roundWf_delivers (negative w)
        have hk := hn.of_fits (n := sigOf w) (t := expOf w - 1) (sigOf_lt w) (by rw [lastPlace, sub_add_cancel, zpow_natCast])
        rw [← natAbs_units] at hk
        rw [wfVal_of_nonzero hf hz, ← hk]
        exact (hd (decide _) (decide _) decide_eq_true_iff decide_eq_true_iff).value (hk ▸ natAbs_units_lt hf)
    exact .inr ⟨hf, henc.isFinite, henc.isCanonical, units_eq_of henc.sign henc.magnitude, henc.sign⟩
  · rw [wfVal_of_isInf hi]
    exact .inl ⟨hi, rfl⟩

theorem fminmax_flags (mx : Bool) (a b : Word) : (fminmax mx a b).2 = flagIf ((wfVal a).signals || (wfVal b).signals) fNV := by
  simp only [fminmax, apply_ite Prod.snd, ite_self]

/-- FMIN and FMAX of two numbers, by whether the first is the smaller; −0 is below +0. -/
theorem fminmax_numbers {a b : Word} (ha : ¬isNaN a) (hb : ¬isNaN b) (mx : Bool) {below : Bool}
    (h : below = true ↔ place a < place b ∨ (place a = place b ∧ negative a = true ∧ negative b = false)) :
    (fminmax mx a b).1 = if below != mx then (wfVal a).enc else (wfVal b).enc := by
  simp only [fminmax, isNan_eq_false ha, isNan_eq_false hb, Bool.and_self, Bool.false_eq_true, if_false, cmpVal_eq ha hb, neg_wfVal ha, neg_wfVal hb]
  rcases lt_trichotomy (place a) (place b) with hlt | heq | hgt
  · obtain rfl : below = true := h.2 (.inl hlt)
    rw [compare_lt_iff_lt.2 hlt]
  · obtain rfl : below = (negative a && !negative b) := by
      rw [Bool.eq_iff_iff, h, Bool.and_eq_true, Bool.not_eq_true']
      exact ⟨fun h => (h.resolve_left heq.not_lt).2, fun h => .inr ⟨heq, h⟩⟩
    rw [compare_eq_iff_eq.2 heq]
  · obtain rfl : below = false := Bool.eq_false_iff.2 (h.not.2 (not_or.2 ⟨hgt.not_gt, fun he => hgt.ne' he.1⟩))
    rw [compare_gt_iff_gt.2 hgt]

theorem minMaxRule_holds : minMaxRule := by
  intro mx a b
  have hsig := signals_or_iff a b
  rw [fminmax_flags]
  refine ⟨fun h => flagIf_true (hsig.2 h) fNV, fun ha hb => flagIf_false (fun h => (hsig.1 h).elim ha hb) fNV, fun ha hb => ?_,
    fun ha hb => ?_, fun ha hb => ?_, fun ha hb => ⟨fun h => ?_, fun h => ?_⟩⟩
  · simp only [fminmax, (isNan_iff a).2 ha, (isNan_iff b).2 hb, Bool.and_self, if_true]
    rfl
  · simp only [fminmax, (isNan_iff a).2 ha, isNan_eq_false hb, Bool.and_false, Bool.false_eq_true, if_false, if_true]
    exact encodes_enc hb
  · simp only [fminmax, isNan_eq_false ha, (isNan_iff b).2 hb, Bool.false_and, Bool.false_eq_true, if_false, if_true]
    exact encodes_enc ha
  · rw [fminmax_numbers ha hb mx (below := true) (iff_of_true rfl h)]
    cases mx
    exacts [encodes_enc ha, encodes_enc hb]
  · rw [fminmax_numbers ha hb mx (below := false) (iff_of_false Bool.false_ne_true h)]
    cases mx
    exacts [encodes_enc hb, encodes_enc ha]

end Sys2Proof.Claims
end

section
/-! SUPPORT. O7 and O8: floating-point instructions and compares on scalars (R244 to R256). -/

namespace Sys2Proof.Machine

theorem Grp.charges_scalar {g : Grp} {cls : Nat} (h : g.charges cls) (w : Word) : g.cls (.scalar w) = cls := by
  rw [← h.1]
  cases g <;> rfl

end Sys2Proof.Machine

namespace Sys2Proof.Claims

open Sys2Proof Sys2Proof.Machine

/-! ## Rows on scalars -/

theorem Row.assert_false (r : Row) : r.assert false ≠ .v true := by cases h : r.two <;> simp [Row.assert, h]

section
variable {r : Row}

theorem Row.IsLane1.scalars (h : r.IsLane1) : r.scalars 1 := by
  intro i p t u s c x y z hv hm hl _ _
  obtain ⟨g, hg, h⟩ := h
  obtain ⟨f, he, hf⟩ := h false i p t u s
  rw [he, State.lane1_scalar hv hm hl r.assert_false, hf x y z, Grp.charges_scalar hg]
theorem Row.IsLane2.scalars (h : r.IsLane2) : r.scalars 2 := by
  intro i p t u s c x y z hv hm hl hr _
  obtain ⟨g, hg, h⟩ := h
  obtain ⟨f, he, hf⟩ := h false i p t u s
  rw [he, State.lane2_scalar hv hm hl (hr le_rfl) r.assert_false, hf x y z, Grp.charges_scalar hg]
theorem Row.IsLane3.scalars (h : r.IsLane3) : r.scalars 3 := by
  intro i p t u s c x y z hv hm hl hr ht
  obtain ⟨g, hg, h⟩ := h
  obtain ⟨f, he, hf⟩ := h false i p t u s
  rw [he, State.lane3_scalar hv hm hl (hr (by decide)) (ht le_rfl) r.assert_false, hf x y z, Grp.charges_scalar hg]

end

/-! ## Compares -/

/-- Every compare of WF64 is the compare form for its relation. -/
theorem floatCompares_isCmp2 : ∀ r ∈ floatCompares, r.2.1 = 3 ∧ ∀ p t s, exec (r.1 p t) s = s.cmp2 .float p [t] r.2.2 := by
  simp only [floatCompares, List.forall_mem_cons, List.not_mem_nil, false_implies, implies_true, and_true, true_and]
  exact ⟨fun _ _ _ => rfl, fun _ _ _ => rfl, fun _ _ _ => rfl, fun _ _ _ => rfl⟩

end Sys2Proof.Claims

namespace Sys2Proof.Floats

open Sys2Proof Sys2Proof.Machine Sys2Proof.Claims

/-! ## The statements -/

/-- Settles O7: the compare forms, and `cmpVal`, which orders values by their places. -/
theorem floatCompares : Obligations.FloatCompares := by
  refine ⟨fun r hr => ?_, compareRule_holds⟩
  obtain ⟨hcls, he⟩ := floatCompares_isCmp2 r hr
  refine ⟨fun p t s c a b hv hm hl hr => ?_, fun p t s c hv hc => ?_⟩
  · rw [he, State.cmp2_scalar hv hm hl hr, hcls]
    rfl
  · rw [he]
    exact State.cmp2_vector hv hc

/-- Settles O8: each row is the form of its number of operands for its function, and a rounding delivers the nearest number. -/
theorem floatOnScalars : Obligations.FloatOnScalars :=
  ⟨fun r hr => (floatSingles_isLane1 r hr).scalars, fun r hr => (floatPairs_isLane2 r hr).scalars,
    fun r hr => (floatTriples_isLane3 r hr).scalars, addRule_holds, mulRule_holds, fmaRule_holds, divRule_holds, sqrtRule_holds,
    minMaxRule_holds⟩

end Sys2Proof.Floats
end

section
/-! SUPPORT. Memory stays in its canonical form (R131, R136): `State.Canonical` is kept by every function that a step is made of,
one lemma per function, in the order of the model's files. A lemma's proof names the functions that the model's definition applies, from
the first to the last; a function that writes no memory keeps the record's `mem` field (`State.Canonical.keep`). -/

namespace Sys2Proof.Machine

open Sys2Proof Sys2Proof.Claims

/-! ## The predicate, and what keeps it -/

/-- Memory of a state is in its canonical form (R131). -/
def State.Canonical (s : State) : Prop := Memory.wf s.mem = true

variable {s : State}

/-- A record of the same memory. -/
theorem State.Canonical.keep {agenda : List Instr} {started : List Trigger} {schedule choices : List Nat} {fresh focus : Nat}
    {poison margin : List Nat} {flights : AMap Flight} {tss : AMap ThreadSet} {tiles : AMap Tile} {clusters : AMap Cluster}
    {fields : AMap Field} {regions : AMap Region} {owners : AMap Nat} {net : List Flying} {landings : List Landing}
    {dreqs : List DramReq} {dreps : List DramRep} {tlb : List Tlb} {saves : AMap Saved} {map : TileMap} {links : Links}
    (h : s.Canonical) : (State.mk agenda started schedule choices fresh focus s.mem poison margin flights tss tiles clusters fields
      regions owners net landings dreqs dreps tlb saves map links).Canonical := h
theorem State.Canonical.either {a b : State} {c : Prop} {_ : Decidable c} (ha : a.Canonical) (hb : b.Canonical) :
    (if c then a else b).Canonical := by
  split
  · exact ha
  · exact hb
theorem State.Canonical.either_snd {α : Type} {a b : α × State} {c : Prop} {_ : Decidable c} (ha : a.2.Canonical) (hb : b.2.Canonical) :
    (if c then a else b).2.Canonical := by
  split
  · exact ha
  · exact hb
theorem State.Canonical.foldl {α : Type} {f : State → α → State} {l : List α} (h : s.Canonical)
    (hf : ∀ (s : State) x, s.Canonical → (f s x).Canonical) : (l.foldl f s).Canonical := by
  induction l generalizing s with
  | nil => exact h
  | cons x l ih => exact ih (hf s x h)
theorem State.Canonical.foldl_snd {α β : Type} {f : β × State → α → β × State} {l : List α} {b : β} (h : s.Canonical)
    (hf : ∀ p x, p.2.Canonical → (f p x).2.Canonical) : (l.foldl f (b, s)).2.Canonical :=
  List.foldlRecOn (motive := fun p => p.2.Canonical) l f h fun p hp x _ => hf p x hp
theorem State.Canonical.foldl_fst {α β : Type} {f : State × β → α → State × β} {l : List α} {b : β} (h : s.Canonical)
    (hf : ∀ p x, p.1.Canonical → (f p x).1.Canonical) : (l.foldl f (s, b)).1.Canonical :=
  List.foldlRecOn (motive := fun p => p.1.Canonical) l f h fun p hp x _ => hf p x hp
/-- The state that comes with a value. -/
theorem State.Canonical.snd {α : Type} {p : α × State} {a : α} {u : State} (h : p.2.Canonical) (e : p = (a, u)) : u.Canonical := by
  rw [e] at h
  exact h
theorem State.Canonical.snd_snd {α β : Type} {p : α × β × State} {a : α} {b : β} {u : State} (h : p.2.2.Canonical)
    (e : p = (a, b, u)) : u.Canonical := by
  rw [e] at h
  exact h
/-! ## Writes of memory -/

theorem State.Canonical.putByte (h : s.Canonical) {a : Nat} {b : Byte} : (s.putByte a b).Canonical := State.putByte_wf h a b
theorem State.Canonical.putBytes (h : s.Canonical) {a : Nat} {bs : Bytes} : (s.putBytes a bs).Canonical := State.putBytes_wf h a bs
theorem State.Canonical.putNum (h : s.Canonical) {a n v : Nat} : (s.putNum a n v).Canonical := State.putNum_wf h a n v
theorem State.Canonical.putAll (h : s.Canonical) {a : Nat} {bs : List Byte} : (s.putAll a bs).Canonical := State.putAll_wf h a bs
theorem State.Canonical.copyRange (h : s.Canonical) {a b n : Nat} : (s.copyRange a b n).Canonical := State.copyRange_wf h a b n
theorem State.Canonical.zeroRange (h : s.Canonical) {a n : Nat} : (s.zeroRange a n).Canonical := State.zeroRange_wf h a n
theorem State.Canonical.zeroPools (h : s.Canonical) {ts : List Nat} : (s.zeroPools ts).Canonical := State.zeroPools_wf h ts
theorem State.Canonical.powerOn (h : s.Canonical) : s.powerOn.Canonical := State.powerOn_wf h

/-! ## The functions of Machine/Ops.lean -/

theorem State.Canonical.setTs (h : s.Canonical) {k : Nat} {t : ThreadSet} : (s.setTs k t).Canonical := h.keep
theorem State.Canonical.updTs (h : s.Canonical) {k : Nat} {f : ThreadSet → ThreadSet} : (s.updTs k f).Canonical := h.setTs
theorem State.Canonical.setTile (h : s.Canonical) {t : Nat} {x : Tile} : (s.setTile t x).Canonical := h.keep
theorem State.Canonical.updTile (h : s.Canonical) {t : Nat} {f : Tile → Tile} : (s.updTile t f).Canonical := h.setTile
theorem State.Canonical.updCluster (h : s.Canonical) {c : Nat} {f : Cluster → Cluster} : (s.updCluster c f).Canonical := h.keep
theorem State.Canonical.updField (h : s.Canonical) {n : Nat} {f : Field → Field} : (s.updField n f).Canonical := h.keep
theorem State.Canonical.updRegion (h : s.Canonical) {r : Nat} {f : Region → Region} : (s.updRegion r f).Canonical := h.keep
theorem State.Canonical.setFlight (h : s.Canonical) {k : Nat} {f : Flight} : (s.setFlight k f).Canonical := h.keep
theorem State.Canonical.updFlight (h : s.Canonical) {k : Nat} {g : Flight → Flight} : (s.updFlight k g).Canonical := h.keep
theorem State.Canonical.dropFlight (h : s.Canonical) {k : Nat} : (s.dropFlight k).Canonical := h.keep
theorem State.Canonical.updQueue (h : s.Canonical) {q : Nat} {f : HostQueue → HostQueue} : (s.updQueue q f).Canonical := h.keep
theorem State.Canonical.updLinks (h : s.Canonical) {f : Links → Links} : (s.updLinks f).Canonical := h.keep
theorem State.Canonical.choose (h : s.Canonical) : s.choose.2.Canonical := by
  unfold State.choose
  split
  · exact h
  · exact h.keep
theorem State.Canonical.free (h : s.Canonical) : s.free.2.Canonical := h.keep
theorem State.Canonical.dramAddr (h : s.Canonical) {rgn port a : Nat} {w : Want} : (s.dramAddr rgn port a w).2.Canonical := by
  unfold State.dramAddr
  dsimp only
  split
  · exact h
  · split
    · split
      · exact h
      · split
        · exact h
        · split
          · exact h
          · exact h
    · split
      · exact h
      · split
        · exact ((either_snd h (either_snd h (either_snd h h))).snd ‹_›).keep
        · exact either_snd h (either_snd h (either_snd h h))
theorem State.Canonical.chargeRaw (h : s.Canonical) {t ctx pj : Nat} : (s.chargeRaw t ctx pj).Canonical := h.updTile
theorem State.Canonical.charge (h : s.Canonical) {t ctx cls units : Nat} : (s.charge t ctx cls units).Canonical := h.chargeRaw
theorem State.Canonical.putRecord (h : s.Canonical) {r w0 w1 w2 w3 : Nat} {force : Bool} : (s.putRecord r w0 w1 w2 w3 force).Canonical :=
  either h.putNum.putNum.putNum.putNum.updRegion h.updRegion
theorem State.Canonical.trace (h : s.Canonical) {r kind ts coord cyc w1 w2 w3 : Nat} : (s.trace r kind ts coord cyc w1 w2 w3).Canonical :=
  either h.putRecord h
theorem State.Canonical.traceTile (h : s.Canonical) {t kind ts w1 w2 w3 : Nat} : (s.traceTile t kind ts w1 w2 w3).Canonical :=
  h.trace
theorem State.Canonical.traceFw (h : s.Canonical) {r kind coord w1 w2 w3 : Nat} : (s.traceFw r kind coord w1 w2 w3).Canonical :=
  h.trace
theorem State.Canonical.tracePower (h : s.Canonical) {f code value : Nat} : (s.tracePower f code value).Canonical :=
  h.foldl fun _ _ h => either h.traceFw h
theorem State.Canonical.emit (h : s.Canonical) {src dst ts : Nat} {h0 h1 : Word} {body : List Byte} {stage edge : Option (Nat × Nat)}
    {slices : List Nat} : (s.emit src dst h0 h1 body stage edge slices ts).Canonical :=
  h.updTile.charge.traceTile.keep
theorem State.Canonical.chargeFlight (h : s.Canonical) {k : Nat} {f : Flight} : (s.chargeFlight k f).Canonical :=
  h.foldl fun _ _ h => either h.charge h.charge
theorem State.Canonical.discard (h : s.Canonical) {k : Nat} : (s.discard k).Canonical := by
  unfold State.discard
  split
  · exact h.chargeFlight.dropFlight
  · exact h
theorem State.Canonical.dropGroups (h : s.Canonical) {k : Nat} : (s.dropGroups k).Canonical := h.updTile
theorem State.Canonical.haltTs (h : s.Canonical) {k : Nat} : (s.haltTs k).Canonical := h.discard.dropGroups.updTs
theorem State.Canonical.endTrace (h : s.Canonical) {r reason : Nat} : (s.endTrace r reason).Canonical :=
  either h.putRecord.updRegion h
theorem State.Canonical.commitUpdate (h : s.Canonical) : s.commitUpdate.Canonical :=
  either h.updLinks.keep.updLinks h.updLinks.keep
theorem State.Canonical.haltTiles (h : s.Canonical) {r reason : Nat} : (s.haltTiles r reason).Canonical :=
  (h.foldl fun _ _ h => h.haltTs).endTrace.updRegion.commitUpdate
theorem State.Canonical.fwRecord (h : s.Canonical) {f : Nat} {x : FwRecord} : (s.fwRecord f x).Canonical := h.updField
theorem State.Canonical.passToken (h : s.Canonical) {r src ts : Nat} {dst : Option Nat} {h0 h1 : Word} {body : List Byte} :
    (s.passToken r src dst h0 h1 body ts).Canonical := by
  unfold State.passToken
  split
  · exact either h.fwRecord h.fwRecord.haltTiles.updRegion
  · split
    · exact h.emit
    · exact h
theorem State.Canonical.sendToken (h : s.Canonical) {u : Subject} {f : FaultInfo} {cls : Nat} {port : Bool} :
    (s.sendToken u f cls port).Canonical :=
  either h.updRegion.trace.updTile h.updRegion.trace.passToken
theorem State.Canonical.sendTokens (h : s.Canonical) {t : Nat} : (s.sendTokens t).Canonical :=
  h.updTile.foldl fun _ _ h => h.passToken
theorem State.Canonical.report (h : s.Canonical) {t : Nat} {f : FaultInfo} : (s.report t f).Canonical := h.sendToken
theorem State.Canonical.reportPort (h : s.Canonical) {rgn : Nat} {f : FaultInfo} : (s.reportPort rgn f).Canonical := h.sendToken
theorem State.Canonical.takeOne (h : s.Canonical) {k : Nat} {f : FaultInfo} : (s.takeOne k f).Canonical :=
  either h.sendToken h.discard.dropGroups.updTs.sendToken
theorem State.Canonical.takeRecorded (h : s.Canonical) {k : Nat} : (s.takeRecorded k).Canonical :=
  h.updTs.foldl fun _ _ h => h.takeOne
theorem State.Canonical.settleOne (h : s.Canonical) {k : Nat} : (s.settleOne k).Canonical := either h h.takeRecorded
theorem State.Canonical.haltRegion (h : s.Canonical) {r reason : Nat} : (s.haltRegion r reason).Canonical :=
  h.haltTiles.foldl fun _ _ h => h.settleOne
theorem State.Canonical.boundary (h : s.Canonical) {k : Nat} : (s.boundary k).Canonical :=
  either (h.takeRecorded.foldl fun _ _ h => h.settleOne) h.takeRecorded
theorem State.Canonical.settle (h : s.Canonical) {k : Nat} : (s.settle k).Canonical := either h h.boundary
theorem State.Canonical.halt (h : s.Canonical) {k : Nat} : (s.halt k).Canonical := h.haltTs.settle
theorem State.Canonical.takeFault (h : s.Canonical) {k : Nat} {f : FaultInfo} : (s.takeFault k f).Canonical := h.takeOne.settle
theorem State.Canonical.asyncFault (h : s.Canonical) {k : Nat} {f : FaultInfo} : (s.asyncFault k f).Canonical :=
  either h.updTs h.updTs.settle
theorem State.Canonical.releaseFault (h : s.Canonical) {k : Nat} : (s.releaseFault k).Canonical := h.updTs
theorem State.Canonical.freezeRecord (h : s.Canonical) {r fld kind wher ts oport target : Nat} :
    (s.freezeRecord r fld kind wher ts oport target).2.Canonical :=
  h.updRegion.fwRecord
theorem State.Canonical.freezeTs (h : s.Canonical) {k target : Nat} : (s.freezeTs k target).Canonical :=
  either h (either h.sendToken h.discard.dropGroups.freezeRecord.updTs.settle)
theorem State.Canonical.wakeAll (h : s.Canonical) : s.wakeAll.Canonical := h.keep

/-! ## The functions of Machine/Tickets.lean -/

theorem State.Canonical.diverge (h : s.Canonical) {r : Nat} : (s.diverge r).Canonical := h.updRegion.endTrace.haltRegion
theorem State.Canonical.ticket (h : s.Canonical) {r t ts kind : Nat} : (s.ticket r t ts kind).Canonical := by
  unfold State.ticket
  dsimp only
  split
  · exact h.putNum.putNum.updRegion
  · exact h.updRegion
  · exact h

/-! ## The functions of Machine/Access.lean -/

theorem State.Canonical.updBoder (h : s.Canonical) {p : Nat} {f : BoderPort → BoderPort} : (s.updBoder p f).Canonical :=
  h.updLinks
theorem State.Canonical.boderSend (h : s.Canonical) {p : Nat} {o : BoderOut} : (s.boderSend p o).Canonical := h.updBoder.updLinks
theorem State.Canonical.boderAsk (h : s.Canonical) {entry : Nat} {o : BoderOut} : (s.boderAsk entry o).2.Canonical := by
  unfold State.boderAsk
  split
  · exact h
  · exact h.boderSend.choose
theorem State.Canonical.freeBytes (h : s.Canonical) {n : Nat} : (s.freeBytes n).2.Canonical := by
  have hfold : ∀ (l : List Nat) (p : List Byte × State), p.2.Canonical →
      (l.foldl (fun (p : List Byte × State) _ => let (w, s) := p.2.free; (p.1 ++ [BitVec.ofNat 8 w.toNat], s)) p).2.Canonical := by
    intro l
    induction l with
    | nil => exact fun _ hp => hp
    | cons x l ih => exact fun p hp => ih _ hp.free
  exact hfold _ _ h
theorem State.Canonical.dramKey (h : s.Canonical) {rgn port a n : Nat} {w : Want} : (s.dramKey rgn port a n w).2.Canonical := by
  unfold State.dramKey
  split
  · split
    · dsimp only
      split
      · exact h.dramAddr.snd ‹_›
      · exact h.dramAddr.snd ‹_›
    · split
      · exact h.dramAddr.snd ‹_›
      · exact h.dramAddr.snd ‹_›
  · exact h.dramAddr.snd ‹_›
  · exact h.dramAddr.snd ‹_›
theorem State.Canonical.shareMiss (h : s.Canonical) {rgn port page : Nat} : (s.shareMiss rgn port page).Canonical := h.keep
theorem State.Canonical.dramRefused (h : s.Canonical) {told walked m : Bool} {rgn port cause a : Nat} :
    (s.dramRefused told walked rgn port cause m a).Canonical :=
  either h (either h.shareMiss h).reportPort
theorem State.Canonical.chargeDram (h : s.Canonical) {t n : Nat} {d : Dest} : (s.chargeDram t d n).Canonical := either h.charge h
theorem State.Canonical.readAt (h : s.Canonical) {t n : Nat} {d : Dest} {told : Bool} : (s.readAt t d n told).2.Canonical := by
  unfold State.readAt
  split
  · split
    · exact h
    · split
      · exact h
      · exact h.charge
  · split
    · exact h.dramKey.snd ‹_›
    · split
      · exact ((h.dramKey.snd ‹_›).boderAsk.snd ‹_›).freeBytes
      · exact ((h.dramKey.snd ‹_›).boderAsk.snd ‹_›).dramRefused
    · exact (h.dramKey.snd ‹_›).dramRefused
  · exact h
  · exact h
  · exact h
  · exact h
theorem State.Canonical.writeAt (h : s.Canonical) {t : Nat} {d : Dest} {bs : Bytes} {told : Bool} :
    (s.writeAt t d bs told).2.Canonical := by
  unfold State.writeAt
  split
  · split
    · exact h
    · split
      · exact h
      · exact h.charge.putBytes
  · split
    · exact (h.dramKey.snd ‹_›).putBytes
    · split
      · exact (h.dramKey.snd ‹_›).boderAsk.snd ‹_›
      · exact ((h.dramKey.snd ‹_›).boderAsk.snd ‹_›).dramRefused
    · exact (h.dramKey.snd ‹_›).dramRefused
  · exact h
  · exact h
  · exact h
  · exact h
theorem State.Canonical.amoAt (h : s.Canonical) {t : Nat} {d : Dest} {o : AmoOp} {told : Bool} : (s.amoAt t d o told).2.Canonical := by
  unfold State.amoAt
  dsimp only
  split
  · split
    · exact (h.dramKey.snd ‹_›).putBytes
    · rename_i e
      have hu := h.dramKey.snd e
      split
      · exact (hu.boderAsk.snd ‹_›).freeBytes
      · exact (hu.boderAsk.snd ‹_›).dramRefused
    · exact (h.dramKey.snd ‹_›).dramRefused
  · split
    · rename_i e
      have hu := h.readAt.snd e
      split
      · exact hu.writeAt.snd ‹_›
      · exact hu.writeAt
    · exact h.readAt
theorem State.Canonical.overrun (h : s.Canonical) {t off : Nat} : (s.overrun t off).Canonical := h.report
theorem State.Canonical.landingArrival (h : s.Canonical) {t off n : Nat} {flt oob : Bool} : (s.landingArrival t off n flt oob).Canonical :=
  (either h.putNum.putNum.overrun h.putNum.putNum).wakeAll

/-! ## The functions of Machine/Packets.lean -/

theorem State.Canonical.updEdge (h : s.Canonical) {r e : Nat} {f : Edge → Edge} : (s.updEdge r e f).Canonical := h.updRegion
theorem State.Canonical.updStage (h : s.Canonical) {r n : Nat} {f : Stage → Stage} : (s.updStage r n f).Canonical := h.updRegion
theorem State.Canonical.returnCredit (h : s.Canonical) {r seq : Nat} {e : Option Nat} : (s.returnCredit r e seq).Canonical := by
  unfold State.returnCredit
  split
  · exact h.updEdge
  · exact h
theorem State.Canonical.sendEdge (h : s.Canonical) {src r e ts : Nat} {h0 : Word} {body : List Byte} {keep : Bool} :
    (s.sendEdge src r e h0 body keep ts).Canonical := by
  unfold State.sendEdge
  dsimp only
  split
  · exact h
  · split
    · exact h.updEdge.updEdge
    · split
      · split
        · exact h.updEdge.emit
        · exact h.updEdge.report.returnCredit
        · exact h.updEdge.freezeRecord.updEdge
      · split
        · exact h.updEdge.emit
        · exact h.updEdge.report.returnCredit
      · split
        · exact h.updEdge.emit
        · exact h.updEdge.returnCredit
theorem State.Canonical.flushHoles (h : s.Canonical) {r e n : Nat} : (s.flushHoles r e n).Canonical := by
  induction n generalizing s with
  | zero => exact h
  | succ n ih =>
    unfold State.flushHoles
    split
    · exact h
    · exact ih h.updEdge.sendEdge
theorem State.Canonical.addHole (h : s.Canonical) {r e : Nat} {h' : Bool × Nat × Word} : (s.addHole r e h').Canonical :=
  h.updEdge.flushHoles
theorem State.Canonical.sendSource (h : s.Canonical) {r e : Nat} {h0 : Word} {body : List Byte} : (s.sendSource r e h0 body).Canonical := by
  unfold State.sendSource
  dsimp only
  split
  · split
    · split
      · exact h.updEdge.updRegion.keep
      · exact h.updEdge.returnCredit
    · exact h.updEdge.reportPort.returnCredit
    · exact h.updEdge.returnCredit
  · split
    · split
      · exact h.updEdge.updRegion.keep
      · exact h.updEdge.returnCredit
    · exact h.updEdge.reportPort.returnCredit
  · exact h.updEdge.returnCredit
theorem State.Canonical.feedSource (h : s.Canonical) {r e n : Nat} : (s.feedSource r e n).Canonical := by
  induction n generalizing s with
  | zero => exact h
  | succ n ih =>
    unfold State.feedSource
    dsimp only
    split
    · exact either (ih h.updLinks.sendSource) h
    · exact h
theorem State.Canonical.feedSources (h : s.Canonical) {r : Nat} : (s.feedSources r).Canonical := h.foldl fun _ _ h => h.feedSource
theorem State.Canonical.putMailFor (h : s.Canonical) {ctx t : Nat} {m : Mail} : (s.putMailFor ctx t m).Canonical :=
  h.putAll.charge.updTile
theorem State.Canonical.putMail (h : s.Canonical) {t : Nat} {m : Mail} : (s.putMail t m).Canonical := h.putMailFor
theorem State.Canonical.nextPos (h : s.Canonical) {t : Nat} : (s.nextPos t).2.Canonical := h.updTile
theorem State.Canonical.eatHoles (h : s.Canonical) {t port n : Nat} : (s.eatHoles t port n).Canonical := by
  induction n generalizing s with
  | zero => exact h
  | succ n ih =>
    unfold State.eatHoles
    dsimp only
    split
    · exact ih h.returnCredit.updTile
    · exact h
theorem State.Canonical.putHole (h : s.Canonical) {t port : Nat} {h0 h1 : Word} {edge : Option Nat} :
    (s.putHole t port h0 h1 edge).Canonical :=
  h.nextPos.updTile.eatHoles
theorem State.Canonical.rejectReport (h : s.Canonical) {t : Nat} {h0 h1 : Word} : (s.rejectReport t h0 h1).Canonical := h.report
theorem State.Canonical.countRecv (h : s.Canonical) {t : Nat} {h0 : Word} : (s.countRecv t h0).Canonical :=
  either h.updRegion h.updTile
theorem State.Canonical.breached (h : s.Canonical) : s.breached.2.Canonical := h.free
theorem State.Canonical.arrive (h : s.Canonical) {t : Nat} {f : Flying} : (s.arrive t f).Canonical := by
  have hn {c : Bool} {h0 : Word} : ((if c then s else s.countRecv t h0).nextPos t).2.Canonical := (either h h.countRecv).nextPos
  refine either hn.putMail (either (either ?_ ?_) (either (either hn.putMail hn.updTile) (either hn.putHole (either hn.breached ?_))))
  · exact hn.rejectReport.returnCredit.putHole
  · exact hn.rejectReport.returnCredit
  · exact (either hn.breached hn).putMail
theorem State.Canonical.sendSteal (h : s.Canonical) {r n src dst : Nat} {use : StealUse} {slices : List Nat} :
    (s.sendSteal r n src dst use slices).Canonical := by
  unfold State.sendSteal
  dsimp only
  split
  · exact h.emit
  · exact h
theorem State.Canonical.stealLeft (h : s.Canonical) {r n : Nat} : (s.stealLeft r n).Canonical :=
  (h.updStage.foldl fun _ _ h => h.sendSteal).foldl fun _ _ h => by
    split
    · exact h.sendSteal
    · exact h
theorem State.Canonical.lateSlices (h : s.Canonical) {t : Nat} {l : List Nat} : (s.lateSlices t l).Canonical := h.keep
theorem State.Canonical.stealArrival (h : s.Canonical) {f : Flying} : (s.stealArrival f).Canonical := by
  refine either h.countRecv.lateSlices.updStage.stealLeft (either ?_ ?_)
  · exact (either h.countRecv.lateSlices.updStage h.countRecv.lateSlices).updStage
  · exact (either h.countRecv.lateSlices.updStage h.countRecv.lateSlices).updStage.stealLeft.wakeAll
theorem State.Canonical.chargeRecv (h : s.Canonical) {f : Flying} : (s.chargeRecv f).Canonical := h.charge
theorem State.Canonical.packetArrival (h : s.Canonical) {n : Nat} : (s.packetArrival n).Canonical := by
  unfold State.packetArrival
  split
  · exact h
  · dsimp only
    split
    · exact h.keep.chargeRecv.charge.keep
    · split
      · exact h.keep.chargeRecv.countRecv.updStage
      · exact either h.keep.chargeRecv.stealArrival h.keep.chargeRecv.arrive
theorem State.Canonical.putRing (h : s.Canonical) {t off : Nat} {bs : List Byte} : (s.putRing t off bs).Canonical :=
  h.putAll.putAll
theorem State.Canonical.spill (h : s.Canonical) {t : Nat} {m : Mail} : (s.spill t m).Canonical :=
  h.freeBytes.putRing.charge.updTile
theorem State.Canonical.spawnAdmission (h : s.Canonical) {t : Nat} : (s.spawnAdmission t).Canonical := by
  unfold State.spawnAdmission
  split
  · exact h
  · exact (either h.countRecv.updTile.putMail h.countRecv.updTile.spill).wakeAll
theorem State.Canonical.spillReturn (h : s.Canonical) {t : Nat} : (s.spillReturn t).Canonical := by
  unfold State.spillReturn
  dsimp only
  split
  · exact either (either_snd h h.freeBytes).updTile.charge.putMail h
  · exact h
theorem State.Canonical.putFree (h : s.Canonical) {a n : Nat} : (s.putFree a n).Canonical := h.foldl fun _ _ h => h.free.putAll
theorem State.Canonical.releaseMail (h : s.Canonical) {t pos : Nat} : (s.releaseMail t pos).Canonical := by
  unfold State.releaseMail
  split
  · exact h
  · exact either h h.returnCredit.putFree.updTile.spillReturn.wakeAll
theorem State.Canonical.dropMail (h : s.Canonical) {t pos : Nat} : (s.dropMail t pos).Canonical := h.releaseMail.updTile
theorem State.Canonical.creditReturn (h : s.Canonical) {r n : Nat} : (s.creditReturn r n).Canonical := by
  unfold State.creditReturn
  split
  · exact h
  · exact h.updEdge.flushHoles.feedSource.wakeAll
theorem State.Canonical.putRoData (h : s.Canonical) {t : Nat} {ds : List (Nat × List Byte)} : (s.putRoData t ds).Canonical :=
  h.foldl fun _ _ h => h.putAll
theorem State.Canonical.freshPad (h : s.Canonical) {t : Nat} : (s.freshPad t).Canonical := either h.putFree.putRoData h
theorem State.Canonical.startTask (h : s.Canonical) {k : Nat} {m : Mail} : (s.startTask k m).Canonical :=
  h.freshPad.updTile.updTs.traceTile
theorem State.Canonical.advancePort (h : s.Canonical) {t : Nat} {m : Mail} : (s.advancePort t m).Canonical :=
  either h.updTile.eatHoles h
theorem State.Canonical.countEos (h : s.Canonical) {t : Nat} {m : Mail} {p : Port} : (s.countEos t m p).Canonical :=
  either h.advancePort.dropMail.report h.advancePort.dropMail.updTile
theorem State.Canonical.startSlice (h : s.Canonical) {k : Nat} : (s.startSlice k).Canonical := by
  unfold State.startSlice
  dsimp only
  split
  · exact h
  · split
    · exact h
    · split
      · exact h.nextPos.putMail.updStage.startTask
      · exact h.nextPos.putMail.updStage
theorem State.Canonical.startPacket (h : s.Canonical) {k : Nat} {m : Mail} : (s.startPacket k m).Canonical :=
  either h.countEos (either h.startTask.advancePort.spillReturn.wakeAll h.startTask.advancePort)
theorem State.Canonical.taskDispatch (h : s.Canonical) {k : Nat} : (s.taskDispatch k).Canonical := by
  unfold State.taskDispatch
  dsimp only
  split
  · exact h.ticket.startSlice
  · split
    · exact h.ticket.startPacket
    · exact h.ticket
theorem State.Canonical.faultDispatch (h : s.Canonical) {k : Nat} : (s.faultDispatch k).Canonical := by
  unfold State.faultDispatch
  dsimp only
  split
  · exact h
  · exact either (either h.dropMail.haltRegion h.dropMail) h.ticket.startTask
theorem State.Canonical.age (h : s.Canonical) {t pos : Nat} : (s.age t pos).Canonical := h.updTile
theorem State.Canonical.reelig (h : s.Canonical) {t pos : Nat} : (s.reelig t pos).Canonical := h.updTile
theorem State.Canonical.clamp (h : s.Canonical) {t : Nat} {h0 : Word} : (s.clamp t h0).2.Canonical := either h h.updRegion
theorem State.Canonical.countClamps (h : s.Canonical) {k : Nat} {a : Task} : (s.countClamps k a).Canonical :=
  h.foldl fun _ _ h => h.clamp
theorem State.Canonical.stageTaskEnd (h : s.Canonical) {k : Nat} {a : Task} : (s.stageTaskEnd k a).Canonical :=
  either h.updStage h
theorem State.Canonical.tryFree (h : s.Canonical) {k : Nat} : (s.tryFree k).Canonical := by
  refine either (.updTs ?_) h
  split
  · exact h.stageTaskEnd
  · exact h
theorem State.Canonical.arriveHere (h : s.Canonical) {t : Nat} : (s.arriveHere t).Canonical :=
  either (either h.packetArrival.spawnAdmission h.packetArrival) h
theorem State.Canonical.emitOut (h : s.Canonical) {k : Nat} {o : OutTok} : (s.emitOut k o).Canonical := by
  unfold State.emitOut
  dsimp only
  split
  · exact either h.addHole h.sendEdge
  · split
    · split
      · exact h.emit
      · exact h
    · split
      · exact either h.emit.arriveHere h.emit
      · exact h.rejectReport
      · exact h.freezeTs
theorem State.Canonical.drainHoles (h : s.Canonical) {k n : Nat} : (s.drainHoles k n).Canonical := by
  induction n generalizing s with
  | zero => exact h
  | succ n ih =>
    unfold State.drainHoles
    split
    · exact h
    · exact either (ih h.updTs.emitOut) h
theorem State.Canonical.completionToken (h : s.Canonical) {k : Nat} : (s.completionToken k).Canonical := by
  unfold State.completionToken
  split
  · exact h
  · exact h.updTs.emitOut.drainHoles.tryFree
theorem State.Canonical.endTask (h : s.Canonical) {k : Nat} {tokens : Bool} : (s.endTask k tokens).Canonical := by
  unfold State.endTask
  split
  · exact h
  · exact (either h.dropMail.countClamps h.dropMail).updTs.drainHoles.tryFree
theorem State.Canonical.endEpilogue (h : s.Canonical) {k : Nat} : (s.endEpilogue k).Canonical := h.updTs.tryFree.wakeAll
theorem State.Canonical.yieldTask (h : s.Canonical) {k : Nat} : (s.yieldTask k).Canonical := by
  unfold State.yieldTask
  split
  · exact h
  · exact h.updTile.updTs.tryFree

/-! ## The functions of Machine/Stages.lean -/

theorem State.Canonical.passHole (h : s.Canonical) {r n : Nat} {h0 : Word} : (s.passHole r n h0).Canonical :=
  h.foldl fun _ _ h => h.addHole
theorem State.Canonical.stageEosOut (h : s.Canonical) {r n seq : Nat} {h0 : Word} : (s.stageEosOut r n h0 seq).Canonical :=
  (h.foldl fun _ _ h => h.sendEdge).updStage
theorem State.Canonical.deal (h : s.Canonical) {r n rep : Nat} : (s.deal r n rep).Canonical := by
  unfold State.deal
  dsimp only
  split
  · exact h
  · split
    · exact h.updStage.returnCredit.updStage.passHole
    · split
      · exact h.updStage.rejectReport.returnCredit.updStage.passHole
      · split
        · exact h.updStage.returnCredit.updStage
        · split
          · exact h.updStage
          · exact h.updStage.nextPos.charge.charge.putMail.updStage.updStage
theorem State.Canonical.stageEos (h : s.Canonical) {r n : Nat} : (s.stageEos r n).Canonical := by
  unfold State.stageEos
  split
  · exact h.stageEosOut
  · exact h
theorem State.Canonical.takeToken (h : s.Canonical) {r n : Nat} : (s.takeToken r n).Canonical := by
  unfold State.takeToken
  dsimp only
  split
  · exact h
  · refine either h.returnCredit.updStage (either h.returnCredit.updStage.rejectReport (either ?_ ?_))
    · exact h.returnCredit.updStage.updStage
    · exact h.returnCredit.updStage.updStage
theorem State.Canonical.ask (h : s.Canonical) {t : Nat} : (s.ask t).Canonical := h.updStage.sendSteal
theorem State.Canonical.takeSlices (h : s.Canonical) {r n owner : Nat} {l : List Nat} : (s.takeSlices r n owner l).Canonical :=
  h.updStage
theorem State.Canonical.serve (h : s.Canonical) {t : Nat} : (s.serve t).Canonical := by
  unfold State.serve
  dsimp only
  split
  · exact h
  · exact h.updStage.takeSlices.sendSteal.wakeAll
theorem State.Canonical.cross (h : s.Canonical) {r n f : Nat} : (s.cross r n f).Canonical := by
  unfold State.cross
  dsimp only
  split
  · exact h.takeSlices.sendSteal
  · exact h
theorem State.Canonical.rangeEos (h : s.Canonical) {r n : Nat} : (s.rangeEos r n).Canonical := by
  unfold State.rangeEos
  dsimp only
  split
  · exact h.stageEosOut
  · exact h
theorem State.Canonical.harvest (h : s.Canonical) {r : Nat} {final : Bool} : (s.harvest r final).Canonical :=
  h.foldl fun _ _ h => h.updTile.updRegion
theorem State.Canonical.storeCompletion (h : s.Canonical) {r : Nat} : (s.storeCompletion r).Canonical := by
  unfold State.storeCompletion
  dsimp only
  split
  · exact h.putNum
  · split
    · split
      · exact (h.dramKey.snd ‹_›).putNum
      · split
        · exact (h.dramKey.snd ‹_›).boderAsk.snd ‹_›
        · exact ((h.dramKey.snd ‹_›).boderAsk.snd ‹_›).dramRefused
      · exact (h.dramKey.snd ‹_›).dramRefused
    · exact h
theorem State.Canonical.complete (h : s.Canonical) {r : Nat} : (s.complete r).Canonical :=
  h.storeCompletion.harvest.updRegion.commitUpdate
theorem State.Canonical.dormancy (h : s.Canonical) {r : Nat} : (s.dormancy r).Canonical :=
  either h.updRegion (either h.updRegion (either h.updRegion (either h h.updRegion.commitUpdate.sendToken)))

/-! ## The functions of Machine/Migrate.lean -/

theorem State.Canonical.moveContext (h : s.Canonical) {src dst c : Nat} : (s.moveContext src dst c).Canonical :=
  (((h.foldl fun _ _ h => h.discard).copyRange.zeroPools.charge.charge.charge.charge.foldl
    fun _ _ h => h.setTs.setTs).setTile.updTile.keep.updRegion.foldl fun _ _ h => h.settle).wakeAll
theorem State.Canonical.migrate (h : s.Canonical) {src dst : Nat} : (s.migrate src dst).Canonical := h.moveContext
theorem State.Canonical.leaveRegion (h : s.Canonical) {r t : Nat} : (s.leaveRegion r t).Canonical := either h h.updRegion.updTile
theorem State.Canonical.resettle (h : s.Canonical) {r c : Nat} {old new : Option Nat} : (s.resettle r c old new).Canonical := by
  unfold State.resettle
  split
  · exact h
  · cases new with
    | none =>
      cases old with
      | none => exact h
      | some t => exact h.leaveRegion
    | some d =>
      cases old with
      | none => exact either h h.updTile
      | some t => exact (either (either h h.updTile).moveContext (either h h.updTile)).leaveRegion

/-! ## The functions of Machine/Csr.lean -/

theorem State.Canonical.trim (h : s.Canonical) {t : Nat} : (s.trim t).Canonical := h.updTile
theorem State.Canonical.push (h : s.Canonical) {i : Trigger} : (s.push i).Canonical := h.keep
theorem State.Canonical.csrStore (h : s.Canonical) {t n : Nat} {v : Word} : (s.csrStore t n v).Canonical := by
  unfold State.csrStore
  split
  · exact h.updTile
  · exact h.updCluster
  · exact h.updField
  · exact h.updRegion
  · exact h
theorem State.Canonical.untrimmed (h : s.Canonical) {f code : Nat} : (s.untrimmed f code).Canonical :=
  either h (h.foldl fun _ _ h => h.updTile)
theorem State.Canonical.setEntry (h : s.Canonical) {t want : Nat} : (s.setEntry t want).Canonical := h.updTile.trim
theorem State.Canonical.setRatio (h : s.Canonical) {c code : Nat} : (s.setRatio c code).Canonical := by
  unfold State.setRatio
  split
  · exact h
  · dsimp only
    split
    · exact (h.updCluster.foldl fun _ _ h => h.updTile).traceFw
    · exact h.updCluster.foldl fun _ _ h => h.updTile
theorem State.Canonical.subdataWrite (h : s.Canonical) {r : Nat} {v : Word} : (s.subdataWrite r v).Canonical :=
  either (either h (h.updRegion.foldl fun _ _ h => h.resettle)) h
theorem State.Canonical.trlHalt (h : s.Canonical) {c reason : Nat} : (s.trlHalt c reason).Canonical :=
  either h (either ((h.updCluster.foldl fun _ _ h => h.discard.dropGroups.updTs).foldl fun _ _ h => h.push)
    (h.updCluster.foldl fun _ _ h => h.discard.dropGroups.updTs))
theorem State.Canonical.trlResume (h : s.Canonical) {c : Nat} : (s.trlResume c).Canonical :=
  either (h.updCluster.foldl fun _ _ h => h.updTs.settle).wakeAll h
theorem State.Canonical.stepGo (h : s.Canonical) {c : Nat} {v : Word} : (s.stepGo c v).Canonical := either h h.updCluster.updTs
theorem State.Canonical.traceOpen (h : s.Canonical) {r : Nat} {v : Word} : (s.traceOpen r v).Canonical := either h h.updRegion
theorem State.Canonical.rootStart (h : s.Canonical) {r : Nat} {v : Word} : (s.rootStart r v).Canonical := either h h.updRegion
theorem State.Canonical.csrWrite (h : s.Canonical) {t n : Nat} {v : Word} : (s.csrWrite t n v).Canonical := by
  unfold State.csrWrite
  dsimp only
  split
  · exact h.updRegion
  · exact h.subdataWrite
  · exact either h.push (either h.push h)
  · exact h.untrimmed.updField
  · exact h.setRatio
  · exact h.setEntry
  · exact h.updField
  · exact h.updField.foldl fun _ _ h => h.setRatio
  · exact h
  · exact h
  · exact either h (either h.csrStore (either h.csrStore.trlHalt (either h.csrStore.trlResume h.csrStore)))
  · exact either h.stepGo h
  · exact either h.traceOpen (either h.csrStore.endTrace h.csrStore)
  · exact either h h.csrStore
  · exact either h h.csrStore
  · exact either h (either h.csrStore.rootStart h.csrStore)
  · exact either h h.csrStore
  · exact h.csrStore

/-! ## The functions of Machine/Fire.lean -/

theorem State.Canonical.invalidate (h : s.Canonical) {a : Word} {ctx : Nat} : (s.invalidate a ctx).Canonical := h.keep
theorem State.Canonical.applySide (h : s.Canonical) {side : Option Side} : (s.applySide side).Canonical := by
  unfold State.applySide
  split
  · exact h.foldl fun _ _ h => h.halt
  · exact h.invalidate
  · exact h
  · exact h

/-! ## The functions of Machine/Remote.lean -/

theorem State.Canonical.csrStoreAt (h : s.Canonical) {t d n : Nat} {bs : Bytes} : (s.csrStoreAt t d n bs).2.Canonical := by
  unfold State.csrStoreAt
  dsimp only
  split
  · exact either h.csrWrite h
  · exact h
theorem State.Canonical.performEntry (h : s.Canonical) {k : Nat} {e : JEntry} : (s.performEntry k e).2.Canonical := by
  unfold State.performEntry
  dsimp only
  split
  · exact h.amoAt
  · exact h.amoAt
  · exact h.csrStoreAt
  · exact h.writeAt
theorem State.Canonical.portServed (h : s.Canonical) {d : Dest} : (s.portServed d).Canonical := by
  unfold State.portServed
  split
  · exact h
  · exact h.keep
theorem State.Canonical.chargeHops (h : s.Canonical) {t n : Nat} {d : Dest} : (s.chargeHops t d n).Canonical := by
  unfold State.chargeHops
  dsimp only
  split
  · exact h.charge.charge
  · exact h.charge.charge
  · exact h.charge
theorem State.Canonical.collAdded (h : s.Canonical) {r port a : Nat} {own : Bool} : (s.collAdded r port a own).Canonical := by
  unfold State.collAdded
  split
  · exact h.updLinks
  · exact h
theorem State.Canonical.remotePerform (h : s.Canonical) {k n : Nat} : (s.remotePerform k n).Canonical := by
  unfold State.remotePerform
  dsimp only
  split
  · exact h
  · split
    · rename_i e
      have hu := h.ticket.chargeHops.portServed.performEntry.snd e
      split
      · exact either hu.updTs.collAdded hu.updTs
      · exact hu.updTs
    · exact (h.ticket.chargeHops.portServed.performEntry.snd ‹_›).updTs
theorem State.Canonical.drainSends (h : s.Canonical) {k n : Nat} : (s.drainSends k n).Canonical := by
  induction n generalizing s with
  | zero => exact h
  | succ n ih =>
    unfold State.drainSends
    split
    · exact either (ih h.updTs.emitOut) h
    · exact h
theorem State.Canonical.chargeEntry (h : s.Canonical) {k n : Nat} : (s.chargeEntry k n).Canonical := by
  unfold State.chargeEntry
  split
  · exact either h.charge h
  · exact h
theorem State.Canonical.journalAck (h : s.Canonical) {k n : Nat} : (s.journalAck k n).Canonical :=
  h.chargeEntry.updTs.drainSends.tryFree.wakeAll
theorem State.Canonical.journalRefusal (h : s.Canonical) {k n : Nat} : (s.journalRefusal k n).Canonical := by
  unfold State.journalRefusal
  split
  · exact h
  · exact (either h.discard h).updTs.asyncFault.wakeAll
theorem State.Canonical.amoReply (h : s.Canonical) {k n : Nat} : (s.amoReply k n).Canonical := by
  unfold State.amoReply
  split
  · exact h
  · exact h.ticket.chargeEntry.updTs.tryFree.wakeAll
theorem State.Canonical.postEntry (h : s.Canonical) {k n : Nat} : (s.postEntry k n).Canonical := h.updTs
theorem State.Canonical.loadAt (h : s.Canonical) {t n : Nat} {a : Word} {told : Bool} : (s.loadAt t a n told).2.Canonical := by
  unfold State.loadAt
  split
  · split
    · exact h
    · exact h
  · exact h.readAt
theorem State.Canonical.loadService (h : s.Canonical) {k ix : Nat} : (s.loadService k ix).Canonical := by
  unfold State.loadService
  split
  · exact h
  · split
    · exact h
    · exact h.ticket.chargeHops.portServed.loadAt.updFlight
theorem State.Canonical.ldrReply (h : s.Canonical) {k ix : Nat} : (s.ldrReply k ix).Canonical := by
  unfold State.ldrReply
  split
  · exact h
  · split
    · exact h
    · exact either h.setFlight.charge h.setFlight

/-! ## The functions of Machine/DramUnit.lean -/

theorem State.Canonical.dramreq (h : s.Canonical) {n : Nat} : (s.dramreq n).Canonical := by
  unfold State.dramreq
  split
  · exact h
  · exact h.keep.updRegion.returnCredit
theorem State.Canonical.dramAddrOf (h : s.Canonical) {q : DramReq} : (s.dramAddrOf q).2.Canonical := h.dramAddr
theorem State.Canonical.translationWalk (h : s.Canonical) {n : Nat} : (s.translationWalk n).Canonical := by
  unfold State.translationWalk
  split
  · exact h
  · dsimp only
    split
    · exact (h.foldl fun _ _ h => h.dramAddrOf).keep.dramRefused
    · exact (h.foldl fun _ _ h => h.dramAddrOf).keep
theorem State.Canonical.shareLine (h : s.Canonical) {port l : Nat} : (s.shareLine port l).Canonical := h.keep
theorem State.Canonical.dramOutcome (h : s.Canonical) {d : DramReq} : (s.dramOutcome d).2.2.Canonical := by
  unfold State.dramOutcome
  dsimp only
  split
  · exact h
  · split
    · exact h
    · exact h
    · split
      · split
        · split
          · exact h.boderAsk.snd ‹_›
          · exact (h.boderAsk.snd ‹_›).freeBytes
        · exact h.boderAsk.snd ‹_›
      · split
        · exact h
        · split
          · exact h.foldl fun _ _ h => either h h.shareLine
          · exact h.putAll
          · exact either h.putNum.collAdded h.putNum
theorem State.Canonical.dramPerform (h : s.Canonical) {n : Nat} : (s.dramPerform n).Canonical := by
  unfold State.dramPerform
  split
  · exact h
  · rename_i d _
    have hu := h.dramOutcome (d := d)
    generalize s.dramOutcome d = q at hu ⊢
    obtain ⟨cause, data, u⟩ := q
    dsimp only
    split
    · exact (State.Canonical.keep hu).portServed.updRegion
    · exact either (State.Canonical.keep hu).portServed.updRegion.dramRefused (State.Canonical.keep hu).portServed.updRegion
theorem State.Canonical.landingRefused (h : s.Canonical) {t off : Nat} {a : Word} : (s.landingRefused t off a).Canonical :=
  h.report
theorem State.Canonical.dramrep (h : s.Canonical) {n : Nat} : (s.dramrep n).Canonical := by
  unfold State.dramrep
  split
  · exact h
  · dsimp only
    generalize hv : State.charge (State.charge _ _ _ 13 _) _ _ 8 _ = v
    have hc : v.Canonical := by
      rw [← hv]
      exact h.keep.updTile.charge.charge
    have hw {c c' : Prop} {_ : Decidable c} {_ : Decidable c'} {k t a : Nat} {w : Word} {bs : List Byte} :
        (if c then (if c' then v.putAll k bs else v).landingRefused t a w else if c' then v.putAll k bs else v).Canonical :=
      either (either hc.putAll hc).landingRefused (either hc.putAll hc)
    exact either (either hw.keep (either hw hw.landingRefused)) (either hc.nextPos.rejectReport hc.nextPos.putMail)
theorem State.Canonical.readPage (h : s.Canonical) {t p o n : Nat} {missed : List Nat} : (s.readPage t p o n missed).2.Canonical := by
  unfold State.readPage
  split
  · exact (h.readAt.snd ‹_›).chargeDram
  · exact h.readAt
theorem State.Canonical.readRun (h : s.Canonical) {t home n : Nat} {a : Word} {missed : List Nat} :
    (s.readRun t home a n missed).2.Canonical := by
  unfold State.readRun
  split
  · exact h
  · rename_i p o _
    have hu : ((s.chargeHops t (.dram p o) n).portServed (.dram p o)).Canonical := h.chargeHops.portServed
    generalize (s.chargeHops t (.dram p o) n).portServed (.dram p o) = u at hu ⊢
    dsimp only
    split
    · exact hu.readPage
    · split
      · rename_i e
        have hv := hu.readPage.snd e
        split
        · exact hv.readPage.snd ‹_›
        · exact hv.readPage
      · exact hu.readPage
  · exact h.chargeHops.readAt
theorem State.Canonical.writeRun (h : s.Canonical) {t home : Nat} {a : Word} {bs : Bytes} {missed : List Nat} :
    (s.writeRun t home a bs missed).2.Canonical := by
  unfold State.writeRun
  split
  · exact h
  · dsimp only
    split
    · exact (h.chargeHops.portServed.writeAt.snd ‹_›).chargeDram
    · exact h.chargeHops.portServed.writeAt
theorem State.Canonical.gatherIndex (h : s.Canonical) {t home r : Nat} {d : CopyDesc} {missed : List Nat} :
    (s.gatherIndex t home d r missed).2.Canonical := by
  unfold State.gatherIndex
  split
  · exact h.readRun
  · exact h
theorem State.Canonical.rowIndex (h : s.Canonical) {t r : Nat} {c : Copy} : (s.rowIndex t c r).2.Canonical := by
  unfold State.rowIndex
  split
  · exact h
  · exact h
  · exact h.gatherIndex
theorem State.Canonical.copySettle (h : s.Canonical) {k id : Nat} : (s.copySettle k id).Canonical := by
  unfold State.copySettle
  split
  · exact h
  · exact either h.ticket.updTs.wakeAll h
theorem State.Canonical.copyFault (h : s.Canonical) {k sub a flags : Nat} {c : Copy} : (s.copyFault k c sub a flags).Canonical :=
  h.asyncFault
theorem State.Canonical.copyPost (h : s.Canonical) {k n : Nat} {c : Copy} {flt oob : Bool} : (s.copyPost k c n flt oob).Canonical := by
  unfold State.copyPost
  split
  · exact h
  · split
    · exact either h.updTs.keep h.copyFault
    · exact h.copyFault
    · exact h.copyFault
theorem State.Canonical.pieceRefused (h : s.Canonical) {k cause a flags n : Nat} {c : Copy} {stray : Option Nat} {fill : Bool} :
    (s.pieceRefused k c stray cause a flags n fill).Canonical := by
  refine .copyPost ?_
  split
  · exact h.freezeTs
  · exact h.copyFault
theorem State.Canonical.copyPiece (h : s.Canonical) {k id pc : Nat} : (s.copyPiece k id pc).Canonical := by
  unfold State.copyPiece
  dsimp only
  split
  · exact h
  · refine .copySettle ?_
    generalize hi : (State.updTs _ _ _).rowIndex _ _ _ = i
    have hu : i.2.Canonical := by
      rw [← hi]
      exact h.updTs.rowIndex
    have hv {f : ThreadSet → ThreadSet} : (i.2.updTs k f).Canonical := hu.updTs
    split
    · split
      · exact hv.pieceRefused
      · exact hv
    · split
      · exact hv
      · rename_i p _
        generalize hg : (if p.fill = true then (_, _) else _ : Got × State) = g
        have hw : g.2.Canonical := by
          rw [← hg]
          exact either_snd hv hv.readRun
        split
        · exact hw.pieceRefused
        · have hx {c : Prop} {_ : Decidable c} {bs : List Byte} {n : Nat} :
              (if c then g.2.freeBytes n else (bs, g.2)).2.Canonical := either_snd hw.freeBytes hw
          split
          · exact (hx.writeRun.snd ‹_›).copyPost
          · exact (hx.writeRun.snd ‹_›).pieceRefused
theorem State.Canonical.land (h : s.Canonical) {n : Nat} : (s.land n).Canonical := by
  unfold State.land
  split
  · exact h
  · dsimp only
    split
    · exact h.keep.ticket.landingArrival.updTs.copySettle
    · exact h.keep.ticket.landingArrival

/-! ## The functions of Machine/Faulting.lean -/

theorem State.Canonical.repairReport (h : s.Canonical) {k : Nat} {c : Cause} : (s.repairReport k c).Canonical := h.sendToken
theorem State.Canonical.withRepair (h : s.Canonical) {k action : Nat} {act : Mail → State → State}
    (hf : ∀ m (s : State), s.Canonical → (act m s).Canonical) : (s.withRepair k action act).Canonical := by
  unfold State.withRepair
  split
  · exact h
  · dsimp only
    split
    · exact either (hf _ _ h.dropMail) h.dropMail.repairReport
    · exact h.dropMail.repairReport
theorem State.Canonical.resumeTs (h : s.Canonical) {k : Nat} : (s.resumeTs k).Canonical := h.releaseFault.updTs.tryFree
theorem State.Canonical.resumeWith (h : s.Canonical) {k : Nat} {m : Mail} : (s.resumeWith k m).Canonical := h.updTs.resumeTs
theorem State.Canonical.fetchCode (h : s.Canonical) {t n : Nat} {a : Word} : (s.fetchCode t a n).2.Canonical := by
  unfold State.fetchCode
  split
  · exact h
  · split
    · exact h.dramKey.snd ‹_›
    · exact h.dramKey.snd ‹_›
    · exact h.dramKey.snd ‹_›
theorem State.Canonical.skipBlock (h : s.Canonical) {k : Nat} : (s.skipBlock k).Canonical := by
  unfold State.skipBlock
  split
  · exact h
  · split
    · exact h.repairReport
    · split
      · split
        · exact h.updTs.resumeTs
        · exact h.repairReport
      · exact h.resumeTs
theorem State.Canonical.epilogueKilled (h : s.Canonical) {owner : Nat} : (s.epilogueKilled owner).Canonical := h.updTs
theorem State.Canonical.killTask (h : s.Canonical) {k : Nat} : (s.killTask k).Canonical := by
  unfold State.killTask
  dsimp only
  split
  · split
    · exact h.releaseFault.updTs.epilogueKilled.endEpilogue
    · exact either h.releaseFault.updTs.drainSends.tryFree h.releaseFault.updTs.endTask
  · exact h.releaseFault.updTs
theorem State.Canonical.repairMigrate (h : s.Canonical) {k : Nat} {m : Mail} : (s.repairMigrate k m).Canonical := by
  unfold State.repairMigrate
  dsimp only
  split
  · exact either h.migrate.resumeTs h.repairReport
  · exact h.repairReport
theorem State.Canonical.repairAct (h : s.Canonical) {k a : Nat} {m : Mail} : (s.repairAct k m a).Canonical := by
  unfold State.repairAct
  split
  · exact h.resumeTs
  · exact h.resumeWith
  · exact h.skipBlock
  · exact h.killTask
  · exact h.repairMigrate
  · exact h.haltRegion
theorem State.Canonical.thawPort (h : s.Canonical) {p : Nat} : (s.thawPort p).Canonical := h.updLinks
theorem State.Canonical.thawRequester (h : s.Canonical) {n : Nat} : (s.thawRequester n).Canonical := either h.updQueue h.thawPort
theorem State.Canonical.frzConvert (h : s.Canonical) {r n : Nat} : (s.frzConvert r n).Canonical := by
  unfold State.frzConvert
  dsimp only
  split
  · exact h
  · split
    · split
      · exact h.updRegion.updTs.takeFault
      · exact h.updRegion
    · exact h.updRegion.updRegion
    · exact h.updRegion.thawRequester
theorem State.Canonical.frzKill (h : s.Canonical) {r n : Nat} : (s.frzKill r n).Canonical := by
  unfold State.frzKill
  split
  · exact either h.haltRegion.updRegion.thawRequester h.haltRegion.updRegion
  · exact h
theorem State.Canonical.cutRequest (h : s.Canonical) {r why : Nat} : (s.cutRequest r why).Canonical :=
  h.updRegion.foldl fun _ _ h => either h.updTile.updCluster h.updTile
theorem State.Canonical.closeBoundary (h : s.Canonical) {r : Nat} : (s.closeBoundary r).Canonical :=
  h.foldl fun _ _ h => h.updCluster
theorem State.Canonical.tileStopped (h : s.Canonical) {t : Nat} : (s.tileStopped t).Canonical :=
  (h.foldl fun _ _ h => h.discard.dropGroups.updTs).updTile
theorem State.Canonical.cutClose (h : s.Canonical) {r : Nat} : (s.cutClose r).Canonical := h.updRegion
theorem State.Canonical.sendHeld (h : s.Canonical) {r : Nat} : (s.sendHeld r).Canonical :=
  (((h.foldl fun _ _ h => h.drainSends.tryFree).foldl fun _ _ h => h.flushHoles).foldl fun _ _ h => h.stealLeft).feedSources
theorem State.Canonical.cutEnd (h : s.Canonical) {r : Nat} : (s.cutEnd r).Canonical :=
  h.updRegion.closeBoundary.foldl fun _ _ h => h.updTile.foldl fun _ _ h => h.updTs
theorem State.Canonical.cutResume (h : s.Canonical) {r : Nat} : (s.cutResume r).Canonical :=
  (h.cutEnd.foldl fun _ _ h => h.updTile.sendTokens.foldl fun _ _ h => h.settle).sendHeld.wakeAll
theorem State.Canonical.uncorrectable (h : s.Canonical) {frame : Bool} {n : Nat} : (s.uncorrectable frame n).Canonical :=
  either (either (either h.updField h).updField.tracePower (either h.updField h)).takeFault.updTs.keep
    (either (either h.updField h).updField.tracePower (either h.updField h)).keep
theorem State.Canonical.correctable (h : s.Canonical) {f : Nat} : (s.correctable f).Canonical := h.updField

/-! ## The functions of Machine/Streams.lean -/

theorem State.Canonical.streamRead (h : s.Canonical) {t n : Nat} {a : Word} : (s.streamRead t a n).2.Canonical := by
  unfold State.streamRead
  split
  · exact h
  · split
    · exact h.readAt.snd ‹_›
    · exact h.readAt.snd ‹_›
theorem State.Canonical.elemAddr (h : s.Canonical) {t n : Nat} {d : StreamDesc} : (s.elemAddr t d n).2.Canonical := by
  unfold State.elemAddr
  split
  · exact h
  · dsimp only
    split
    · exact h.streamRead.snd ‹_›
    · exact h.streamRead.snd ‹_›
  · exact h
theorem State.Canonical.delayLine (h : s.Canonical) {t : Nat} {d : StreamDesc} : (s.delayLine t d).Canonical := h.putFree
theorem State.Canonical.fetchElem (h : s.Canonical) {t k n : Nat} {d : StreamDesc} : (s.fetchElem t k d n).2.Canonical := by
  unfold State.fetchElem
  dsimp only
  split
  · exact h
  · split
    · exact h.elemAddr.snd ‹_›
    · split
      · exact either ((h.elemAddr.snd ‹_›).streamRead.snd ‹_›).updTile ((h.elemAddr.snd ‹_›).streamRead.snd ‹_›)
      · exact (h.elemAddr.snd ‹_›).streamRead.snd ‹_›
theorem State.Canonical.fetchLanes (h : s.Canonical) {t k pos n : Nat} {d : StreamDesc} : (s.fetchLanes t k d pos n).2.2.Canonical := by
  induction n with
  | zero => exact h
  | succ n ih =>
    unfold State.fetchLanes
    dsimp only
    split
    · exact ih
    · split
      · exact ih.fetchElem.snd ‹_›
      · exact ih.fetchElem.snd ‹_›
theorem State.Canonical.streamFetch (h : s.Canonical) {t k : Nat} : (s.streamFetch t k).Canonical := by
  unfold State.streamFetch
  split
  · exact h
  · exact h.fetchLanes.updTile.wakeAll
theorem State.Canonical.appendRefused (h : s.Canonical) {t k cause : Nat} {z : Slot} {now m : Bool} {a : Word} :
    (s.appendRefused t k z now a cause m).Canonical :=
  either (either h.updTile.discard h.updTile).updTs (either h.updTile.discard h.updTile).asyncFault
theorem State.Canonical.writeAppend (h : s.Canonical) {t k n : Nat} {z : Slot} {now : Bool} {bs : List Byte} :
    (s.writeAppend t k z now n bs).Canonical := by
  unfold State.writeAppend
  split
  · exact (h.elemAddr.snd ‹_›).appendRefused
  · split
    · exact (h.elemAddr.snd ‹_›).appendRefused
    · split
      · exact (h.elemAddr.snd ‹_›).writeAt.snd ‹_›
      · exact ((h.elemAddr.snd ‹_›).writeAt.snd ‹_›).appendRefused
theorem State.Canonical.appendWrite (h : s.Canonical) {t k : Nat} : (s.appendWrite t k).Canonical := by
  unfold State.appendWrite
  split
  · exact h
  · split
    · exact h
    · exact h.updTile.writeAppend.wakeAll

/-! ## The functions of Machine/Power.lean -/

theorem State.Canonical.railStep (h : s.Canonical) {f : Nat} : (s.railStep f).Canonical := h.updField
theorem State.Canonical.safeUpdate (h : s.Canonical) {f code : Nat} : (s.safeUpdate f code).Canonical := h.updField
theorem State.Canonical.undervolt (h : s.Canonical) {f : Nat} : (s.undervolt f).Canonical := h.updField
theorem State.Canonical.gate (h : s.Canonical) {f : Nat} : (s.gate f).Canonical := h.updField.tracePower
theorem State.Canonical.release (h : s.Canonical) {f : Nat} : (s.release f).Canonical :=
  (h.updField.tracePower.foldl fun _ _ h => h.sendHeld).wakeAll
theorem State.Canonical.setCap (h : s.Canonical) {t cap : Nat} : (s.setCap t cap).Canonical := h.updTile.trim
theorem State.Canonical.stepCapsOf (h : s.Canonical) {ts : List Nat} {f : Nat → Nat → Nat} : (s.stepCapsOf ts f).Canonical :=
  (h.foldl fun _ _ h => h.setCap).foldl fun _ _ h => by
    split
    · exact h.traceFw
    · exact h
theorem State.Canonical.stepCaps (h : s.Canonical) {r : Nat} {f : Nat → Nat → Nat} : (s.stepCaps r f).Canonical := h.stepCapsOf
theorem State.Canonical.coolant (h : s.Canonical) {inlet : Nat} : (s.coolant inlet).Canonical := h.choose.stepCapsOf.updLinks
theorem State.Canonical.slackOf (h : s.Canonical) {r : Nat} : (s.slackOf r).2.Canonical := by
  unfold State.slackOf
  dsimp only
  split
  · exact h.choose
  · exact h
theorem State.Canonical.slack (h : s.Canonical) {r : Nat} : (s.slack r).Canonical := by
  refine either ?_ (either h.slackOf.updLinks.updRegion (either ?_ h.slackOf.updLinks.updRegion))
  · exact h.slackOf.updLinks.stepCapsOf.updRegion.updRegion
  · exact h.slackOf.updLinks.stepCapsOf.updRegion.updRegion
theorem State.Canonical.billback (h : s.Canonical) : s.billback.Canonical := by
  refine .updLinks (h.foldl fun _ _ h => ?_)
  split
  · exact h
  · exact h.boderSend
theorem State.Canonical.billReceive (h : s.Canonical) {ctx nj : Nat} : (s.billReceive ctx nj).Canonical :=
  either h.keep (either h.keep h.updRegion)
theorem State.Canonical.joinStage (h : s.Canonical) {r n c : Nat} : (s.joinStage r n c).Canonical := by
  unfold State.joinStage
  dsimp only
  split
  · exact h
  · exact h.updTile.putRoData.updStage
theorem State.Canonical.joinIfIdle (h : s.Canonical) {t : Nat} : (s.joinIfIdle t).Canonical := by
  unfold State.joinIfIdle
  dsimp only
  split
  · exact either h.joinStage h
  · exact h
theorem State.Canonical.passEntries (h : s.Canonical) {t : Nat} : (s.passEntries t).Canonical := either h h.updTile
theorem State.Canonical.tileCycle (h : s.Canonical) {t : Nat} : (s.tileCycle t).Canonical :=
  h.chargeRaw.updTile.updRegion.passEntries.joinIfIdle
theorem State.Canonical.removeReplica (h : s.Canonical) {r n c : Nat} : (s.removeReplica r n c).Canonical := by
  unfold State.removeReplica
  dsimp only
  split
  · exact ((either h.updStage h.updStage.sendSteal).foldl fun _ _ h => h.sendSteal).updTile.foldl fun _ _ h => h.nextPos.putMail
  · exact (either h.updStage h.updStage.sendSteal).foldl fun _ _ h => h.sendSteal
theorem State.Canonical.reassign (h : s.Canonical) {r c rcv : Nat} {old : Option Nat} : (s.reassign r c rcv old).Canonical := by
  cases old with
  | none =>
    unfold State.reassign
    dsimp only
    split
    · exact h.traceFw.updRegion.updStage.joinIfIdle
    · exact h.traceFw.updRegion.updStage
  | some n =>
    unfold State.reassign
    dsimp only
    split
    · exact h.removeReplica.traceFw.updRegion.updStage.joinIfIdle
    · exact h.removeReplica.traceFw.updRegion.updStage
theorem State.Canonical.pairStages (h : s.Canonical) {r pipe n : Nat} {moved : List Nat} : (s.pairStages r pipe moved n).Canonical := by
  induction n generalizing s moved with
  | zero => exact h
  | succ n ih =>
    unfold State.pairStages
    dsimp only
    split
    · exact h
    · split
      · exact ih h.reassign
      · split
        · exact ih h.reassign
        · exact h
theorem State.Canonical.evacuate (h : s.Canonical) {r : Nat} : (s.evacuate r).Canonical :=
  h.foldl fun _ _ h => h.foldl fun _ _ h => by
    dsimp only
    split
    · exact h.migrate.traceFw.updRegion
    · exact h.traceFw
theorem State.Canonical.boostAssign (h : s.Canonical) : s.boostAssign.Canonical :=
  (h.foldl fun _ _ h => either h.setRatio h).foldl fun _ _ h => either h h.setRatio
theorem State.Canonical.enforcePmax (h : s.Canonical) {r : Nat} : (s.enforcePmax r).Canonical :=
  either (either (h.updRegion.foldl fun _ _ h => h.traceFw) h.updRegion.stepCaps) (either h.updRegion.stepCaps h.updRegion)
theorem State.Canonical.interval (h : s.Canonical) {r : Nat} : (s.interval r).Canonical :=
  (either ((h.updRegion.foldl fun _ _ h => h.updTile).foldl fun _ _ h => h.pairStages).evacuate
    (h.updRegion.foldl fun _ _ h => h.updTile)).boostAssign.enforcePmax.updRegion

/-! ## The functions of Machine/Tasks.lean -/

theorem State.Canonical.sendNow (h : s.Canonical) {k : Nat} {o : OutTok} : (s.sendNow k o).Canonical := either h.emitOut h.updTs
theorem State.Canonical.chargePayload (h : s.Canonical) {k : Nat} {h0 : Word} : (s.chargePayload k h0).Canonical := h.charge
theorem State.Canonical.stepSends (h : s.Canonical) {k oport : Nat} {h0 : Word} {body : List Byte} :
    (s.stepSends k oport h0 body).Canonical :=
  either h.updCluster h
theorem State.Canonical.commitSend (h : s.Canonical) {k oport : Nat} {h0 a : Word} : (s.commitSend k oport h0 a).Canonical :=
  (either h.chargePayload.clamp.stepSends.updTs h.chargePayload.clamp.stepSends).sendNow
theorem State.Canonical.commitSpawn (h : s.Canonical) {k : Nat} {h0 h1 a : Word} : (s.commitSpawn k h0 h1 a).Canonical :=
  h.chargePayload.clamp.sendNow
theorem State.Canonical.commitEos (h : s.Canonical) {k oport : Nat} : (s.commitEos k oport).Canonical := by
  unfold State.commitEos
  dsimp only
  split
  · exact h
  · exact h.updEdge.clamp.sendNow
theorem State.Canonical.commitSteal (h : s.Canonical) {k n : Nat} {remain : List Nat} : (s.commitSteal k n remain).Canonical := by
  unfold State.commitSteal
  dsimp only
  split
  · exact h
  · split
    · exact h.updStage.takeSlices.sendNow
    · exact either h h.takeSlices.sendNow
theorem State.Canonical.commitMbpop (h : s.Canonical) {k : Nat} : (s.commitMbpop k).Canonical := by
  unfold State.commitMbpop
  split
  · exact h.releaseMail.updTs
  · exact h
theorem State.Canonical.commitMbhw (h : s.Canonical) {k : Nat} {w : Word} : (s.commitMbhw k w).Canonical := h.updTile.wakeAll

/-! ## The functions of Machine/System.lean -/

theorem State.Canonical.commitCsrw (h : s.Canonical) {k n : Nat} {v : Word} : (s.commitCsrw k n v).Canonical :=
  either h.csrWrite h
theorem State.Canonical.commitResume (h : s.Canonical) {k : Nat} {i w : Word} {val : Option Word} : (s.commitResume k i w val).Canonical :=
  h.sendNow
theorem State.Canonical.commitWake (h : s.Canonical) {k : Nat} : (s.commitWake k).Canonical := h.updTs
theorem State.Canonical.commitCtx (h : s.Canonical) {k ctx : Nat} {save : Bool} {a w : Word} : (s.commitCtx k save ctx a w).Canonical :=
  h.updRegion
theorem State.Canonical.commitSlotw (h : s.Canonical) {t : Nat} {w : Word} : (s.commitSlotw t w).Canonical := h.updTile
theorem State.Canonical.commitPwr (h : s.Canonical) {k : Nat} {w : Word} : (s.commitPwr k w).Canonical := h.updRegion

/-! ## The functions of Machine/Debug.lean -/

theorem State.Canonical.trlHalted (h : s.Canonical) {c : Nat} : (s.trlHalted c).Canonical := h.updCluster
theorem State.Canonical.stepDone (h : s.Canonical) {c : Nat} : (s.stepDone c).Canonical := by
  unfold State.stepDone
  split
  · exact h
  · exact h.updCluster.dropGroups.updTs.boundary
theorem State.Canonical.stepCommitted (h : s.Canonical) {k : Nat} : (s.stepCommitted k).Canonical :=
  either h.updCluster.dropGroups.updTs h
theorem State.Canonical.commitBkpt (h : s.Canonical) {k code : Nat} : (s.commitBkpt k code).Canonical :=
  either h.updCluster.trlHalt h
theorem State.Canonical.commitPmark (h : s.Canonical) {k : Nat} {w : Word} : (s.commitPmark k w).Canonical := h.updTile.traceTile
theorem State.Canonical.commitTrc (h : s.Canonical) {k tag : Nat} {w : Word} : (s.commitTrc k tag w).Canonical := h.traceTile
theorem State.Canonical.rootWalk (h : s.Canonical) {r step n : Nat} {m : Node} {seen : List Node} :
    (s.rootWalk r m seen step n).2.2.Canonical := by
  induction n generalizing s m seen step with
  | zero => exact h
  | succ n ih =>
    unfold State.rootWalk
    dsimp only
    split
    · exact h.putNum.putNum
    · split
      · split
        · split
          · exact ih h.putNum.putNum
          · exact h.putNum.putNum
        · exact h.putNum.putNum
      · split
        · split
          · exact ih h.putNum.putNum
          · exact h.putNum.putNum
        · exact h.putNum.putNum
theorem State.Canonical.rootEnd (h : s.Canonical) {r : Nat} {v : Word} : (s.rootEnd r v).Canonical := by
  unfold State.rootEnd
  have hu := h.rootWalk (r := r) (m := s.nodeAt r (field v 0 20)) (seen := []) (step := 0) (n := 16)
  generalize s.rootWalk r (s.nodeAt r (field v 0 20)) [] 0 16 = q at hu ⊢
  exact State.Canonical.updRegion hu
theorem State.Canonical.rootGo (h : s.Canonical) {r : Nat} {v : Word} : (s.rootGo r v).Canonical := by
  unfold State.rootGo
  split
  · exact either h.rootEnd h
  · exact h.rootEnd

/-! ## The functions of Machine/Matrix.lean -/

theorem State.Canonical.updHead (h : s.Canonical) {k : Nat} {f : MRec → MRec} : (s.updHead k f).Canonical := h.updTs
theorem State.Canonical.retire (h : s.Canonical) {k : Nat} : (s.retire k).Canonical := h.ticket.updTs.wakeAll
theorem State.Canonical.matrixData (h : s.Canonical) {k sub : Nat} {r : MRec} {a : Word} {m : Bool} :
    (s.matrixData k r sub a m).Canonical :=
  h.asyncFault
theorem State.Canonical.setAcc (h : s.Canonical) {t n : Nat} {es : List AccElem} : (s.setAcc t n es).Canonical := h.updTile
theorem State.Canonical.entryAt (h : s.Canonical) {t : Nat} : (s.entryAt t).2.Canonical := by
  unfold State.entryAt
  split
  · exact h
  · exact h.free
theorem State.Canonical.runOp (h : s.Canonical) {k : Nat} {r : MRec} : (s.runOp k r).Canonical := by
  unfold State.runOp
  dsimp only
  split
  · split
    · exact h.charge.setAcc.matrixData.retire
    · exact h.charge.setAcc.retire
  · exact h
theorem State.Canonical.matrixOp (h : s.Canonical) {t : Nat} : (s.matrixOp t).Canonical := by
  unfold State.matrixOp
  have hu := h.entryAt (t := t)
  generalize s.entryAt t = q at hu ⊢
  obtain ⟨e, u⟩ := q
  dsimp only
  split
  · exact hu
  · split
    · exact hu
    · exact (State.Canonical.updTile hu).runOp
theorem State.Canonical.weightLoad (h : s.Canonical) {k : Nat} : (s.weightLoad k).Canonical := by
  unfold State.weightLoad
  split
  · exact h
  · split
    · dsimp only
      split
      · exact h.charge.updTs.matrixData.retire
      · exact h.charge.updTs.retire
    · exact h
theorem State.Canonical.zeroRecord (h : s.Canonical) {k : Nat} : (s.zeroRecord k).Canonical := by
  unfold State.zeroRecord
  split
  · exact h.setAcc.retire
  · exact h
theorem State.Canonical.drainVals (h : s.Canonical) {t : Nat} {r : MRec} : (s.drainVals t r).2.Canonical := by
  unfold State.drainVals
  split
  · exact h.setAcc
  · exact h
theorem State.Canonical.epilogueDispatch (h : s.Canonical) {t : Nat} : (s.epilogueDispatch t).Canonical := by
  unfold State.epilogueDispatch
  split
  · exact h.drainVals.updHead.updTs
  · exact h
theorem State.Canonical.epilogueDone (h : s.Canonical) {e owner : Nat} : (s.epilogueDone e owner).Canonical :=
  h.updHead.endEpilogue
theorem State.Canonical.writeRow (h : s.Canonical) {t : Nat} {a : Word} {bs : List Byte} : (s.writeRow t a bs).2.Canonical := by
  unfold State.writeRow
  dsimp only
  split
  · exact h
  · split
    · split
      · split
        · exact h
        · split
          · exact h
          · exact h.putAll
      · split
        · exact h.writeAt.snd ‹_›
        · exact h.writeAt.snd ‹_›
    · split
      · split
        · exact h.writeAt.snd ‹_›
        · split
          · exact h.writeAt.snd ‹_›
          · exact (h.writeAt.snd ‹_›).writeAt
      · split
        · exact h.writeAt.snd ‹_›
        · exact h.writeAt.snd ‹_›
theorem State.Canonical.rowDone (h : s.Canonical) {k acc : Nat} {flt : Bool} : (s.rowDone k acc flt).Canonical := by
  unfold State.rowDone
  dsimp only
  split
  · exact h
  · exact either h.setAcc.updTs.updHead.charge.updTs.retire h.setAcc.updTs.updHead.charge.wakeAll
theorem State.Canonical.convertRow (h : s.Canonical) {t acc dfmt : Nat} {r : MRec} {v : Vec} : (s.convertRow t r acc dfmt v).2.Canonical :=
  h.setAcc
theorem State.Canonical.drainRow (h : s.Canonical) {k : Nat} : (s.drainRow k).Canonical := by
  unfold State.drainRow
  dsimp only
  split
  · exact h
  · rename_i r _
    split
    · generalize hc : State.convertRow _ _ _ _ _ _ = c
      have hw : c.2.Canonical := by
        rw [← hc]
        refine State.Canonical.convertRow ?_
        split
        · exact h
        · exact h.drainVals
      split
      · exact hw.emitOut.rowDone
      · split
        · exact hw.freezeTs.rowDone
        · split
          · exact (hw.writeRow.snd ‹_›).rowDone
          · exact (hw.writeRow.snd ‹_›).matrixData.rowDone
    · exact h

/-! ## The functions of Machine/Block.lean -/

theorem State.Canonical.fetchAcross (h : s.Canonical) {t n : Nat} {a : Word} : (s.fetchAcross t a n).2.Canonical := by
  unfold State.fetchAcross
  dsimp only
  split
  · split
    · rename_i e
      have hu := h.fetchCode.snd e
      split
      · exact hu.fetchCode.snd ‹_›
      · exact hu.fetchCode
    · exact h.fetchCode
  · exact h.fetchCode
theorem State.Canonical.fetchFault (h : s.Canonical) {k cause : Nat} {m : Bool} : (s.fetchFault k cause m).Canonical :=
  h.takeFault
theorem State.Canonical.blockStart (h : s.Canonical) {k : Nat} : (s.blockStart k).Canonical := by
  unfold State.blockStart
  dsimp only
  split
  · exact h.fetchFault
  · split
    · exact (h.fetchAcross.snd ‹_›).fetchFault
    · rename_i e
      have hu := h.fetchAcross.snd e
      split
      · exact (hu.fetchAcross.snd ‹_›).fetchFault
      · split
        · exact (hu.fetchAcross.snd ‹_›).takeFault
        · exact (hu.fetchAcross.snd ‹_›).setFlight
theorem State.Canonical.commitWrites (h : s.Canonical) {k : Nat} {f : Flight} : (s.commitWrites k f).Canonical :=
  h.foldl fun _ _ h => by
    split
    · exact either h h.updTs
    · exact h
theorem State.Canonical.commitLocal (h : s.Canonical) {k : Nat} {f : Flight} : (s.commitLocal k f).Canonical :=
  h.foldl fun _ _ h => by
    split
    · exact h.charge.putBytes
    · split
      · exact h.charge.putNum.updTs
      · exact h.charge.putNum
    · exact h
theorem State.Canonical.post (h : s.Canonical) {k n : Nat} {a : Word} {bs : Bytes} {kind : JKind} {hold : Bool} {after : List Nat} {objs :
    List Word} : (s.post k a n bs kind hold after objs).Canonical :=
  h.updTs
theorem State.Canonical.commitPosts (h : s.Canonical) {k : Nat} {f : Flight} : (s.commitPosts k f).Canonical :=
  State.Canonical.foldl_snd h fun _ _ h => by
    dsimp only
    split
    · exact h.post
    · exact h.post
    · exact h.post
    · exact h
theorem State.Canonical.commitSends (h : s.Canonical) {k : Nat} {f : Flight} : (s.commitSends k f).Canonical := by
  refine (h.foldl fun _ _ h => ?_).foldl fun _ _ h => ?_
  · split
    · exact h.commitSend
    · exact h.commitSpawn
    · exact h.commitEos
    · exact h.commitSteal
    · exact h
  · split
    · exact h.commitResume
    · exact h
theorem State.Canonical.updSlot (h : s.Canonical) {t n : Nat} {g : Slot → Slot} : (s.updSlot t n g).Canonical := h.updTile
theorem State.Canonical.commitStreams (h : s.Canonical) {k : Nat} {f : Flight} : (s.commitStreams k f).1.Canonical := by
  unfold State.commitStreams
  refine State.Canonical.foldl_fst (s := _) ?_ fun _ _ h => ?_
  · refine h.foldl fun _ _ h => ?_
    split
    · exact h.updSlot
    · exact h
  · dsimp only
    split
    · split
      · exact h.updSlot
      · exact h
    · exact h
theorem State.Canonical.commitSbind (h : s.Canonical) {k n : Nat} {d : StreamDesc} : (s.commitSbind k n d).Canonical :=
  h.delayLine.updTile
theorem State.Canonical.commitSunbind (h : s.Canonical) {k n : Nat} : (s.commitSunbind k n).Canonical := by
  refine .updTile ?_
  split
  · exact (h.foldl fun _ _ h => h.writeAppend).delayLine
  · exact h
theorem State.Canonical.commitSctl (h : s.Canonical) {k : Nat} {e : Effect} : (s.commitSctl k e).Canonical := by
  unfold State.commitSctl
  split
  · exact h.commitSunbind
  · exact h.updSlot
  · exact h.updSlot
  · exact h
theorem State.Canonical.commitRec (h : s.Canonical) {k : Nat} {r : MRec} : (s.commitRec k r).Canonical := by
  unfold State.commitRec
  dsimp only
  split
  · exact h.updTs.updTile
  · exact h.updTs
theorem State.Canonical.commitLwarm (h : s.Canonical) {k off : Nat} {n : Word} : (s.commitLwarm k off n).Canonical :=
  h.charge.putNum.putNum
theorem State.Canonical.commitFenceLocal (h : s.Canonical) {k : Nat} : (s.commitFenceLocal k).Canonical := h.updTile
theorem State.Canonical.commitUnit (h : s.Canonical) {k : Nat} {e : Effect} : (s.commitUnit k e).Canonical :=
  match e with
  | .fence _ 0 _ => h.commitFenceLocal
  | .mbpop => h.commitMbpop
  | .mbhw _ => h.commitMbhw
  | .bindE _ _ _ | .unbindE _ _ | .copy _ | .cseal => h.updTs
  | .lwarm _ _ => h.commitLwarm
  | .sbind _ _ => h.commitSbind
  | .mrec _ => h.commitRec
  | .csrw _ _ => h.commitCsrw
  | .wake _ => h.commitWake
  | .ctx _ _ _ _ => h.commitCtx
  | .slotw _ _ => h.commitSlotw
  | .pwrset _ => h.commitPwr
  | .bkpt _ => h.commitBkpt
  | .pmark _ => h.commitPmark
  | .trc _ _ => h.commitTrc
  | .fence _ (_ + 1) _ | .wr _ _ | .store _ _ _ | .rstore _ _ _ _ | .amoLocal _ _ _ _ | .amoRemote _ _ _ _ | .relUpd _ _
  | .send _ _ _ | .spawn _ _ _ | .eos _ | .steal _ | .sunbind _ | .sskip _ _ | .sflush _ | .popped _ _ | .statw _ _ _ _ _
  | .exit _ _ _ | .resume _ _ _ | .acquire => h
theorem State.Canonical.commitExit (h : s.Canonical) {k ix : Nat} {f : Flight} {kd : ExitKind} {dest link : Word} :
    (s.commitExit k ix f kd dest link).Canonical := by
  unfold State.commitExit
  dsimp only
  split
  · exact h.updTs
  · exact h.updTs
  · split
    · split
      · exact h.epilogueDone
      · exact h.endTask
    · exact h
  · exact h.yieldTask
  · exact h.updTs.takeFault
theorem State.Canonical.traceCommit (h : s.Canonical) {k : Nat} {f : Flight} : (s.traceCommit k f).Canonical :=
  either h.updTs.traceTile h.updTs
theorem State.Canonical.reexecute (h : s.Canonical) {k : Nat} {st : List (Nat × Bytes)} : (s.reexecute k st).Canonical :=
  h.foldl fun _ _ h => by
    dsimp only
    split
    · exact either h.discard.updTile.settle h
    · exact h
theorem State.Canonical.commitBlock (h : s.Canonical) {k ix : Nat} {f : Flight} {kd : ExitKind} {dest link : Word} :
    (s.commitBlock k f ix kd dest link).Canonical := by
  unfold State.commitBlock
  dsimp only
  generalize hv : State.traceCommit _ _ _ = v
  have hu : v.Canonical := by
    rw [← hv]
    exact ((((h.foldl fun _ _ h => h.ticket).chargeFlight.dropFlight.commitWrites.commitLocal.commitPosts.commitSends.commitStreams).foldl
      fun _ _ h => h.commitUnit).foldl fun _ _ h => h.commitSctl).updTs.traceCommit
  refine either (State.Canonical.diverge ?_) ?_
  · exact (either hu.updTile.updRegion hu.updTile).commitExit.settle.reexecute.stepCommitted.wakeAll
  · exact (either hu.updTile.updRegion hu.updTile).commitExit.settle.reexecute.stepCommitted.wakeAll
theorem State.Canonical.blockCommit (h : s.Canonical) {k : Nat} : (s.blockCommit k).Canonical := by
  unfold State.blockCommit
  split
  · exact h
  · split
    · exact h.freezeTs
    · exact h.takeFault
    · exact either h.discard.setFlight h.discard.settle
    · exact either h.commitBlock h.discard.settle

/-! ## The functions of Machine/Saves.lean -/

theorem State.Canonical.putWords (h : s.Canonical) {a : Nat} {ws : List Nat} : (s.putWords a ws).Canonical := by
  induction ws generalizing s a with
  | nil =>
    unfold State.putWords
    exact h
  | cons w ws ih =>
    unfold State.putWords
    exact ih (State.Canonical.putNum h)
theorem State.Canonical.saveHeader (h : s.Canonical) {r a flags : Nat} : (s.saveHeader r a flags).Canonical :=
  h.putNum.putNum.putNum.putNum.putNum.putWords.putWords
theorem State.Canonical.showAccs (h : s.Canonical) {t : Nat} : (s.showAccs t).Canonical := h.updTile.keep
theorem State.Canonical.savePool (h : s.Canonical) {t a : Nat} : (s.savePool t a).Canonical :=
  ((h.showAccs.copyRange.foldl fun _ _ h => h.putWords).foldl fun _ _ h => h.putWords).putWords
theorem State.Canonical.chargeSave (h : s.Canonical) {t : Nat} : (s.chargeSave t).Canonical := h.charge
theorem State.Canonical.saveSection (h : s.Canonical) {ctx t a : Nat} : (s.saveSection ctx t a).Canonical := by
  refine .foldl (.putWords (.foldl (.foldl (.foldl h.savePool.zeroRange.chargeSave fun _ _ h => ?_) fun _ _ h => ?_)
    fun _ _ h => h.putWords)) fun _ _ h => h.putWords
  · exact (h.foldl fun _ _ h => h.putAll).putWords
  · split
    · exact h.putAll.putNum.putNum
    · exact h
theorem State.Canonical.saveSections (h : s.Canonical) {r a : Nat} {is : List Nat} : (s.saveSections r a is).Canonical := by
  refine h.zeroRange.foldl fun _ _ h => .putByte ?_
  split
  · exact h.saveSection
  · exact h
theorem State.Canonical.saveArrival (h : s.Canonical) {w : SaveWork} {flt : Bool} : (s.saveArrival w flt).Canonical := by
  unfold State.saveArrival
  split
  · exact h.keep
  · exact h
theorem State.Canonical.pushCompletion (h : s.Canonical) {q tag status : Nat} {result : Word} :
    (s.pushCompletion q tag status result).Canonical :=
  either h h.putNum.putNum.putNum.putNum.putNum.updQueue
theorem State.Canonical.hostComplete (h : s.Canonical) {q tag status : Nat} {result : Word} :
    (s.hostComplete q tag status result).Canonical :=
  h.pushCompletion.commitUpdate
theorem State.Canonical.endCommand (h : s.Canonical) {q tag status : Nat} {result : Word} : (s.endCommand q tag status result).Canonical :=
  either h.commitUpdate h.pushCompletion.updQueue.commitUpdate
theorem State.Canonical.vacateTile (h : s.Canonical) {ctx t : Nat} : (s.vacateTile ctx t).Canonical :=
  (h.foldl fun _ _ h => h.dropFlight.setTs).updTile
theorem State.Canonical.dropSaves (h : s.Canonical) {r : Nat} : (s.dropSaves r).Canonical :=
  h.updRegion.foldl fun _ _ h => by
    split
    · exact h.endCommand
    · exact h.saveArrival
theorem State.Canonical.vacate (h : s.Canonical) {r : Nat} : (s.vacate r).Canonical :=
  (h.dropSaves.closeBoundary.foldl fun _ _ h => h.vacateTile).keep
theorem State.Canonical.discardHeld (h : s.Canonical) {r : Nat} : (s.discardHeld r).Canonical :=
  h.foldl fun _ _ h => h.foldl fun _ _ h => h.updTs
theorem State.Canonical.contextSave (h : s.Canonical) {r : Nat} : (s.contextSave r).Canonical := by
  unfold State.contextSave
  split
  · exact h
  · dsimp only
    split
    · exact h.updRegion.saveArrival
    · split
      · exact (either h.updRegion.saveSections.saveHeader h.updRegion.saveSections.saveHeader.keep).vacate.endCommand
      · exact (either h.updRegion.saveSections.saveHeader h.updRegion.saveSections.saveHeader.keep).discardHeld.saveArrival
theorem State.Canonical.saveDeadline (h : s.Canonical) {r : Nat} : (s.saveDeadline r).Canonical := by
  unfold State.saveDeadline
  split
  · exact h
  · have hu : s.choose.2.Canonical := h.choose
    dsimp only
    generalize s.choose = q at hu ⊢
    split
    · exact hu.saveSections.saveHeader.trace.fwRecord.updRegion.free.endCommand
    · exact hu.saveSections.saveHeader.trace.fwRecord.updRegion.saveArrival
theorem State.Canonical.restoredFaults (h : s.Canonical) {known : List FaultInfo} {es : List JEntry} :
    (s.restoredFaults known es).2.Canonical :=
  State.Canonical.foldl_snd h fun _ _ h => by
    split
    · exact h
    · exact either_snd h (either_snd h.free h)
    · exact h
theorem State.Canonical.restoreTile (h : s.Canonical) {r ctx a t : Nat} {z : SavedTile} : (s.restoreTile r ctx a t z).Canonical :=
  (h.copyRange.chargeSave.foldl fun _ _ h => h.restoredFaults.setTs).setTile
theorem State.Canonical.deliverTokens (h : s.Canonical) {l : List (Nat × Mail)} : (s.deliverTokens l).Canonical :=
  h.foldl fun _ _ h => h.nextPos.putMailFor
theorem State.Canonical.restoreInto (h : s.Canonical) {r a : Nat} : (s.restoreInto r a).Canonical := by
  refine .deliverTokens (h.updRegion.foldl fun _ _ h => ?_)
  split
  · exact h.restoreTile
  · exact h
theorem State.Canonical.contextRestore (h : s.Canonical) {r : Nat} : (s.contextRestore r).Canonical := by
  unfold State.contextRestore
  split
  · exact h
  · dsimp only
    split
    · exact (either h.updRegion.restoreInto h.updRegion).saveArrival
    · refine either ?_ ?_
      · exact (either h.updRegion.restoreInto h.updRegion).keep.updRegion.cutResume.endCommand
      · exact (either h.updRegion.restoreInto h.updRegion).vacate.endCommand
theorem State.Canonical.watchdog (h : s.Canonical) {r : Nat} : (s.watchdog r).Canonical := by
  unfold State.watchdog
  dsimp only
  split
  · exact h.haltRegion.updRegion
  · exact either h.haltRegion (either h.haltRegion.updRegion.cutRequest h.haltRegion.updRegion)

/-! ## The functions of Machine/Launch.lean -/

theorem State.Canonical.writeDram (h : s.Canonical) {r a n : Nat} {bs : List Byte} {bad : Option Nat} :
    (s.writeDram r a bs bad n).Canonical := by
  induction n generalizing s a bs bad with
  | zero => exact h
  | succ n ih =>
    unfold State.writeDram
    refine either h (ih ?_)
    split
    · exact h
    · split
      · exact (h.dramKey.snd ‹_›).putAll
      · split
        · exact (h.dramKey.snd ‹_›).boderAsk.snd ‹_›
        · exact ((h.dramKey.snd ‹_›).boderAsk.snd ‹_›).dramRefused
      · exact (h.dramKey.snd ‹_›).dramRefused
theorem State.Canonical.launchTile (h : s.Canonical) {r c t : Nat} {conf : ConfImage} : (s.launchTile r conf c t).Canonical :=
  (h.foldl fun _ _ h => h.dropFlight.setTs).updTile
theorem State.Canonical.placeBytes (h : s.Canonical) {t : Nat} {d : Nat × List Byte} : (s.placeBytes t d).Canonical :=
  h.putAll.charge
theorem State.Canonical.placeInitial (h : s.Canonical) {r e : Nat} : (s.placeInitial r e).Canonical :=
  h.foldl fun _ _ h => by
    split
    · split
      · exact h.nextPos.putMailFor
      · exact h
    · exact h.updStage
    · exact h
theorem State.Canonical.placeData (h : s.Canonical) {r : Nat} {d : DataDst × List Byte} : (s.placeData r d).Canonical := by
  unfold State.placeData
  split
  · exact h.writeDram
  · split
    · exact h.placeBytes
    · exact h
  · exact h
theorem State.Canonical.defaultShed (h : s.Canonical) {r : Nat} : (s.defaultShed r).Canonical := h.updRegion
theorem State.Canonical.runConf (h : s.Canonical) {r : Nat} {conf : ConfImage} {datas : List (DataDst × List Byte)} :
    (s.runConf r conf datas).Canonical := by
  refine .deliverTokens (.feedSources (.foldl (.foldl (.foldl (.defaultShed ?_) fun _ _ h => h.placeData)
    fun _ _ h => h.foldl fun _ _ h => ?_) fun _ _ h => h.placeInitial))
  · exact h.closeBoundary.keep.updRegion.zeroPools.foldl fun _ _ h => h.launchTile
  · split
    · exact h.foldl fun _ _ h => h.placeBytes
    · exact h
theorem State.Canonical.withhold (h : s.Canonical) {r : Nat} {tiles : List TileConf} {b : Bool} : (s.withhold r tiles b).Canonical :=
  h.updRegion
theorem State.Canonical.deltaBegin (h : s.Canonical) {r : Nat} : (s.deltaBegin r).Canonical := by
  unfold State.deltaBegin
  split
  · exact h.updRegion.withhold
  · exact h
theorem State.Canonical.deltaStart (h : s.Canonical) {r : Nat} {d : List TileConf × AMap EdgeConf} {queue : Option (Nat × Nat)} :
    (s.deltaStart r d queue).Canonical :=
  either h.updRegion.deltaBegin h.updRegion
theorem State.Canonical.deltaTile (h : s.Canonical) {c : TileConf} {t : Nat} : (s.deltaTile c t).Canonical :=
  (either h (h.foldl fun _ _ h => h.updTs).zeroPools.updTile.putRoData).updTile
theorem State.Canonical.cutAfterDelta (h : s.Canonical) {r : Nat} : (s.cutAfterDelta r).Canonical := either h.cutRequest h
theorem State.Canonical.deltaApply (h : s.Canonical) {r : Nat} {d : Delta} : (s.deltaApply r d).Canonical := by
  refine .wakeAll (.cutAfterDelta (.feedSources (.foldl (.defaultShed (h.withhold.updRegion.foldl fun _ _ h => ?_))
    fun _ _ h => either h.placeInitial h)))
  split
  · exact h.deltaTile
  · exact h
theorem State.Canonical.deltaAbort (h : s.Canonical) {r : Nat} : (s.deltaAbort r).Canonical := by
  unfold State.deltaAbort
  split
  · exact h
  · exact h.withhold.updRegion.feedSources.cutAfterDelta.wakeAll
theorem State.Canonical.deltaEnd (h : s.Canonical) {r n : Nat} {u : State} (e : s.deltaEnd r = some (n, u)) : u.Canonical := by
  unfold State.deltaEnd at e
  split at e
  · cases e
  · split at e
    · cases e
      exact h.deltaApply
    · split at e
      · cases e
        exact h.deltaAbort
      · cases e
theorem State.Canonical.seqTo (h : s.Canonical) {r n : Nat} : (s.seqTo r n).Canonical := h.updRegion.commitUpdate
theorem State.Canonical.seqNext (h : s.Canonical) {r : Nat} : (s.seqNext r).Canonical := h.seqTo
theorem State.Canonical.seqFinish (h : s.Canonical) {r : Nat} {status : Option Nat} {now : Bool} :
    (s.seqFinish r status now).Canonical := by
  unfold State.seqFinish
  dsimp only
  split
  · exact either h.updRegion.hostComplete h.updRegion.updRegion.commitUpdate
  · exact h.updRegion.commitUpdate
theorem State.Canonical.answerEndings (h : s.Canonical) {r : Nat} : (s.answerEndings r).Canonical :=
  h.updRegion.foldl fun _ _ h => h.hostComplete
theorem State.Canonical.seqRun (h : s.Canonical) {r : Nat} : (s.seqRun r).Canonical := by
  unfold State.seqRun
  dsimp only
  split
  · exact h.seqNext
  · refine either h.runConf.seqNext (either ?_ h.cutRequest)
    exact ((either h h.cutEnd).foldl fun _ _ h => h.foldl fun _ _ h => h.haltTs).updRegion.commitUpdate
theorem State.Canonical.seqApply (h : s.Canonical) {r : Nat} : (s.seqApply r).Canonical := by
  unfold State.seqApply
  dsimp only
  split
  · exact h.deltaBegin
  · split
    · exact (h.deltaEnd ‹_›).seqNext
    · exact (h.deltaEnd ‹_›).seqFinish
    · split
      · exact either h.deltaStart h.seqFinish
      · exact h.seqFinish

/-! ## The functions of Machine/Host.lean -/

theorem State.Canonical.took (h : s.Canonical) {q : Nat} : (s.took q).Canonical := h.updLinks.commitUpdate
theorem State.Canonical.outsideGrant (h : s.Canonical) {q : Nat} : (s.outsideGrant q).Canonical :=
  h.endCommand.updQueue.freezeRecord
theorem State.Canonical.command (h : s.Canonical) {q : Nat} {minimal : Bool} {f : Cmd}
    (hf : ∀ e (s : State), s.Canonical → (f e s).2.2.Canonical) : (s.command q minimal f).Canonical :=
  either h.took.outsideGrant (either h.took.endCommand (either h.took.endCommand (hf _ _ h.took).endCommand))
theorem State.Canonical.reservedCommand (h : s.Canonical) {q : Nat} : (s.reservedCommand q).Canonical :=
  h.command fun _ _ h => h
theorem State.Canonical.substitute (h : s.Canonical) {r c : Nat} : (s.substitute r c).Canonical := h.choose.updRegion
theorem State.Canonical.giveFrames (h : s.Canonical) {ctx n : Nat} : (s.giveFrames ctx n).Canonical := by
  induction n generalizing s with
  | zero => exact h
  | succ n ih => exact ih h.choose.keep
theorem State.Canonical.ownTile (h : s.Canonical) {r c t : Nat} : (s.ownTile r c t).Canonical := h.updTile
theorem State.Canonical.resubstitute (h : s.Canonical) {r : Nat} : (s.resubstitute r).Canonical :=
  h.updRegion.foldl fun _ _ h => h.substitute
theorem State.Canonical.readmit (h : s.Canonical) {g : Region} {r : Nat} {u : State} (e : s.readmit g = .inr (r, u)) :
    u.Canonical := by
  unfold State.readmit at e
  split_ifs at e
  split at e
  · cases e
  · obtain ⟨-, rfl⟩ := Prod.mk.inj (Sum.inr.inj e)
    refine State.Canonical.foldl (State.Canonical.resubstitute h.keep) fun _ _ h => ?_
    split
    · exact h.ownTile
    · exact h
theorem State.Canonical.onRegion (h : s.Canonical) {e : Entry} {ok : Region → Bool} {f : Nat → State → Nat × Word × State}
    (hf : ∀ r (s : State), s.Canonical → (f r s).2.2.Canonical) : (s.onRegion e ok f).2.2.Canonical := by
  unfold State.onRegion
  split
  · split
    · exact hf _ _ h
    · exact h
  · split
    · exact h
    · split
      · exact h
      · split
        · exact h
        · split
          · exact (hf _ _ (h.readmit ‹_›).keep).snd_snd ‹_›
          · exact h
theorem State.Canonical.endProgram (h : s.Canonical) {r : Nat} : (s.endProgram r).Canonical := either h.free.seqFinish h
theorem State.Canonical.cmdCreate (h : s.Canonical) {e : Entry} : (Machine.cmdCreate e s).2.2.Canonical := by
  unfold Machine.cmdCreate
  dsimp only
  split
  · exact h
  · split
    · exact h
    · split
      · exact h
      · split
        · exact h
        · split
          · exact h
          · exact State.Canonical.giveFrames (((State.Canonical.keep h).foldl fun _ _ h => h.substitute).foldl fun _ _ h => by
              split
              · exact h.ownTile
              · exact h).choose
theorem State.Canonical.cmdDestroy (h : s.Canonical) {e : Entry} : (Machine.cmdDestroy e s).2.2.Canonical := by
  unfold Machine.cmdDestroy
  split
  · exact h.keep
  · exact h.onRegion fun _ _ h => h.endProgram.harvest.answerEndings.vacate
theorem State.Canonical.cmdLoadimg (h : s.Canonical) {e : Entry} : (Machine.cmdLoadimg e s).2.2.Canonical := by
  refine h.onRegion fun _ _ h => ?_
  dsimp only
  split
  · exact h
  · split
    · exact h
    · split
      · exact h
      · split
        · exact h
        · split
          · exact h
          · exact h.endProgram.updRegion
theorem State.Canonical.launch (h : s.Canonical) {q : Nat} : (s.launch q).Canonical := by
  unfold State.launch
  dsimp only
  split
  · exact h.took.outsideGrant
  · split
    · exact h.took.endCommand
    · split
      · exact h.took.endCommand
      · generalize hp : (s.took q).onRegion _ _ _ = p
        have hu : p.2.2.Canonical := by
          rw [← hp]
          refine h.took.onRegion fun _ _ h => ?_
          split
          · exact h
          · exact h.endProgram.updRegion
        split
        · exact State.Canonical.updQueue hu
        · exact State.Canonical.endCommand hu
theorem State.Canonical.begin (h : s.Canonical) {q : Nat} {f : Entry → State → Nat ⊕ State}
    (hf : ∀ e (s u : State), s.Canonical → f e s = .inr u → u.Canonical) : (s.begin q f).Canonical := by
  refine either h.took.outsideGrant (either h.took.endCommand (either h.took.endCommand ?_))
  split
  · exact h.took.endCommand
  · exact (hf _ _ _ h.took ‹_›).updQueue
theorem State.Canonical.cmdDelta (h : s.Canonical) {q : Nat} : (s.cmdDelta q).Canonical := by
  unfold State.cmdDelta
  split
  · split
    · exact h.deltaBegin
    · split
      · exact (h.deltaEnd ‹_›).endCommand
      · exact h
  · refine h.begin fun _ s u h e => ?_
    split at e
    · cases e
    · dsimp only at e
      split at e
      · cases e
      · split at e
        · cases e
        · split at e
          · cases e
            exact h.deltaStart
          · cases e
theorem State.Canonical.cmdPreempt (h : s.Canonical) {q : Nat} : (s.cmdPreempt q).Canonical := by
  refine h.begin fun _ s u h e => ?_
  split at e
  · cases e
  · dsimp only at e
    split at e
    · cases e
    · split at e
      · cases e
      · cases e
        exact either h.updRegion h.updRegion.cutRequest
theorem State.Canonical.cmdResume (h : s.Canonical) {q : Nat} : (s.cmdResume q).Canonical := by
  unfold State.cmdResume
  dsimp only
  split
  · refine h.command fun _ _ h => h.onRegion fun _ _ h => ?_
    exact State.Canonical.seqNext h.updRegion
  · refine h.begin fun _ s u h e => ?_
    split at e
    · cases e
    · split at e
      · split at e
        · split at e
          · cases e
          · cases e
            exact h.readmit ‹_›
        · cases e
      · cases e
theorem State.Canonical.killRegion (h : s.Canonical) {r : Nat} : (s.killRegion r).Canonical := by
  refine .updRegion (.seqFinish (.harvest (.dropSaves ?_)))
  split
  · exact h.haltRegion.deltaAbort.endCommand
  · exact h.haltRegion.deltaAbort
theorem State.Canonical.endTraceAway (h : s.Canonical) {a reason : Nat} {z : Saved} : (s.endTraceAway a z reason).Canonical :=
  h.keep.endTrace.keep
theorem State.Canonical.killSaved (h : s.Canonical) {a : Nat} {z : Saved} : (s.killSaved a z).Canonical :=
  (h.keep.endTrace.foldl fun _ _ h => h.updRegion).seqFinish.answerEndings.updRegion.keep
theorem State.Canonical.cmdKill (h : s.Canonical) {e : Entry} : (Machine.cmdKill e s).2.2.Canonical := by
  unfold Machine.cmdKill
  split
  · split
    · exact h.killSaved
    · exact h
  · exact h.onRegion fun _ _ h => h.killRegion
theorem State.Canonical.cmdGrant (h : s.Canonical) {e : Entry} : (Machine.cmdGrant e s).2.2.Canonical := by
  unfold Machine.cmdGrant
  split
  · exact h
  · exact h.onRegion fun _ _ h => h.updRegion
theorem State.Canonical.cmdQuery (h : s.Canonical) {e : Entry} : (Machine.cmdQuery e s).2.2.Canonical := by
  unfold Machine.cmdQuery
  split
  · exact h
  · exact h
  · exact h
theorem State.Canonical.doorbell (h : s.Canonical) {q : Nat} {val : Word} : (s.doorbell q val).Canonical := h.updQueue
theorem State.Canonical.qcfgDisable (h : s.Canonical) {q : Nat} : (s.qcfgDisable q).Canonical :=
  ((h.foldl fun _ _ h => either h.endTrace h).foldl fun _ _ h => either h.endTraceAway h).keep.updQueue.commitUpdate
theorem State.Canonical.qcfgEnable (h : s.Canonical) {q : Nat} {val sqb cqb : Word} : (s.qcfgEnable q val sqb cqb).Canonical :=
  h.updQueue.commitUpdate
theorem State.Canonical.renew (h : s.Canonical) {reached : List Nat} : (s.renew reached).Canonical :=
  h.foldl fun _ _ h => (either (either h h.updField) (either h h.updField))
theorem State.Canonical.deltaAgain (h : s.Canonical) {r : Nat} : (s.deltaAgain r).Canonical := by
  unfold State.deltaAgain
  split
  · exact h
  · split
    · exact h.deltaStart
    · dsimp only
      split
      · exact h.deltaAbort.endCommand
      · exact h.deltaAbort.seqFinish
theorem State.Canonical.lapse (h : s.Canonical) {core : Nat} : (s.lapse core).Canonical := by
  refine .foldl (.updLinks (.keep ?_)) fun _ _ h => h.deltaAgain
  split
  · exact h.updField
  · exact h

/-! ## The functions of Machine/Links.lean -/

theorem State.Canonical.answer (h : s.Canonical) {bs : List Byte} : (s.answer bs).Canonical := h.updLinks
theorem State.Canonical.freezeHost (h : s.Canonical) {p : Nat} : (s.freezeHost p).Canonical := either h h.updLinks.freezeRecord
theorem State.Canonical.cxlRead (h : s.Canonical) {p a n : Nat} : (s.cxlRead p a n).Canonical := by
  unfold State.cxlRead
  split
  · exact h.freezeHost.answer
  · split
    · exact either h.answer h.answer
    · exact h.answer
theorem State.Canonical.cxlWrite (h : s.Canonical) {p a : Nat} {bs : List Byte} : (s.cxlWrite p a bs).Canonical := by
  unfold State.cxlWrite
  split
  · exact h.freezeHost
  · split
    · exact h.putAll
    · exact h
theorem State.Canonical.barRead (h : s.Canonical) {off n : Nat} : (s.barRead off n).Canonical := h.answer
theorem State.Canonical.writeQcfg (h : s.Canonical) {q : Nat} {val : Word} : (s.writeQcfg q val).Canonical := by
  unfold State.writeQcfg
  dsimp only
  split
  · exact either h h.qcfgDisable
  · split
    · exact h.updQueue
    · split
      · rename_i e
        unfold execQcfgEnable whenEnabled at e
        split at e
        · cases e
          exact h.qcfgEnable
        · cases e
      · exact h
theorem State.Canonical.barWrite (h : s.Canonical) {off : Nat} {val : Word} : (s.barWrite off val).Canonical := by
  unfold State.barWrite
  split
  · exact h
  · dsimp only
    split
    · exact either h.updQueue h
    · exact either h.updQueue h
    · exact h.writeQcfg
    · exact h.doorbell
theorem State.Canonical.barAccess (h : s.Canonical) : s.barAccess.Canonical := by
  unfold State.barAccess
  split
  · exact h
  · dsimp only
    split
    · exact either h.updLinks.barRead h.updLinks
    · exact either h.updLinks.barWrite h.updLinks
theorem State.Canonical.boderFlit (h : s.Canonical) {p seq : Nat} {crcOk : Bool} {req : Option RemoteReq} :
    (s.boderFlit p seq crcOk req).Canonical := by
  unfold State.boderFlit
  split
  · exact h.updBoder
  · split
    · exact h
    · dsimp only
      split
      · exact h.updBoder.updLinks
      · exact h.updBoder
theorem State.Canonical.serveRemote (h : s.Canonical) {q : RemoteReq} : (s.serveRemote q).2.2.Canonical := by
  unfold State.serveRemote
  split
  · exact h
  · dsimp only
    split
    · exact h
    · split
      · exact h
      · split
        · rename_i u e
          have hu : u.Canonical := h.dramKey.snd e
          refine either (.collAdded ?_) ?_
          · split
            · exact hu
            · exact hu.putBytes
            · exact hu.putNum
          · split
            · exact hu
            · exact hu.putBytes
            · exact hu.putNum
        · exact h.dramKey.snd ‹_›
        · exact h.dramKey.snd ‹_›
theorem State.Canonical.remoteRequest (h : s.Canonical) {n : Nat} : (s.remoteRequest n).Canonical := by
  unfold State.remoteRequest
  split
  · exact h
  · rename_i q _
    have hu := h.serveRemote (q := q)
    dsimp only
    generalize s.serveRemote q = p at hu ⊢
    split
    · exact State.Canonical.boderSend (State.Canonical.updLinks hu)
    · exact State.Canonical.updLinks hu
theorem State.Canonical.boderFail (h : s.Canonical) {p : Nat} : (s.boderFail p).Canonical :=
  h.updBoder.updLinks.foldl fun _ _ h => by
    split
    · exact h.boderSend
    · exact h
theorem State.Canonical.badMessage (h : s.Canonical) {port : Nat} : (s.badMessage port).Canonical := h.answer
theorem State.Canonical.characterise (h : s.Canonical) {f n : Nat} : (s.characterise f n).Canonical := by
  induction n generalizing s with
  | zero => exact h
  | succ n ih => exact ih (either h.choose.choose.keep h.choose.choose)
theorem State.Canonical.rechar (h : s.Canonical) {f : Nat} : (s.rechar f).Canonical :=
  either h.badMessage h.choose.characterise.updField.answer
theorem State.Canonical.coll (h : s.Canonical) {a : CollMsg} : (s.coll a).Canonical := by
  unfold State.coll
  split
  · exact either h.badMessage h.updLinks.answer
  · exact either h.updLinks.answer h.badMessage
  · exact either h.badMessage h.updLinks.answer
  · exact h.badMessage
theorem State.Canonical.fwupd (h : s.Canonical) {i : FwImage} : (s.fwupd i).Canonical := either h.updLinks.answer h.badMessage
theorem State.Canonical.updResponder (h : s.Canonical) {p : Nat} {f : HostPort → HostPort} : (s.updResponder p f).Canonical :=
  either h.updLinks h.updLinks
theorem State.Canonical.spdm (h : s.Canonical) {p need code : Nat} {ok : Bool} {facts : List Nat} {f : HostPort → HostPort} :
    (s.spdm p need code ok facts f).Canonical :=
  either h.badMessage h.updResponder.answer

/-! ## The functions of Machine/Boot.lean -/

theorem State.Canonical.updBoot (h : s.Canonical) {f : Boot → Boot} : (s.updBoot f).Canonical := h.updLinks
theorem State.Canonical.failStart (h : s.Canonical) {reason fld detail : Nat} : (s.failStart reason fld detail).Canonical :=
  h.updBoot.powerOn
theorem State.Canonical.bootStep (h : s.Canonical) : s.bootStep.Canonical := h.updBoot
theorem State.Canonical.selfTest (h : s.Canonical) : s.selfTest.Canonical :=
  either (h.choose.foldl fun _ _ h => either h.updField h).failStart (h.choose.foldl fun _ _ h => either h.updField h).bootStep
theorem State.Canonical.stopCores (h : s.Canonical) {fs : List Nat} : (s.stopCores fs).Canonical :=
  h.foldl fun _ _ h => h.updField
theorem State.Canonical.verifyImage (h : s.Canonical) : s.verifyImage.Canonical :=
  either h.choose.failStart (either h.choose.choose.failStart h.choose.stopCores.updBoot.bootStep)
theorem State.Canonical.elect (h : s.Canonical) : s.elect.Canonical := either h.failStart h.updLinks.bootStep
theorem State.Canonical.loadMap (h : s.Canonical) : s.loadMap.Canonical :=
  either h.choose.failStart (either h.choose.failStart h.choose.bootStep)
theorem State.Canonical.trimRails (h : s.Canonical) : s.trimRails.Canonical :=
  either h.choose.choose.choose.choose.updLinks.failStart (either h.choose.choose.choose.choose.updLinks.failStart
    (h.choose.choose.choose.choose.updLinks.foldl fun _ _ h => h.safeUpdate).bootStep)
theorem State.Canonical.trainStacks (h : s.Canonical) : s.trainStacks.Canonical :=
  either h.bootStep (either h.choose.bootStep h.choose.failStart)
theorem State.Canonical.trainBoder (h : s.Canonical) : s.trainBoder.Canonical :=
  either h.bootStep (h.choose.choose.updLinks.foldl fun _ _ h => either h h.choose.updBoder).bootStep
theorem State.Canonical.firmwareRegion (h : s.Canonical) : s.firmwareRegion.Canonical := h.keep
theorem State.Canonical.openFrontEnd (h : s.Canonical) : s.openFrontEnd.Canonical :=
  either h.updBoot.firmwareRegion h.updBoot.firmwareRegion
theorem State.Canonical.bringUpCxl (h : s.Canonical) : s.bringUpCxl.Canonical :=
  either h.choose.choose.choose.choose.choose.choose.failStart h.choose.choose.choose.choose.choose.choose.updLinks.openFrontEnd
theorem State.Canonical.bringup (h : s.Canonical) : s.bringup.Canonical := by
  unfold State.bringup
  split
  · exact h.selfTest
  · exact h.verifyImage
  · exact h.elect
  · exact h.loadMap
  · exact h.trimRails
  · exact h.trainStacks
  · exact h.trainBoder
  · exact h.bringUpCxl
  · exact h.powerOn
theorem State.Canonical.stepTimeout (h : s.Canonical) {stp : Nat} : (s.stepTimeout stp).Canonical := by
  unfold State.stepTimeout
  dsimp only
  split
  · exact h.choose.failStart
  · exact h.choose.failStart
  · exact h.choose.failStart
  · exact h.choose.bootStep
  · exact h.choose.failStart
  · exact h.choose.failStart

/-! ## The functions of Machine/Rounds.lean -/

theorem State.Canonical.whenever (h : s.Canonical) {c : State → Bool} {f : State → State}
    (hf : ∀ s : State, s.Canonical → (f s).Canonical) : (s.whenever c f).Canonical := either (hf s h) h
theorem State.Canonical.untilStill (h : s.Canonical) {c : State → Bool} {f : State → State} {n : Nat}
    (hf : ∀ s : State, s.Canonical → (f s).Canonical) : (State.untilStill c f n s).Canonical := by
  induction n generalizing s with
  | zero => exact h
  | succ n ih => exact either (ih (hf s h)) h
theorem State.Canonical.closePosts (h : s.Canonical) {k : Nat} : (s.closePosts k).Canonical := by
  unfold State.closePosts
  have hp : ((s.ts k).eng.posted.foldl (fun s n =>
      ((((((s.whenever (·.canPost k n true) (·.postEntry k n)).whenever (·.canPost k n false) (·.postEntry k n)).whenever
        (·.canPerform k n false) (·.remotePerform k n)).whenever (·.canPerform k n true) (·.remotePerform k n)).whenever
        (·.canAck k n) (·.journalAck k n)).whenever (·.canAmoReply k n) (·.amoReply k n)).whenever (·.canRefuse k n)
          (·.journalRefusal k n)) s).Canonical :=
    h.foldl fun _ _ h => ((((((h.whenever fun _ h => h.postEntry).whenever fun _ h => h.postEntry).whenever
      fun _ h => h.remotePerform).whenever fun _ h => h.remotePerform).whenever fun _ h => h.journalAck).whenever
      fun _ h => h.amoReply).whenever fun _ h => h.journalRefusal
  dsimp only
  split
  · exact hp
  · exact hp.foldl fun _ _ h => (h.whenever fun _ h => h.loadService).whenever fun _ h => h.ldrReply
theorem State.Canonical.closePackets (h : s.Canonical) {t : Nat} : (s.closePackets t).Canonical :=
  h.untilStill fun _ h => by
    split
    · exact either h.packetArrival h.dramreq
    · exact h
theorem State.Canonical.closeOutside (h : s.Canonical) {r : Nat} : (s.closeOutside r).Canonical :=
  h.untilStill fun _ h => by
    split
    · exact either h.packetArrival h.dramreq
    · exact h
theorem State.Canonical.closeDram (h : s.Canonical) {r : Nat} : (s.closeDram r).Canonical := by
  refine (h.untilStill fun _ h => ?_).untilStill fun _ h => ?_
  · split
    · exact (h.whenever fun _ h => h.translationWalk).dramPerform
    · exact h
  · split
    · exact h.dramrep
    · exact h
theorem State.Canonical.closeOp (h : s.Canonical) {t : Nat} : (s.closeOp t).Canonical :=
  (h.untilStill fun _ h => h.tileCycle).whenever fun _ h => h.matrixOp
theorem State.Canonical.closeArrivals (h : s.Canonical) {t i n : Nat} :
    (State.untilStill (fun s => (s.nextArrival t i).isSome) (fun s => match s.nextArrival t i with | some n => s.land n | none => s)
      n s).Canonical :=
  h.untilStill fun s h => by
    split
    · exact h.land
    · exact h
theorem State.Canonical.closeEngines (h : s.Canonical) {t : Nat} : (s.closeEngines t).Canonical := by
  refine h.foldl fun u i h => ?_
  exact ((((((h.closeArrivals (t := t) (i := i)).foldl fun _ _ h => h.foldl fun _ _ h => h.whenever fun _ h => h.copyPiece).foldl
    fun _ _ h => (h.untilStill fun _ h => h.appendWrite).untilStill fun _ h => h.streamFetch).whenever
    fun _ h => h.weightLoad).whenever fun _ h => h.zeroRecord).closeOp).whenever fun _ h => h.drainRow
theorem State.Canonical.closeStages (h : s.Canonical) {r : Nat} : (s.closeStages r).Canonical := by
  refine h.foldl fun _ _ h => ?_
  refine (((((h.untilStill fun _ h => h.deal).whenever fun _ h => h.stageEos).whenever fun _ h => h.takeToken).whenever
    fun _ h => h.rangeEos).foldl fun _ _ h => ?_).foldl fun _ _ h => h.whenever fun _ h => h.cross
  split
  · exact (h.whenever fun _ h => h.serve).whenever fun _ h => h.ask
  · exact h
theorem State.Canonical.closeWaits (h : s.Canonical) {r : Nat} : (s.closeWaits r).Canonical :=
  ((h.foldl fun _ _ h => h.untilStill fun _ h => h.creditReturn).foldl fun _ _ h =>
    (((h.untilStill fun _ h => h.spawnAdmission).foldl fun _ _ h => h.whenever fun _ h => h.age).foldl
      fun _ _ h => h.whenever fun _ h => h.reelig)).foldl
      fun _ _ h => (((h.untilStill fun _ h => h.completionToken).whenever fun _ h => h.epilogueDispatch).whenever
        fun _ h => h.faultDispatch).whenever fun _ h => h.taskDispatch
theorem State.Canonical.closeRepairs (h : s.Canonical) {k : Nat} : (s.closeRepairs k).Canonical :=
  h.untilStill fun _ h => h.foldl fun _ _ h => h.whenever fun _ h => h.withRepair fun _ _ h => h.repairAct
theorem State.Canonical.ticketWait (h : s.Canonical) {k kind : Nat} : (s.ticketWait k kind).Canonical := either h.diverge h
theorem State.Canonical.roundClose (h : s.Canonical) {r : Nat} : (s.roundClose r).Canonical :=
  (((((h.updRegion.foldl fun _ _ h => h.closePosts).closeOutside.foldl fun _ _ h => h.closePackets).closeDram.foldl
    fun _ _ h => h.closeEngines).foldl fun _ _ h => h.closeRepairs).closeStages.closeWaits.foldl fun _ _ h => h.updTs).wakeAll.updRegion


/-! ## Instructions and events -/

/-- What goes on with a memory in canonical form. -/
def Res.Canonical (r : Res) : Prop := ∀ u, r = .next u → u.Canonical

theorem Res.Canonical.next (h : s.Canonical) : Res.Canonical (.next s) := fun _ e => Host.Outcome.next.inj e ▸ h
theorem Res.Canonical.whenEnabled (h : s.Canonical) {name : String} {c : Bool} : Res.Canonical (whenEnabled name c s) := by
  unfold Machine.whenEnabled
  split
  · exact .next h
  · nofun

theorem State.Canonical.fire (h : s.Canonical) {sh : Shape} {g : Grp} {maskOk nullOk : Bool} {body : Fire → Out} :
    Res.Canonical (s.fire sh g maskOk nullOk body) := by
  intro u hu
  obtain ⟨f, ix, o, -, -, -, ⟨-, rfl⟩ | ⟨-, rfl⟩⟩ := State.fire_cases hu
  · exact h.discard.boundary
  · exact h.applySide.setFlight
theorem State.Canonical.execCompactNop (h : s.Canonical) : Res.Canonical (execCompactNop s) := by
  unfold Machine.execCompactNop
  split
  · nofun
  · split
    · nofun
    · exact .next h.setFlight

/-- An instruction that has a shape fires; the events come below. -/
theorem State.Canonical.exec (h : s.Canonical) (i : Instr) : Res.Canonical (exec i s) := by
  cases hi : i.shape with
  | some sh =>
    by_cases hn : i = .compactNop
    · subst hn
      exact h.execCompactNop
    · obtain ⟨g, maskOk, body, he⟩ := exec_eq_fire hi hn
      rw [he]
      exact h.fire
  | none =>
    cases i with
    | blockStart _ => exact .whenEnabled (h.blockStart)
    | blockCommit _ => exact .whenEnabled (h.blockCommit)
    | packetArrival _ => exact .whenEnabled (h.packetArrival)
    | taskDispatch _ => exact .whenEnabled (h.taskDispatch)
    | packetAgeing _ _ => exact .whenEnabled (h.age)
    | yieldReeligible _ _ => exact .whenEnabled (h.reelig)
    | completionToken _ => exact .whenEnabled (h.completionToken)
    | creditReturn _ _ => exact .whenEnabled (h.creditReturn)
    | distributorDeal _ _ _ => exact .whenEnabled (h.deal)
    | stageEos _ _ => exact .whenEnabled (h.stageEos)
    | rangeTokenTake _ _ => exact .whenEnabled (h.takeToken)
    | stealRequest _ => exact .whenEnabled (h.ask)
    | stealService _ => exact .whenEnabled (h.serve)
    | crossFieldSplit _ _ _ => exact .whenEnabled (h.cross)
    | rangeStageEos _ _ => exact .whenEnabled (h.rangeEos)
    | spawnAdmission _ => exact .whenEnabled (h.spawnAdmission)
    | regionCompletion _ => exact .whenEnabled (h.complete)
    | dormancyRound _ => exact .whenEnabled (h.dormancy)
    | remoteStorePerform _ _ => exact .whenEnabled (h.remotePerform)
    | remoteAtomicPerform _ _ => exact .whenEnabled (h.remotePerform)
    | remoteLoadService _ _ => exact .whenEnabled (h.loadService)
    | journalAck _ _ => exact .whenEnabled (h.journalAck)
    | journalRefusal _ _ => exact .whenEnabled (h.journalRefusal)
    | ldrReply _ _ => exact .whenEnabled (h.ldrReply)
    | amoReply _ _ => exact .whenEnabled (h.amoReply)
    | relUpdatePost _ _ => exact .whenEnabled (h.postEntry)
    | releaseAmoPost _ _ => exact .whenEnabled (h.postEntry)
    | landingArrival _ => exact .whenEnabled (h.land)
    | streamFetch _ _ => exact .whenEnabled (h.streamFetch)
    | streamAppendWrite _ _ => exact .whenEnabled (h.appendWrite)
    | copyPiece _ _ _ => exact .whenEnabled (h.copyPiece)
    | dramreq _ => exact .whenEnabled (h.dramreq)
    | translationWalk _ => exact .whenEnabled (h.translationWalk)
    | dramRequestPerform _ => exact .whenEnabled (h.dramPerform)
    | dramrep _ => exact .whenEnabled (h.dramrep)
    | matrixOp _ => exact .whenEnabled (h.matrixOp)
    | weightLoad _ => exact .whenEnabled (h.weightLoad)
    | zeroRecord _ => exact .whenEnabled (h.zeroRecord)
    | drainRow _ => exact .whenEnabled (h.drainRow)
    | epilogueDispatch _ => exact .whenEnabled (h.epilogueDispatch)
    | faultTokenDispatch _ => exact .whenEnabled (h.faultDispatch)
    | repairResume _ => exact .whenEnabled (h.withRepair fun _ _ h => h.resumeTs)
    | repairResumeWithValue _ => exact .whenEnabled (h.withRepair fun _ _ h => h.resumeWith)
    | repairSkipBlock _ => exact .whenEnabled (h.withRepair fun _ _ h => h.skipBlock)
    | repairKillTask _ => exact .whenEnabled (h.withRepair fun _ _ h => h.killTask)
    | repairMigrate _ => exact .whenEnabled (h.withRepair fun _ _ h => h.repairMigrate)
    | repairHaltRegion _ => exact .whenEnabled (h.withRepair fun _ _ h => h.haltRegion)
    | frzctlConvert _ _ => exact .whenEnabled (h.frzConvert)
    | frzctlKill _ _ => exact .whenEnabled (h.frzKill)
    | subdataWrite _ _ => exact .whenEnabled (h.subdataWrite)
    | csrWrite _ _ _ => exact .whenEnabled (either h.csrWrite h)
    | tileStopped _ => exact .whenEnabled (h.tileStopped)
    | cutClose _ => exact .whenEnabled (h.cutClose)
    | liveMigration _ _ => exact .whenEnabled (h.migrate.traceFw)
    | forwardingEntryEnd _ => exact .whenEnabled (h.updTile)
    | contextSave _ => exact .whenEnabled (h.contextSave)
    | contextRestore _ => exact .whenEnabled (h.contextRestore)
    | watchdogExpiry _ => exact .whenEnabled (h.watchdog)
    | saveDeadlineExpiry _ => exact .whenEnabled (h.saveDeadline)
    | uncorrectableError _ _ => exact .whenEnabled (h.uncorrectable)
    | cmdCreate _ => exact .whenEnabled (h.command fun _ _ h => h.cmdCreate)
    | cmdLoadimg _ => exact .whenEnabled (h.command fun _ _ h => h.cmdLoadimg)
    | cmdLaunch _ => exact .whenEnabled (h.launch)
    | cmdDelta _ => exact .whenEnabled (h.cmdDelta)
    | cmdPreempt _ => exact .whenEnabled (h.cmdPreempt)
    | cmdResume _ => exact .whenEnabled (h.cmdResume)
    | cmdKill _ => exact .whenEnabled (h.command fun _ _ h => h.cmdKill)
    | cmdGrant _ => exact .whenEnabled (h.command fun _ _ h => h.cmdGrant)
    | cmdQuery _ => exact .whenEnabled (h.command fun _ _ h => h.cmdQuery)
    | cmdDestroy _ => exact .whenEnabled (h.command fun _ _ h => h.cmdDestroy)
    | doorbellWrite _ _ => exact .whenEnabled (h.doorbell)
    | qcfgDisable _ => exact .whenEnabled (h.qcfgDisable)
    | qcfgEnable _ _ _ _ => exact .whenEnabled (h.qcfgEnable)
    | seqEnd _ => exact .whenEnabled (either h.answerEndings h.seqFinish)
    | seqRun _ => exact .whenEnabled (h.seqRun)
    | seqAwait _ => exact .whenEnabled (h.seqNext)
    | seqApply _ => exact .whenEnabled (h.seqApply)
    | seqBranch _ => exact .whenEnabled (either h.seqTo h.seqNext)
    | seqHold _ => exact .whenEnabled (h.updRegion.commitUpdate)
    | transplanterInterval _ => exact .whenEnabled (h.interval)
    | leaseRenewal _ => exact .whenEnabled (h.renew)
    | leaseLapse _ => exact .whenEnabled (h.lapse)
    | railStep _ => exact .whenEnabled (h.railStep)
    | safeUpdate _ _ => exact .whenEnabled (h.safeUpdate)
    | undervoltWindow _ => exact .whenEnabled (h.undervolt)
    | tempUpdate _ _ => exact .whenEnabled (h.updCluster)
    | thermalGate _ => exact .whenEnabled (h.gate)
    | thermalRelease _ => exact .whenEnabled (h.release)
    | coolantInletLimit _ => exact .whenEnabled (h.coolant)
    | slackInterval _ => exact .whenEnabled (h.slack)
    | energyHarvest _ => exact .whenEnabled (h.harvest)
    | billbackHarvest => exact .next (h.billback)
    | billbackReceive _ _ => exact .next (h.billReceive)
    | trlctlHalt _ => exact .whenEnabled (h.trlHalt)
    | trlctlResume _ => exact .whenEnabled (h.trlResume)
    | crossTrigger _ => exact .whenEnabled (h.trlHalt)
    | trellisHalted _ => exact .whenEnabled (h.trlHalted)
    | stepGo _ _ => exact .whenEnabled (h.stepGo)
    | stepDone _ => exact .whenEnabled (h.stepDone)
    | traceSessionOpen _ _ => exact .whenEnabled (h.traceOpen)
    | traceSessionEnd _ _ => exact .whenEnabled (h.endTrace)
    | rootTracerGo _ _ => exact .whenEnabled (h.rootGo)
    | replayTicketWait _ _ => exact .whenEnabled (h.ticketWait)
    | roundClose _ => exact .whenEnabled (h.roundClose)
    | cxlMemRead _ _ _ => exact .whenEnabled (h.cxlRead)
    | cxlMemWrite _ _ _ => exact .whenEnabled (h.cxlWrite)
    | cxlPortDown _ => exact .whenEnabled (h.updLinks)
    | boderFlitReceive _ _ _ _ => exact .whenEnabled (h.boderFlit)
    | boderRemoteRequest _ => exact .whenEnabled (h.remoteRequest)
    | boderPortFailure _ => exact .whenEnabled (h.boderFail)
    | telem => exact .whenEnabled (State.Canonical.answer h.keep)
    | bootrec => exact .whenEnabled (h.answer)
    | rechar _ => exact .whenEnabled (h.rechar)
    | coll _ => exact .whenEnabled (h.coll)
    | fwupd _ => exact .whenEnabled (h.fwupd)
    | reset _ => exact .whenEnabled (State.Canonical.powerOn (either h.updBoot h))
    | getVersion _ => exact .whenEnabled (h.spdm)
    | getCapabilities _ => exact .whenEnabled (h.spdm)
    | negotiateAlgorithms _ => exact .whenEnabled (h.spdm)
    | getDigests _ => exact .whenEnabled (h.spdm)
    | getCertificate _ _ => exact .whenEnabled (h.spdm)
    | challenge _ _ => exact .whenEnabled (h.spdm)
    | getMeasurements _ _ => exact .whenEnabled (h.spdm)
    | keyExchange _ => exact .whenEnabled (h.spdm)
    | finish _ => exact .whenEnabled (h.spdm)
    | powerOnReset => exact .next (h.powerOn)
    | bringupStepTimeout _ => exact .whenEnabled (h.stepTimeout)
    | startTimeout => exact .whenEnabled (h.failStart)
    | tileCycle _ => exact .whenEnabled (h.tileCycle)
    | correctableError _ => exact .whenEnabled (h.correctable)
    | leadStopsActing => exact .whenEnabled (h.updLinks)
    | _ => cases hi

/-! ## Moves -/

/-- A move that keeps memory in its canonical form. -/
def Move.Keeps (m : Move) : Prop := ∀ s : State, s.Canonical → Res.Canonical (m s)
/-- Moves that all do. -/
def AllKeep (l : List Move) : Prop := ∀ m ∈ l, Move.Keeps m

theorem AllKeep.nil : AllKeep [] := nofun
theorem AllKeep.cons {m : Move} {l : List Move} (hm : Move.Keeps m) (hl : AllKeep l) : AllKeep (m :: l) :=
  List.forall_mem_cons.2 ⟨hm, hl⟩
theorem AllKeep.append {l l' : List Move} (h : AllKeep l) (h' : AllKeep l') : AllKeep (l ++ l') :=
  List.forall_mem_append.2 ⟨h, h'⟩
theorem AllKeep.map {α : Type} {f : α → Move} {l : List α} (h : ∀ x, Move.Keeps (f x)) : AllKeep (l.map f) :=
  List.forall_mem_map.2 fun x _ => h x
theorem AllKeep.flatMap {α : Type} {f : α → List Move} {l : List α} (h : ∀ x, AllKeep (f x)) : AllKeep (l.flatMap f) := by
  intro m hm
  obtain ⟨x, -, hm⟩ := List.mem_flatMap.1 hm
  exact h x m hm

/-- The move of an event. -/
theorem Move.Keeps.event (i : Instr) : Move.Keeps (Machine.exec i) := fun _ h => h.exec i
theorem Move.Keeps.fireNext {k : Nat} : Move.Keeps (Machine.fireNext k) := by
  intro s h
  unfold Machine.fireNext
  split
  · split
    · exact State.Canonical.exec h.keep _
    · nofun
  · nofun
theorem Move.Keeps.bringUpNext : Move.Keeps Machine.bringUpNext := by
  intro s h
  unfold Machine.bringUpNext
  split
  · exact .next h.powerOn
  · exact .whenEnabled h.bringup

theorem AllKeep.blockMoves {k : Nat} : AllKeep (Machine.blockMoves k) :=
  .cons .fireNext (.cons (.event (.blockCommit k)) .nil)
theorem AllKeep.tsMoves {k : Nat} : AllKeep (s.tsMoves k) := by
  unfold State.tsMoves
  refine .append (.append (.append (.append ?_ (.map fun _ _ h => .whenEnabled h.ticketWait)) (.flatMap fun j => ?_))
    (.flatMap fun c => .map fun p => .event (.copyPiece k c.id p))) ?_
  · exact .cons (.event (.completionToken k)) (.cons (.event (.faultTokenDispatch k)) (.cons (.event (.repairResume k))
      (.cons (.event (.repairResumeWithValue k)) (.cons (.event (.repairSkipBlock k)) (.cons (.event (.repairKillTask k))
      (.cons (.event (.repairMigrate k)) (.cons (.event (.repairHaltRegion k)) (.cons (.event (.weightLoad k))
      (.cons (.event (.zeroRecord k)) (.cons (.event (.drainRow k)) .nil))))))))))
  · exact .cons (.event (.relUpdatePost k j.num)) (.cons (.event (.releaseAmoPost k j.num)) (.cons (.event (.remoteStorePerform k j.num))
      (.cons (.event (.remoteAtomicPerform k j.num)) (.cons (.event (.journalAck k j.num)) (.cons (.event (.amoReply k j.num))
      (.cons (.event (.journalRefusal k j.num)) .nil))))))
  · split
    · exact .nil
    · exact .flatMap fun q => .cons (.event (.remoteLoadService k q.1)) (.cons (.event (.ldrReply k q.1)) .nil)
theorem AllKeep.tileMoves {t : Nat} : AllKeep (s.tileMoves t) := by
  refine .append (.append ?_ (.flatMap fun z => ?_)) (.flatMap fun m => ?_)
  · exact .cons (.event (.tileStopped t)) (.cons (.event (.spawnAdmission t)) (.cons (.event (.matrixOp t))
      (.cons (.event (.epilogueDispatch t)) (.cons (.event (.stealService t)) (.cons (.event (.stealRequest t)) .nil)))))
  · exact .cons (.event (.streamAppendWrite t z.1)) (.cons (.event (.streamFetch t z.1)) .nil)
  · exact .cons (.event (.yieldReeligible t m.pos)) (.cons (.event (.packetAgeing t m.pos)) .nil)
theorem AllKeep.regionMoves {r : Nat} : AllKeep (s.regionMoves r) := by
  refine .append (.append (.append ?_ ?_) (.map fun p => .event (.creditReturn r p.1))) (.flatMap fun p => ?_)
  · exact .cons (.event (.cutClose r)) (.cons (.event (.contextSave r)) (.cons (.event (.contextRestore r))
      (.cons (.event (.regionCompletion r)) (.cons (.event (.roundClose r)) (.cons (.event (.seqEnd r)) (.cons (.event (.seqRun r))
      (.cons (.event (.seqAwait r)) (.cons (.event (.seqApply r)) (.cons (.event (.seqBranch r)) (.cons (.event (.seqHold r)) .nil))))))))))
  · split
    · rename_i v _
      exact .cons (.event (.rootTracerGo r v)) .nil
    · exact .nil
  · refine .append (.append (.map fun i => .event (.distributorDeal r p.1 i)) ?_) (.map fun f => .event (.crossFieldSplit r p.1 f))
    exact .cons (.event (.stageEos r p.1)) (.cons (.event (.rangeTokenTake r p.1)) (.cons (.event (.rangeStageEos r p.1)) .nil))
theorem AllKeep.netMoves : AllKeep s.netMoves :=
  .append (.append (.append (.append (.flatMap fun n => .cons (.event (.packetArrival n)) (.cons (.event (.dramreq n)) .nil))
    (.map fun n => .event (.landingArrival n)))
    (.flatMap fun n => .cons (.event (.translationWalk n)) (.cons (.event (.dramRequestPerform n)) .nil)))
    (.map fun n => .event (.dramrep n))) (.map fun n => .event (.boderRemoteRequest n))
theorem AllKeep.queueMoves {q : Nat} : AllKeep (Machine.queueMoves q) :=
  .cons (.event (.cmdCreate q)) (.cons (.event (.cmdLoadimg q)) (.cons (.event (.cmdLaunch q)) (.cons (.event (.cmdDelta q))
    (.cons (.event (.cmdPreempt q)) (.cons (.event (.cmdResume q)) (.cons (.event (.cmdKill q)) (.cons (.event (.cmdGrant q))
    (.cons (.event (.cmdQuery q)) (.cons (.event (.cmdDestroy q)) (.cons (fun _ h => .whenEnabled h.reservedCommand) .nil))))))))))
theorem AllKeep.fieldMoves : AllKeep s.fieldMoves :=
  .append (.flatMap fun p => .cons (.event (.railStep p.1)) (.cons (.event (.thermalGate p.1)) (.cons (.event (.thermalRelease p.1)) .nil)))
    (.flatMap fun p => .cons (.event (.trellisHalted p.1)) (.cons (.event (.stepDone p.1)) .nil))
theorem AllKeep.moves : AllKeep s.moves :=
  ((((((((((((AllKeep.blockMoves.append (.flatMap fun _ => .blockMoves)).append .netMoves).append
    (.flatMap fun _ => .tsMoves)).append (.flatMap fun _ => .tileMoves)).append (.flatMap fun _ => .regionMoves)).append
    (.flatMap fun _ => .queueMoves)).append (.map fun q => .event (.cmdDelta q))).append
    (.cons (fun _ h => .whenEnabled h.barAccess) .nil)).append .fieldMoves).append (.map fun k => .event (.blockStart k))).append
    (.map fun k => .event (.taskDispatch k))).append (.map fun t => .event (.tileCycle t))).append (.cons .bringUpNext .nil)

/-! ## Steps -/

theorem AllKeep.firstMove {l : List Move} (hl : AllKeep l) (h : s.Canonical) : Res.Canonical (firstMove l s) := by
  induction l with
  | nil => nofun
  | cons m l ih =>
    obtain ⟨hm, hl⟩ := List.forall_mem_cons.1 hl
    unfold Machine.firstMove
    split
    · exact ih hl
    · exact hm s h
theorem AllKeep.nthMove {l : List Move} (hl : AllKeep l) (h : s.Canonical) {n : Nat} : Res.Canonical (nthMove n l s) := by
  induction l generalizing n with
  | nil => nofun
  | cons m l ih =>
    obtain ⟨hm, hl⟩ := List.forall_mem_cons.1 hl
    unfold Machine.nthMove
    split
    · exact ih hl
    · split
      · exact hm s h
      · exact ih hl
theorem State.Canonical.runTrigger (h : s.Canonical) {t : Trigger} : Res.Canonical (runTrigger t s) :=
  match t with
  | .frzConvert r n => h.exec (.frzctlConvert r n)
  | .frzKill r n => h.exec (.frzctlKill r n)
  | .crossTrigger c => h.exec (.crossTrigger c)
theorem State.Canonical.deliverNext (h : s.Canonical) : Res.Canonical (deliverNext s) := by
  unfold Machine.deliverNext
  split
  · exact AllKeep.moves.firstMove h
  · split
    · nofun
    · exact State.Canonical.exec h.keep _
theorem State.Canonical.step (h : s.Canonical) : Res.Canonical (step s) := by
  unfold Machine.step State.advance
  split
  · split
    · exact .next h.keep
    · exact State.Canonical.runTrigger h.keep
  · split
    · exact State.Canonical.deliverNext h.keep
    · exact AllKeep.moves.nthMove h.keep
    · exact h.deliverNext

/-- Settles O59: memory is empty at reset. -/
theorem memoryCanonicalAtReset : Obligations.MemoryCanonicalAtReset := rfl

/-- Settles O60: no function that a step is made of writes memory but through `Memory.put`, which keeps the form. -/
theorem memoryCanonicalStep : Obligations.MemoryCanonicalStep := fun _ u h e => State.Canonical.step h u e

end Sys2Proof.Machine
end

section
/-! SUPPORT. O25, O29 and O30: what waits, and what asks and waits (R134, R141 to R145, R147, R153, R154, R272, R276 to R281). -/

namespace Sys2Proof.Machine

open Sys2Proof Sys2Proof.Claims

variable {s : State} {c : Fire} {p : Pr} {l : BitVec 5} {t : Target} {a w : Word}

/-! ## What a memory instruction's rule leads to -/

section
variable {left right : Bool} {role : Role} {body : Fire → Out} (hv : s.view p = some c) (hm : c.mask = false)
  (ha : c.acquiring = false) (hl : left = true → c.left.isNull = false) (hr : right = true → c.right.isNull = false)

include hl hr in
theorem Fire.filled_memShape : c.filled (memShape p left right l t role) = true := by
  have h (b : Bool) (x : Token) (hx : b = true → x.isNull = false) : (!b || !x.isNull) = true := by
    cases b with
    | false => rfl
    | true => simp [hx rfl]
  simp [Fire.filled, memShape, h left c.left hl, h right c.right hr]

include hv hm ha hl hr

theorem State.memOp_waits {e : Option Effect} {q : Option LoadReq} (hb : body c = { given := .wait, eff := e, req := q }) :
    s.memOp p left right l t role false body = .next (waited c 6 e q) := by
  have hf : c.filled (memShape p left right l t role) = true := Fire.filled_memShape hl hr
  rw [State.memOp, State.fire_waits (c := c) hv (by simp [hm]) (by simp [hf]) ((Fire.afterAcquire_of_clear ha _).trans hb)]
  cases e <;> cases q <;> rfl
theorem State.memOp_acts {e : Effect} (hb : body c = Out.act .completion e) :
    s.memOp p left right l t role false body = .next (acts c t e) :=
  State.fire_acts hv hm (Fire.filled_memShape hl hr) rfl ((Fire.afterAcquire_of_clear ha _).trans hb)
theorem State.memOp_faults {f : Cause} (hb : body c = Out.fault f) :
    s.memOp p left right l t role false body = .next (c.faulted 6 f 0 0) :=
  State.fire_plainFault hv hm (Fire.filled_memShape hl hr) ((Fire.afterAcquire_of_clear ha _).trans hb)

end

/-! ## Remote loads (R134, R272) -/

section
variable {d : Dest} {n lsid : Nat} {acq : Bool} {give : List Byte → Out} (hd : ∀ off, d ≠ .pool c.tile off)
  (hx : c.below lsid (d.key?.getD 0) n = [])
include hd hx

/-- A load of another place whose request is not made asks for its bytes. -/
theorem Fire.load_asks (hq : AMap.find c.ix c.fl.reqs = none) (hj : c.Clear) :
    c.load lsid a d n acq give = { given := .wait, req := some ⟨a, n, .asked, false, false, false, 0⟩ } := by
  cases d with
  | pool t off =>
    have ht : t ≠ c.tile := fun h => hd off (h ▸ rfl)
    simp [Fire.load, hx, ht, hq, Fire.waitsFor_of_clear hj]
  | _ => simp [Fire.load, hx, hq, Fire.waitsFor_of_clear hj]
/-- One whose reply has come gives its bytes. -/
theorem Fire.load_replied {q : LoadReq} {bs : List Byte} (hq : AMap.find c.ix c.fl.reqs = some q) (hh : q.here = true)
    (hr : q.reply = .data bs) : c.load lsid a d n acq give = give bs := by
  cases d with
  | pool t off =>
    have ht : t ≠ c.tile := fun h => hd off (h ▸ rfl)
    simp [Fire.load, hx, ht, hq, hh, hr]
  | _ => simp [Fire.load, hx, hq, hh, hr]

end

/-! ## Fences and releases (R141 to R145, R276 to R279) -/

section
variable {e : Effect} {among : JEntry → Bool} {o : Out}

/-- What waits for journal entries goes on when none of them is open. -/
theorem Fire.awaits_done (h : ∀ x ∈ c.set.eng.journal, among x = true → x.openYet = false) :
    c.awaits e among o = { o with eff := some e } := by
  refine if_neg ?_
  rw [List.any_eq_true]
  rintro ⟨x, hx, hax⟩
  obtain ⟨ha, ho⟩ := Bool.and_eq_true_iff.1 hax
  rw [h x hx ha] at ho
  cases ho
/-- It waits while one of them is, if none is withheld. -/
theorem Fire.awaits_open (h : ∃ x ∈ c.set.eng.journal, among x = true ∧ x.openYet = true) (hj : c.Clear) :
    c.awaits e among o = Out.waitWith e := by
  obtain ⟨x, hx, ha, ho⟩ := h
  exact (if_pos (List.any_eq_true.2 ⟨x, hx, Bool.and_eq_true_iff.2 ⟨ha, ho⟩⟩)).trans (Fire.waitsFor_of_clear hj _ _)

end

theorem execFenceLocal_cases (hv : s.view p = some c) (hm : c.mask = false) (ha : c.acquiring = false) :
    ((c.tileRec.slots.all fun z => z.2.ts != c.k || z.2.toWrite.isEmpty) = true →
        exec (.fenceLocal p l t) s = .next (acts c t (.fence l.toNat 0 0))) ∧
      ((c.tileRec.slots.any fun z => z.2.ts == c.k && !z.2.toWrite.isEmpty) = true →
        exec (.fenceLocal p l t) s = .next (waited c 6 (some (.fence l.toNat 0 0)) none)) := by
  refine ⟨fun h => State.memOp_acts (left := false) (right := false) hv hm ha nofun nofun (if_neg ?_),
    fun h => State.memOp_waits (left := false) (right := false) hv hm ha nofun nofun (if_pos h)⟩
  rw [List.any_eq_true]
  rintro ⟨z, hz, hw⟩
  have := List.all_eq_true.1 h z hz
  simp_all
/-- FENCE.CLUSTER and FENCE.REGION, and FENCE.RECT of a legal rectangle. -/
theorem fenceKind_cases {left : Bool} {kind : Nat} {i : Instr} {body : Fire → Out} (hv : s.view p = some c) (hm : c.mask = false)
    (ha : c.acquiring = false) (hl : left = true → c.left.isNull = false)
    (hi : exec i s = s.memOp p left false l t .plain false body) (hb : body c = c.fenceKind l kind w) :
    ((∀ e ∈ c.set.eng.journal, s.fenceCovers c.tile kind w e = true → e.openYet = false) →
        exec i s = .next (acts c t (.fence l.toNat kind w))) ∧
      ((∃ e ∈ c.set.eng.journal, s.fenceCovers c.tile kind w e = true ∧ e.openYet = true) →
        (∀ e ∈ c.set.eng.journal, e.state ≠ .withheld) → exec i s = .next (waited c 6 (some (.fence l.toNat kind w)) none)) := by
  obtain ⟨rfl, -⟩ := State.view_cases hv
  rw [hi]
  exact ⟨fun h => State.memOp_acts (right := false) hv hm ha hl nofun (hb.trans (Fire.awaits_done h)),
    fun h hj => State.memOp_waits (right := false) hv hm ha hl nofun (hb.trans (Fire.awaits_open h hj))⟩

/-- ACQ of an object in the own pool delivers its value. -/
theorem execAcq_own (hv : s.view p = some c) (hm : c.mask = false) (ha : c.acquiring = false) (hl : c.left = .scalar a)
    (hr : c.right = .scalar w) (hw : c.rectOk w = true) (ho : ownAddress c a 8 false)
    (hp : s.poisoned (poolKey c.tile a.toNat) 8 = false) (hx : c.below l.toNat (poolKey c.tile a.toNat) 8 = []) :
    exec (.acq p l t) s = .next (c.after 6 [t] (.scalar (word (s.num (poolKey c.tile a.toNat) 8))) 0 none (some (a.toNat, 8))) := by
  obtain ⟨hlt, hal, hpad⟩ := ho
  obtain ⟨rfl, -⟩ := State.view_cases hv
  refine State.memOp_delivers (right := true) hv (by simp [hm]) ha hl (fun _ => by rw [hr]; rfl) ?_
  simp only [hl, hr, withPlace_own hlt hal (hpad.imp_right fun h => ⟨rfl, h.2⟩) (by rfl : objSpaces 0 = true), hw, if_true,
    Fire.load_own hlt (by rw [hx]; nofun) hp, hx, overlayBytes_nil]
  rfl
/-- REL of an object in the own pool waits for the open entries that are bound to it. -/
theorem execRel_own (hv : s.view p = some c) (hm : c.mask = false) (ha : c.acquiring = false) (hl : c.left = .scalar a)
    (hr : c.right = .scalar w) (hw : c.rectOk w = true) (ho : ownAddress c a 8 false) :
    ((∀ e ∈ c.set.eng.journal, a ∈ e.objs → e.kind ≠ .rel → e.openYet = false) →
        exec (.rel p l t) s = .next (acts c t (.relUpd l.toNat a))) ∧
      ((∃ e ∈ c.set.eng.journal, a ∈ e.objs ∧ e.kind ≠ .rel ∧ e.openYet = true) → (∀ e ∈ c.set.eng.journal, e.state ≠ .withheld) →
        exec (.rel p l t) s = .next (waited c 6 (some (.relUpd l.toNat a)) none)) := by
  obtain ⟨hlt, hal, hpad⟩ := ho
  have hbound (e : JEntry) : (e.objs.contains a && e.kind != .rel) = true ↔ a ∈ e.objs ∧ e.kind ≠ .rel := by simp
  have hleft : c.left.isNull = false := by rw [hl]; rfl
  have hright : c.right.isNull = false := by rw [hr]; rfl
  refine ⟨fun h => State.memOp_acts hv hm ha (fun _ => hleft) (fun _ => hright) ?_,
    fun h hj => State.memOp_waits hv hm ha (fun _ => hleft) (fun _ => hright) ?_⟩
  · simp only [hl, hr, withPlace_own hlt hal hpad (by rfl : objSpaces 0 = true), hw, if_true]
    exact Fire.awaits_done fun e he hb => h e he ((hbound e).1 hb).1 ((hbound e).1 hb).2
  · obtain ⟨e, he, ho, hk, hopen⟩ := h
    simp only [hl, hr, withPlace_own hlt hal hpad (by rfl : objSpaces 0 = true), hw, if_true]
    exact Fire.awaits_open ⟨e, he, (hbound e).2 ⟨ho, hk⟩, hopen⟩ hj

section
variable {o b n : Word} (hv : s.view p = some c) (hm : c.mask = false) (hl : c.left = .scalar o) (hr : c.right = .scalar b)
  (ho : ownAddress c o 8 false)
include hv hm hl hr ho

/-- BIND of an object in the own pool takes a legal range, and faults on any other. -/
theorem execBind_own (ht : c.third = .scalar n) :
    (rangeOk b n = true → exec (.bind p t) s = .next (acts c t (.bindE o b n.toNat))) ∧
      (rangeOk b n = false → exec (.bind p t) s = .next (c.faulted 6 .binding 0 0)) := by
  obtain ⟨hlt, hal, hpad⟩ := ho
  have hf : c.filled (mkShape p true true .data [t] .plain) = true := by simp [Fire.filled, mkShape, hl, hr, ht]
  refine ⟨fun h => State.fire_acts hv hm hf rfl ?_, fun h => State.fire_plainFault hv hm hf ?_⟩
  · simp only [hl, hr, ht, withPlace_own hlt hal hpad (by rfl : objSpaces 0 = true), h, if_true]
  · simp only [hl, hr, ht, withPlace_own hlt hal hpad (by rfl : objSpaces 0 = true), h, Bool.false_eq_true, if_false]
theorem execUnbind_own : exec (.unbind p t) s = .next (acts c t (.unbindE o b)) := by
  obtain ⟨hlt, hal, hpad⟩ := ho
  refine State.fire_acts (sh := mkShape p true true .none [t] .plain) hv hm (by simp [Fire.filled, mkShape, hl, hr]) rfl ?_
  simp only [hl, hr, withPlace_own hlt hal hpad (by rfl : objSpaces 0 = true)]

end

/-- A range that may be bound is as R143 says. -/
theorem rangeOk_iff {b n : Word} : rangeOk b n = true ↔
    b.toNat % 64 = 0 ∧ n.toNat % 64 = 0 ∧ 64 ≤ n.toNat ∧ n.toNat ≤ 2 ^ 40 ∧ b.toNat % 2 ^ 60 + n.toNat ≤ 2 ^ 60 := by
  simp only [rangeOk, Bool.and_eq_true, decide_eq_true_iff, and_assoc]

/-- Settles O29: the fences, then ACQ and REL, then BIND and UNBIND. -/
theorem fencesAndReleases : Obligations.FencesAndReleases := by
  refine ⟨fun p l t s c hv hm ha => ?_, fun p l t s c a w hv hm ha hl hr hw ho => ?_, fun p t s c o b hv hm hl hr ho => ?_⟩
  · have hrect (w : Word) (hl : c.left = .scalar w) (hw : c.rectOk w = true) :=
      fenceKind_cases (t := t) (l := l) (i := .fenceRect p l t) (kind := 1) (w := w) hv hm ha (fun _ => by rw [hl]; rfl) rfl
        (by simp only [hl, hw, if_true])
    have hcluster := fenceKind_cases (left := false) (i := .fenceCluster p l t) (body := fun c => c.fenceKind l 2 0) hv hm ha nofun rfl rfl
    have hregion := fenceKind_cases (left := false) (i := .fenceRegion p l t) (body := fun c => c.fenceKind l 3 0) hv hm ha nofun rfl rfl
    obtain ⟨hfree, hbusy⟩ := execFenceLocal_cases (l := l) (t := t) hv hm ha
    refine ⟨hfree, hbusy, fun w hl hw => (hrect w hl hw).1, fun w hl hw => (hrect w hl hw).2, fun w hl hw => ?_,
      hcluster.1, hcluster.2, hregion.1, hregion.2⟩
    refine State.memOp_faults (right := false) hv hm ha (fun _ => by rw [hl]; rfl) nofun ?_
    simp only [hl, hw, Bool.false_eq_true, if_false]
  · obtain ⟨hdone, hopen⟩ := execRel_own (l := l) (t := t) hv hm ha hl hr hw ho
    exact ⟨execAcq_own hv hm ha hl hr hw ho, hdone, hopen⟩
  · refine ⟨fun n ht => ?_, execUnbind_own hv hm hl hr ho⟩
    obtain ⟨hlegal, hother⟩ := execBind_own (t := t) hv hm hl hr ho ht
    exact ⟨fun h => hlegal (rangeOk_iff.2 h), fun h => hother (Bool.eq_false_iff.2 fun hk => h (rangeOk_iff.1 hk))⟩

/-! ## Waits for a generation or a count (R147, R153, R154, R280, R281) -/

/-- A landing word of the own pool passes the checks of R280. -/
theorem withWord_own {k : Nat → Out} (ha : a.toNat < 2 ^ 17) (hs : a.toNat % 8 = 0) (hp : c.s.inPad c.tile a.toNat 24 = true) :
    withWord c a k = k a.toNat := by
  simp [withWord, space_own ha, field_own ha, withAddr_own ha hs (.inl hp) (ok := (· == 0)) rfl]

/-- LWAIT of an armed landing word resolves when the generation is reached, and waits until then. -/
theorem execLwait_cases {g : Word} (hv : s.view p = some c) (hm : c.mask = false) (ha : c.acquiring = false) (hl : c.left = .scalar a)
    (hr : c.right = .scalar g) (hlt : a.toNat < 2 ^ 17) (hal : a.toNat % 8 = 0) (hpad : s.inPad c.tile a.toNat 24 = true)
    (htgt : s.landingTarget c.tile a.toNat ≠ 0) :
    (genReached (s.landingGen c.tile a.toNat) (g.toNat % 2 ^ 32) = true →
        exec (.lwait p t) s = .next (c.after 6 [t] (.scalar (word (s.landingGen c.tile a.toNat))) 0 (some .acquire))) ∧
      (genReached (s.landingGen c.tile a.toNat) (g.toNat % 2 ^ 32) = false →
        exec (.lwait p t) s = .next (waited c 6 (some .acquire) none)) := by
  obtain ⟨rfl, -⟩ := State.view_cases hv
  have hf : c.filled (mkShape p true true .none [t] .plain) = true := by simp [Fire.filled, mkShape, hl, hr]
  have hg : field g 0 32 = g.toNat % 2 ^ 32 := by simp [field]
  refine ⟨fun h => State.fire_gives hv hm hf rfl ?_, fun h => (State.fire_waits (e := some .acquire) (q := none) hv (by simp [hm])
    (by simp [hf]) ?_).trans rfl⟩
  · simp only [hl, hr, withWord_own hlt hal hpad, Fire.afterAcquire_of_clear ha, htgt, false_and, if_false, hg, h, if_true]
    rfl
  · simp only [hl, hr, withWord_own hlt hal hpad, Fire.afterAcquire_of_clear ha, htgt, false_and, if_false, hg, h, Bool.false_eq_true]
    rfl

/-- A count that is issued resolves when it is reached, and waits until then. -/
theorem State.countWait_cases {issued : Fire → Nat} {ready : Fire → Nat → Bool} {n : Word} (hv : s.view p = some c)
    (hm : c.mask = false) (hl : c.left = .scalar n) :
    (issued c < n.toNat → s.countWait p t issued ready = .next (c.faulted 6 .timeline 0 0)) ∧
      (n.toNat ≤ issued c → ready c n.toNat = true → s.countWait p t issued ready = .next (c.after 6 [t] (.scalar n) 0 (some .acquire))) ∧
      (n.toNat ≤ issued c → ready c n.toNat = false → s.countWait p t issued ready = .next (waited c 6 none none)) := by
  have hf : c.filled (mkShape p true false .none [t] .plain) = true := by simp [Fire.filled, mkShape, hl]
  refine ⟨fun h => State.fire_plainFault hv hm hf ?_, fun h hr => State.fire_gives hv hm hf rfl ?_,
    fun h hr => State.fire_waited hv hm hf ?_⟩
  · simp only [hl, h, if_true]
  · simp only [hl, Nat.not_lt.2 h, if_false, hr, if_true]
    rfl
  · simp only [hl, Nat.not_lt.2 h, if_false, hr, Bool.false_eq_true]

/-- Settles O30: the landing words first, then the counts. -/
theorem waitsResolve : Obligations.WaitsResolve := by
  intro p t s c hv hm
  refine ⟨fun a g ha hl hr hlt hal hpad htgt => ?_, fun a n ha hl hr hlt hal hpad => ?_, fun me n hl => ?_, fun n hl hn => ?_⟩
  · exact execLwait_cases hv hm ha hl hr hlt hal hpad htgt
  · refine State.fire_acts (sh := mkShape p true true .none [t] .plain) hv hm (by simp [Fire.filled, mkShape, hl, hr]) rfl ?_
    obtain ⟨rfl, -⟩ := State.view_cases hv
    simp only [hl, hr, withWord_own hlt hal hpad, Fire.afterAcquire_of_clear ha]
  · obtain ⟨hover, hreached, hwaits⟩ := State.countWait_cases (t := t)
      (issued := fun c => if me then c.fl.snap.issued else c.fl.snap.sealed)
      (ready := fun c n => decide (n ≤ if me then c.set.eng.me else c.set.eng.ce)) hv hm hl
    exact ⟨hover, fun h hr => hreached h (decide_eq_true hr), fun h hr => hwaits h (decide_eq_false (Nat.not_le.2 hr))⟩
  · obtain ⟨-, hreached, hwaits⟩ := State.countWait_cases (t := t) (issued := fun c => c.fl.snap.sealed)
      (ready := fun c n => decide (c.set.eng.unfinished ≤ n)) hv hm hl
    exact ⟨fun h => hreached hn (decide_eq_true h), fun h => hwaits hn (decide_eq_false (Nat.not_le.2 h))⟩

/-! ## O25, whose name is also that of the list of its instructions -/

/-- Settles O25: the load has no request yet and asks, or has its reply. -/
theorem remoteLoads : Obligations.RemoteLoads := by
  intro r hr p l t s c a hv hm ha hl hc ho hd hx
  obtain ⟨hs, -⟩ := State.view_cases hv
  rw [remoteLoads_eq r hr]
  subst hs
  refine ⟨fun hq hj => ?_, fun q bs hq hh hrep => ?_⟩
  · refine State.memOp_waits hv hm ha (right := false) (fun _ => by rw [hl]; rfl) nofun ?_
    simp only [hl, withPlace_far hc ho hd, Fire.load_asks hd hx hq hj]
  · refine State.memOp_delivers hv (by simp [hm]) ha hl nofun ?_
    simp only [hl, withPlace_far hc ho hd, Fire.load_replied hd hx hq hh hrep]
    rfl

end Sys2Proof.Machine
end

section
/-! SUPPORT. What refutes the statement about the events of the journal: the place of a posted store is looked up again after its hops
are charged (R402), and `State.follow` goes as many steps as tiles are listed, so that among tiles that forward to each other the
charge can move the place. -/

namespace Sys2Proof.Machine

open Sys2Proof Sys2Proof.Claims

/-- A posted store of the byte 1 at the start of the pool of sibling 1. -/
def siblingStore : JEntry := ⟨0, 0, word (2 ^ 60 + 2 ^ 18), 1, [some 1], .store, .pending, [], [], 0, 0, false, false, 0⟩
/-- Tiles 0 and 1 each forward context 0 to the other, and tile 0 is listed out of order: the list grows when a meter of tile 0 is
written. Thread set 0 has posted a store to sibling 1. -/
def circling : State := { State.reset with
  tiles := [(2, { Tile.init with live := true }), (1, { Tile.init with fwds := [⟨0, 0, 0⟩] }), (0, { Tile.init with fwds := [⟨0, 1, 0⟩] })],
  tss := [(0, { ThreadSet.init with eng := { Engines.zero with journal := [siblingStore] } })] }

/-- With three tiles listed the store's place is in tile 0. -/
theorem circling_dest : circling.destOf 0 siblingStore.addr = .pool 0 0 := by decide +kernel
/-- Its performing charges tile 0 first (R402), so that four are listed and the byte goes to tile 1. -/
theorem circling_strays : (circling.remotePerform 0 0).byte (poolKey 0 0) = 0 := by decide +kernel

/-- A store that is performed leads to the state after it. -/
theorem exec_remoteStorePerform {s u : State} {k n : Nat} (h : exec (.remoteStorePerform k n) s = .next u) : u = s.remotePerform k n := by
  have e : exec (.remoteStorePerform k n) s = whenEnabled "REMOTE_STORE_PERFORM" (s.canPerform k n false) (s.remotePerform k n) := rfl
  rw [e, whenEnabled] at h
  split at h
  · exact (Host.Outcome.next.inj h).symm
  · cases h

/-- Refutes O43: in `circling` the posted store does not put its byte at the place that its address leads to. -/
theorem not_memoryAndStreamEvents : ¬ Obligations.MemoryAndStreamEvents := by
  rintro ⟨-, -, -, -, -, -, -, -, -, -, -, -, -, -, -, -, -, hstore, -⟩
  obtain ⟨u, hu, -, hbyte⟩ := hstore 0 0 0 0 circling siblingStore rfl rfl rfl (by decide +kernel) circling_dest (by decide +kernel)
    (by decide +kernel) (by decide +kernel) (by decide +kernel)
  have hb := hbyte 0 1 rfl
  rw [exec_remoteStorePerform hu] at hb
  exact absurd (circling_strays.symm.trans hb) (by decide)

end Sys2Proof.Machine
end

section
/-! SUPPORT. O31 and O32: SBIND and the SCTL minors, COPY and CSEAL, when they fire (R156 to R170, R283 to R286). -/

namespace Sys2Proof.Machine

open Sys2Proof Sys2Proof.Claims

variable {s : State} {p : Pr} {k : BitVec 3} {t : Target} {c : Fire} {a : Word}

/-! ## The spaces of a copy (R131, R169) -/

theorem space_lt_of_spacesOk {lim : Nat} {as : List Word} (h : spacesOk lim as = true) : ∀ x ∈ as, space x < lim := fun x hx =>
  of_decide_eq_true (Bool.and_eq_true_iff.1 (List.all_eq_true.1 h x hx)).2
/-- A copy whose addresses lie in the allowed spaces names no privileged space, whatever the level. -/
theorem find_privileged_none {ends words idx : List Word} {user : Bool} (h4 : spacesOk 4 ends = true) (h3 : spacesOk 3 words = true)
    (h2 : spacesOk 2 idx = true) : ((ends ++ words ++ idx).find? fun x => space x == 4 && user) = none := by
  refine List.find?_eq_none.2 fun x hx hs => ?_
  have h : space x = 4 := eq_of_beq (Bool.and_eq_true_iff.1 hs).1
  rcases List.mem_append.1 hx with hx | hx
  · rcases List.mem_append.1 hx with hx | hx
    · exact absurd (space_lt_of_spacesOk h4 x hx) (by omega)
    · exact absurd (space_lt_of_spacesOk h3 x hx) (by omega)
  · exact absurd (space_lt_of_spacesOk h2 x hx) (by omega)

/-! ## Descriptors in the own pool (R159, R169) -/

section
variable (hv : s.view p = some c) (hm : c.mask = false) (ha : c.acquiring = false) (hl : c.left = .scalar a)
  (ho : ownAddress c a 64 false) (hp : s.poisoned (poolKey c.tile a.toNat) 64 = false)

include ha ho in
/-- A descriptor at a legal address of the own pool passes the checks before its bytes are read. -/
theorem withDescriptor_own (o : Out) : withAddr c a (· == 0) 64 64 false (c.afterAcquire o) = o := by
  obtain ⟨hlt, hal, hpad⟩ := ho
  rw [withAddr_own hlt hal hpad rfl, Fire.afterAcquire_of_clear ha]

include hv hm ha hl ho hp

/-- SBIND of an illegal descriptor faults, and of a legal one to a free slot is kept. -/
theorem execSbind_cases {bs : List Byte} {d : StreamDesc} (hbs : s.bytes (poolKey c.tile a.toNat) 64 = bs)
    (hd : streamOf (ofBytes bs) bs (c.oxAt 1) c.fl.snap.flags (c.oxAt 3) = d) :
    (streamLegal (ofBytes bs) d = true → AMap.find k.toNat c.tileRec.slots = none → c.boundHere k.toNat = false →
        exec (.sbind p k t) s = .next (c.after 6 [t] .completion 0 (some (.sbind k.toNat d)) (some (a.toNat, 64)))) ∧
      (streamLegal (ofBytes bs) d = false → exec (.sbind p k t) s = .next (c.faulted 6 .streamDescriptor 0 a)) := by
  obtain ⟨rfl, -⟩ := State.view_cases hv
  have hlt : a.toNat < 2 ^ 17 := ho.1
  have hf : c.filled (mkShape p true false .none [t] .plain) = true := by simp [Fire.filled, mkShape, hl]
  refine ⟨fun h hfree hhere => State.fire_delivers hv (by simp [hm]) (by simp [hf]) ?_,
    fun h => State.fire_faults hv (by simp [hm]) (by simp [hf]) ?_⟩
  · simp only [hl, withDescriptor_own ha ho, field_own hlt, hp, hbs, hd, h, hfree, hhere, Option.isSome_none, Bool.not_true,
      Bool.or_self, Bool.false_eq_true, if_false]
    rfl
  · simp only [hl, withDescriptor_own ha ho, field_own hlt, hp, hbs, hd, h, Bool.not_false, Bool.false_eq_true, if_false, if_true]

/-- COPY of a minor faults when its kind does not allow the fields, and with a legal descriptor it is kept. -/
theorem State.copyOp_cases {minor raw : Nat} {d : CopyDesc} (hraw : s.num (poolKey c.tile a.toNat) 64 = raw)
    (hd : copyOf raw (c.oxAt 2) = d) :
    (copyFields raw d minor = true → spacesOk 4 [d.src, d.dst] = true → spacesOk 3 d.words = true → spacesOk 2 d.idx = true →
        copyAligned d = true → c.wordOk d = true → c.strays ([d.src, d.dst] ++ d.words) = none →
        s.copyOp minor p t = .next (c.after 6 [t] .completion 0 (some (.copy d)) (some (a.toNat, 64)))) ∧
      (copyFields raw d minor = false → s.copyOp minor p t = .next (c.faulted 6 .copyDescriptor 0 a)) := by
  obtain ⟨rfl, -⟩ := State.view_cases hv
  have hlt : a.toNat < 2 ^ 17 := ho.1
  have hf : c.filled (mkShape p true false .none [t] .plain) = true := by simp [Fire.filled, mkShape, hl]
  refine ⟨fun h h4 h3 h2 hal hw hst => State.fire_delivers hv (by simp [hm]) (by simp [hf]) ?_,
    fun h => State.fire_faults hv (by simp [hm]) (by simp [hf]) ?_⟩
  · simp only [hl, withDescriptor_own ha ho, field_own hlt, hp, hraw, hd, h, find_privileged_none h4 h3 h2, h4, h3, h2, hal, hw, hst,
      Bool.and_self, Bool.not_true, Bool.false_eq_true, if_false]
    rfl
  · simp only [hl, withDescriptor_own ha ho, field_own hlt, hp, hraw, hd, h, Bool.not_false, Bool.false_eq_true, if_false, if_true]

end

/-! ## The SCTL minors (R164, R284) -/

/-- An instruction without operands has them all. -/
theorem Fire.filled_noOperands : c.filled (mkShape p false false .none [t] .plain) = true := by simp [Fire.filled, mkShape]

section
variable (hv : s.view p = some c) (hm : c.mask = false)
include hv hm

/-- On a slot of the issuing thread set the minors are kept, SFLUSH when nothing is left to write. -/
theorem execSctl_bound {z : Slot} (hz : s.slotOf c.k k.toNat = some z) :
    exec (.sunbind p k t) s = .next (acts c t (.sunbind k.toNat)) ∧
      (∀ n : Word, c.left = .scalar n → exec (.sskip p k t) s = .next (acts c t (.sskip k.toNat n.toNat))) ∧
      (z.desc.out = false ∨ z.toWrite = [] → exec (.sflush p k t) s = .next (acts c t (.sflush k.toNat))) := by
  obtain ⟨rfl, -⟩ := State.view_cases hv
  have hslot (f : Slot → Out) : withSlot c k.toNat f = f z := by rw [withSlot, hz]
  refine ⟨State.fire_acts hv hm Fire.filled_noOperands rfl (hslot _), fun n hl => ?_,
    fun h => State.fire_acts hv hm Fire.filled_noOperands rfl ((hslot _).trans (if_neg ?_))⟩
  · refine State.fire_acts (sh := mkShape p true false .none [t] .plain) hv hm (by simp [Fire.filled, mkShape, hl]) rfl ?_
    simp only [hl, hslot]
  · rcases h with h | h <;> simp [h]

/-- Without a slot SUNBIND and SFLUSH are the stream-slot fault. -/
theorem execSctl_unbound (hz : s.slotOf c.k k.toNat = none) :
    exec (.sunbind p k t) s = .next (c.faulted 6 .streamSlot 0 0) ∧ exec (.sflush p k t) s = .next (c.faulted 6 .streamSlot 0 0) := by
  obtain ⟨rfl, -⟩ := State.view_cases hv
  have hslot (f : Slot → Out) : withSlot c k.toNat f = Out.fault .streamSlot := by rw [withSlot, hz]
  exact ⟨State.fire_plainFault hv hm Fire.filled_noOperands (hslot _), State.fire_plainFault hv hm Fire.filled_noOperands (hslot _)⟩

theorem execSstat_delivers : exec (.sstat p k t) s = .next (c.after 6 [t] (.scalar (c.fl.snap.sstat.getD k.toNat 0))) :=
  State.fire_gives (e := none) hv hm Fire.filled_noOperands rfl rfl

/-! ## CSEAL (R170, R286) -/

/-- CSEAL delivers the number of its batch when no CSEAL of a lower index has fired, and else faults. -/
theorem execCseal_cases :
    ((∀ e ∈ c.fl.effs, e.2 = .cseal → c.ix ≤ e.1) →
        exec (.cseal p t) s = .next (c.after 6 [t] (.scalar (word (c.fl.snap.sealed + 1))) 0 (some .cseal))) ∧
      ((∃ e ∈ c.fl.effs, e.2 = .cseal ∧ e.1 < c.ix) → exec (.cseal p t) s = .next (c.faulted 6 .copyBatch 0 0)) := by
  refine ⟨fun h => State.fire_gives hv hm Fire.filled_noOperands rfl (if_neg ?_),
    fun h => State.fire_plainFault hv hm Fire.filled_noOperands (if_pos ?_)⟩
  · rw [List.any_eq_true]
    rintro ⟨e, he, hb⟩
    obtain ⟨hlt, hk⟩ := Bool.and_eq_true_iff.1 hb
    split at hk
    · exact absurd (h e he ‹_›) (Nat.not_le.2 (of_decide_eq_true hlt))
    · cases hk
  · obtain ⟨e, he, hk, hlt⟩ := h
    exact List.any_eq_true.2 ⟨e, he, by simp [hk, hlt]⟩

end

/-! ## The statements -/

/-- Settles O31: SBIND, the minors on a slot and without one, and SSTAT. -/
theorem streamControl : Obligations.StreamControl := fun _ _ _ _ _ hv hm =>
  ⟨fun _ ha hl ho hp => execSbind_cases hv hm ha hl ho hp rfl rfl, fun _ hz => execSctl_bound hv hm hz,
    fun hz => execSctl_unbound hv hm hz, execSstat_delivers hv hm⟩

/-- Each minor of COPY is the copy of its number (R285). -/
theorem exec_copies : ∀ r ∈ copies, exec (r.1 p t) s = s.copyOp r.2 p t := by
  simp only [copies, List.forall_mem_cons]
  exact ⟨rfl, rfl, rfl, rfl, nofun⟩

/-- Settles O32: the minors of COPY have one rule, and CSEAL looks at the CSEALs before it. -/
theorem copiesAndSeals : Obligations.CopiesAndSeals := by
  refine ⟨fun r hr p t s c a hv hm ha hl ho hp => ?_, fun _ _ _ _ hv hm => execCseal_cases hv hm⟩
  rw [exec_copies r hr]
  exact State.copyOp_cases hv hm ha hl ho hp rfl rfl

end Sys2Proof.Machine
end

section
/-! SUPPORT. O33, O34 and O35: the instructions of the matrix engine, when they fire (R178 to R183, R289 to R293). -/

namespace Sys2Proof.Machine

open Sys2Proof Sys2Proof.Claims

variable {s : State} {p : Pr} {t : Target} {c : Fire} {acc : BitVec 4} {kph : BitVec 7}

/-! ## Who may use the matrix engine (R183) -/

theorem Fire.noMatrix_of_user (h : matrixUser c) : c.noMatrix = false := by
  obtain ⟨hepi, hlevel⟩ := h
  exact Bool.or_eq_false_iff.2 ⟨decide_eq_false hepi, decide_eq_false (not_not.2 hlevel)⟩
theorem Fire.noMatrix_of_barred (h : epiTs c.tileRec.conf.part = some (c.k % 4) ∨ c.s.level c.tile ≠ .user) :
    c.noMatrix = true :=
  Bool.or_eq_true_iff.2 (h.imp decide_eq_true decide_eq_true)

/-! ## What a record needs and what it is given (R179, R289) -/

/-- With a free place in the queue and no dependence a record is kept and its number is delivered. -/
theorem Fire.append_free (h : recordFree c) (depv : Word) (b : RecBody) :
    ∃ r : MRec, r.body = b ∧ r.num = c.fl.snap.issued + 1 + c.ahead ∧ r.depk = 0 ∧
      c.append depv b = { given := .deliver (.scalar (word (c.fl.snap.issued + 1 + c.ahead))), eff := some (.mrec r) } := by
  obtain ⟨hdep, hroom⟩ := h
  have hnone : c.depFault depv = none := by simp only [Fire.depFault, hdep]
  simp only [Fire.append, hnone, if_neg (Nat.not_le.2 hroom)]
  exact ⟨_, rfl, rfl, hdep, rfl⟩

/-- An instruction whose rule appends a record delivers its number and keeps it for the commit. -/
theorem State.fire_appends {sh : Shape} {body : Fire → Out} {depv : Word} {b : RecBody} (hv : s.view sh.pr = some c)
    (hm : c.mask = false) (hr : recordFree c) (hf : c.filled sh = true) (ht : sh.targets = [t])
    (hb : body c = c.append depv b) :
    ∃ r : MRec, r.body = b ∧ r.num = c.fl.snap.issued + 1 + c.ahead ∧ r.depk = 0 ∧
      s.fire sh .mem false false body = .next (c.after 6 [t] (.scalar (word r.num)) 0 (some (.mrec r))) := by
  obtain ⟨r, hbody, hnum, hdepk, happ⟩ := Fire.append_free hr depv b
  exact ⟨r, hbody, hnum, hdepk, State.fire_gives hv hm hf ht (hb.trans (hnum ▸ happ))⟩

theorem Token.isNull_of_ne {x : Token} (h : x ≠ .null) : x.isNull = false := by
  cases x with
  | null => exact absurd rfl h
  | _ => rfl
/-- Two operands that are there fill the shape of an instruction without a third. -/
theorem Fire.filled_twoOperands (hl : c.left ≠ .null) (hr : c.right ≠ .null) :
    c.filled (mkShape p true true .none [t] .plain) = true := by
  simp [Fire.filled, mkShape, Token.isNull_of_ne hl, Token.isNull_of_ne hr]

section
variable (hv : s.view p = some c) (hm : c.mask = false)
include hv hm

/-! ## MZERO, MFENCE and MSTAT (R293) -/

section
variable (hu : matrixUser c)
include hu

/-- MZERO of an accumulator tile that no other thread set's records name appends a zero record. -/
theorem execMzero_appends (hacc : acc.toNat < field c.tileRec.conf.part 8 5)
    (hfree : ∀ i < 4, i ≠ c.k % 4 → ∀ r ∈ (s.ts (4 * c.tile + i)).eng.recs, r.body.acc? ≠ some acc.toNat) (hr : recordFree c) :
    ∃ r : MRec, r.body = .zero acc.toNat ∧ r.num = c.fl.snap.issued + 1 + c.ahead ∧ r.depk = 0 ∧
      exec (.mzero p acc t) s = .next (c.after 6 [t] (.scalar (word r.num)) 0 (some (.mrec r))) := by
  obtain ⟨rfl, -⟩ := State.view_cases hv
  have hothers : ((List.range 4).any fun i => decide (i ≠ tsNum c.k) &&
      (c.s.ts (4 * c.tile + i)).eng.recs.any fun r => r.body.acc? == some acc.toNat) = false := by
    simp only [List.any_eq_false, List.mem_range, Bool.and_eq_true, decide_eq_true_eq, List.any_eq_true, beq_iff_eq]
    rintro i hi ⟨hne, r, hmem, he⟩
    exact hfree i hi hne r hmem he
  refine State.fire_appends (depv := 0) hv hm hr Fire.filled_noOperands rfl ?_
  simp only [Fire.noMatrix_of_user hu, hothers, Nat.not_le.2 hacc, Bool.false_eq_true, or_self, if_false]

/-- MFENCE resolves when every record issued before the block has retired. -/
theorem execMfence_cases :
    (c.fl.snap.issued ≤ c.set.eng.me → exec (.mfence p t) s = .next (c.after 6 [t] .completion 0 (some .acquire))) ∧
      (c.set.eng.me < c.fl.snap.issued → exec (.mfence p t) s = .next (waited c 6 none none)) := by
  refine ⟨fun h => State.fire_gives hv hm Fire.filled_noOperands rfl ?_, fun h => State.fire_waited hv hm Fire.filled_noOperands ?_⟩
  · simp only [Fire.noMatrix_of_user hu, h, Bool.false_eq_true, if_false, if_true]
    rfl
  · simp only [Fire.noMatrix_of_user hu, Nat.not_le.2 h, Bool.false_eq_true, if_false]

theorem execMstat_delivers : exec (.mstat p t) s = .next (c.after 6 [t] (.scalar c.fl.snap.drain)) :=
  State.fire_gives (e := none) hv hm Fire.filled_noOperands rfl
    (if_neg (by simp only [Fire.noMatrix_of_user hu, Bool.false_eq_true, not_false_eq_true]))

end

/-! ## Outside the context of the matrix engine (R183) -/

section
variable (hc : epiTs c.tileRec.conf.part = some (c.k % 4) ∨ s.level c.tile ≠ .user)
include hc

theorem execMctl_barred :
    exec (.mzero p acc t) s = .next (c.faulted 6 .matrixContext 0 0) ∧ exec (.mfence p t) s = .next (c.faulted 6 .matrixContext 0 0) ∧
      exec (.mstat p t) s = .next (c.faulted 6 .matrixContext 0 0) := by
  obtain ⟨rfl, -⟩ := State.view_cases hv
  have hbar := Fire.noMatrix_of_barred hc
  exact ⟨State.fire_plainFault hv hm Fire.filled_noOperands (if_pos hbar),
    State.fire_plainFault hv hm Fire.filled_noOperands (if_pos hbar), State.fire_plainFault hv hm Fire.filled_noOperands (if_pos hbar)⟩

/-- MLDB faults unless a null lane that its format reads nulls it first (R447). -/
theorem execMldb_barred (hl : c.left ≠ .null) (hr : c.right ≠ .null)
    (h0 : groupOf (field c.ox0 8 5) ≠ 0 → c.right.laneNull 0 = false) (h1 : isU4 (field c.ox0 8 5) = true → c.right.laneNull 1 = false) :
    exec (.mldb p kph t) s = .next (c.faulted 6 .matrixContext 0 0) := by
  obtain ⟨rfl, -⟩ := State.view_cases hv
  have hlanes : ¬((groupOf (field c.ox0 8 5) ≠ 0 ∧ c.right.laneNull 0 = true) ∨
      (isU4 (field c.ox0 8 5) = true ∧ c.right.laneNull 1 = true)) := by
    rintro (⟨hg, hn⟩ | ⟨hu, hn⟩)
    · exact absurd hn (Bool.eq_false_iff.1 (h0 hg))
    · exact absurd hn (Bool.eq_false_iff.1 (h1 hu))
  exact State.fire_plainFault hv hm (Fire.filled_twoOperands hl hr) ((if_neg hlanes).trans (if_pos (Fire.noMatrix_of_barred hc)))

theorem execMq_barred (hl : c.left ≠ .null) (hr : c.right ≠ .null) :
    exec (.mq p false acc t) s = .next (c.faulted 6 .matrixContext 0 0) := by
  obtain ⟨rfl, -⟩ := State.view_cases hv
  exact State.fire_plainFault hv hm (Fire.filled_twoOperands hl hr) (if_pos (Fire.noMatrix_of_barred hc))
theorem execMdrain_barred (hl : c.left ≠ .null) (hr : c.right ≠ .null) :
    exec (.mdrain p false acc t) s = .next (c.faulted 6 .matrixContext 0 0) := by
  obtain ⟨rfl, -⟩ := State.view_cases hv
  exact State.fire_plainFault hv hm (Fire.filled_twoOperands hl hr) (if_pos (Fire.noMatrix_of_barred hc))

end

/-! ## MLDB, MQ and MDRAIN (R290 to R292) -/

section
variable (hu : matrixUser c) (hr : recordFree c)
include hu hr

/-- MLDB of an ungrouped format with its columns in the scratchpad appends a weight record. -/
theorem execMldb_appends {e w : Word} {b : Nat} (hb0 : field c.ox0 8 5 = b) (hl : c.left = .scalar e) (hw : c.right = .scalar w)
    (ha : isA (field c.ox0 0 5) = true) (hb : isB b = true) (hg : groupOf b = 0) (hhigh : field e 34 30 = 0)
    (hal : e.toNat % 16 = 0) (heven : columnBytes b = 192 → field e 17 17 % 2 = 0)
    (hin : c.columnsIn (field e 0 17) (field e 17 17) (columnBytes b) = true) :
    ∃ r : MRec, r.body = .weight 0 b 0 0 (field w 17 17) (field w 0 17) (field e 17 17) (field e 0 17) ∧
      r.num = c.fl.snap.issued + 1 + c.ahead ∧ r.depk = 0 ∧
      exec (.mldb p 0 t) s = .next (c.after 6 [t] (.scalar (word r.num)) 0 (some (.mrec r))) := by
  obtain ⟨rfl, -⟩ := State.view_cases hv
  have hu4 : isU4 b = false := by simp only [isU4, hg, ne_eq, not_true, decide_false, Bool.and_false]
  have hlow : field e 0 4 = 0 := by simp only [field]; omega
  have hstride : ¬(columnBytes b = 192 ∧ field e 17 1 ≠ 0) := fun h => h.2 (by
    have := heven h.1
    simp only [field] at this ⊢
    omega)
  have hbad : c.badFormats = false := by simp only [Fire.badFormats, ha, hb0, hb, Bool.not_true, Bool.or_self]
  refine State.fire_appends (sh := mkShape p true true .none [t] .plain) (depv := 0) hv hm hr
    (Fire.filled_twoOperands (by simp [hl]) (by simp [hw])) rfl ?_
  simp [hl, hw, hb0, hg, hu4, hhigh, hlow, hstride, hbad, hin, Fire.noMatrix_of_user hu, laneOr, Token.isData, Token.isScalar]
  rfl

/-- MQ of a legal pair of formats with its rows in the scratchpad appends an op record. -/
theorem execMq_appends {aw : Word} {v : Vec} {n : BitVec 8} {a b base stride : Nat} (ha0 : field c.ox0 0 5 = a)
    (hb0 : field c.ox0 8 5 = b) (hbase : aw.toNat % 2 ^ 17 = base) (hstride : aw.toNat / 2 ^ 17 % 2 ^ 17 = stride)
    (hl : c.left = .scalar aw) (hw : c.right = .vector v n)
    (ha : isA a = true) (hb : isB b = true) (hpair : pairOk a b = true) (hfmt : c.weightFmt = some b) (hown : c.owns acc.toNat = true)
    (hhigh : aw.toNat < 2 ^ 34) (hbal : base % 16 = 0) (hsal : stride % 16 = 0)
    (hin : ∀ j < 8, maskBit n j = false → s.inPad c.tile (base + (v.get j).toNat % 256 * stride) 96 = true) :
    ∃ r : MRec, r.body = .op (laneList.map fun j => if maskBit n j then none else some ((v.get j).toNat % 256)) b a acc.toNat stride base ∧
      r.num = c.fl.snap.issued + 1 + c.ahead ∧ r.depk = 0 ∧
      exec (.mq p false acc t) s = .next (c.after 6 [t] (.scalar (word r.num)) 0 (some (.mrec r))) := by
  obtain ⟨rfl, -⟩ := State.view_cases hv
  have hfb : field aw 0 17 = base := by rw [← hbase, field, Nat.pow_zero, Nat.div_one]
  have hfs : field aw 17 17 = stride := hstride
  have hfh : field aw 34 30 = 0 := by simp only [field]; omega
  have hbad : c.badFormats = false := by simp only [Fire.badFormats, ha0, ha, hb0, hb, Bool.not_true, Bool.or_self]
  have hidx (x : Word) : field x 0 8 = x.toNat % 256 := by simp only [field]; omega
  refine State.fire_appends (sh := mkShape p true true .none [t] .plain) (depv := 0) hv hm hr
    (Fire.filled_twoOperands (by simp [hl]) (by simp [hw])) rfl ?_
  simp [hl, hw, ha0, hb0, hfb, hfs, hfh, hidx, hbad, hpair, hfmt, hown, hbal, hsal, Fire.noMatrix_of_user hu, Fire.depv?]
  intro j hj hout
  cases hn : maskBit n j with
  | true => simp [hn] at hout
  | false =>
    have hlt : j < 8 := by simp only [laneList, List.mem_cons, List.not_mem_nil, or_false] at hj; omega
    exact absurd (hin j hlt hn) (by simpa [hn] using hout)

/-- MDRAIN to rows of the own scratchpad appends a drain record. -/
theorem execMdrain_appends {d w : Word} {stride : Int} {f : Fmt} (hs : sintN 20 (field w 0 20) = stride) (hl : c.left = .scalar d)
    (hw : c.right = .scalar w) (ha : isA (field c.ox0 0 5) = true) (hb : isB (field c.ox0 8 5) = true) (hown : c.owns acc.toNat = true)
    (hhigh : field w 55 9 = 0) (hepi : bitAt w 48 = false) (hsend : bitAt w 47 = false) (hcse : bitAt w 37 = false)
    (hf : fmtOf (field w 38 5) = some f) (hal : d.toNat % f.bytes = 0) (hsal : stride % (f.bytes : Int) = 0)
    (hin : ∀ j < 8, (rowAddr d stride j).toNat < 2 ^ 17 ∧ s.inPad c.tile (rowAddr d stride j).toNat (8 * f.bytes) = true) :
    ∃ r : MRec, r.body = .drain d stride false (field w 20 17) (field w 43 2) (bitAt w 45) (bitAt w 46) false (field w 49 6) false
        (field w 38 5) acc.toNat ∧
      r.num = c.fl.snap.issued + 1 + c.ahead ∧ r.depk = 0 ∧
      exec (.mdrain p false acc t) s = .next (c.after 6 [t] (.scalar (word r.num)) 0 (some (.mrec r))) := by
  obtain ⟨rfl, -⟩ := State.view_cases hv
  have hd : d.toNat < 2 ^ 17 := by simpa [rowAddr, wordOfInt] using (hin 0 (Nat.succ_pos 7)).1
  have hbad : c.badFormats = false := by simp only [Fire.badFormats, ha, hb, Bool.not_true, Bool.or_self]
  have hrows : ((List.range 8).all fun i => let a := rowAddr d stride i
      space a == 0 && addrFormOk a && c.s.inPad c.tile (field a 0 17) (8 * f.bytes)) = true := by
    refine List.all_eq_true.2 fun i hi => ?_
    obtain ⟨hlt, hpad⟩ := hin i (List.mem_range.1 hi)
    simp only [space_own hlt, addrFormOk_own hlt, field_own hlt, hpad, beq_self_eq_true, Bool.and_self]
  refine State.fire_appends (sh := mkShape p true true .none [t] .plain) (depv := 0) hv hm hr
    (Fire.filled_twoOperands (by simp [hl]) (by simp [hw])) rfl ?_
  simp [-List.all_eq_true, hl, hw, hs, hf, hbad, hown, hhigh, hepi, hsend, hcse, hsal, hal, hrows, addrFormOk_own hd, space_own hd,
    Fire.noMatrix_of_user hu, Fire.depv?]

end
end

/-! ## The statements -/

/-- Settles O33: MZERO, MFENCE and MSTAT of a thread set that may use the matrix engine. -/
theorem matrixControl : Obligations.MatrixControl := fun _ _ _ _ _ hv hm hu =>
  ⟨fun hacc hfree hr => execMzero_appends hv hm hu hacc hfree hr, (execMfence_cases hv hm hu).1, (execMfence_cases hv hm hu).2,
    execMstat_delivers hv hm hu⟩

/-- Settles O34: the check of the context comes before every other one of the rule. -/
theorem matrixContextFault : Obligations.MatrixContextFault := fun _ _ _ _ _ hv hm hc =>
  have ⟨hzero, hfence, hstat⟩ := execMctl_barred hv hm hc
  ⟨hzero, hfence, hstat, fun hl hr h0 h1 _ => execMldb_barred hv hm hc hl hr h0 h1,
    fun hl hr => ⟨execMq_barred hv hm hc hl hr, execMdrain_barred hv hm hc hl hr⟩⟩

/-- An instruction that delivers the number of the record it keeps, with that number named. -/
theorem appended {i : Instr} {b : RecBody} {n : Nat} (h : ∃ r : MRec, r.body = b ∧ r.num = n ∧ r.depk = 0 ∧
      exec i s = .next (c.after 6 [t] (.scalar (word r.num)) 0 (some (.mrec r)))) :
    ∃ r : MRec, r.body = b ∧ r.num = n ∧ exec i s = .next (c.after 6 [t] (.scalar (word n)) 0 (some (.mrec r))) := by
  obtain ⟨r, hbody, rfl, -, he⟩ := h
  exact ⟨r, hbody, rfl, he⟩

/-- Settles O35: the records of MLDB, MQ and MDRAIN. -/
theorem matrixRecords : Obligations.MatrixRecords := fun _ _ _ _ hv hm hu hr =>
  ⟨fun _ _ hl hw ha hb hg hhigh hal heven hin =>
      appended (execMldb_appends hv hm hu hr rfl hl hw ha hb hg hhigh hal heven hin),
    fun _ _ _ _ hl hw ha hb hpair hfmt hown hhigh hbal hsal hin =>
      appended (execMq_appends hv hm hu hr rfl rfl rfl rfl hl hw ha hb hpair hfmt hown hhigh hbal hsal hin),
    fun _ _ _ hl hw ha hb hown hhigh hepi hsend hcse ⟨_, hf, hal, hsal, hin⟩ =>
      appended (execMdrain_appends hv hm hu hr rfl hl hw ha hb hown hhigh hepi hsend hcse hf hal hsal hin)⟩

end Sys2Proof.Machine
end

section
/-! SUPPORT. What an operation may change in thread sets, tiles and regions, said once for each group of operations. -/

namespace Sys2Proof.Machine

open Sys2Proof Sys2Proof.Claims

/-! ## Kinds of change -/

/-- How a thread set, a tile and a region after some operations may differ from before; any number of steps may follow each
other. -/
structure Change where
  ts : Nat → ThreadSet → ThreadSet → Prop
  tile : Tile → Tile → Prop
  region : Region → Region → Prop
  ts_refl : ∀ k a, ts k a a
  tile_refl : ∀ x, tile x x
  region_refl : ∀ g, region g g
  ts_trans : ∀ {k a b c}, ts k a b → ts k b c → ts k a c
  tile_trans : ∀ {x y z}, tile x y → tile y z → tile x z
  region_trans : ∀ {g h i}, region g h → region h i → region g i

/-- Each change of the first kind is one of the second. -/
structure Change.Le (c d : Change) : Prop where
  ts : ∀ {k a b}, c.ts k a b → d.ts k a b
  tile : ∀ {x y}, c.tile x y → d.tile x y
  region : ∀ {g h}, c.region g h → d.region g h

theorem Change.Le.refl (c : Change) : c.Le c := ⟨id, id, id⟩
theorem Change.Le.trans {c d e : Change} (h : c.Le d) (g : d.Le e) : c.Le e := ⟨g.ts ∘ h.ts, g.tile ∘ h.tile, g.region ∘ h.region⟩

/-- A state follows from another by changes of a kind, with the same regions. -/
structure State.Under (c : Change) (s u : State) : Prop where
  ts : ∀ k, c.ts k (s.ts k) (u.ts k)
  tile : ∀ t, c.tile (s.tile t) (u.tile t)
  region : ∀ r, c.region (s.region r) (u.region r)
  has : ∀ r, u.hasRegion r = s.hasRegion r

namespace State.Under
variable {c d : Change} {s u v : State}

theorem refl (s : State) : s.Under c s := ⟨fun _ => c.ts_refl .., fun _ => c.tile_refl _, fun _ => c.region_refl _, fun _ => rfl⟩
theorem mono (hc : c.Le d) (h : s.Under c u) : s.Under d u :=
  ⟨fun k => hc.ts (h.ts k), fun t => hc.tile (h.tile t), fun r => hc.region (h.region r), h.has⟩
theorem ite {p : Prop} [Decidable p] (hu : s.Under c u) (hv : s.Under c v) : s.Under c (if p then u else v) := by
  split
  · exact hu
  · exact hv

variable (h : s.Under c u)
include h

theorem trans (g : u.Under c v) : s.Under c v :=
  ⟨fun k => c.ts_trans (h.ts k) (g.ts k), fun t => c.tile_trans (h.tile t) (g.tile t), fun r => c.region_trans (h.region r) (g.region r),
    fun r => (g.has r).trans (h.has r)⟩
/-- Operations on other parts of the state. -/
theorem other (ht : v.tss = u.tss) (hx : v.tiles = u.tiles) (hr : v.regions = u.regions) : s.Under c v where
  ts k := by simpa only [State.ts, ht] using h.ts k
  tile t := by simpa only [State.tile, hx] using h.tile t
  region r := by simpa only [State.region, hr] using h.region r
  has r := by simpa only [State.hasRegion, hr] using h.has r
/-- Another network, memory, links, fields or flights. -/
theorem net {n : List Flying} : s.Under c { u with net := n } := h.other rfl rfl rfl
theorem updTs {k : Nat} {f : ThreadSet → ThreadSet} (hf : c.ts k (u.ts k) (f (u.ts k))) : s.Under c (u.updTs k f) := by
  refine ⟨fun j => ?_, h.tile, h.region, h.has⟩
  by_cases e : j = k
  · subst e
    rw [State.ts_updTs]
    exact c.ts_trans (h.ts j) hf
  · rw [State.ts_updTs_of_ne u e]
    exact h.ts j
theorem setTs {k : Nat} {a : ThreadSet} (ha : c.ts k (u.ts k) a) : s.Under c (u.setTs k a) := h.updTs (f := fun _ => a) ha
theorem updTile {t : Nat} {f : Tile → Tile} (hf : ∀ x, c.tile x (f x)) : s.Under c (u.updTile t f) := by
  refine ⟨h.ts, fun j => ?_, h.region, h.has⟩
  by_cases e : j = t
  · subst e
    rw [State.tile_updTile]
    exact c.tile_trans (h.tile j) (hf _)
  · rw [State.tile_updTile_of_ne u e]
    exact h.tile j
theorem updRegion {r : Nat} {f : Region → Region} (hf : ∀ g, c.region g (f g)) : s.Under c (u.updRegion r f) := by
  refine ⟨h.ts, h.tile, fun j => ?_, fun j => (State.hasRegion_updRegion ..).trans (h.has j)⟩
  rcases u.region_updRegion_cases r j f with e | ⟨rfl, e⟩
  · rw [e]
    exact h.region j
  · rw [e]
    exact c.region_trans (h.region j) (hf _)
theorem foldl {α : Type} {f : State → α → State} (hf : ∀ {w : State} (x : α), s.Under c w → s.Under c (f w x)) (l : List α) :
    s.Under c (l.foldl f u) := by
  induction l generalizing u with
  | nil => exact h
  | cons x l ih => exact ih (hf x h)

end State.Under

/-! ## Meters, edges and mailboxes -/

/-- What charges, the groups of streams and the packets of mailboxes change: of the thread sets nothing, of a tile neither its
configuration nor its place nor its clock, of a region its edges. -/
def placeChange : Change where
  ts _ a b := b = a
  tile x y := y.conf = x.conf ∧ y.rgn = x.rgn ∧ y.coord = x.coord ∧ y.fwds = x.fwds ∧ y.cycle = x.cycle
  region g h := ∃ es, h = { g with edges := es }
  ts_refl _ _ := rfl
  tile_refl _ := ⟨rfl, rfl, rfl, rfl, rfl⟩
  region_refl _ := ⟨_, rfl⟩
  ts_trans h g := g.trans h
  tile_trans := by
    rintro x y z ⟨h1, h2, h3, h4, h5⟩ ⟨g1, g2, g3, g4, g5⟩
    exact ⟨g1.trans h1, g2.trans h2, g3.trans h3, g4.trans h4, g5.trans h5⟩
  region_trans := by
    rintro g _ _ ⟨es, rfl⟩ ⟨es', rfl⟩
    exact ⟨es', rfl⟩

namespace State.Under
variable {c : Change} {s u : State}

section
variable (h : s.Under c u)
include h

theorem putBytes {a : Nat} {bs : Bytes} : s.Under c (u.putBytes a bs) := by
  rw [u.putBytes_eq]
  exact h.other rfl rfl rfl
theorem putAll {a : Nat} {bs : List Byte} : s.Under c (u.putAll a bs) := h.putBytes
theorem putNum {a n v : Nat} : s.Under c (u.putNum a n v) := h.putBytes
theorem free : s.Under c u.free.2 := h.other rfl rfl rfl
theorem freeBytes {n : Nat} : s.Under c (u.freeBytes n).2 := by
  obtain ⟨m, e⟩ := u.freeBytes_eq n
  rw [e]
  exact h.other rfl rfl rfl
theorem putFree {a n : Nat} : s.Under c (u.putFree a n) := h.foldl (fun _ hw => hw.free.putAll) _
theorem copyRange {a b n : Nat} : s.Under c (u.copyRange a b n) := h.other rfl rfl rfl
theorem zeroPools {ts : List Nat} : s.Under c (u.zeroPools ts) := h.other rfl rfl rfl
theorem wakeAll : s.Under c u.wakeAll := h.other rfl rfl rfl
omit h in
/-- A pair's state, from the state of what it equals. -/
theorem snd {α : Type} {v : State} {p : α × State} {a : α} (hp : s.Under c p.2) (e : p = (a, v)) : s.Under c v := by
  rw [e] at hp
  exact hp
end

variable (hc : placeChange.Le c) (h : s.Under c u)
include hc

/-- A tile that keeps its configuration, its place and its clock. -/
theorem place_tile {x y : Tile} (h1 : y.conf = x.conf) (h2 : y.rgn = x.rgn) (h3 : y.coord = x.coord) (h4 : y.fwds = x.fwds)
    (h5 : y.cycle = x.cycle) : c.tile x y := hc.tile ⟨h1, h2, h3, h4, h5⟩

include h

theorem charge {t ctx cls units : Nat} : s.Under c (u.charge t ctx cls units) := by
  unfold State.charge State.chargeRaw
  exact h.updTile fun _ => place_tile hc rfl rfl rfl rfl rfl
theorem chargeFlight {k : Nat} {f : Flight} : s.Under c (u.chargeFlight k f) := by
  refine h.foldl (fun x hw => ?_) _
  split
  · exact hw.charge hc
  · exact hw.charge hc
theorem discard {k : Nat} : s.Under c (u.discard k) := by
  unfold State.discard
  split
  · exact (h.chargeFlight hc).other rfl rfl rfl
  · exact h
theorem dropGroups {k : Nat} : s.Under c (u.dropGroups k) := h.updTile fun _ => place_tile hc rfl rfl rfl rfl rfl
theorem updEdge {r e : Nat} {f : Edge → Edge} : s.Under c (u.updEdge r e f) := h.updRegion fun _ => hc.region ⟨_, rfl⟩
theorem returnCredit {r q : Nat} {e : Option Nat} : s.Under c (u.returnCredit r e q) := by
  cases e with
  | none => exact h
  | some e => exact h.updEdge hc
/-- Another mailbox of a tile. -/
theorem updMbox {t : Nat} {f : Tile → Mailbox} : s.Under c (u.updTile t fun x => { x with mbox := f x }) :=
  h.updTile fun _ => place_tile hc rfl rfl rfl rfl rfl
theorem putMail {t : Nat} {m : Mail} : s.Under c (u.putMail t m) := by
  unfold State.putMail State.putMailFor
  refine State.Under.updTile ?_ fun _ => place_tile hc rfl rfl rfl rfl rfl
  exact h.putAll.charge hc
theorem spillReturn {t : Nat} : s.Under c (u.spillReturn t) := by
  unfold State.spillReturn
  dsimp only
  split
  · refine State.Under.ite (((State.Under.updMbox hc ?_).charge hc).putMail hc) h
    split
    · exact h
    · exact h.freeBytes
  · exact h
theorem releaseMail {t pos : Nat} : s.Under c (u.releaseMail t pos) := by
  unfold State.releaseMail
  split
  · exact h
  · exact h.ite ((((h.returnCredit hc).putFree.updMbox hc).spillReturn hc).wakeAll)
theorem dropMail {t pos : Nat} : s.Under c (u.dropMail t pos) := by
  unfold State.dropMail
  exact (h.releaseMail hc).updMbox hc

end State.Under

/-! ## Tokens and reports: nothing stops but by a halt -/

/-- What the sending of packets, tokens and reports changes, and the halt of a region: a thread set may be halted, a failed outcome stays,
and the places of contexts, the substitution, the work of the save engines and the freeze records stand. -/
def tokenChange : Change where
  ts _ a b := ∃ h, b = { a with stops := { a.stops with halted := h } }
  tile := placeChange.tile
  region g h := h.subst = g.subst ∧ h.saving = g.saving ∧ h.saveNext = g.saveNext ∧ h.freezes = g.freezes ∧
    (g.outcome = .failed → h.outcome = .failed)
  ts_refl _ _ := ⟨_, rfl⟩
  tile_refl := placeChange.tile_refl
  region_refl _ := ⟨rfl, rfl, rfl, rfl, id⟩
  ts_trans := by
    rintro k a _ _ ⟨h, rfl⟩ ⟨h', rfl⟩
    exact ⟨h', rfl⟩
  tile_trans := placeChange.tile_trans
  region_trans := by
    rintro g h i ⟨h1, h2, h3, h4, h5⟩ ⟨g1, g2, g3, g4, g5⟩
    exact ⟨g1.trans h1, g2.trans h2, g3.trans h3, g4.trans h4, g5 ∘ h5⟩

theorem place_le_token : placeChange.Le tokenChange := by
  refine ⟨?_, id, ?_⟩
  · rintro k a _ rfl
    exact ⟨_, rfl⟩
  · rintro g _ ⟨es, rfl⟩
    exact ⟨rfl, rfl, rfl, rfl, id⟩

namespace State.Under
variable {c : Change} {s u : State} (hc : tokenChange.Le c) (h : s.Under c u)
include hc

theorem place_le : placeChange.Le c := place_le_token.trans hc
/-- A region that keeps its substitution, saves, freezes and outcome. -/
theorem token_region {g k : Region} (h1 : k.subst = g.subst) (h2 : k.saving = g.saving) (h3 : k.saveNext = g.saveNext)
    (h4 : k.freezes = g.freezes) (h5 : g.outcome = .failed → k.outcome = .failed) : c.region g k := hc.region ⟨h1, h2, h3, h4, h5⟩

include h

theorem haltTs {k : Nat} : s.Under c (u.haltTs k) := by
  refine ((h.discard (place_le hc)).dropGroups (place_le hc)).updTs (hc.ts ?_)
  split
  · exact ⟨_, rfl⟩
  · exact ⟨_, rfl⟩
theorem putRecord {r w0 w1 w2 w3 : Nat} {force : Bool}  : s.Under c (u.putRecord r w0 w1 w2 w3 force) := by
  unfold State.putRecord
  dsimp only
  split
  · exact ((((h.putNum).putNum).putNum).putNum).updRegion (fun _ => token_region hc rfl rfl rfl rfl id)
  · exact h.updRegion (fun _ => token_region hc rfl rfl rfl rfl id)
theorem trace {r kind ts coord cyc w1 w2 w3 : Nat}  : s.Under c (u.trace r kind ts coord cyc w1 w2 w3) := (h.putRecord hc).ite h
theorem traceTile {t kind ts w1 w2 w3 : Nat} : s.Under c (u.traceTile t kind ts w1 w2 w3) := h.trace hc
theorem traceFw {r kind coord w1 w2 w3 : Nat} : s.Under c (u.traceFw r kind coord w1 w2 w3) := h.trace hc
theorem endTrace {r reason : Nat}  : s.Under c (u.endTrace r reason) := by
  unfold State.endTrace
  dsimp only
  split
  · exact (h.putRecord hc).updRegion (fun _ => token_region hc rfl rfl rfl rfl id)
  · exact h
omit hc in
theorem commitUpdate : s.Under c u.commitUpdate := State.Under.ite (h.other rfl rfl rfl) (h.other rfl rfl rfl)
theorem haltTiles {r reason : Nat} : s.Under c (u.haltTiles r reason) := by
  have hstop : s.Under c ((u.userTss r).foldl State.haltTs u) := h.foldl (fun _ hw => hw.haltTs hc) _
  refine ((hstop.endTrace hc).updRegion fun g => hc.region ?_).commitUpdate
  split
  · exact ⟨rfl, rfl, rfl, rfl, fun _ => rfl⟩
  · exact ⟨rfl, rfl, rfl, rfl, fun _ => rfl⟩
theorem emit {src dst : Nat} {h0 h1 : Word} {body : List Byte} {st ed : Option (Nat × Nat)} {sl : List Nat} {ts : Nat} :
    s.Under c (u.emit src dst h0 h1 body st ed sl ts) := by
  have hcount : s.Under c (u.updTile src fun x => { x with sent := countPair x.sent (u.tile src).colour }) :=
    h.updTile fun _ => place_tile (place_le hc) rfl rfl rfl rfl rfl
  exact ((hcount.charge (place_le hc)).traceTile hc).net
theorem passToken {r src ts : Nat} {dst : Option Nat} {h0 h1 : Word} {body : List Byte} :
    s.Under c (u.passToken r src dst h0 h1 body ts) := by
  have hrec (x : FwRecord) : s.Under c (u.fwRecord (u.region r).firstField x) := h.other rfl rfl rfl
  unfold State.passToken
  split
  · exact (hrec _).ite (((hrec _).haltTiles hc).updRegion fun _ => token_region hc rfl rfl rfl rfl id)
  · split
    · exact h.emit hc
    · exact h
theorem sendToken {w : Subject} {f : FaultInfo} {cls : Nat} {port : Bool} : s.Under c (u.sendToken w f cls port) := by
  have hserial : s.Under c (u.updRegion w.rgn fun g => { g with
      serial := (((u.region w.rgn).serial + 1) % 65536), reports := if cls = 2 then min (2 ^ 32 - 1) (g.reports + 1) else g.reports }) :=
    h.updRegion fun _ => token_region hc rfl rfl rfl rfl id
  unfold State.sendToken
  exact State.Under.ite ((hserial.trace hc).updTile fun _ => place_tile (place_le hc) rfl rfl rfl rfl rfl) ((hserial.trace hc).passToken hc)
theorem report {t : Nat} {f : FaultInfo}  : s.Under c (u.report t f) := h.sendToken hc
theorem ticket {r t ts kind : Nat}  : s.Under c (u.ticket r t ts kind) := by
  unfold State.ticket
  dsimp only
  split
  · exact ((h.putNum).putNum).updRegion (fun _ => token_region hc rfl rfl rfl rfl id)
  · exact h.updRegion (fun _ => token_region hc rfl rfl rfl rfl id)
  · exact h

end State.Under

/-! ## Faults are taken -/

/-- Whether a thread set is stopped by a fault or frozen. -/
def ThreadSet.isStopped (a : ThreadSet) : Prop := a.stops.fault.isSome = true ∨ a.stops.frozen.isSome = true

/-- What the taking of faults changes besides: a thread set that has not stopped may stop, and its journal frees entries. -/
def faultChange : Change where
  ts _ a b := b.eng.recs = a.eng.recs ∧ b.eng.me = a.eng.me ∧ b.eng.latch = a.eng.latch ∧ b.eng.binds = a.eng.binds ∧
    (a.isStopped → b.stops.fault = a.stops.fault ∧ b.stops.frozen = a.stops.frozen)
  tile := tokenChange.tile
  region := tokenChange.region
  ts_refl _ _ := ⟨rfl, rfl, rfl, rfl, fun _ => ⟨rfl, rfl⟩⟩
  tile_refl := tokenChange.tile_refl
  region_refl := tokenChange.region_refl
  ts_trans := by
    rintro k a b c ⟨h1, h2, h3, h4, h5⟩ ⟨g1, g2, g3, g4, g5⟩
    refine ⟨g1.trans h1, g2.trans h2, g3.trans h3, g4.trans h4, fun ha => ?_⟩
    obtain ⟨hf, hz⟩ := h5 ha
    obtain ⟨gf, gz⟩ := g5 (by rwa [ThreadSet.isStopped, hf, hz])
    exact ⟨gf.trans hf, gz.trans hz⟩
  tile_trans := tokenChange.tile_trans
  region_trans := tokenChange.region_trans

theorem token_le_fault : tokenChange.Le faultChange := by
  refine ⟨?_, id, id⟩
  rintro k a _ ⟨h, rfl⟩
  exact ⟨rfl, rfl, rfl, rfl, fun _ => ⟨rfl, rfl⟩⟩

namespace State.Under
variable {c : Change} {s u : State} (hc : faultChange.Le c) (h : s.Under c u)
include hc

theorem token_le : tokenChange.Le c :=
  token_le_fault.trans hc

include h

theorem takeOne {k : Nat} {f : FaultInfo}  : s.Under c (u.takeOne k f) := by
  have htok := token_le hc
  have hplace := place_le htok
  unfold State.takeOne
  dsimp only
  split
  · exact h.sendToken htok
  · rename_i hrun
    have hsame : ((u.discard k).dropGroups k).ts k = u.ts k := (State.still_discard u k).ts k
    refine (((h.discard hplace).dropGroups hplace).updTs (hc.ts ⟨rfl, rfl, rfl, rfl, fun ha => absurd ?_ hrun⟩)).sendToken htok
    rwa [hsame] at ha
theorem takeRecorded {k : Nat}  : s.Under c (u.takeRecorded k) :=
  (h.updTs (hc.ts ⟨rfl, rfl, rfl, rfl, fun _ => ⟨rfl, rfl⟩⟩)).foldl (fun _ hw => hw.takeOne hc) _
theorem settleOne {k : Nat}  : s.Under c (u.settleOne k) := h.ite (h.takeRecorded hc)
theorem haltRegion {r reason : Nat}  : s.Under c (u.haltRegion r reason) :=
  (h.haltTiles (token_le hc)).foldl (fun _ hw => hw.settleOne hc) _
theorem boundary {k : Nat}  : s.Under c (u.boundary k) :=
  State.Under.ite ((h.takeRecorded hc).foldl (fun _ hw => hw.settleOne hc) _) (h.takeRecorded hc)
theorem settle {k : Nat}  : s.Under c (u.settle k) := h.ite (h.boundary hc)
theorem takeFault {k : Nat} {f : FaultInfo}  : s.Under c (u.takeFault k f) := (h.takeOne hc).settle hc
theorem asyncFault {k : Nat} {f : FaultInfo}  : s.Under c (u.asyncFault k f) := by
  have hrec : s.Under c (u.updTs k fun t => { t with stops := { t.stops with pendingFaults := t.stops.pendingFaults ++ [f] } }) :=
    h.updTs (hc.ts ⟨rfl, rfl, rfl, rfl, fun _ => ⟨rfl, rfl⟩⟩)
  exact hrec.ite (hrec.settle hc)
theorem matrixData {k : Nat} {r : MRec} {sub : Nat} {a : Word} {m : Bool}  : s.Under c (u.matrixData k r sub a m) := h.asyncFault hc

end State.Under

/-! ## What is left of a change -/

namespace State.Under
variable {s u : State} (h : s.Under faultChange u)
include h

theorem freezes_eq (r : Nat) : (u.region r).freezes = (s.region r).freezes := by
  obtain ⟨-, -, -, hfreezes, -⟩ := h.region r
  exact hfreezes
theorem failed {r : Nat} (hr : (s.region r).outcome = .failed) : (u.region r).outcome = .failed := by
  obtain ⟨-, -, -, -, hfailed⟩ := h.region r
  exact hfailed hr
/-- A thread set that has stopped stays as it has stopped. -/
theorem fault_eq {k : Nat} (hk : (s.ts k).isStopped) : (u.ts k).stops.fault = (s.ts k).stops.fault := by
  obtain ⟨-, -, -, -, hstop⟩ := h.ts k
  exact (hstop hk).1

end State.Under

end Sys2Proof.Machine
end

section
/-! SUPPORT. The events of the matrix engine (R182 to R189): what they leave in a thread set's queue of records, and their results. -/

namespace Sys2Proof.Machine

open Sys2Proof Sys2Proof.Claims

/-! ## What other parts of the state an access changes -/

/-- A map over the entries of a table that keeps their keys lists a key's image. -/
theorem AMap.find_map_of_key {β : Type} {k : Nat} {g : Nat × β → Nat × β} (hg : ∀ p, (g p).1 = p.1) (m : AMap β) :
    AMap.find k (m.map g) = (AMap.find k m).map fun x => (g (k, x)).2 := by
  induction m with
  | nil => rfl
  | cons p m ih =>
    have hfind (q : Nat × β) (l : AMap β) : AMap.find k (q :: l) = if q.1 = k then some q.2 else AMap.find k l := rfl
    rw [List.map_cons, hfind, hfind, hg]
    split
    · rename_i e
      subst e
      rfl
    · exact ih
/-- A walk at most caches a leaf. -/
theorem State.dramAddr_eq (s : State) (r p a : Nat) (w : Want) : ∃ t, (s.dramAddr r p a w).2 = { s with tlb := t } := by
  unfold State.dramAddr
  dsimp only
  split
  · exact ⟨_, rfl⟩
  · split
    · split_ifs <;> exact ⟨_, rfl⟩
    · split
      · exact ⟨_, rfl⟩
      · split_ifs <;> exact ⟨_, rfl⟩

namespace State.Under
variable {c : Change} {s u : State} (h : s.Under c u)
include h

theorem choose : s.Under c u.choose.2 := by
  unfold State.choose
  split
  · exact h
  · exact h.other rfl rfl rfl
theorem dramAddr {rgn port a : Nat} {w : Want} : s.Under c (u.dramAddr rgn port a w).2 := by
  obtain ⟨t, e⟩ := u.dramAddr_eq rgn port a w
  rw [e]
  exact h.other rfl rfl rfl
theorem dramKey {rgn port a n : Nat} {w : Want} : s.Under c (u.dramKey rgn port a n w).2 := by
  unfold State.dramKey
  split
  · split
    · dsimp only
      split
      · exact h.dramAddr.snd ‹_›
      · exact h.dramAddr.snd ‹_›
    · split
      · exact h.dramAddr.snd ‹_›
      · exact h.dramAddr.snd ‹_›
  · exact h.dramAddr.snd ‹_›
  · exact h.dramAddr.snd ‹_›
theorem boderAsk {entry : Nat} {o : BoderOut} : s.Under c (u.boderAsk entry o).2 := by
  have hsend (p : Nat) : s.Under c (u.boderSend p o) := h.other rfl rfl rfl
  unfold State.boderAsk
  split
  · exact h
  · exact (hsend _).choose
theorem freezeRecord {r fld kind wher ts oport target : Nat} (hc : ∀ g f n, c.region g { g with frzSerial := n, freezes := g.freezes ++ [f] }) :
    s.Under c (u.freezeRecord r fld kind wher ts oport target).2 :=
  (h.updRegion (r := r) fun g => hc g
    ⟨((u.region r).frzSerial + 1) % 65536, kind, wher, ts, oport, target⟩ (((u.region r).frzSerial + 1) % 65536)).other rfl rfl rfl

end State.Under

/-! ## The queue of records -/

/-- What leaves the queues of records and the counts of retired ones as they are. -/
def queueChange : Change where
  ts _ a b := b.eng.recs = a.eng.recs ∧ b.eng.me = a.eng.me
  tile _ _ := True
  region _ _ := True
  ts_refl _ _ := ⟨rfl, rfl⟩
  tile_refl _ := trivial
  region_refl _ := trivial
  ts_trans h g := ⟨g.1.trans h.1, g.2.trans h.2⟩
  tile_trans _ _ := trivial
  region_trans _ _ := trivial

theorem fault_le_queue : faultChange.Le queueChange := ⟨fun h => ⟨h.1, h.2.1⟩, fun _ => trivial, fun _ => trivial⟩
theorem token_le_queue : tokenChange.Le queueChange := State.Under.token_le fault_le_queue
theorem place_le_queue : placeChange.Le queueChange := State.Under.place_le token_le_queue

/-- A change of thread sets one by one. -/
theorem State.Under.mapTss {c : Change} {s u : State} {g : Nat × ThreadSet → Nat × ThreadSet} (hg : ∀ p, (g p).1 = p.1)
    (hc : ∀ p, c.ts p.1 p.2 (g p).2) (hs : u.tss = s.tss.map g) (hx : u.tiles = s.tiles) (hr : u.regions = s.regions) :
    s.Under c u := by
  refine ⟨fun k => ?_, fun t => ?_, fun r => ?_, fun r => ?_⟩
  · simp only [State.ts, AMap.get, hs, AMap.find_map_of_key hg]
    cases AMap.find k s.tss with
    | none => exact c.ts_refl ..
    | some a => exact hc (k, a)
  · simpa only [State.tile, hx] using c.tile_refl _
  · simpa only [State.region, hr] using c.region_refl _
  · simp only [State.hasRegion, hr]
/-- The requests that share a failed walk belong to no queue of records. -/
theorem State.under_shareMiss (s : State) (rgn port page : Nat) : s.Under queueChange (s.shareMiss rgn port page) := by
  refine State.Under.mapTss (fun p => ?_) (fun p => ?_) rfl rfl rfl
  · split <;> rfl
  · split <;> exact ⟨rfl, rfl⟩

namespace State.Under
variable {s u : State} (h : s.Under queueChange u)
include h

theorem dramRefused {told walked m : Bool} {rgn port cause a : Nat} :
    s.Under queueChange (u.dramRefused told walked rgn port cause m a) :=
  h.ite (((h.trans (u.under_shareMiss ..)).ite h).sendToken token_le_queue)
theorem writeAt {t : Nat} {d : Dest} {bs : Bytes} {told : Bool} : s.Under queueChange (u.writeAt t d bs told).2 := by
  unfold State.writeAt
  split
  · split
    · exact h
    · split
      · exact h
      · exact (h.charge place_le_queue).putBytes
  · split
    · exact (h.dramKey.snd ‹_›).putBytes
    · split
      · exact (h.dramKey.snd ‹_›).boderAsk.snd ‹_›
      · exact ((h.dramKey.snd ‹_›).boderAsk.snd ‹_›).dramRefused
    · exact (h.dramKey.snd ‹_›).dramRefused
  · exact h
  · exact h
  · exact h
  · exact h
theorem writeRow {t : Nat} {a : Word} {bs : List Byte} : s.Under queueChange (u.writeRow t a bs).2 := by
  unfold State.writeRow
  dsimp only
  split
  · exact h
  · split
    · split
      · split
        · exact h
        · split
          · exact h
          · exact h.putAll
      · split
        · exact h.writeAt.snd ‹_›
        · exact h.writeAt.snd ‹_›
    · split
      · split
        · exact h.writeAt.snd ‹_›
        · split
          · exact h.writeAt.snd ‹_›
          · exact (h.writeAt.snd ‹_›).writeAt
      · split
        · exact h.writeAt.snd ‹_›
        · exact h.writeAt.snd ‹_›
theorem freezeTs {k target : Nat} : s.Under queueChange (u.freezeTs k target) := by
  have hfree : s.Under queueChange ((u.discard k).dropGroups k) := (h.discard place_le_queue).dropGroups place_le_queue
  exact h.ite ((h.sendToken token_le_queue).ite
    (((hfree.freezeRecord fun _ _ _ => trivial).updTs ⟨rfl, rfl⟩).settle fault_le_queue))
theorem setAcc {t n : Nat} {es : List AccElem} : s.Under queueChange (u.setAcc t n es) := h.updTile fun _ => trivial
theorem drainVals {t : Nat} {r : MRec} : s.Under queueChange (u.drainVals t r).2 := by
  unfold State.drainVals
  split
  · exact h.setAcc
  · exact h
theorem convertRow {t acc dfmt : Nat} {r : MRec} {v : Vec} : s.Under queueChange (u.convertRow t r acc dfmt v).2 := h.setAcc

end State.Under

/-! ## Retirement (R179) -/

/-- A record that retires leaves the queue, and TLC.ME counts it. -/
theorem State.ts_retire (s : State) (k : Nat) : (s.retire k).ts k =
    { s.ts k with eng := { (s.ts k).eng with recs := (s.ts k).eng.recs.tail, me := (s.ts k).eng.me + 1 } } := by
  have hwake (u : State) : u.wakeAll.ts k = u.ts k := rfl
  rw [State.retire, hwake, State.ts_updTs, State.ts_ticket]
theorem State.tile_retire (s : State) (k t : Nat) : (s.retire k).tile t = s.tile t := by
  rw [State.retire, State.tile_wakeAll, State.updTs_tile, State.tile_ticket]
/-- The retirement of a record after operations that leave the queues alone. -/
theorem State.Under.retired {s u : State} (h : s.Under queueChange u) (k : Nat) :
    ((u.retire k).ts k).eng.me = (s.ts k).eng.me + 1 ∧ ((u.retire k).ts k).eng.recs = (s.ts k).eng.recs.tail := by
  obtain ⟨hrecs, hme⟩ := h.ts k
  rw [State.ts_retire]
  exact ⟨by rw [hme], by rw [hrecs]⟩

/-! ## MATRIX_OP (R185 to R187) -/

/-- The slot table gives a ready op when there is one. -/
theorem State.slotChoice_ready {s : State} {t : Nat} (h : s.anyOp t = true) (e : Nat) :
    ∃ i b, s.slotChoice t e = some (i, b) ∧ i < 4 ∧ s.opReady (4 * t + i) = true := by
  unfold State.slotChoice
  dsimp only
  split
  · rename_i hentry
    exact ⟨_, _, rfl, Nat.mod_lt _ (by decide), hentry.2⟩
  · obtain ⟨j, hj, hready⟩ := List.any_eq_true.1 h
    have hlt : j < 4 := List.mem_range.1 hj
    cases hfind : ((List.range 4).map fun d => ((s.tile t).mx.rr + 1 + d) % 4).find? (fun i => s.opReady (4 * t + i)) with
    | some i =>
      obtain ⟨d, -, rfl⟩ := List.mem_map.1 (List.mem_of_find?_eq_some hfind)
      exact ⟨_, true, rfl, Nat.mod_lt _ (by decide), List.find?_some (p := fun i => s.opReady (4 * t + i)) hfind⟩
    | none =>
      have hturn : ((s.tile t).mx.rr + 1 + (j + 7 - (s.tile t).mx.rr % 4) % 4) % 4 = j := by omega
      exact absurd hready (List.find?_eq_none.1 hfind j (List.mem_map.2 ⟨_, List.mem_range.2 (Nat.mod_lt _ (by decide)), hturn⟩))
/-- Which entry of the slot table comes next concerns no queue. -/
theorem State.entryAt_eq (s : State) (t : Nat) : ∃ n, (s.entryAt t).2 = { s with fresh := n } := by
  unfold State.entryAt
  split
  · exact ⟨_, rfl⟩
  · exact ⟨_, rfl⟩
/-- An op record retires as it runs. -/
theorem State.runOp_retires (s : State) (k : Nat) {r : MRec} (hr : (r.body matches .op _ _ _ _ _ _) = true) :
    ∃ w, s.Under queueChange w ∧ s.runOp k r = w.retire k := by
  have hcharge := fun t ctx cls => (State.Under.refl (c := queueChange) s).charge place_le_queue (t := t) (ctx := ctx) (cls := cls) (units := 1)
  unfold State.runOp
  dsimp only
  split
  · split
    · exact ⟨_, (hcharge _ _ _).setAcc.matrixData fault_le_queue, rfl⟩
    · exact ⟨_, (hcharge _ _ _).setAcc, rfl⟩
  · rename_i hne
    cases hb : r.body with
    | op idx b a acc stride base => exact (hne _ _ _ _ _ _ hb).elim
    | _ => simp [hb] at hr

theorem State.matrixOp_retires {s : State} {t : Nat} (h : s.anyOp t = true) :
    ∃ i, i < 4 ∧ s.opReady (4 * t + i) = true ∧ ((s.matrixOp t).ts (4 * t + i)).eng.me = (s.ts (4 * t + i)).eng.me + 1 ∧
      ((s.matrixOp t).ts (4 * t + i)).eng.recs = (s.ts (4 * t + i)).eng.recs.tail := by
  obtain ⟨n, hn⟩ := s.entryAt_eq t
  obtain ⟨i, b, hchoice, hi, hready⟩ := State.slotChoice_ready (s := { s with fresh := n }) (t := t) h (s.entryAt t).1
  refine ⟨i, hi, hready, ?_⟩
  have hs : s.Under queueChange { s with fresh := n } := (State.Under.refl s).other rfl rfl rfl
  simp only [State.opReady] at hready
  split at hready
  · rename_i r hr
    simp only [State.matrixOp, hn, hchoice, hr]
    obtain ⟨w, hw, e⟩ := State.runOp_retires _ (4 * t + i) hready
    rw [e]
    exact (((hs.updTile fun _ => trivial)).trans hw).retired _
  · cases hready

/-! ## WEIGHT_LOAD and ZERO_RECORD (R126, R186) -/

/-- A record that stands at the head of its queue. -/
theorem State.recs_of_headReady {s : State} {k : Nat} {r : MRec} (h : s.headReady k = some r) : ∃ rs, (s.ts k).eng.recs = r :: rs := by
  unfold State.headReady at h
  split at h
  · cases h
  · rename_i q rs hrecs
    simp only [Option.ite_none_right_eq_some, Option.some.injEq] at h
    exact ⟨rs, h.2 ▸ hrecs⟩

/-- A weight record that reads no poisoned byte leaves its eight columns in the latch, and retires. -/
theorem State.weightLoad_latch {s : State} {k kph b zst zb sst sb bcs bb : Nat} {r : MRec} (h : s.headReady k = some r)
    (hb : r.body = .weight kph b zst zb sst sb bcs bb) (hp : s.poison = []) :
    ((s.weightLoad k).ts k).eng.me = (s.ts k).eng.me + 1 ∧ ((s.weightLoad k).ts k).eng.recs = (s.ts k).eng.recs.tail ∧
      ((s.weightLoad k).ts k).eng.latch =
        (List.range 8).flatMap fun j => s.bColumn (tileOf k) b kph (bb + j * bcs) (sb + j * sst) (zb + j * zst) := by
  have hclean (c : State) (hc : c.poison = s.poison) (t : Nat) (l : List (Nat × Nat)) :
      (l.find? fun p => decide (p.2 ≠ 0) && c.poisoned (poolKey t p.1) p.2) = none :=
    List.find?_eq_none.2 fun p _ => by simp [State.poisoned, hc, hp]
  have hts : (s.charge (tileOf k) (s.ctxOf (tileOf k)) 11 1).ts k = s.ts k := rfl
  unfold State.weightLoad
  simp only [h, hb]
  rw [hclean (s.charge (tileOf k) (s.ctxOf (tileOf k)) 11 1) rfl]
  simp only [State.ts_retire, State.ts_updTs, hts]
  exact ⟨trivial, trivial, rfl⟩

/-- A zero record clears its accumulator tile, and retires. -/
theorem State.zeroRecord_clears {s : State} {k a : Nat} (h : s.zeroHead k = some a) :
    ((s.zeroRecord k).tile (tileOf k)).acc a = List.replicate 64 AccElem.zero ∧
      ((s.zeroRecord k).ts k).eng.me = (s.ts k).eng.me + 1 ∧ ((s.zeroRecord k).ts k).eng.recs = (s.ts k).eng.recs.tail := by
  simp only [State.zeroRecord, h]
  refine ⟨?_, (State.Under.refl s).setAcc.retired k⟩
  simp only [State.tile_retire, State.setAcc, State.tile_updTile, Tile.acc, AMap.get_put_same]

/-! ## DRAIN_ROW (R188, R189) -/

/-- The end of a row's last use: the record goes on to its next row, or retires after row 7. -/
theorem State.rowDone_cases {s : State} {k acc : Nat} {flt : Bool} {r : MRec} {rs : List MRec} (h : (s.ts k).eng.recs = r :: rs) :
    (r.row = 7 → ((s.rowDone k acc flt).ts k).eng.me = (s.ts k).eng.me + 1 ∧ ((s.rowDone k acc flt).ts k).eng.recs = rs) ∧
      (r.row ≠ 7 → ∃ q, ((s.rowDone k acc flt).ts k).eng.recs = q :: rs ∧ q.row = r.row + 1) := by
  have hwake (u : State) : u.wakeAll.ts k = u.ts k := rfl
  have hcharge (u : State) (t ctx cls n : Nat) : (u.charge t ctx cls n).ts k = u.ts k := rfl
  have hacc (t n : Nat) (es : List AccElem) : (s.setAcc t n es).ts k = s.ts k := rfl
  unfold State.rowDone
  simp only [h]
  constructor
  · intro h7
    rw [if_pos h7]
    simp only [State.ts_retire, State.ts_updTs, hcharge, State.updHead, hacc, h]
    exact ⟨trivial, rfl⟩
  · intro h7
    rw [if_neg h7]
    simp only [hwake, hcharge, State.updHead, State.ts_updTs, hacc, h]
    exact ⟨_, rfl, rfl⟩

theorem State.headReady_of_drainHead {s : State} {k : Nat} {r : MRec} (h : s.drainHead k = some r) : s.headReady k = some r := by
  unfold State.drainHead at h
  split at h
  · split at h
    · simp only [Option.ite_none_right_eq_some, Option.some.injEq] at h
      exact h.2 ▸ ‹_›
    · cases h
  · cases h
/-- A row of a drain to memory ends after operations that leave the queues alone. -/
theorem State.drainRow_rowDone {s : State} {k csb drm eh df acc : Nat} {r : MRec} {d : Word} {st : Int} {cse ds dn epe : Bool}
    (h : s.drainHead k = some r) (hb : r.body = .drain d st cse csb drm ds dn epe eh false df acc) :
    ∃ w flt, s.Under queueChange w ∧ s.drainRow k = w.rowDone k acc flt := by
  have hheld := State.Under.refl (c := queueChange) s
  have hdrawn := hheld.drainVals (t := tileOf k) (r := r)
  unfold State.drainRow
  simp only [h, hb, Bool.false_eq_true, if_false]
  -- A row that an epilogue has released stands in the record; any other is drained now.
  rcases epe with _ | _ <;> rcases r.epi with _ | v
  all_goals
    dsimp only
    split
    · refine ⟨_, _, ?_, rfl⟩
      exact (State.Under.convertRow ‹_›).freezeTs
    · split
      · refine ⟨_, _, State.Under.snd ?_ ‹_›, rfl⟩
        exact (State.Under.convertRow ‹_›).writeRow
      · refine ⟨_, _, (State.Under.snd ?_ ‹_›).matrixData fault_le_queue, rfl⟩
        exact (State.Under.convertRow ‹_›).writeRow

/-- DRAIN_ROW: the head record goes on to its next row, or retires after row 7. -/
theorem State.drainRow_cases {s : State} {k csb drm eh df acc : Nat} {r : MRec} {d : Word} {st : Int} {cse ds dn epe : Bool}
    (h : s.drainHead k = some r) (hb : r.body = .drain d st cse csb drm ds dn epe eh false df acc) :
    (r.row = 7 → ((s.drainRow k).ts k).eng.me = (s.ts k).eng.me + 1 ∧ ((s.drainRow k).ts k).eng.recs = (s.ts k).eng.recs.tail) ∧
      (r.row ≠ 7 → ∃ q, ((s.drainRow k).ts k).eng.recs = q :: (s.ts k).eng.recs.tail ∧ q.row = r.row + 1) := by
  obtain ⟨rs, hrs⟩ := State.recs_of_headReady (State.headReady_of_drainHead h)
  obtain ⟨w, flt, hw, e⟩ := State.drainRow_rowDone h hb
  obtain ⟨hrecs, hme⟩ := hw.ts k
  rw [e, hrs, ← hme]
  exact State.rowDone_cases (hrecs.trans hrs)

/-! ## EPILOGUE_DISPATCH and FAULT_TOKEN_DISPATCH (R76, R188, R369) -/

/-- The epilogue thread set starts with the row and its number (R188). -/
theorem State.epilogueDispatch_starts {s : State} {t k e : Nat} {r : MRec} (hr : s.epilogueHead t = some (k, r))
    (he : s.freeEpilogue t = some e) : ∃ a : Task, ((s.epilogueDispatch t).ts e).kindOk = 2 ∧
      ((s.epilogueDispatch t).ts e).task = some a ∧ a.epi = some (k, r.row, r.num) ∧
      AMap.get Vec.zero 0 ((s.epilogueDispatch t).ts e).regs.v = (s.drainVals t r).1 ∧
      AMap.get 0 1 ((s.epilogueDispatch t).ts e).regs.s = word r.row ∧
      AMap.get 0 2 ((s.epilogueDispatch t).ts e).regs.s = word (r.num % 2 ^ 32) := by
  simp only [State.epilogueDispatch, hr, he, State.ts_updTs, AMap.get_put_same, AMap.get_put_of_ne (show 2 ≠ 1 by decide)]
  exact ⟨_, trivial, rfl, rfl, trivial, trivial, trivial⟩

/-- The oldest fault token starts the handler of its class (R369). -/
theorem State.faultDispatch_starts {s : State} {k : Nat} {m : Mail} (hm : s.choice (tileOf k) = some m)
    (hd : (s.region (s.rgnOf (tileOf k))).shedDef = false) :
    ∃ a : Task, ((s.faultDispatch k).ts k).task = some a ∧ a.h0 = m.h0 ∧ a.h1 = m.h1 ∧
      ((s.faultDispatch k).ts k).regs.bpc = AMap.get 0 (h0Handler m.h0) (s.tile (tileOf k)).conf.handlers := by
  simp only [State.faultDispatch, hm, hd, Bool.false_eq_true, if_false]
  obtain ⟨a, ha, h0, h1⟩ := (s.ticket (s.rgnOf (tileOf k)) (tileOf k) (tsNum k) 3).task_startTask k m
  refine ⟨a, ha, h0, h1, ?_⟩
  rw [State.regs_startTask, State.tile_ticket]
  rfl
/-- It can come about when the dispatcher's choice falls on it. -/
theorem State.canFaultDispatch_of {s : State} {k : Nat} {m : Mail} (hf : s.freeFor k = true) (hm : s.choice (tileOf k) = some m)
    (hk : m.kind = .fault) (hn : s.sliceNext (tileOf k) = false) (h3 : s.mode (s.rgnOf (tileOf k)) ≠ 3)
    (ht : s.ticketFree (s.rgnOf (tileOf k)) (tileOf k) (tsNum k) 3 = true) : s.canFaultDispatch k = true := by
  simp [State.canFaultDispatch, hf, hm, hk, hn, h3, ht]

end Sys2Proof.Machine
end

section
/-! SUPPORT. What the sending and the arrival of packets leave alone (R39 to R63, R240), and the end of a task. -/

namespace Sys2Proof.Machine

open Sys2Proof Sys2Proof.Claims

/-! ## Packets of a thread set -/

/-- A region whose substitution and whose work of the save engines stand. -/
def Region.SameChart (g h : Region) : Prop := h.subst = g.subst ∧ h.saving = g.saving ∧ h.saveNext = g.saveNext

/-- What the packets of a thread set and the end of its task leave alone: no fault stops it, and its bindings stand. -/
def packetChange (k : Nat) : Change where
  ts j a b := j = k → (a.stops.fault = none → b.stops.fault = none) ∧ b.eng.binds = a.eng.binds
  tile _ _ := True
  region := Region.SameChart
  ts_refl _ _ _ := ⟨id, rfl⟩
  tile_refl _ := trivial
  region_refl _ := ⟨rfl, rfl, rfl⟩
  ts_trans h g e := ⟨(g e).1 ∘ (h e).1, (g e).2.trans (h e).2⟩
  tile_trans _ _ := trivial
  region_trans := by
    rintro g h i ⟨h1, h2, h3⟩ ⟨g1, g2, g3⟩
    exact ⟨g1.trans h1, g2.trans h2, g3.trans h3⟩

theorem token_le_packet (k : Nat) : tokenChange.Le (packetChange k) := by
  refine ⟨?_, fun _ => trivial, fun h => ⟨h.1, h.2.1, h.2.2.1⟩⟩
  rintro j a _ ⟨h, rfl⟩
  exact fun _ => ⟨id, rfl⟩
theorem place_le_packet (k : Nat) : placeChange.Le (packetChange k) := State.Under.place_le (token_le_packet k)

/-- Faults that are taken while a thread set has stopped do not stop it otherwise. -/
theorem State.Under.packet_of_fault {k : Nat} {s u : State} (h : s.Under faultChange u) (hs : (s.ts k).isStopped) :
    s.Under (packetChange k) u := by
  refine ⟨?_, fun _ => trivial, fun r => ?_, h.has⟩
  · rintro j rfl
    obtain ⟨-, -, -, hbinds, hstop⟩ := h.ts j
    exact ⟨fun hf => (hstop hs).1.trans hf, hbinds⟩
  · exact (token_le_packet k).region (h.region r)

namespace State.Under
variable {k : Nat} {s u : State} (h : s.Under (packetChange k) u)
include h

theorem updStage {r n : Nat} {f : Stage → Stage} : s.Under (packetChange k) (u.updStage r n f) := h.updRegion fun _ => ⟨rfl, rfl, rfl⟩
theorem sendEdge {src r e ts : Nat} {h0 : Word} {body : List Byte} {keep : Bool} :
    s.Under (packetChange k) (u.sendEdge src r e h0 body keep ts) := by
  have hp := place_le_packet k
  have ht := token_le_packet k
  unfold State.sendEdge
  dsimp only
  split
  · exact h
  · split
    · exact (h.updEdge hp).updEdge hp
    · split
      · split
        · exact (h.updEdge hp).emit ht
        · exact ((h.updEdge hp).report ht).returnCredit hp
        · exact ((h.updEdge hp).freezeRecord fun _ _ _ => ⟨rfl, rfl, rfl⟩).updEdge hp
      · split
        · exact (h.updEdge hp).emit ht
        · exact ((h.updEdge hp).report ht).returnCredit hp
      · split
        · exact (h.updEdge hp).emit ht
        · exact (h.updEdge hp).returnCredit hp
theorem flushHoles {r e n : Nat} : s.Under (packetChange k) (u.flushHoles r e n) := by
  induction n generalizing u with
  | zero => exact h
  | succ n ih =>
    unfold State.flushHoles
    split
    · exact h
    · exact ih (h.updEdge (place_le_packet k)).sendEdge
theorem addHole {r e : Nat} {x : Bool × Nat × Word} : s.Under (packetChange k) (u.addHole r e x) :=
  (h.updEdge (place_le_packet k)).flushHoles
theorem nextPos {t : Nat} : s.Under (packetChange k) (u.nextPos t).2 := by
  unfold State.nextPos
  dsimp only
  exact h.updTile fun _ => trivial
theorem eatHoles {t port n : Nat} : s.Under (packetChange k) (u.eatHoles t port n) := by
  induction n generalizing u with
  | zero => exact h
  | succ n ih =>
    unfold State.eatHoles
    dsimp only
    split
    · exact ih ((h.returnCredit (place_le_packet k)).updTile fun _ => trivial)
    · exact h
theorem putHole {t port : Nat} {h0 h1 : Word} {edge : Option Nat} : s.Under (packetChange k) (u.putHole t port h0 h1 edge) := by
  refine State.Under.eatHoles (State.Under.updTile ?_ fun _ => trivial)
  exact h.nextPos
theorem rejectReport {t : Nat} {h0 h1 : Word} : s.Under (packetChange k) (u.rejectReport t h0 h1) := h.report (token_le_packet k)
theorem countRecv {t : Nat} {h0 : Word} : s.Under (packetChange k) (u.countRecv t h0) := by
  unfold State.countRecv
  split
  · exact h.updRegion fun _ => ⟨rfl, rfl, rfl⟩
  · exact h.updTile fun _ => trivial
theorem breached : s.Under (packetChange k) u.breached.2 := h.free
theorem arrive {t : Nat} {f : Flying} : s.Under (packetChange k) (u.arrive t f) := by
  have hp := place_le_packet k
  have hn {c : Bool} {h0 : Word} : s.Under (packetChange k) ((if c then u else u.countRecv t h0).nextPos t).2 :=
    (h.ite h.countRecv).nextPos
  refine (hn.putMail hp).ite (State.Under.ite (State.Under.ite ?_ ?_) (State.Under.ite ((hn.putMail hp).ite (hn.updTile fun _ => trivial))
    (hn.putHole.ite (hn.breached.ite ?_))))
  · exact (hn.rejectReport.returnCredit hp).putHole
  · exact hn.rejectReport.returnCredit hp
  · exact (hn.breached.ite hn).putMail hp
theorem sendSteal {r n src dst : Nat} {use : StealUse} {slices : List Nat} :
    s.Under (packetChange k) (u.sendSteal r n src dst use slices) := by
  unfold State.sendSteal
  dsimp only
  split
  · exact h.emit (token_le_packet k)
  · exact h
theorem stealLeft {r n : Nat} : s.Under (packetChange k) (u.stealLeft r n) :=
  (h.updStage.foldl (fun _ hw => hw.sendSteal) _).foldl (fun _ hw => by
    split
    · exact hw.sendSteal
    · exact hw) _
theorem lateSlices {t : Nat} {l : List Nat} : s.Under (packetChange k) (u.lateSlices t l) := h.other rfl rfl rfl
theorem stealArrival {f : Flying} : s.Under (packetChange k) (u.stealArrival f) := by
  refine h.countRecv.lateSlices.updStage.stealLeft.ite (State.Under.ite ?_ ?_)
  · exact (h.countRecv.lateSlices.updStage.ite h.countRecv.lateSlices).updStage
  · exact (h.countRecv.lateSlices.updStage.ite h.countRecv.lateSlices).updStage.stealLeft.wakeAll
theorem chargeRecv {f : Flying} : s.Under (packetChange k) (u.chargeRecv f) := h.charge (place_le_packet k)
theorem packetArrival {n : Nat} : s.Under (packetChange k) (u.packetArrival n) := by
  unfold State.packetArrival
  split
  · exact h
  · dsimp only
    split
    · exact (h.net.chargeRecv.charge (place_le_packet k)).net
    · split
      · exact h.net.chargeRecv.countRecv.updStage
      · exact h.net.chargeRecv.stealArrival.ite h.net.chargeRecv.arrive
theorem spill {t : Nat} {m : Mail} : s.Under (packetChange k) (u.spill t m) := by
  unfold State.spill
  refine State.Under.updTile (c := packetChange k) ?_ fun _ => trivial
  exact h.freeBytes.putAll.putAll.charge (place_le_packet k)
theorem spawnAdmission {t : Nat} : s.Under (packetChange k) (u.spawnAdmission t) := by
  unfold State.spawnAdmission
  split
  · exact h
  · have hg : ∀ {h0 : Word} {f : Tile → Tile}, s.Under (packetChange k) ((u.countRecv t h0).updTile t f) :=
      h.countRecv.updTile fun _ => trivial
    exact ((hg.putMail (place_le_packet k)).ite hg.spill).wakeAll
theorem arriveHere {t : Nat} : s.Under (packetChange k) (u.arriveHere t) :=
  (h.packetArrival.spawnAdmission.ite h.packetArrival).ite h

/-! ## The packets that wait at a thread set, and the end of its task -/

/-- The thread set itself freezes: no fault stops it. -/
theorem freezesItself {target : Nat} : s.Under (packetChange k) (u.freezeTs k target) := by
  have hp := place_le_packet k
  refine h.ite (State.Under.ite (h.sendToken (token_le_packet k)) ?_)
  refine State.Under.trans (State.Under.updTs ?_ fun _ => ⟨id, rfl⟩)
    (packet_of_fault ((State.Under.refl _).settle (Change.Le.refl faultChange)) (.inr ?_))
  · exact ((h.discard hp).dropGroups hp).freezeRecord fun _ _ _ => ⟨rfl, rfl, rfl⟩
  · rw [State.ts_updTs]
    rfl
theorem emitOut {o : OutTok} : s.Under (packetChange k) (u.emitOut k o) := by
  have ht := token_le_packet k
  unfold State.emitOut
  dsimp only
  split
  · exact h.addHole.ite h.sendEdge
  · split
    · split
      · exact h.emit ht
      · exact h
    · split
      · exact (h.emit ht).arriveHere.ite (h.emit ht)
      · exact h.rejectReport
      · exact h.freezesItself
theorem drainHoles {n : Nat} : s.Under (packetChange k) (u.drainHoles k n) := by
  induction n generalizing u with
  | zero => exact h
  | succ n ih =>
    unfold State.drainHoles
    split
    · exact h
    · exact (ih (h.updTs fun _ => ⟨id, rfl⟩).emitOut).ite h
theorem drainSends {n : Nat} : s.Under (packetChange k) (u.drainSends k n) := by
  induction n generalizing u with
  | zero => exact h
  | succ n ih =>
    unfold State.drainSends
    split
    · exact (ih (h.updTs fun _ => ⟨id, rfl⟩).emitOut).ite h
    · exact h
theorem stageTaskEnd {a : Task} : s.Under (packetChange k) (u.stageTaskEnd k a) := h.updStage.ite h
theorem tryFree : s.Under (packetChange k) (u.tryFree k) := by
  refine State.Under.ite (State.Under.updTs ?_ fun _ => ⟨id, rfl⟩) h
  split
  · exact h.stageTaskEnd
  · exact h

end State.Under

end Sys2Proof.Machine
end

section
/-! SUPPORT. Repairs (R304, R372 to R374), the moving of a context (R380) and freezes (R344). -/

namespace Sys2Proof.Machine

open Sys2Proof Sys2Proof.Claims

/-! ## The end of a task by repair (R373) -/

/-- A thread set that becomes free loses its task alone. -/
theorem State.ts_tryFree (s : State) (k : Nat) : ∃ q e, (s.tryFree k).ts k = { s.ts k with task := q, ending := e } := by
  have hstage (a : Task) : (s.stageTaskEnd k a).ts k = s.ts k := by
    unfold State.stageTaskEnd
    dsimp only
    split <;> rfl
  unfold State.tryFree
  dsimp only
  split
  · rw [State.ts_updTs]
    split
    · rw [hstage]
      exact ⟨_, _, rfl⟩
    · exact ⟨_, _, rfl⟩
  · exact ⟨_, _, rfl⟩
/-- A thread set that resumes runs from its registers as they stand. -/
theorem State.ts_resumeTs (s : State) (k : Nat) : ((s.resumeTs k).ts k).stops.fault = none ∧
    ((s.resumeTs k).ts k).regs = (s.ts k).regs ∧ ((s.resumeTs k).ts k).kindOk = (s.ts k).kindOk := by
  unfold State.resumeTs
  obtain ⟨q, e, h⟩ := ((s.releaseFault k).updTs k fun a => { a with eng := { a.eng with
    journal := a.eng.journal.map fun e => if e.state = .withheld then { e with state := .pending } else e } }).ts_tryFree k
  rw [h, State.ts_updTs, State.releaseFault, State.ts_updTs]
  exact ⟨rfl, rfl, rfl⟩
/-- The thread sets stay as a packet is forgotten. -/
theorem State.ts_dropMail (s : State) (t pos k : Nat) : (s.dropMail t pos).ts k = s.ts k :=
  ((State.Under.refl s).dropMail (Change.Le.refl placeChange)).ts k
/-- A task that ends without tokens leaves neither a fault nor a binding. -/
theorem State.endTask_clears {s : State} {k : Nat} (ht : (s.ts k).task.isSome = true) (hf : (s.ts k).stops.fault = none) :
    ((s.endTask k false).ts k).stops.fault = none ∧ ((s.endTask k false).ts k).eng.binds = [] := by
  obtain ⟨a, ha⟩ := Option.isSome_iff_exists.1 ht
  have hsent (w : State) (n : Nat) : w.Under (packetChange k) ((w.drainHoles k n).tryFree k) := (State.Under.refl w).drainHoles.tryFree
  simp only [State.endTask, ha, Bool.false_eq_true, if_false]
  obtain ⟨hfault, hbinds⟩ := (hsent _ _).ts k rfl
  refine ⟨hfault ?_, hbinds.trans ?_⟩
  · rw [State.ts_updTs, State.ts_dropMail]
    exact hf
  · rw [State.ts_updTs]
theorem State.endEpilogue_clears {s : State} {k : Nat} (hf : (s.ts k).stops.fault = none) :
    ((s.endEpilogue k).ts k).stops.fault = none ∧ ((s.endEpilogue k).ts k).eng.binds = [] := by
  have hwake (u : State) : u.wakeAll.ts k = u.ts k := rfl
  obtain ⟨q, e, h⟩ := (s.updTs k fun a => { a with ending := true, eng := { a.eng with binds := [] } }).ts_tryFree k
  rw [State.endEpilogue, hwake, h, State.ts_updTs]
  exact ⟨hf, rfl⟩
/-- A task that a repair kills ends with its bindings. -/
theorem State.killTask_clears {s : State} {k : Nat} (ht : (s.ts k).task.isSome = true) (he : (s.ts k).ending = false) :
    ((s.killTask k).ts k).stops.fault = none ∧ ((s.killTask k).ts k).eng.binds = [] := by
  obtain ⟨a, ha⟩ := Option.isSome_iff_exists.1 ht
  unfold State.killTask
  simp only [State.releaseFault, State.ts_updTs, ha, he, Bool.false_eq_true, if_false]
  split
  · refine State.endEpilogue_clears ?_
    unfold State.epilogueKilled
    rename_i owner _ _ _
    by_cases e : k = owner
    · subst e
      simp only [State.ts_updTs]
    · simp only [State.ts_updTs_of_ne _ e, State.ts_updTs]
  · refine State.endTask_clears ?_ ?_
    · simp only [State.ts_updTs, ha, Option.isSome_some]
    · simp only [State.ts_updTs]

/-! ## Taking a repair packet (R304, R374) -/

section
variable {s : State} {k a : Nat} {m : Mail} (hm : s.repairMail k a = some m)
include hm

/-- A repair that answers the open stop acts once its packet is taken. -/
theorem State.withRepair_of_serial {f : FaultInfo} (hf : (s.ts k).stops.fault = some (field m.repairWord 0 16, f))
    (act : Mail → State → State) : s.withRepair k a act = act m (s.dropMail (tileOf k) m.pos) := by
  simp only [State.withRepair, hm, State.ts_dropMail, hf, if_true]
/-- One that does not is reported stale. -/
theorem State.withRepair_stale {n : Nat} {f : FaultInfo} (hf : (s.ts k).stops.fault = some (n, f)) (hn : n ≠ field m.repairWord 0 16)
    (act : Mail → State → State) : s.withRepair k a act = (s.dropMail (tileOf k) m.pos).repairReport k .staleRepair := by
  simp only [State.withRepair, hm, State.ts_dropMail, hf, if_neg hn]
/-- A repair other than a migration acts while neither a cut nor a Trellis halt is open, outside mode 3. -/
theorem State.canRepair_of (ha : a ≠ 4) (h3 : s.mode (s.rgnOf (tileOf k)) ≠ 3) (hc : (s.region (s.rgnOf (tileOf k))).cut.phase = 0)
    (ht : s.trellised (tileOf k) = false) : s.canRepair k a = true := by
  simp [State.canRepair, hm, ha, h3, hc, ht]

end

/-- Resume with value: a scalar register takes the value (R372). -/
theorem State.resumeWith_scalar {s : State} {k : Nat} {m : Mail} {i : BitVec 5} (hr : repairReg m.repairWord = .s i) (hi : i ≠ 0) :
    ((s.resumeWith k m).ts k).stops.fault = none ∧ AMap.get 0 i.toNat ((s.resumeWith k m).ts k).regs.s = m.repairValue ∧
      ((s.resumeWith k m).ts k).regs.bpc = (s.ts k).regs.bpc := by
  unfold State.resumeWith
  obtain ⟨hf, hregs, -⟩ := (s.updTs k fun a => (a.forget (repairReg m.repairWord)).writeReg (repairReg m.repairWord) m.repairValue).ts_resumeTs k
  refine ⟨hf, ?_⟩
  rw [hregs, State.ts_updTs]
  simp only [hr, ThreadSet.writeReg, Regs.writeScalar, if_neg hi, ThreadSet.forget, AMap.get_put_same, and_self]
/-- After a precise fault the thread set goes on at the next block. -/
theorem State.skipBlock_next {s : State} {k n : Nat} {f : FaultInfo} {bs : List Byte} (hf : (s.ts k).stops.fault = some (n, f))
    (hc : f.cause.cls = 0) (ht : f.cause ≠ .trap) (hb : f.cause ≠ .blockFetch)
    (hfetch : (s.fetchCode (tileOf k) (s.ts k).regs.bpc 8).1 = .bytes bs) :
    ((s.skipBlock k).ts k).stops.fault = none ∧ ((s.skipBlock k).ts k).kindOk = 0 ∧
      ((s.skipBlock k).ts k).regs.bpc = nextBlock (s.ts k).regs.bpc (field (word (ofBytes bs)) 53 7) := by
  simp only [State.skipBlock, hf, if_neg hb, hc, ht, ne_eq, not_false_eq_true, and_self, if_true, hfetch]
  obtain ⟨hfault, hregs, hkind⟩ := (s.updTs k fun a => { a with
    regs := { a.regs with bpc := nextBlock a.regs.bpc (field (word (ofBytes bs)) 53 7) }, kindOk := 0 }).ts_resumeTs k
  rw [hfault, hregs, hkind, State.ts_updTs]
  exact ⟨rfl, rfl, rfl⟩
/-- After any other stop its BPC stands. -/
theorem State.skipBlock_stays {s : State} {k n : Nat} {f : FaultInfo} (hf : (s.ts k).stops.fault = some (n, f))
    (hc : f.cause.cls ≠ 0 ∨ f.cause = .trap) : s.skipBlock k = s.resumeTs k := by
  have hb : f.cause ≠ .blockFetch := by
    intro e
    rw [e] at hc
    exact hc.elim (fun h => h (by decide)) nofun
  have hne : ¬(f.cause.cls = 0 ∧ f.cause ≠ .trap) := fun h => hc.elim (fun g => g h.1) h.2
  simp only [State.skipBlock, hf, if_neg hb, if_neg hne]

end Sys2Proof.Machine
end

section
/-! SUPPORT. The moving of a context (R380), halts of regions (R373, R386), freezes (R344) and errors (R375). -/

namespace Sys2Proof.Machine

open Sys2Proof Sys2Proof.Claims

/-! ## Contexts that move (R380) -/

/-- What a move does to tiles before their records change hands. -/
def contextChange : Change where
  ts _ _ _ := True
  tile := placeChange.tile
  region := Region.SameChart
  ts_refl _ _ := trivial
  tile_refl := placeChange.tile_refl
  region_refl _ := ⟨rfl, rfl, rfl⟩
  ts_trans _ _ := trivial
  tile_trans := placeChange.tile_trans
  region_trans := (packetChange 0).region_trans

theorem place_le_context : placeChange.Le contextChange := ⟨fun _ => trivial, id, (place_le_packet 0).region⟩

/-- A state after a move, before the thread sets that have moved come to a block boundary: the context is at its new tile, and a
forwarding entry stays behind. -/
structure State.Moved (s : State) (src dst : Nat) (u : State) : Prop where
  actor : (u.tile dst).conf.actor = (s.tile src).conf.actor
  left : (u.tile src).conf.actor = none
  fwds : (u.tile src).fwds = ⟨s.ctxOf src, dst, (s.tile src).cycle + 2 ^ 20⟩ :: (s.tile src).fwds

theorem State.Moved.of_fault {s u v : State} {src dst : Nat} (h : s.Moved src dst u) (g : u.Under faultChange v) : s.Moved src dst v := by
  obtain ⟨hdst, -⟩ := g.tile dst
  obtain ⟨hsrc, -, -, hfwds, -⟩ := g.tile src
  exact ⟨by rw [hdst, h.actor], by rw [hsrc, h.left], by rw [hfwds, h.fwds]⟩

theorem State.Moved.updRegion {s u : State} {src dst r : Nat} {g : Region → Region} (h : s.Moved src dst u) :
    s.Moved src dst (u.updRegion r g) := ⟨h.actor, h.left, h.fwds⟩
theorem State.Moved.landings {s u : State} {src dst : Nat} {l : List Landing} (h : s.Moved src dst u) :
    s.Moved src dst { u with landings := l } := ⟨h.actor, h.left, h.fwds⟩
/-- The records of the two tiles change hands. -/
theorem State.Moved.of_placed {s v : State} {src dst ctx : Nat} {y : Tile} {f : Tile → Tile} (hne : src ≠ dst) (hctx : ctx = s.ctxOf src)
    (hv : s.Under contextChange v) (hy : y.conf.actor = (s.tile src).conf.actor) (hf : ∀ x, (f x).conf.actor = none)
    (hw : ∀ x, (f x).fwds = ⟨ctx, dst, x.cycle + 2 ^ 20⟩ :: x.fwds) : s.Moved src dst ((v.setTile dst y).updTile src f) := by
  obtain ⟨-, -, -, hfwds, hcycle⟩ := hv.tile src
  have hdst : ((v.setTile dst y).updTile src f).tile dst = y := by
    rw [State.tile_updTile_of_ne _ hne.symm]
    exact AMap.get_put_same ..
  have hsrc : (v.setTile dst y).tile src = v.tile src := AMap.get_put_of_ne hne ..
  refine ⟨by rw [hdst, hy], ?_, ?_⟩
  · rw [State.tile_updTile, hf]
  · rw [State.tile_updTile, hw, hsrc, hfwds, hcycle, hctx]
theorem State.Still.ctxOf {s u : State} (h : s.Still u) (t : Nat) : u.ctxOf t = s.ctxOf t := by
  simp only [State.ctxOf, h.tileRgn, h.region]

/-- A move of a context, to a tile of its own (R380). -/
theorem State.moveContext_moved (s : State) {src dst : Nat} (hne : src ≠ dst) (c : Nat) : s.Moved src dst (s.moveContext src dst c) := by
  have hp := place_le_context
  have hstop : s.Still ((List.range 4).foldl (fun s i => s.discard (4 * src + i)) s) :=
    State.Still.foldl (fun u i => State.still_discard u _) _ s
  have hplace : s.Under contextChange ((List.range 4).foldl (fun s i => s.discard (4 * src + i)) s) :=
    (State.Under.refl s).foldl (fun _ hw => hw.discard hp) _
  unfold State.moveContext
  dsimp only
  refine State.Moved.of_fault ?_ (((State.Under.refl _).foldl (fun _ hw => hw.settle (Change.Le.refl faultChange)) _).wakeAll)
  refine (State.Moved.of_placed hne (hstop.ctxOf src) ?_ ?_ (fun _ => rfl) fun _ => rfl).landings.updRegion
  · refine State.Under.foldl ?_ (fun i hw => (hw.setTs trivial).setTs trivial) _
    refine State.Under.charge hp (State.Under.charge hp (State.Under.charge hp (State.Under.charge hp ?_)))
    exact hplace.copyRange.zeroPools
  · simp only [hstop.conf]
theorem State.migrate_moved (s : State) {src dst : Nat} (hne : src ≠ dst) : s.Moved src dst (s.migrate src dst) :=
  s.moveContext_moved hne _

/-! ## REPAIR_MIGRATE and LIVE_MIGRATION (R373, R380) -/

/-- The tiles stay as a thread set resumes. -/
theorem State.tile_resumeTs (s : State) (k t : Nat) : (s.resumeTs k).tile t = s.tile t := by
  have hstage (u : State) (a : Task) : (u.stageTaskEnd k a).tile t = u.tile t := by
    unfold State.stageTaskEnd
    dsimp only
    split <;> rfl
  unfold State.resumeTs State.tryFree
  dsimp only
  split
  · split
    · exact hstage ..
    · rfl
  · rfl
/-- A tile stays in its region. -/
theorem State.Under.rgnOf {s u : State} (h : s.Under placeChange u) (t : Nat) : u.rgnOf t = s.rgnOf t := by
  obtain ⟨-, hrgn, -⟩ := h.tile t
  rw [State.rgnOf, State.rgnOf, hrgn]
/-- A spare tile stays spare as a packet is forgotten. -/
theorem State.Under.spare {s u : State} (h : s.Under placeChange u) (r t : Nat) : u.spare r t = s.spare r t := by
  obtain ⟨hconf, hrgn, hcoord, hfwds, -⟩ := h.tile t
  obtain ⟨es, hregion⟩ := h.region r
  simp only [State.spare, hconf, hrgn, hcoord, hfwds, hregion]
  rfl

/-- A repair migrates the context to the spare tile that it names, and the thread set restarts there. -/
theorem State.repairMigrate_moves {s : State} {k d : Nat} {m : Mail} (hd : (s.region (s.rgnOf (tileOf k))).tileAt? m.moveTo = some d)
    (hs : s.spare (s.rgnOf (tileOf k)) d = true) (h0 : (s.region (s.rgnOf (tileOf k))).modeOn = 0) (hne : tileOf k ≠ d) :
    ((s.repairMigrate k m).ts (4 * d + tsNum k)).stops.fault = none ∧
      s.Moved (tileOf k) d (s.repairMigrate k m) := by
  have hmoved := s.migrate_moved hne
  simp only [State.repairMigrate, hd, hs, h0, decide_true, Bool.and_self, if_true]
  refine ⟨(State.ts_resumeTs ..).1, ?_⟩
  exact ⟨by rw [State.tile_resumeTs]; exact hmoved.actor, by rw [State.tile_resumeTs]; exact hmoved.left,
    by rw [State.tile_resumeTs]; exact hmoved.fwds⟩

/-- LIVE_MIGRATION moves the context, and firmware records it. -/
theorem State.liveMigration_moves {s : State} {src dst : Nat} (h : s.canMigrate src dst = true) (r kind coord w1 w2 w3 : Nat) :
    s.Moved src dst ((s.migrate src dst).traceFw r kind coord w1 w2 w3) := by
  have hne : src ≠ dst := by
    rintro rfl
    simp [State.canMigrate] at h
  exact (s.migrate_moved hne).of_fault ((State.Under.refl _).traceFw token_le_fault)

/-! ## Halts of a region (R344, R373, R386) -/

/-- A region that is halted has failed. -/
theorem State.haltRegion_failed {s : State} {r : Nat} (h : s.hasRegion r = true) (reason : Nat) :
    ((s.haltRegion r reason).region r).outcome = .failed := by
  have hstop : s.Under tokenChange (((s.userTss r).foldl State.haltTs s).endTrace r reason) :=
    ((State.Under.refl s).foldl (fun _ hw => hw.haltTs (Change.Le.refl _)) _).endTrace (Change.Le.refl _)
  have hfailed : ((s.haltTiles r reason).region r).outcome = .failed := by
    have hup (u : State) : u.commitUpdate.region r = u.region r := by
      unfold State.commitUpdate
      dsimp only
      split <;> rfl
    rw [State.haltTiles, hup, State.region_updRegion _ _ _ ((hstop.has r).trans h)]
    split <;> rfl
  exact ((State.Under.refl (s.haltTiles r reason)).foldl (f := State.settleOne)
    (fun _ hw => hw.settleOne (Change.Le.refl faultChange)) _).failed hfailed

/-! ## Freezes (R344) -/

/-- A requester that goes on belongs to no region. -/
theorem State.region_thawRequester (s : State) (n r : Nat) : (s.thawRequester n).region r = s.region r := by
  unfold State.thawRequester
  split <;> rfl
/-- No record of a serial is left once it has been taken out. -/
theorem filter_serial (l : List Freeze) (n : Nat) : ∀ x ∈ l.filter (fun x => decide (x.serial ≠ n)), x.serial ≠ n := fun _ hx =>
  of_decide_eq_true (List.mem_filter.1 hx).2

/-- FRZCTL convert resolves the freeze of its serial. -/
theorem State.frzConvert_resolves {s : State} {r : Nat} (h : s.hasRegion r = true) (n : Nat) :
    ∀ x ∈ ((s.frzConvert r n).region r).freezes, x.serial ≠ n := by
  have hout : ((s.updRegion r fun g => { g with freezes := g.freezes.filter fun x => x.serial ≠ n }).region r).freezes =
      (s.region r).freezes.filter fun x => x.serial ≠ n := by rw [State.region_updRegion _ _ _ h]
  suffices hf : ((s.region r).freezes.find? fun f => f.serial == n) = none ∧ s.frzConvert r n = s ∨
      ((s.frzConvert r n).region r).freezes = (s.region r).freezes.filter fun x => x.serial ≠ n by
    rcases hf with ⟨hnone, e⟩ | e
    · rw [e]
      exact fun x hx hs => List.find?_eq_none.1 hnone x hx (beq_iff_eq.2 hs)
    · rw [e]
      exact filter_serial _ n
  unfold State.frzConvert
  dsimp only
  split
  · exact .inl ⟨‹_›, rfl⟩
  · right
    split
    · split
      · rw [((State.Under.refl _).takeFault (Change.Le.refl faultChange)).freezes_eq r]
        exact hout
      · exact hout
    · rw [State.region_updRegion _ _ _ ((State.hasRegion_updRegion ..).trans h)]
      exact hout
    · rw [State.region_thawRequester]
      exact hout

/-- FRZCTL kill does too, and halts the region that holds it. -/
theorem State.frzKill_resolves {s : State} {r : Nat} (h : s.hasRegion r = true) (n : Nat) :
    (∀ x ∈ ((s.frzKill r n).region r).freezes, x.serial ≠ n) ∧
      ((∃ x ∈ (s.region r).freezes, x.serial = n) → ((s.frzKill r n).region r).outcome = .failed) := by
  have hhalt : s.Under faultChange (s.haltRegion r 3) := (State.Under.refl s).haltRegion (Change.Le.refl _)
  have hregion (f : Region → Region) : ((s.haltRegion r 3).updRegion r f).region r = f ((s.haltRegion r 3).region r) :=
    State.region_updRegion _ _ _ ((hhalt.has r).trans h)
  unfold State.frzKill
  split
  · rename_i f hf
    have hthaw (u : State) : (if f.kind = 2 then u.thawRequester f.wher else u).region r = u.region r := by
      split
      · exact State.region_thawRequester ..
      · rfl
    rw [hthaw, hregion]
    exact ⟨filter_serial _ n, fun _ => State.haltRegion_failed h 3⟩
  · rename_i hnone
    exact ⟨fun x hx hs => List.find?_eq_none.1 hnone x hx (beq_iff_eq.2 hs), fun ⟨x, hx, hs⟩ =>
      absurd (beq_iff_eq.2 hs) (List.find?_eq_none.1 hnone x hx)⟩

/-! ## Errors (R375) -/

/-- A thread set that takes a fault while nothing stops it stops with that fault. -/
theorem State.takeFault_stops {s : State} {k : Nat} (hf : (s.ts k).stops.fault = none) (hz : (s.ts k).stops.frozen = none) (f : FaultInfo) :
    ∃ n, ((s.takeFault k f).ts k).stops.fault = some (n, f) := by
  unfold State.takeFault State.takeOne
  simp only [hf, hz, Option.isSome_none, Bool.false_eq_true, or_self, if_false]
  have hafter (w : State) (v : Subject) (cls : Nat) : w.Under faultChange ((w.sendToken v f cls).settle k) :=
    ((State.Under.refl w).sendToken token_le_fault).settle (Change.Le.refl _)
  rw [(hafter _ _ _).fault_eq (.inl ?_)]
  · rw [State.ts_updTs]
    exact ⟨_, rfl⟩
  · rw [State.ts_updTs]
    rfl

end Sys2Proof.Machine
end

section
/-! SUPPORT. Errors (R375), stops and cuts (R378, R379), and writes of SUBDATA and CSRs (R303, R333). -/

namespace Sys2Proof.Machine

open Sys2Proof Sys2Proof.Claims

/-! ## UNCORRECTABLE_ERROR (R375) -/

theorem State.Under.tracePower {c : Change} {s u : State} (hc : tokenChange.Le c) (h : s.Under c u) {f code value : Nat} :
    s.Under c (u.tracePower f code value) := h.foldl (fun _ hw => (hw.traceFw hc).ite hw) _

/-- A line that an error hits is poisoned. -/
theorem State.uncorrectable_line (s : State) (n : Nat) : n ∈ (s.uncorrectable false n).poison := by
  have hmem (l : List Nat) : n ∈ if l.contains n then l else n :: l := by
    split
    · exact List.contains_iff_mem.1 ‹_›
    · exact List.mem_cons_self ..
  unfold State.uncorrectable
  exact hmem _
/-- The thread set of a register frame that an error hits takes a data error, and its frame is lost. -/
theorem State.uncorrectable_takes (s : State) (n : Nat) : ∃ w mark regs, s.Under tokenChange w ∧
    (s.uncorrectable true n).ts n = { (w.takeFault n ⟨.dataError, 255, 0, 0, 0, mark⟩).ts n with regs := regs } := by
  have hfresh (v : State) (m : Nat) : ({ v with fresh := m } : State).ts n = v.ts n := rfl
  have hfield (u : State) (c : Bool) (f g h v : Nat) (p q : Field → Field) : u.Under tokenChange
      (if c then ((u.updField f p).updField g q).tracePower h 5 v else u.updField f p) := by
    have hf : u.Under tokenChange ((u.updField f p).updField g q) := (State.Under.refl u).other rfl rfl rfl
    split
    · exact hf.tracePower (Change.Le.refl _)
    · exact (State.Under.refl u).other rfl rfl rfl
  unfold State.uncorrectable
  simp only [Bool.true_or, Bool.true_and, if_true]
  refine ⟨_, _, _, ?_, (hfresh ..).trans (State.ts_updTs ..)⟩
  exact hfield ..
theorem State.uncorrectable_frame {s : State} {n : Nat} (hf : (s.ts n).stops.fault = none) (hz : (s.ts n).stops.frozen = none) :
    ∃ q : Nat × FaultInfo, ((s.uncorrectable true n).ts n).stops.fault = some q ∧ q.2.cause = .dataError ∧ q.2.index = 255 := by
  obtain ⟨w, mark, regs, hw, e⟩ := s.uncorrectable_takes n
  obtain ⟨h, ht⟩ := hw.ts n
  obtain ⟨m, hm⟩ := State.takeFault_stops (s := w) (k := n) (by rw [ht, hf]) (by rw [ht, hz]) ⟨.dataError, 255, 0, 0, 0, mark⟩
  rw [e]
  exact ⟨_, hm, rfl, rfl⟩

/-! ## TILE_STOPPED and CUT_CLOSE (R378, R379) -/

/-- A discarded block is gone, and no other comes. -/
theorem State.flight_discard (s : State) {k j : Nat} (h : j = k ∨ s.flight j = none) : (s.discard k).flight j = none := by
  rcases h with rfl | h
  · unfold State.discard
    split
    · exact State.flight_dropFlight ..
    · assumption
  · exact (State.still_discard s k).flight j h
/-- A thread set of a tile stops for a cut. -/
def State.cutStop (t : Nat) (s : State) (i : Nat) : State :=
  ((s.discard (4 * t + i)).dropGroups (4 * t + i)).updTs (4 * t + i) fun a => { a with stops := { a.stops with cut := true } }
theorem State.tileStopped_eq (s : State) (t : Nat) : s.tileStopped t =
    ((List.range 4).foldl (State.cutStop t) s).updTile t fun x => { x with stopped := true, colour := !x.colour, live := x.live } := rfl
/-- Whether a thread set has stopped for a cut, without a block. -/
def State.IsCut (s : State) (k : Nat) : Prop := s.flight k = none ∧ (s.ts k).stops.cut = true
theorem State.isCut_cutStop {s : State} {t i x : Nat} (h : i = x ∨ s.IsCut (4 * t + i)) : (s.cutStop t x).IsCut (4 * t + i) := by
  have hts : ((s.discard (4 * t + x)).dropGroups (4 * t + x)).ts (4 * t + i) = s.ts (4 * t + i) := (State.still_discard s _).ts _
  by_cases hx : i = x
  · subst hx
    exact ⟨State.flight_discard s (.inl rfl), by rw [State.cutStop, State.ts_updTs]⟩
  · obtain ⟨hflight, hcut⟩ := h.resolve_left hx
    exact ⟨State.flight_discard s (.inr hflight), by rw [State.cutStop, State.ts_updTs_of_ne _ (by omega), hts, hcut]⟩
theorem State.isCut_foldl {t i : Nat} {l : List Nat} : ∀ {s : State}, i ∈ l ∨ s.IsCut (4 * t + i) →
    (l.foldl (State.cutStop t) s).IsCut (4 * t + i) := by
  induction l with
  | nil => exact fun h => h.resolve_left nofun
  | cons x l ih =>
    intro s h
    by_cases hx : i = x
    · exact ih (.inr (State.isCut_cutStop (.inl hx)))
    · exact ih (h.imp (fun hm => (List.mem_cons.1 hm).resolve_left hx) fun hc => State.isCut_cutStop (.inr hc))
theorem State.isCut_updTile {s : State} {t k : Nat} {f : Tile → Tile} (h : s.IsCut k) : (s.updTile t f).IsCut k := h
theorem State.isCut_tileStopped (s : State) {t i : Nat} (hi : i < 4) : (s.tileStopped t).IsCut (4 * t + i) := by
  rw [State.tileStopped_eq]
  exact State.isCut_updTile (State.isCut_foldl (.inl (List.mem_range.2 hi)))
theorem State.colour_cutStop (s : State) (t i : Nat) : ((s.cutStop t i).tile t).colour = (s.tile t).colour := by
  obtain ⟨m, c, e⟩ := (State.still_discard s (4 * t + i)).tile t
  rw [State.cutStop, State.updTs_tile, State.dropGroups]
  by_cases ht : t = tileOf (4 * t + i)
  · rw [← ht, State.tile_updTile, e]
  · rw [State.tile_updTile_of_ne _ ht, e]
theorem State.colour_cutStops (t : Nat) (l : List Nat) : ∀ s : State, ((l.foldl (State.cutStop t) s).tile t).colour = (s.tile t).colour := by
  induction l with
  | nil => exact fun _ => rfl
  | cons x l ih => exact fun s => (ih _).trans (s.colour_cutStop t x)
/-- A tile that has stopped has changed its colour. -/
theorem State.tile_tileStopped (s : State) (t : Nat) : ((s.tileStopped t).tile t).stopped = true ∧
    ((s.tileStopped t).tile t).colour = !(s.tile t).colour := by
  rw [State.tileStopped_eq, State.tile_updTile]
  exact ⟨rfl, congrArg not (State.colour_cutStops t _ s)⟩
/-- A tile that is asked to stop and waits for no reply can stop. -/
theorem State.canStop_of {s : State} {t : Nat} (hs : (s.tile t).stopping = true) (hn : (s.tile t).stopped = false)
    (hg : s.gatedAt t = false) (hp : ∀ i < 4, (s.ts (4 * t + i)).eng.pend = []) : s.canStop t = true := by
  have hpend : ((List.range 4).all fun i => (s.ts (4 * t + i)).eng.pend.isEmpty) = true :=
    List.all_eq_true.2 fun i hi => by rw [hp i (List.mem_range.1 hi)]; rfl
  simp only [State.canStop, hs, hn, hg, hpend, Bool.not_false, Bool.and_self]

/-- The cut closes once every tile has stopped and no packet or reply of the colour is on its way. -/
theorem State.canClose_of {s : State} {r : Nat} (h : s.hasRegion r = true) (h1 : (s.region r).cut.phase = 1)
    (hs : ∀ t ∈ (s.region r).tilesOf, (s.tile t).stopped = true)
    (hc : (s.colourSums r (s.region r).colour).1 = (s.colourSums r (s.region r).colour).2)
    (hq : ∀ d ∈ s.dreqs, d.rgn = r → d.colour ≠ (s.region r).colour) (hp : ∀ d ∈ s.dreps, d.rgn = r → d.colour ≠ (s.region r).colour) :
    s.canClose r = true := by
  have hstopped : ((s.region r).tilesOf.all fun t => (s.tile t).stopped) = true := List.all_eq_true.2 hs
  have howes {a : Bool} {n : Nat} (h : n = r → a ≠ (s.region r).colour) : (!(n == r && a == (s.region r).colour)) = true := by
    rw [Bool.not_eq_true', Bool.and_eq_false_imp]
    intro e
    exact beq_eq_false_iff_ne.2 (h (beq_iff_eq.1 e))
  have hreqs : (s.dreqs.all fun d => !(d.rgn == r && d.colour == (s.region r).colour)) = true :=
    List.all_eq_true.2 fun d hd => howes (hq d hd)
  have hreps : (s.dreps.all fun d => !(d.rgn == r && d.colour == (s.region r).colour)) = true :=
    List.all_eq_true.2 fun d hd => howes (hp d hd)
  simp only [State.canClose, h, h1, hstopped, hc, hreqs, hreps, decide_true, Bool.and_self]
theorem State.cutClose_region {s : State} {r : Nat} (h : s.hasRegion r = true) :
    ((s.cutClose r).region r).cut.phase = 2 ∧ ((s.cutClose r).region r).colour = !(s.region r).colour := by
  simp only [State.cutClose, State.region_updRegion _ _ _ h, and_self]

/-- The tile's oldest forwarding entry can end once its time has passed and no packet of an old route is on its way. -/
theorem State.canEndFwd_of {s : State} {t : Nat} {f : Forward} (hf : (s.tile t).fwds.getLast? = some f) (he : f.expiry ≤ (s.tile t).cycle)
    (hn : ∀ p ∈ s.net, p.dst = t → p.edge = none) : s.canEndFwd t = true := by
  have hnet : (s.net.all fun p => !(p.dst == t && p.edge.isSome)) = true := by
    refine List.all_eq_true.2 fun p hp => ?_
    rw [Bool.not_eq_true', Bool.and_eq_false_imp]
    intro e
    rw [hn p hp (beq_iff_eq.1 e)]
    rfl
  simp only [State.canEndFwd, hf, he, hnet, decide_true, Bool.and_self]

/-! ## CSR_WRITE of RBMARK (R303, R356) -/

/-- RBMARK keeps the low 16 bits of what is written. -/
theorem State.csrWrite_rbmark {s : State} {t : Nat} (h : s.hasRegion (s.rgnOf t) = true) (v : Word) :
    csrOf ((s.csrWrite t 0x041 v).region (s.rgnOf t)).csr 0x041 = v &&& 0xFFFF := by
  have hstore : s.csrWrite t 0x041 v = s.updRegion (s.rgnOf t) fun g => { g with csr := csrPut g.csr 0x041 (word (v.toNat &&& 0xFFFF)) } := rfl
  have hlow : word (v.toNat &&& 0xFFFF) = v &&& 0xFFFF := by
    apply BitVec.eq_of_toNat_eq
    simp [word]
  rw [hstore, State.region_updRegion _ _ _ h, csrOf_csrPut, hlow]

end Sys2Proof.Machine
end

section
/-! SUPPORT. What keeps a region's substitution and the work of its save engines (R333, R384 to R387). -/

namespace Sys2Proof.Machine

open Sys2Proof Sys2Proof.Claims

/-! ## Regions whose chart stands -/

/-- Anything, but that the substitution of each region and the work of its save engines stand. -/
def chartChange : Change where
  ts _ _ _ := True
  tile _ _ := True
  region := Region.SameChart
  ts_refl _ _ := trivial
  tile_refl _ := trivial
  region_refl _ := ⟨rfl, rfl, rfl⟩
  ts_trans _ _ := trivial
  tile_trans _ _ := trivial
  region_trans := (packetChange 0).region_trans

theorem packet_le_chart (k : Nat) : (packetChange k).Le chartChange := ⟨fun _ => trivial, id, id⟩
theorem token_le_chart : tokenChange.Le chartChange := (token_le_packet 0).trans (packet_le_chart 0)
theorem place_le_chart : placeChange.Le chartChange := State.Under.place_le token_le_chart
theorem fault_le_chart : faultChange.Le chartChange := ⟨fun _ => trivial, fun _ => trivial, token_le_chart.region⟩

/-- Packets that a thread set sends leave charts alone. -/
theorem State.Under.of_packet {s u v : State} {k : Nat} (h : s.Under chartChange u) (g : u.Under (packetChange k) v) :
    s.Under chartChange v := h.trans (g.mono (packet_le_chart k))

/-- Clusters are apart from thread sets, tiles and regions. -/
theorem State.Under.updCluster {c : Change} {s u : State} (h : s.Under c u) {n : Nat} {f : Cluster → Cluster} :
    s.Under c (u.updCluster n f) := h.other rfl rfl rfl
/-- So is what a save has kept. -/
theorem State.Under.saves {c : Change} {s u : State} (h : s.Under c u) {m : AMap Saved} : s.Under c { u with saves := m } :=
  h.other rfl rfl rfl

namespace State.Under
variable {s u : State} (h : s.Under chartChange u)
include h

theorem anyTile {t : Nat} {f : Tile → Tile} : s.Under chartChange (u.updTile t f) := h.updTile fun _ => trivial
theorem anyNewTile {t : Nat} {x : Tile} : s.Under chartChange (u.setTile t x) := h.anyTile (f := fun _ => x)
theorem landings {l : List Landing} : s.Under chartChange { u with landings := l } := h.other rfl rfl rfl
theorem anyTs {k : Nat} {f : ThreadSet → ThreadSet} : s.Under chartChange (u.updTs k f) := h.updTs trivial
theorem anyNewTs {k : Nat} {a : ThreadSet} : s.Under chartChange (u.setTs k a) := h.setTs trivial

/-! ## Substitutions (R333, R380) -/

theorem moveContext {src dst c : Nat} : s.Under chartChange (u.moveContext src dst c) := by
  have hp := place_le_chart
  unfold State.moveContext
  dsimp only
  refine State.Under.wakeAll (State.Under.foldl ?_ (fun _ hw => hw.settle fault_le_chart) _)
  refine State.Under.updRegion ?_ fun _ => ⟨rfl, rfl, rfl⟩
  refine State.Under.landings (State.Under.anyTile (State.Under.anyNewTile ?_))
  refine State.Under.foldl ?_ (fun _ hw => hw.anyNewTs.anyNewTs) _
  refine State.Under.charge hp (State.Under.charge hp (State.Under.charge hp (State.Under.charge hp ?_)))
  exact (h.foldl (fun _ hw => hw.discard hp) _).copyRange.zeroPools
theorem leaveRegion {r t : Nat} : s.Under chartChange (u.leaveRegion r t) := by
  unfold State.leaveRegion
  refine h.ite (State.Under.anyTile ?_)
  exact h.updRegion fun _ => ⟨rfl, rfl, rfl⟩
theorem resettle {r c : Nat} {old new : Option Nat} : s.Under chartChange (u.resettle r c old new) := by
  have hleave {w : State} (hw : s.Under chartChange w) :
      s.Under chartChange (match old with | some t => w.leaveRegion r t | none => w) := by
    cases old with
    | none => exact hw
    | some t => exact hw.leaveRegion
  unfold State.resettle
  refine h.ite (hleave ?_)
  cases new with
  | none => exact h
  | some d =>
    have hin : s.Under chartChange (if (u.tile d).rgn.isSome then u
        else u.updTile d fun x => { x with rgn := some r, coord := c, conf := { TileConf.none with coord := c } }) := h.ite h.anyTile
    cases old with
    | none => exact hin
    | some t => exact hin.moveContext.ite hin

/-! ## Cuts (R378, R379) -/

theorem closeBoundary {r : Nat} : s.Under chartChange (u.closeBoundary r) := h.foldl (fun _ hw => hw.updCluster) _
theorem cutEnd {r : Nat} : s.Under chartChange (u.cutEnd r) := by
  have hphase : s.Under chartChange (u.updRegion r fun g => { g with cut := { g.cut with phase := 0 } }) :=
    h.updRegion fun _ => ⟨rfl, rfl, rfl⟩
  exact hphase.closeBoundary.foldl (fun _ hw => hw.anyTile.foldl (fun _ hv => hv.anyTs) _) _
theorem sendTokens {t : Nat} : s.Under chartChange (u.sendTokens t) := h.anyTile.foldl (fun _ hw => hw.passToken token_le_chart) _
theorem reportPort {r : Nat} {f : FaultInfo} : s.Under chartChange (u.reportPort r f) := h.sendToken token_le_chart
theorem sendSource {r e : Nat} {h0 : Word} {body : List Byte} : s.Under chartChange (u.sendSource r e h0 body) := by
  have hp := place_le_chart
  have hsent {w : State} (hw : s.Under chartChange w) : s.Under chartChange (w.updRegion r fun g => { g with portSent := countPair g.portSent g.colour }) :=
    hw.updRegion fun _ => ⟨rfl, rfl, rfl⟩
  unfold State.sendSource
  dsimp only
  split
  · split
    · split
      · exact (hsent (h.updEdge hp)).net
      · exact (h.updEdge hp).returnCredit hp
    · exact (h.updEdge hp).reportPort.returnCredit hp
    · exact (h.updEdge hp).returnCredit hp
  · split
    · split
      · exact (hsent (h.updEdge hp)).net
      · exact (h.updEdge hp).returnCredit hp
    · exact (h.updEdge hp).reportPort.returnCredit hp
  · exact (h.updEdge hp).returnCredit hp
theorem feedSource {r e n : Nat} : s.Under chartChange (u.feedSource r e n) := by
  induction n generalizing u with
  | zero => exact h
  | succ n ih =>
    unfold State.feedSource
    dsimp only
    split
    · have hnext (l : Links → Links) : s.Under chartChange (u.updLinks l) := h.other rfl rfl rfl
      exact (ih (hnext _).sendSource).ite h
    · exact h
theorem feedSources {r : Nat} : s.Under chartChange (u.feedSources r) := h.foldl (fun _ hw => hw.feedSource) _
theorem sendHeld {r : Nat} : s.Under chartChange (u.sendHeld r) := by
  unfold State.sendHeld
  refine State.Under.feedSources (State.Under.foldl (State.Under.foldl (State.Under.foldl h ?_ _) ?_ _) ?_ _)
  · exact fun k hw => hw.of_packet (k := k) ((State.Under.refl _).drainSends.tryFree)
  · exact fun _ hw => hw.of_packet (k := 0) (State.Under.refl _).flushHoles
  · exact fun _ hw => hw.of_packet (k := 0) (State.Under.refl _).stealLeft
theorem cutResume {r : Nat} : s.Under chartChange (u.cutResume r) := by
  unfold State.cutResume
  refine State.Under.wakeAll (State.Under.sendHeld (State.Under.foldl h.cutEnd ?_ _))
  exact fun _ hw => hw.anyTile.sendTokens.foldl (fun _ hv => hv.settle fault_le_chart) _

end State.Under

end Sys2Proof.Machine
end

section
/-! SUPPORT. Saves and restores leave charts alone (R382 to R387). -/

namespace Sys2Proof.Machine

open Sys2Proof Sys2Proof.Claims

/-! ## The save area (R382, R383) -/

namespace State.Under

section
variable {c : Change} {s u : State} (h : s.Under c u)
include h

omit h in
/-- A fold that carries a state along. -/
theorem pair_foldl {α β : Type} {f : α × State → β → α × State} (hf : ∀ p x, s.Under c p.2 → s.Under c (f p x).2) {p : α × State}
    (hp : s.Under c p.2) (l : List β) : s.Under c (l.foldl f p).2 := by
  induction l generalizing p with
  | nil => exact hp
  | cons x l ih => exact ih (hf p x hp)
theorem putWords {a : Nat} {l : List Nat} : s.Under c (u.putWords a l) := by
  induction l generalizing u a with
  | nil =>
    unfold State.putWords
    exact h
  | cons w l ih =>
    unfold State.putWords
    exact ih h.putNum
theorem zeroRange {a n : Nat} : s.Under c (u.zeroRange a n) := h.other rfl rfl rfl
theorem putByte {a : Nat} {b : Byte} : s.Under c (u.putByte a b) := h.other rfl rfl rfl
theorem saveHeader {r a flags : Nat} : s.Under c (u.saveHeader r a flags) := by
  unfold State.saveHeader
  dsimp only
  refine State.Under.putWords (State.Under.putWords ?_)
  exact State.Under.putNum (State.Under.putNum (State.Under.putNum (State.Under.putNum h.putNum)))
theorem saveArrival {w : SaveWork} {flt : Bool} : s.Under c (u.saveArrival w flt) := by
  unfold State.saveArrival
  split
  · exact h.other rfl rfl rfl
  · exact h
theorem updQueue {q : Nat} {f : HostQueue → HostQueue} : s.Under c (u.updQueue q f) := h.other rfl rfl rfl
theorem pushCompletion {q tag status : Nat} {result : Word} : s.Under c (u.pushCompletion q tag status result) := by
  unfold State.pushCompletion
  exact h.ite h.putNum.putNum.putNum.putNum.putNum.updQueue
theorem endCommand {q tag status : Nat} {result : Word} : s.Under c (u.endCommand q tag status result) :=
  h.commitUpdate.ite h.pushCompletion.updQueue.commitUpdate
end

variable {s u : State} (h : s.Under chartChange u)
include h

theorem showAccs {t : Nat} : s.Under chartChange (u.showAccs t) := by
  have hshown {f : Tile → Tile} {n : Nat} : s.Under chartChange { u.updTile t f with fresh := n } := (h.anyTile (f := f)).other rfl rfl rfl
  exact hshown
theorem savePool {t a : Nat} : s.Under chartChange (u.savePool t a) := by
  unfold State.savePool
  refine State.Under.putWords (State.Under.foldl (State.Under.foldl ?_ (fun _ hw => hw.putWords) _) (fun _ hw => hw.putWords) _)
  exact h.showAccs.copyRange
theorem chargeSave {t : Nat} : s.Under chartChange (u.chargeSave t) := h.charge place_le_chart
theorem saveSection {ctx t a : Nat} : s.Under chartChange (u.saveSection ctx t a) := by
  unfold State.saveSection
  refine State.Under.foldl (State.Under.putWords (State.Under.foldl (State.Under.foldl (State.Under.foldl ?_ ?_ _) ?_ _)
    (fun _ hw => hw.putWords) _)) (fun _ hw => hw.putWords) _
  · exact h.savePool.zeroRange.chargeSave
  · exact fun _ hw => (hw.foldl (fun _ hv => hv.putAll) _).putWords
  · intro w n hw
    split
    · exact hw.putAll.putNum.putNum
    · exact hw
theorem saveSections {r a : Nat} {is : List Nat} : s.Under chartChange (u.saveSections r a is) := by
  refine State.Under.foldl h.zeroRange ?_ _
  intro w i hw
  refine State.Under.putByte ?_
  split
  · exact hw.saveSection
  · exact hw
theorem discardHeld {r : Nat} : s.Under chartChange (u.discardHeld r) :=
  h.foldl (fun _ hw => hw.foldl (fun _ hv => hv.anyTs) _) _

/-! ## Restores (R385) -/

theorem restoredFaults {known : List FaultInfo} {es : List JEntry} : s.Under chartChange (u.restoredFaults known es).2 := by
  unfold State.restoredFaults
  refine State.Under.pair_foldl ?_ h _
  intro p e hp
  dsimp only
  split
  · exact hp
  · split
    · exact hp
    · split
      · exact hp.free
      · exact hp
  · exact hp
theorem restoreTile {r ctx a t : Nat} {z : SavedTile} : s.Under chartChange (u.restoreTile r ctx a t z) := by
  unfold State.restoreTile
  refine State.Under.anyNewTile (State.Under.foldl h.copyRange.chargeSave ?_ _)
  intro w q hw
  exact hw.restoredFaults.anyNewTs
theorem putMailFor {ctx t : Nat} {m : Mail} : s.Under chartChange (u.putMailFor ctx t m) := by
  unfold State.putMailFor
  exact State.Under.anyTile (h.putAll.charge place_le_chart)
theorem deliverTokens {l : List (Nat × Mail)} : s.Under chartChange (u.deliverTokens l) := by
  refine h.foldl ?_ _
  intro w p hw
  have hpos : s.Under chartChange (w.nextPos p.1).2 := hw.of_packet (k := 0) (State.Under.refl _).nextPos
  exact hpos.putMailFor
theorem restoreInto {r a : Nat} : s.Under chartChange (u.restoreInto r a) := by
  unfold State.restoreInto
  dsimp only
  refine State.Under.deliverTokens (State.Under.foldl ?_ ?_ _)
  · exact h.updRegion fun _ => ⟨rfl, rfl, rfl⟩
  · intro w q hw
    split
    · exact hw.restoreTile
    · exact hw

end State.Under

end Sys2Proof.Machine
end

section
/-! SUPPORT. SUBDATA (R333), saves and restores (R384, R385), the watchdog and the deadline of a save (R386, R387). -/

namespace Sys2Proof.Machine

open Sys2Proof Sys2Proof.Claims

/-! ## SUBDATA (R333) -/

theorem State.subdataWrite_illegal {s : State} {r : Nat} {v : Word} (h : s.subdataOk r v = false) : s.subdataWrite r v = s := by
  simp only [State.subdataWrite, h, Bool.false_eq_true, if_false]
/-- While no cluster is halted, a legal entry stands at its place. -/
theorem State.subdataWrite_legal {s : State} {r : Nat} {v : Word} (hr : s.hasRegion r = true) (h : s.subdataOk r v = true)
    (hs : ∀ t, s.shut t = false) :
    AMap.get 0 (field (csrOf (s.region r).csr 0x008) 6 8 * 64 + field (csrOf (s.region r).csr 0x008) 0 6) ((s.subdataWrite r v).region r).subst =
      word (v.toNat - field v 40 21 * 2 ^ 40) := by
  have hshut (f : Region → Region) (t : Nat) : (s.updRegion r f).shut t = false := hs t
  have hsettled (u : State) (l : List Nat) (f : State → Nat → Option Nat) (old : Nat → Option Nat) :
      u.Under chartChange (l.foldl (fun s c => s.resettle r c (old c) (f s c)) u) :=
    (State.Under.refl u).foldl (fun _ hw => hw.resettle) _
  unfold State.subdataWrite
  rw [if_pos h]
  dsimp only
  refine (congrArg (fun u : State => AMap.get 0 _ (u.region r).subst) (if_neg ?_)).trans ?_
  · intro hstuck
    obtain ⟨c, -, hc⟩ := List.any_eq_true.1 hstuck
    split at hc
    · rw [hshut, hshut, Bool.or_self, Bool.and_false] at hc
      exact Bool.false_ne_true hc
    · exact Bool.false_ne_true hc
  · obtain ⟨hsubst, -⟩ := (hsettled _ _ _ _).region r
    rw [hsubst, State.region_updRegion _ _ _ hr, AMap.get_put_same]

/-! ## CONTEXT_SAVE and CONTEXT_RESTORE (R384, R385) -/

/-- The engines go on to the next of the work that they have accepted. -/
def State.GoesOn (s : State) (r : Nat) (u : State) : Prop := (u.region r).saving = (s.region r).saveNext.head?

theorem State.goesOn_of_chart {s u : State} {r : Nat} (h : s.hasRegion r = true) (hu : (s.updRegion r Region.nextSave).Under chartChange u) :
    s.GoesOn r u := by
  obtain ⟨-, hsaving, -⟩ := hu.region r
  rw [State.GoesOn, hsaving, State.region_updRegion _ _ _ h]
  rfl
theorem State.hasRegion_vacate (s : State) (r : Nat) : (s.vacate r).hasRegion r = false := by
  unfold State.vacate State.hasRegion
  dsimp only
  rw [AMap.find_del_same]
  rfl
/-- A region that gives up its place stays away as its command ends. -/
theorem State.hasRegion_ended (s : State) (r q tag status : Nat) (v : Word) : ((s.vacate r).endCommand q tag status v).hasRegion r = false :=
  ((State.Under.refl (c := chartChange) _).endCommand.has r).trans (s.hasRegion_vacate r)

section
variable {s : State} {r : Nat} {w : SaveWork} (hw : (s.region r).saving = some w)
include hw

theorem State.contextSave_goesOn (h : s.hasRegion r = true) (hh : w.host = none) : s.GoesOn r (s.contextSave r) := by
  refine State.goesOn_of_chart h ?_
  simp only [State.contextSave, hw, hh]
  split
  · exact (State.Under.refl _).saveArrival
  · refine State.Under.saveArrival (State.Under.discardHeld ?_)
    split
    · exact (State.Under.refl _).saveSections.saveHeader
    · exact (State.Under.refl _).saveSections.saveHeader.saves
theorem State.contextSave_leaves (hc : (s.region r).cut.phase = 2) (hh : w.host.isSome = true) : (s.contextSave r).hasRegion r = false := by
  obtain ⟨⟨q, tag⟩, hq⟩ := Option.isSome_iff_exists.1 hh
  have hphase : ((s.updRegion r Region.nextSave).region r).cut.phase = 2 := by
    rcases s.region_updRegion_cases r r Region.nextSave with e | ⟨-, e⟩
    · rw [e, hc]
    · rw [e]
      exact hc
  simp only [State.contextSave, hw, hq, hphase, ne_eq, not_true_eq_false, if_false]
  exact State.hasRegion_ended ..
theorem State.contextRestore_goesOn (h : s.hasRegion r = true) (hok : w.host = none ∨ s.resumable w.area (s.region r) = true) :
    s.GoesOn r (s.contextRestore r) := by
  have hin : (s.updRegion r Region.nextSave).Under chartChange ((s.updRegion r Region.nextSave).restoreInto r w.area) :=
    (State.Under.refl _).restoreInto
  refine State.goesOn_of_chart h ?_
  cases hh : w.host with
  | none =>
    simp only [State.contextRestore, hw, hh]
    exact (hin.ite (State.Under.refl _)).saveArrival
  | some q =>
    have hres := hok.resolve_left (by rw [hh]; nofun)
    simp only [State.contextRestore, hw, hh, hres, if_true]
    refine State.Under.endCommand (State.Under.cutResume ?_)
    exact hin.saves.updRegion fun _ => ⟨rfl, rfl, rfl⟩
theorem State.contextRestore_leaves (hh : w.host.isSome = true) (hok : s.resumable w.area (s.region r) = false) :
    (s.contextRestore r).hasRegion r = false := by
  obtain ⟨⟨q, tag⟩, hq⟩ := Option.isSome_iff_exists.1 hh
  simp only [State.contextRestore, hw, hq, hok, Bool.false_eq_true, if_false]
  exact State.hasRegion_ended ..

/-! ## SAVE_DEADLINE_EXPIRY (R387) -/

theorem State.saveDeadline_ends (h : s.hasRegion r = true) : s.GoesOn r (s.saveDeadline r) ∧
    ((s.saveDeadline r).region r).st = .ended ∧ ((s.saveDeadline r).region r).outcome = .failed := by
  have hended {u v : State} (hu : s.Under chartChange u)
      (hv : (u.updRegion r fun g => { g.nextSave with st := .ended, outcome := .failed }).Under placeChange v) :
      s.GoesOn r v ∧ (v.region r).st = .ended ∧ (v.region r).outcome = .failed := by
    obtain ⟨es, e⟩ := hv.region r
    obtain ⟨-, -, hnext⟩ := hu.region r
    rw [State.region_updRegion _ _ _ ((hu.has r).trans h)] at e
    rw [State.GoesOn, e, ← hnext]
    exact ⟨rfl, rfl, rfl⟩
  have hrecord {u : State} (hu : s.Under chartChange u) (f : Nat) (x : FwRecord) : s.Under chartChange (u.fwRecord f x) :=
    hu.other rfl rfl rfl
  simp only [State.saveDeadline, hw]
  split
  · refine hended (hrecord ?_ _ _) (State.Under.refl _).free.endCommand
    exact (State.Under.trace token_le_chart (State.Under.refl _).choose.saveSections.saveHeader)
  · refine hended (hrecord ?_ _ _) (State.Under.refl _).saveArrival
    exact (State.Under.trace token_le_chart (State.Under.refl _).choose.saveSections.saveHeader)

end

/-! ## WATCHDOG_EXPIRY (R386) -/

theorem State.canWatch_of {s : State} {r : Nat} (h : s.hasRegion r = true) (he : bitAt (csrOf (s.region r).csr 0x106) 16 = true)
    (hrun : (s.region r).st = .running)
    (ht : ∀ t ∈ (s.region r).tilesOf, (s.fieldRec (fieldOf t)).gated = false ∧ s.trellised t = false) : s.canWatch r = true := by
  have hgated : s.regionGated r = false := List.any_eq_false.2 fun t hm => by
    rw [(ht t hm).1]
    exact Bool.false_ne_true
  have hfree : ((s.region r).tilesOf.all fun t => !s.trellised t) = true := List.all_eq_true.2 fun t hm => by
    rw [(ht t hm).2]
    rfl
  simp only [State.canWatch, h, he, hrun, hgated, hfree, decide_true, Bool.not_false, Bool.and_self]
theorem State.Under.cutRequest {c : Change} {s u : State} (hc : tokenChange.Le c) (h : s.Under c u) {r why : Nat} :
    s.Under c (u.cutRequest r why) := by
  have hstart : s.Under c (u.updRegion r fun g => { g with cut := { g.cut with phase := 1, why := why }, calm := false }) :=
    h.updRegion fun _ => token_region hc rfl rfl rfl rfl id
  refine State.Under.foldl hstart ?_ _
  intro w t hw
  have hstop : s.Under c (w.updTile t fun x => { x with stopping := true }) := hw.updTile fun _ => place_tile (place_le hc) rfl rfl rfl rfl rfl
  exact State.Under.ite hstop.updCluster hstop
/-- The watchdog halts its region, whatever save or dump follows. -/
theorem State.watchdog_fails {s : State} {r : Nat} (h : s.hasRegion r = true) : ((s.watchdog r).region r).outcome = .failed := by
  have hfailed := State.haltRegion_failed h 4
  have hkept (f : Region → Region) (hf : ∀ g, (f g).outcome = g.outcome) : (((s.haltRegion r 4).updRegion r f).region r).outcome = .failed := by
    rcases (s.haltRegion r 4).region_updRegion_cases r r f with e | ⟨-, e⟩
    · rw [e, hfailed]
    · rw [e, hf, hfailed]
  unfold State.watchdog
  dsimp only
  split
  · exact hkept _ fun _ => rfl
  · split
    · exact hfailed
    · split
      · obtain ⟨-, -, -, -, hstays⟩ := ((State.Under.refl _).cutRequest (Change.Le.refl tokenChange)).region r
        exact hstays (hkept _ fun _ => rfl)
      · exact hkept _ fun _ => rfl

end Sys2Proof.Machine
end

section
/-! SUPPORT. O44: the events of the matrix engine, of fault tokens and repairs, of cuts, migration and saves. -/

namespace Sys2Proof.Machine

open Sys2Proof Sys2Proof.Claims

/-! ## The matrix engine and fault tokens (R182 to R188, R369) -/

section
variable {s : State} {k t : Nat} {r : MRec}

theorem matrixOp_runs (h : s.anyOp t = true) (hd : s.opDue t ≤ (s.tile t).cycle) :
    ∃ (u : State) (i : Nat), i < 4 ∧ exec (.matrixOp t) s = .next u ∧ s.opReady (4 * t + i) = true ∧
      (u.ts (4 * t + i)).eng.me = (s.ts (4 * t + i)).eng.me + 1 ∧ (u.ts (4 * t + i)).eng.recs = (s.ts (4 * t + i)).eng.recs.tail := by
  have hcan : s.canOp t = true := by simp [State.canOp, h, hd]
  obtain ⟨i, hi, hready, hcount⟩ := State.matrixOp_retires h
  exact ⟨_, i, hi, (comes_of_eq (i := .matrixOp t) (s := s) rfl).1 hcan, hready, hcount⟩
theorem canWeight_of_head {kph b zst zb sst sb bcs bb : Nat} (h : s.headReady k = some r)
    (hb : r.body = .weight kph b zst zb sst sb bcs bb) : s.canWeight k = true := by simp [State.canWeight, h, hb]
theorem epilogueDispatch_runs {e : Nat} (hr : s.epilogueHead t = some (k, r)) (he : s.freeEpilogue t = some e) :
    ∃ (u : State) (a : Task), exec (.epilogueDispatch t) s = .next u ∧ (u.ts e).kindOk = 2 ∧ (u.ts e).task = some a ∧
      a.epi = some (k, r.row, r.num) ∧ AMap.get Vec.zero 0 (u.ts e).regs.v = (s.drainVals t r).1 ∧
      AMap.get 0 1 (u.ts e).regs.s = word r.row ∧ AMap.get 0 2 (u.ts e).regs.s = word (r.num % 2 ^ 32) := by
  have hcan : s.canEpilogue t = true := by simp [State.canEpilogue, hr, he]
  obtain ⟨a, ha⟩ := State.epilogueDispatch_starts hr he
  exact ⟨_, a, (comes_of_eq (i := .epilogueDispatch t) (s := s) rfl).1 hcan, ha⟩
theorem faultDispatch_runs {m : Mail} (hcan : s.canFaultDispatch k = true) (hm : s.choice (tileOf k) = some m)
    (hd : (s.region (s.rgnOf (tileOf k))).shedDef = false) :
    ∃ (u : State) (a : Task), exec (.faultTokenDispatch k) s = .next u ∧ (u.ts k).task = some a ∧ a.h0 = m.h0 ∧ a.h1 = m.h1 ∧
      (u.ts k).regs.bpc = AMap.get 0 (h0Handler m.h0) (s.tile (tileOf k)).conf.handlers := by
  obtain ⟨a, ha⟩ := State.faultDispatch_starts hm hd
  exact ⟨_, a, (comes_of_eq (i := .faultTokenDispatch k) (s := s) rfl).1 hcan, ha⟩

end

/-! ## Repairs that answer the open stop (R373) -/

section
variable {s : State} {k a : Nat} {m : Mail} {f : FaultInfo} (hm : s.repairMail k a = some m)
  (hf : (s.ts k).stops.fault = some (field m.repairWord 0 16, f))
include hm hf

/-- What holds after the action of a repair, on the state whose packet is taken, holds after the repair. -/
theorem State.withRepair_holds {act : Mail → State → State} {Q : State → Prop} (hQ : Q (act m (s.dropMail (tileOf k) m.pos))) :
    Q (s.withRepair k a act) := by rwa [State.withRepair_of_serial hm hf]
omit hm in
/-- The open stop stands as the packet is taken. -/
theorem fault_dropMail (t pos : Nat) : ((s.dropMail t pos).ts k).stops.fault = some (field m.repairWord 0 16, f) := by
  rw [State.ts_dropMail, hf]

theorem repair_resumes : ((s.withRepair k a fun _ s => s.resumeTs k).ts k).stops.fault = none ∧
    ((s.withRepair k a fun _ s => s.resumeTs k).ts k).regs = (s.ts k).regs := by
  refine State.withRepair_holds hm hf ?_ (Q := fun u => (u.ts k).stops.fault = none ∧ (u.ts k).regs = (s.ts k).regs)
  obtain ⟨hfault, hregs, -⟩ := (s.dropMail (tileOf k) m.pos).ts_resumeTs k
  exact ⟨hfault, by rw [hregs, State.ts_dropMail]⟩
theorem repair_resumesWith {i : BitVec 5} (hr : repairReg m.repairWord = .s i) (hi : i ≠ 0) :
    ((s.withRepair k a fun m s => s.resumeWith k m).ts k).stops.fault = none ∧
      AMap.get 0 i.toNat ((s.withRepair k a fun m s => s.resumeWith k m).ts k).regs.s = m.repairValue ∧
      ((s.withRepair k a fun m s => s.resumeWith k m).ts k).regs.bpc = (s.ts k).regs.bpc := by
  refine State.withRepair_holds hm hf ?_ (Q := fun u => (u.ts k).stops.fault = none ∧ AMap.get 0 i.toNat (u.ts k).regs.s = m.repairValue ∧
    (u.ts k).regs.bpc = (s.ts k).regs.bpc)
  rw [← State.ts_dropMail s (tileOf k) m.pos k]
  exact State.resumeWith_scalar hr hi
theorem repair_skips {bs : List Byte} (hc : f.cause.cls = 0) (ht : f.cause ≠ .trap) (hb : f.cause ≠ .blockFetch)
    (hfetch : ((s.dropMail (tileOf k) m.pos).fetchCode (tileOf k) (s.ts k).regs.bpc 8).1 = .bytes bs) :
    ((s.withRepair k a fun _ s => s.skipBlock k).ts k).stops.fault = none ∧ ((s.withRepair k a fun _ s => s.skipBlock k).ts k).kindOk = 0 ∧
      ((s.withRepair k a fun _ s => s.skipBlock k).ts k).regs.bpc =
        nextBlock (s.ts k).regs.bpc (field (word (ofBytes bs)) 53 7) := by
  refine State.withRepair_holds hm hf ?_ (Q := fun u => (u.ts k).stops.fault = none ∧ (u.ts k).kindOk = 0 ∧
    (u.ts k).regs.bpc = nextBlock (s.ts k).regs.bpc (field (word (ofBytes bs)) 53 7))
  rw [← State.ts_dropMail s (tileOf k) m.pos k] at hfetch ⊢
  exact State.skipBlock_next (fault_dropMail hf ..) hc ht hb hfetch
theorem repair_skipsNothing (hc : f.cause.cls ≠ 0 ∨ f.cause = .trap) :
    ((s.withRepair k a fun _ s => s.skipBlock k).ts k).stops.fault = none ∧
      ((s.withRepair k a fun _ s => s.skipBlock k).ts k).regs = (s.ts k).regs := by
  refine State.withRepair_holds hm hf ?_ (Q := fun u => (u.ts k).stops.fault = none ∧ (u.ts k).regs = (s.ts k).regs)
  rw [State.skipBlock_stays (fault_dropMail hf ..) hc]
  obtain ⟨hfault, hregs, -⟩ := (s.dropMail (tileOf k) m.pos).ts_resumeTs k
  exact ⟨hfault, by rw [hregs, State.ts_dropMail]⟩
theorem repair_kills (ht : (s.ts k).task.isSome = true) (he : (s.ts k).ending = false) :
    ((s.withRepair k a fun _ s => s.killTask k).ts k).stops.fault = none ∧
      ((s.withRepair k a fun _ s => s.killTask k).ts k).eng.binds = [] := by
  refine State.withRepair_holds hm hf ?_ (Q := fun u => (u.ts k).stops.fault = none ∧ (u.ts k).eng.binds = [])
  rw [← State.ts_dropMail s (tileOf k) m.pos k] at ht he
  exact State.killTask_clears ht he
theorem repair_halts (hr : s.hasRegion (s.rgnOf (tileOf k)) = true) :
    ((s.withRepair k a fun _ s => s.haltRegion (s.rgnOf (tileOf k)) 3).region (s.rgnOf (tileOf k))).outcome = .failed := by
  refine State.withRepair_holds hm hf ?_ (Q := fun u => (u.region (s.rgnOf (tileOf k))).outcome = .failed)
  have hdrop := (State.Under.refl s).dropMail (Change.Le.refl placeChange) (t := tileOf k) (pos := m.pos)
  rw [hdrop.rgnOf]
  exact State.haltRegion_failed ((hdrop.has _).trans hr) 3
theorem repair_moves {d : Nat} (hd : (s.region (s.rgnOf (tileOf k))).tileAt? m.moveTo = some d)
    (hs : s.spare (s.rgnOf (tileOf k)) d = true) (hne : d ≠ tileOf k) (h0 : (s.region (s.rgnOf (tileOf k))).modeOn = 0) :
    ((s.withRepair k a fun m s => s.repairMigrate k m).ts (4 * d + tsNum k)).stops.fault = none ∧
      ((s.withRepair k a fun m s => s.repairMigrate k m).tile d).conf.actor = (s.tile (tileOf k)).conf.actor ∧
      ((s.withRepair k a fun m s => s.repairMigrate k m).tile (tileOf k)).conf.actor = none := by
  refine State.withRepair_holds hm hf ?_ (Q := fun u => (u.ts (4 * d + tsNum k)).stops.fault = none ∧
    (u.tile d).conf.actor = (s.tile (tileOf k)).conf.actor ∧ (u.tile (tileOf k)).conf.actor = none)
  have hdrop := (State.Under.refl s).dropMail (Change.Le.refl placeChange) (t := tileOf k) (pos := m.pos)
  obtain ⟨hconf, -⟩ := hdrop.tile (tileOf k)
  obtain ⟨es, hregion⟩ := hdrop.region (s.rgnOf (tileOf k))
  rw [← hdrop.rgnOf] at hregion
  obtain ⟨hfault, hmoved⟩ := State.repairMigrate_moves (s := s.dropMail (tileOf k) m.pos) (k := k) (m := m)
    (by rw [hregion, hdrop.rgnOf]; exact hd) (by rw [hdrop.spare, hdrop.rgnOf]; exact hs)
    (by rw [hregion, hdrop.rgnOf]; exact h0) hne.symm
  exact ⟨hfault, by rw [hmoved.actor, hconf], hmoved.left⟩

end

end Sys2Proof.Machine
end

section
/-! SUPPORT. O44: migration, saves and registers as events, and the statement. -/

namespace Sys2Proof.Machine

open Sys2Proof Sys2Proof.Claims

/-! ## Conditions of the events -/

section
variable {s : State} {r : Nat} {w : SaveWork}

/-- A migration by repair waits for no cut and no halt, and a tile whose bytes are shut takes no context. -/
theorem canRepair_migrate {k d : Nat} {m : Mail} (hm : s.repairMail k 4 = some m) (hc : (s.region (s.rgnOf (tileOf k))).cut.phase = 0)
    (ht : s.trellised (tileOf k) = false) (hd : (s.region (s.rgnOf (tileOf k))).tileAt? m.moveTo = some d)
    (h0 : (s.region (s.rgnOf (tileOf k))).modeOn = 0) (hs : s.shut d = false) : s.canRepair k 4 = true := by
  have h3 : s.mode (s.rgnOf (tileOf k)) ≠ 3 := by
    unfold State.mode
    split
    · decide
    · rw [h0]
      decide
  simp [State.canRepair, hm, hc, ht, hd, hs, h3]
theorem hasRegion_of_canSave (h : s.canSave r = true) (hw : (s.region r).saving = some w) : s.hasRegion r = true := by
  simp only [State.canSave, hw, Bool.and_eq_true] at h
  obtain ⟨⟨⟨hregion, -⟩, -⟩, -⟩ := h
  exact hregion
theorem hasRegion_of_canRestore (h : s.canRestore r = true) (hw : (s.region r).saving = some w) : s.hasRegion r = true := by
  simp only [State.canRestore, hw, Bool.and_eq_true] at h
  obtain ⟨⟨hregion, -⟩, -⟩ := h
  exact hregion
theorem saving_of_canExpire (h : s.canExpire r = true) : s.hasRegion r = true ∧ ∃ w, (s.region r).saving = some w := by
  unfold State.canExpire at h
  split at h
  · simp only [Bool.and_eq_true] at h
    obtain ⟨⟨⟨⟨hregion, -⟩, -⟩, -⟩, -⟩ := h
    exact ⟨hregion, _, ‹_›⟩
  · cases h

/-! ## CSR_WRITE (R10, R303) -/

variable {t num : Nat} {v : Word}

theorem comes_csrWrite (s : State) (t num : Nat) (v : Word) : comes "CSR_WRITE" (.csrWrite t num v) s ((csrInfo num).isSome && isTile t)
    (if csrWrites .device num && s.csrValueOk .device t num v then s.csrWrite t num v else s) := comes_of_eq rfl
theorem csrWrite_ignored (hi : (csrInfo num).isSome = true) (ht : isTile t = true)
    (h : csrWrites .device num = false ∨ s.csrValueOk .device t num v = false) : exec (.csrWrite t num v) s = .next s := by
  have hno : ¬(csrWrites .device num && s.csrValueOk .device t num v) = true := by
    rcases h with h | h <;> simp [h]
  have hnext := (comes_csrWrite s t num v).1 (by simp [hi, ht])
  rwa [if_neg hno] at hnext
theorem csrWrite_keeps (ht : isTile t = true) (h : s.hasRegion (s.rgnOf t) = true) :
    ∃ u, exec (.csrWrite t 0x041 v) s = .next u ∧ csrOf (u.region (s.rgnOf t)).csr 0x041 = v &&& 0xFFFF := by
  have hinfo : (csrInfo 0x041).isSome = true := by decide
  have hok : (csrWrites .device 0x041 && s.csrValueOk .device t 0x041 v) = true :=
    (Bool.and_eq_true ..).mpr ⟨by decide, rfl⟩
  refine next_of_comes (comes_csrWrite s t 0x041 v) (by rw [hinfo, ht]; rfl) ?_
  rw [if_pos hok]
  exact State.csrWrite_rbmark h v

end

/-! ## The statement -/

/-- Settles O44: each event by the lemma about its operation; a repair acts on the state whose packet is taken. -/
theorem matrixFaultAndSaveEvents : Obligations.MatrixFaultAndSaveEvents := by
  unfold Obligations.MatrixFaultAndSaveEvents
  refine ⟨fun _ _ => comes_of_eq rfl, fun _ _ => comes_of_eq rfl, fun _ _ => comes_of_eq rfl, fun _ _ => comes_of_eq rfl,
    fun _ _ => comes_of_eq rfl, fun _ _ => comes_of_eq rfl, fun _ _ => comes_of_eq rfl, fun _ _ => comes_of_eq rfl,
    fun _ _ => comes_of_eq rfl, fun _ _ => comes_of_eq rfl, fun _ _ => comes_of_eq rfl, fun _ _ => comes_of_eq rfl,
    fun _ _ _ => comes_of_eq rfl, fun _ _ _ => comes_of_eq rfl, fun _ _ _ => comes_of_eq rfl, fun t n v s => comes_csrWrite s t n v,
    fun _ _ => comes_of_eq rfl, fun _ _ => comes_of_eq rfl, fun _ _ _ => comes_of_eq rfl, fun _ _ => comes_of_eq rfl,
    fun _ _ => comes_of_eq rfl, fun _ _ => comes_of_eq rfl, fun _ _ => comes_of_eq rfl, fun _ _ => comes_of_eq rfl,
    fun _ _ _ => comes_of_eq rfl, fun _ _ => matrixOp_runs, ?_, ?_, ?_, fun _ _ _ _ _ => epilogueDispatch_runs, ?_, ?_, ?_, ?_, ?_, ?_, ?_,
    ?_, ?_, ?_, ?_, ?_, fun _ _ _ _ => csrWrite_ignored, fun _ _ _ => csrWrite_keeps, ?_, ?_, ?_, ?_, ?_, ?_, ?_, ?_, ?_, ?_, ?_⟩
  -- The matrix engine and fault tokens.
  · exact fun k s r _ _ _ _ _ _ _ _ h hb hp =>
      next_of_comes (comes_of_eq rfl) (canWeight_of_head h hb) (State.weightLoad_latch h hb hp)
  · exact fun k a s h => next_of_comes (comes_of_eq rfl) (Option.isSome_of_eq_some h) (State.zeroRecord_clears h)
  · exact fun k s r _ _ _ _ _ _ _ _ _ _ _ h hb =>
      next_of_comes (comes_of_eq rfl) (Option.isSome_of_eq_some h) (State.drainRow_cases h hb)
  · exact fun k s m hfree hm hk hn h3 hd ht => faultDispatch_runs (State.canFaultDispatch_of hfree hm hk hn h3 ht) hm hd
  -- Repairs.
  · exact fun k s m f hm h3 hc ht hf =>
      next_of_comes (comes_of_eq rfl) (State.canRepair_of hm (by decide) h3 hc ht) (repair_resumes hm hf)
  · exact fun k i s m f hm h3 hc ht hf hr hi =>
      next_of_comes (comes_of_eq rfl) (State.canRepair_of hm (by decide) h3 hc ht) (repair_resumesWith hm hf hr hi)
  · exact fun k s m f bs hm h3 hc ht hf hcls htrap hblock hfetch =>
      next_of_comes (comes_of_eq rfl) (State.canRepair_of hm (by decide) h3 hc ht) (repair_skips hm hf hcls htrap hblock hfetch)
  · exact fun k s m f hm h3 hc ht hf hcause =>
      next_of_comes (comes_of_eq rfl) (State.canRepair_of hm (by decide) h3 hc ht) (repair_skipsNothing hm hf hcause)
  · exact fun k s m f hm h3 hc ht hf htask hend =>
      next_of_comes (comes_of_eq rfl) (State.canRepair_of hm (by decide) h3 hc ht) (repair_kills hm hf htask hend)
  · exact fun k d s m f hm hc ht hf hd hs hne h0 hshut =>
      next_of_comes (comes_of_eq rfl) (canRepair_migrate hm hc ht hd h0 hshut) (repair_moves hm hf hd hs hne h0)
  · exact fun k s m f hm h3 hr hc ht hf =>
      next_of_comes (comes_of_eq rfl) (State.canRepair_of hm (by decide) h3 hc ht) (repair_halts hm hf hr)
  -- Freezes, SUBDATA, cuts and migration.
  · exact fun r n s h => next_of_comes (comes_of_eq rfl) h (State.frzConvert_resolves h n)
  · exact fun r n s h => next_of_comes (comes_of_eq rfl) h (State.frzKill_resolves h n)
  · intro r v s h hok
    have hnext := (comes_of_eq (i := .subdataWrite r v) (s := s) rfl).1 h
    rwa [State.subdataWrite_illegal hok] at hnext
  · exact fun r v s h hok hs => next_of_comes (comes_of_eq rfl) h (State.subdataWrite_legal h hok hs)
  · intro t s hs hn hg hp
    obtain ⟨hstopped, hcolour⟩ := s.tile_tileStopped t
    exact next_of_comes (comes_of_eq rfl) (State.canStop_of hs hn hg hp) ⟨hstopped, hcolour, fun _ => s.isCut_tileStopped⟩
  · exact fun r s h h1 hs hc hq hp => next_of_comes (comes_of_eq rfl) (State.canClose_of h h1 hs hc hq hp) (State.cutClose_region h)
  · intro src dst s h
    have hmoved := State.liveMigration_moves h (s.rgnOf src) 4 (s.tile src).coord (s.tile src).coord (s.tile dst).coord 0
    exact next_of_comes (comes_of_eq rfl) h ⟨hmoved.actor, hmoved.left, hmoved.fwds⟩
  · intro t s f hf he hn
    have hfwds : ((s.updTile t fun x => { x with fwds := x.fwds.dropLast }).tile t).fwds = (s.tile t).fwds.dropLast := by
      rw [State.tile_updTile]
    exact next_of_comes (comes_of_eq rfl) (State.canEndFwd_of hf he hn) ⟨hfwds, rfl, rfl⟩
  -- Saves and restores, the watchdog and errors.
  · exact fun r s w h hw => next_of_comes (comes_of_eq rfl) h
      ⟨State.contextSave_goesOn hw (hasRegion_of_canSave h hw), State.contextSave_leaves hw⟩
  · exact fun r s w h hw => next_of_comes (comes_of_eq rfl) h
      ⟨State.contextRestore_goesOn hw (hasRegion_of_canRestore h hw), State.contextRestore_leaves hw⟩
  · exact fun r s h he hrun ht => next_of_comes (comes_of_eq rfl) (State.canWatch_of h he hrun ht) (State.watchdog_fails h)
  · intro r s h
    obtain ⟨hr, w, hw⟩ := saving_of_canExpire h
    exact next_of_comes (comes_of_eq rfl) h (State.saveDeadline_ends hw hr)
  · exact fun n s h => next_of_comes (comes_of_eq rfl) h (s.uncorrectable_line n)
  · intro n s h hf hz
    obtain ⟨q, hq⟩ := State.uncorrectable_frame hf hz
    exact ⟨_, q, (comes_of_eq (i := .uncorrectableError true n) (s := s) rfl).1 h, hq⟩
  · intro k s u m n f hu hm hf hn
    rw [eq_of_comes (comes_of_eq rfl) hu, State.withRepair_stale hm hf hn]

end Sys2Proof.Machine
end

section
/-! SUPPORT. Fields of a slot and the formats of R196 to R200: each format accepts exactly the words that its encoder writes. -/

namespace Sys2Proof

/-! ## Fields (R192, R194, R195) -/

section
variable {w lo len n : Nat} {i : Instr}

theorem bits_lt (w lo len : Nat) : bits w lo len < 2 ^ len := Nat.mod_lt _ (Nat.two_pow_pos len)
theorem bv_eq_iff {b : BitVec len} : bv w lo len = b ↔ bits w lo len = b.toNat := by
  rw [← BitVec.toNat_inj, bv, BitVec.toNat_ofNat, bits]
theorem bit_eq_iff {b : Bool} : bit w n = b ↔ bits w n 1 = b.toNat := by
  have hlt := bits_lt w n 1
  cases b with
  | false => simp only [bit, decide_eq_false_iff_not, Bool.toNat_false]; omega
  | true => simp only [bit, decide_eq_true_eq, Bool.toNat_true]
theorem tgt_eq_iff {t : Target} : tgt w lo = t ↔ bits w lo 10 = t.toNat := bv_eq_iff
/-- A field is its upper part above its lower part. -/
theorem bits_add (w lo a b : Nat) : bits w lo (a + b) = bits w lo a + 2 ^ a * bits w (lo + a) b := by
  rw [bits, Nat.pow_add, Nat.mod_mul, Nat.div_div_eq_div_mul, ← Nat.pow_add, bits, bits]

theorem Pr.code_lt (p : Pr) : p.code < 3 := by cases p <;> decide
theorem withPr_eq_ok {f : Pr → Dec} : withPr w f = .ok i ↔ ∃ p, bits w 22 2 = p.code ∧ f p = .ok i := by
  have hlt := bits_lt w 22 2
  constructor
  · intro h
    unfold withPr at h
    split at h
    · exact ⟨.always, ‹_›, h⟩
    · exact ⟨.onTrue, ‹_›, h⟩
    · exact ⟨.onFalse, ‹_›, h⟩
    · cases h
  · rintro ⟨p, hp, h⟩
    unfold withPr
    rw [hp]
    cases p <;> exact h
theorem guard_eq_ok {c : Prop} [Decidable c] {d : Dec} {e : Reject} : (if c then d else .error e) = .ok i ↔ c ∧ d = .ok i := by
  split <;> simp [*]
theorem guardNot_eq_ok {c : Prop} [Decidable c] {d : Dec} {e : Reject} : (if c then .error e else d) = .ok i ↔ ¬c ∧ d = .ok i := by
  split <;> simp [*]
theorem zero_eq_ok {d : Dec} : zero n d = .ok i ↔ n = 0 ∧ d = .ok i := guard_eq_ok
theorem noTarget_eq_ok {d : Dec} : noTarget w d = .ok i ↔ bits w 0 10 = 1023 ∧ d = .ok i := guard_eq_ok

end

/-! ## The words of the formats, field by field -/

section
variable {w maj mn f8 t imm : Nat} {p : Pr}

theorem encT2_eq_iff (hmaj : maj < 128) {v : Bool} {t u : Target} : encT2 maj p v t u = w ↔
    w < 2 ^ 31 ∧ bits w 24 7 = maj ∧ bits w 22 2 = p.code ∧ bits w 21 1 = v.toNat ∧ bits w 20 1 = 0 ∧ bits w 10 10 = t.toNat ∧
      bits w 0 10 = u.toNat := by
  have hp := p.code_lt
  have hv := v.toNat_lt
  simp only [bits, encT2]
  omega
theorem encTI_eq_iff (hmaj : maj < 128) (ht : t < 1024) (hi : imm < 4096) : encTI maj p t imm = w ↔
    w < 2 ^ 31 ∧ bits w 24 7 = maj ∧ bits w 22 2 = p.code ∧ bits w 12 10 = t ∧ bits w 0 12 = imm := by
  have hp := p.code_lt
  simp only [bits, encTI]
  omega
theorem encTM_eq_iff (hmaj : maj < 128) (hmn : mn < 16) (hf : f8 < 256) (ht : t < 1024) : encTM maj p mn f8 t = w ↔
    w < 2 ^ 31 ∧ bits w 24 7 = maj ∧ bits w 22 2 = p.code ∧ bits w 18 4 = mn ∧ bits w 10 8 = f8 ∧ bits w 0 10 = t := by
  have hp := p.code_lt
  simp only [bits, encTM]
  omega

end

/-! ## Format T2 (R196) -/

theorem t2_eq_ok {w maj : Nat} (hw : w < 2 ^ 31) (hm : bits w 24 7 = maj) {f : Pr → Bool → Target → Target → Instr} {i : Instr} :
    t2 w f = .ok i ↔ ∃ p v t u, encT2 maj p v t u = w ∧ f p v t u = i := by
  have hmaj : maj < 128 := hm ▸ bits_lt w 24 7
  simp only [t2, withPr_eq_ok, zero_eq_ok, Except.ok.injEq]
  constructor
  · rintro ⟨p, hp, hz, rfl⟩
    exact ⟨p, _, _, _, (encT2_eq_iff hmaj).2 ⟨hw, hm, hp, bit_eq_iff.1 rfl, hz, tgt_eq_iff.1 rfl, tgt_eq_iff.1 rfl⟩, rfl⟩
  · rintro ⟨p, v, t, u, h, rfl⟩
    obtain ⟨-, -, hp, hv, hz, ht, hu⟩ := (encT2_eq_iff hmaj).1 h
    exact ⟨p, hp, hz, by rw [bit_eq_iff.2 hv, tgt_eq_iff.2 ht, tgt_eq_iff.2 hu]⟩

/-! ## Formats TI and TM (R197, R198) -/

section
variable {α : Type} {d : Nat → Dec} {t imm f8 : α → Nat} {make : Pr → α → Instr} {w maj mn : Nat} {i : Instr}

/-- A decoder of format TI: of operands `a` the target field is `t a` and the immediate `imm a`. -/
structure ReadsTI (d : Nat → Dec) (t imm : α → Nat) (make : Pr → α → Instr) : Prop where
  reads : ∀ w i, d w = .ok i ↔ ∃ p, bits w 22 2 = p.code ∧ ∃ a, bits w 12 10 = t a ∧ bits w 0 12 = imm a ∧ make p a = i
  t_lt : ∀ a, t a < 1024
  imm_lt : ∀ a, imm a < 4096
/-- A decoder of format TM: of operands `a` FIELD8 is `f8 a` and the target field `t a`. -/
structure ReadsTM (d : Nat → Dec) (f8 t : α → Nat) (make : Pr → α → Instr) : Prop where
  reads : ∀ w i, d w = .ok i ↔ ∃ p, bits w 22 2 = p.code ∧ ∃ a, bits w 10 8 = f8 a ∧ bits w 0 10 = t a ∧ make p a = i
  f8_lt : ∀ a, f8 a < 256
  t_lt : ∀ a, t a < 1024

theorem ReadsTI.eq_ok (h : ReadsTI d t imm make) (hw : w < 2 ^ 31) (hm : bits w 24 7 = maj) :
    d w = .ok i ↔ ∃ p a, encTI maj p (t a) (imm a) = w ∧ make p a = i := by
  have hmaj : maj < 128 := hm ▸ bits_lt w 24 7
  simp only [h.reads, encTI_eq_iff hmaj (h.t_lt _) (h.imm_lt _), hw, hm, true_and, and_assoc, exists_and_left]
theorem ReadsTM.eq_ok (h : ReadsTM d f8 t make) (hw : w < 2 ^ 31) (hm : bits w 24 7 = maj) (hn : bits w 18 4 = mn) :
    d w = .ok i ↔ ∃ p a, encTM maj p mn (f8 a) (t a) = w ∧ make p a = i := by
  have hmaj : maj < 128 := hm ▸ bits_lt w 24 7
  have hmn : mn < 16 := hn ▸ bits_lt w 18 4
  simp only [h.reads, encTM_eq_iff hmaj hmn (h.f8_lt _) (h.t_lt _), hw, hm, hn, true_and, and_assoc, exists_and_left]

end

theorem readsTI_ti {f : Pr → BitVec 12 → Target → Instr} :
    ReadsTI (ti · f) (fun a => a.2.toNat) (fun a : BitVec 12 × Target => a.1.toNat) (fun p a => f p a.1 a.2) where
  reads w i := by simp [ti, tgt, withPr_eq_ok, ← bv_eq_iff]
  t_lt a := a.2.isLt
  imm_lt a := a.1.isLt
theorem readsTI_tiPW {f : Pr → BitVec 6 → BitVec 6 → Target → Instr} :
    ReadsTI (tiPW · f) (fun a => a.2.2.toNat) (fun a : BitVec 6 × BitVec 6 × Target => a.1.toNat * 2 ^ 6 + a.2.1.toNat)
      (fun p a => f p a.1 a.2.1 a.2.2) where
  reads w i := by
    have himm (x y : BitVec 6) : bits w 0 12 = x.toNat * 64 + y.toNat ↔ bv w 6 6 = x ∧ bv w 0 6 = y := by
      simp only [bv_eq_iff, bits]; omega
    simp [tiPW, withPr_eq_ok, and_comm, himm, ← tgt_eq_iff]
  t_lt a := a.2.2.isLt
  imm_lt a := by omega
theorem readsTI_tiK {f : Pr → BitVec 3 → Target → Instr} :
    ReadsTI (tiK · f) (fun a => a.2.toNat) (fun a : BitVec 3 × Target => a.1.toNat) (fun p a => f p a.1 a.2) where
  reads w i := by
    have himm (x : BitVec 3) : bits w 0 12 = x.toNat ↔ bits w 3 9 = 0 ∧ bv w 0 3 = x := by
      simp only [bv_eq_iff, bits]; omega
    simp [tiK, withPr_eq_ok, zero_eq_ok, himm, ← tgt_eq_iff]
  t_lt a := a.2.isLt
  imm_lt a := by omega
theorem readsTI_tiX {f : Pr → BitVec 12 → Instr} : ReadsTI (tiX · f) (fun _ => 1023) (fun a : BitVec 12 => a.toNat) f where
  reads w i := by simp [tiX, withPr_eq_ok, guard_eq_ok, ← bv_eq_iff]
  t_lt _ := by decide
  imm_lt a := a.isLt

theorem readsTM_tmZ {f : Pr → Target → Instr} : ReadsTM (tmZ · f) (fun _ => 0) (fun a : Target => a.toNat) f where
  reads w i := by simp [tmZ, withPr_eq_ok, zero_eq_ok, ← tgt_eq_iff]
  f8_lt _ := by decide
  t_lt a := a.isLt
theorem readsTM_tmX {f : Pr → Instr} : ReadsTM (tmX · f) (fun _ => 0) (fun _ : Unit => 1023) (fun p _ => f p) where
  reads w i := by simp [tmX, withPr_eq_ok, zero_eq_ok, noTarget_eq_ok]
  f8_lt _ := by decide
  t_lt _ := by decide
theorem readsTM_tmN {n : Nat} (hn : n ≤ 8) {f : Pr → BitVec n → Target → Instr} :
    ReadsTM (tmN n · f) (fun a => a.1.toNat) (fun a : BitVec n × Target => a.2.toNat) (fun p a => f p a.1 a.2) where
  reads w i := by
    have hf (x : BitVec n) : bits w 10 8 = x.toNat ↔ bits w (10 + n) (8 - n) = 0 ∧ bv w 10 n = x := by
      have h := bits_add w 10 n (8 - n)
      rw [Nat.add_sub_cancel' hn] at h
      rw [h, bv_eq_iff]
      constructor
      · intro hx
        have hz : bits w (10 + n) (8 - n) = 0 := by
          by_contra hz
          have hle := Nat.le_mul_of_pos_right (2 ^ n) (Nat.pos_of_ne_zero hz)
          have hlt := x.isLt
          omega
        simpa [hz] using hx
      · rintro ⟨hz, hx⟩
        simp [hz, hx]
    simp [tmN, withPr_eq_ok, zero_eq_ok, hf, ← tgt_eq_iff]
  f8_lt a := a.1.isLt.trans_le (Nat.pow_le_pow_right (by decide) hn)
  t_lt a := a.2.isLt
theorem readsTM_tmB {f : Pr → Bool → Target → Instr} :
    ReadsTM (tmB · f) (fun a => a.1.toNat) (fun a : Bool × Target => a.2.toNat) (fun p a => f p a.1 a.2) where
  reads w i := by
    have hf (x : Bool) : bits w 10 8 = x.toNat ↔ bits w 11 7 = 0 ∧ bit w 10 = x := by
      have := x.toNat_lt
      simp only [bit_eq_iff, bits]; omega
    simp [-Bool.exists_bool, tmB, withPr_eq_ok, zero_eq_ok, hf, ← tgt_eq_iff]
  f8_lt a := by have := a.1.toNat_lt; omega
  t_lt a := a.2.isLt
theorem readsTM_tmF {f0 f1 : Pr → Target → Instr} :
    ReadsTM (tmF · f0 f1) (fun a => a.1.toNat) (fun a : Bool × Target => a.2.toNat) (fun p a => (if a.1 then f1 else f0) p a.2) := 
  readsTM_tmB (f := fun p b t => (if b then f1 else f0) p t)
theorem readsTM_tmL {f : Pr → BitVec 5 → Target → Instr} :
    ReadsTM (tmL · f) (fun a => a.1.toNat * 8) (fun a : BitVec 5 × Target => a.2.toNat) (fun p a => f p a.1 a.2) where
  reads w i := by
    have hf (x : BitVec 5) : bits w 10 8 = x.toNat * 8 ↔ bits w 10 3 = 0 ∧ bv w 13 5 = x := by
      simp only [bv_eq_iff, bits]; omega
    simp [tmL, withPr_eq_ok, zero_eq_ok, hf, ← tgt_eq_iff]
  f8_lt a := by omega
  t_lt a := a.2.isLt
theorem readsTM_tmAmo {f : Pr → BitVec 5 → Bool → BitVec 2 → Target → Instr} :
    ReadsTM (tmAmo · f) (fun a => a.1.toNat * 8 + a.2.1.toNat * 4 + a.2.2.1.1.toNat)
      (fun a : BitVec 5 × Bool × {o : BitVec 2 // o ≠ 3} × Target => a.2.2.2.toNat) (fun p a => f p a.1 a.2.1 a.2.2.1 a.2.2.2) where
  reads w i := by
    have hf (x : BitVec 5) (y : Bool) (z : BitVec 2) :
        bits w 10 8 = x.toNat * 8 + y.toNat * 4 + z.toNat ↔ bv w 13 5 = x ∧ bit w 12 = y ∧ bv w 10 2 = z := by
      have := y.toNat_lt
      simp only [bv_eq_iff, bit_eq_iff, bits]; omega
    have ho : bits w 10 2 = 3 ↔ bv w 10 2 = 3 := (bv_eq_iff (b := 3)).symm
    simp [-Bool.exists_bool, tmAmo, withPr_eq_ok, guardNot_eq_ok, ho, hf, ← tgt_eq_iff]
  f8_lt a := by have := a.2.1.toNat_lt; omega
  t_lt a := a.2.2.2.isLt
theorem readsTM_tmCvt {f : Pr → Bool → BitVec 2 → Target → Instr} :
    ReadsTM (tmCvt · f) (fun a => a.1.toNat * 4 + a.2.1.toNat) (fun a : Bool × BitVec 2 × Target => a.2.2.toNat)
      (fun p a => f p a.1 a.2.1 a.2.2) where
  reads w i := by
    have hf (x : Bool) (y : BitVec 2) : bits w 10 8 = x.toNat * 4 + y.toNat ↔ bits w 13 5 = 0 ∧ bit w 12 = x ∧ bv w 10 2 = y := by
      have := x.toNat_lt
      simp only [bv_eq_iff, bit_eq_iff, bits]; omega
    simp [-Bool.exists_bool, tmCvt, withPr_eq_ok, zero_eq_ok, hf, ← tgt_eq_iff]
  f8_lt a := by have := a.1.toNat_lt; omega
  t_lt a := a.2.2.isLt
theorem readsTM_tmAcc {f : Pr → Bool → BitVec 4 → Target → Instr} :
    ReadsTM (tmAcc · f) (fun a => a.1.toNat * 16 + a.2.1.toNat) (fun a : Bool × BitVec 4 × Target => a.2.2.toNat)
      (fun p a => f p a.1 a.2.1 a.2.2) where
  reads w i := by
    have hf (x : Bool) (y : BitVec 4) : bits w 10 8 = x.toNat * 16 + y.toNat ↔ bits w 15 3 = 0 ∧ bit w 14 = x ∧ bv w 10 4 = y := by
      have := x.toNat_lt
      simp only [bv_eq_iff, bit_eq_iff, bits]; omega
    simp [-Bool.exists_bool, tmAcc, withPr_eq_ok, zero_eq_ok, hf, ← tgt_eq_iff]
  f8_lt a := by have := a.1.toNat_lt; omega
  t_lt a := a.2.2.isLt

end Sys2Proof
end

section
/-! SUPPORT. The formats that one or two instructions have to themselves (R199, R200, R225, R226, R228, R235), and compact halves. -/

namespace Sys2Proof

variable {w maj : Nat} {i : Instr}

/-! ## Formats TR and TB (R199, R200) -/

theorem trReg_eq_some {r : Reg} : trReg w = some r ↔ match r with
    | .s n => bits w 22 2 = 0 ∧ bits w 17 5 = n.toNat
    | .v n => bits w 22 2 = 1 ∧ bits w 17 5 = n.toNat
    | .ox n => bits w 22 2 = 2 ∧ bits w 17 5 = n.toNat := by
  have hox (n : BitVec 2) : bits w 17 5 < 4 ∧ bv w 17 2 = n ↔ bits w 17 5 = n.toNat := by
    simp only [bv_eq_iff, bits]
    omega
  unfold trReg
  generalize bits w 22 2 = c
  rcases c with _ | _ | _ | c <;> cases r <;> simp [bv_eq_iff] at hox ⊢
  exact hox _
theorem encTR_eq_iff (hmaj : maj < 128) {r : Reg} {t : Nat} (ht : t < 1024) : encTR maj r t = w ↔
    w < 2 ^ 31 ∧ bits w 24 7 = maj ∧ trReg w = some r ∧ bits w 10 7 = 0 ∧ bits w 0 10 = t := by
  rw [trReg_eq_some]
  cases r <;> simp only [encTR, bits] <;> omega
theorem tr_eq_ok {f : Reg → Dec} : tr w f = .ok i ↔ ∃ r, trReg w = some r ∧ bits w 10 7 = 0 ∧ f r = .ok i := by
  unfold tr
  cases trReg w <;> simp [zero_eq_ok]
theorem read_eq_ok (hw : w < 2 ^ 31) (hm : bits w 24 7 = 0x01) :
    (tr w fun r => .ok (.read r (tgt w 0))) = .ok i ↔ ∃ r t, encTR 0x01 r t.toNat = w ∧ .read r t = i := by
  have henc (r : Reg) (t : Target) : encTR 0x01 r t.toNat = w ↔ trReg w = some r ∧ bits w 10 7 = 0 ∧ tgt w 0 = t := by
    rw [encTR_eq_iff (by decide) t.isLt, tgt_eq_iff]
    tauto
  simp [tr_eq_ok, henc, and_assoc]
theorem write_eq_ok (hw : w < 2 ^ 31) (hm : bits w 24 7 = 0x02) :
    (tr w fun r => if bits w 0 10 = 0 then .ok (.write r) else .error .target) = .ok i ↔ ∃ r, encTR 0x02 r 0 = w ∧ .write r = i := by
  simp only [tr_eq_ok, guard_eq_ok, Except.ok.injEq, encTR_eq_iff (show 0x02 < 128 by decide) (show 0 < 1024 by decide)]
  exact exists_congr fun r => by tauto
theorem encTB_lt (p : Pr) (o : BitVec 20) {k : Nat} (hk : k < 4) : 0x30 * 2 ^ 24 + p.code * 2 ^ 22 + k * 2 ^ 20 + o.toNat < 2 ^ 31 := by
  have hp := p.code_lt
  omega
theorem bits_encTB (p : Pr) (o : BitVec 20) {k : Nat} (hk : k < 4) :
    bits (0x30 * 2 ^ 24 + p.code * 2 ^ 22 + k * 2 ^ 20 + o.toNat) 24 7 = 0x30 := by
  have hp := p.code_lt
  rw [bits]
  omega
theorem tb_eq_ok (hw : w < 2 ^ 31) (hm : bits w 24 7 = 0x30) :
    tb w = .ok i ↔ (∃ p o, 0x30 * 2 ^ 24 + p.code * 2 ^ 22 + 0 * 2 ^ 20 + o.toNat = w ∧ .br p o = i) ∨
      ∃ p o, 0x30 * 2 ^ 24 + p.code * 2 ^ 22 + 1 * 2 ^ 20 + o.toNat = w ∧ .call p o = i := by
  have henc (p : Pr) (o : BitVec 20) (k : Nat) (hk : k < 4) : 0x30 * 2 ^ 24 + p.code * 2 ^ 22 + k * 2 ^ 20 + o.toNat = w ↔
      bits w 22 2 = p.code ∧ bits w 20 2 = k ∧ bv w 0 20 = o := by
    have hp := p.code_lt
    simp only [bits, bv_eq_iff] at *
    omega
  simp only [tb, withPr_eq_ok, henc _ _ 0 (by decide), henc _ _ 1 (by decide), ← exists_or]
  refine exists_congr fun p => ?_
  generalize bits w 20 2 = k
  rcases k with _ | _ | k <;> simp [and_assoc]

/-! ## SETX, GETX, STATW and LEA (R225, R226, R228, R235) -/

theorem decSetx_eq_ok (hw : w < 2 ^ 31) (hm : bits w 24 7 = 0x09) : decSetx w = .ok i ↔
    ∃ p n pos t, encTM 0x09 p n.toNat pos.toNat t.toNat = w ∧ n.toNat < 4 ∧ .setx p n pos t = i := by
  have henc (p : Pr) (n : BitVec 4) (pos : BitVec 6) (t : Target) : encTM 0x09 p n.toNat pos.toNat t.toNat = w ↔
      bits w 22 2 = p.code ∧ bits w 16 2 = 0 ∧ bv w 18 4 = n ∧ bv w 10 6 = pos ∧ tgt w 0 = t := by
    rw [encTM_eq_iff (by decide) n.isLt (by omega) t.isLt]
    simp only [bits, tgt, bv_eq_iff] at *
    omega
  have hn : (bv w 18 4).toNat = bits w 18 4 := (bv_eq_iff.1 rfl).symm
  simp [decSetx, withPr_eq_ok, zero_eq_ok, guard_eq_ok, henc, hn, and_assoc]
theorem decGetx_eq_ok (hw : w < 2 ^ 31) (hm : bits w 24 7 = 0x0A) : decGetx w = .ok i ↔
    (∃ p n pos t, encTM 0x0A p n.toNat pos.toNat t.toNat = w ∧ n.toNat < 4 ∧ .getx p n pos t = i) ∨
      ∃ p t, encTM 0x0A p 0 128 t.toNat = w ∧ .getxBlr p t = i := by
  have henc (p : Pr) (n : BitVec 4) (pos : BitVec 6) (t : Target) : encTM 0x0A p n.toNat pos.toNat t.toNat = w ↔
      bits w 22 2 = p.code ∧ bits w 16 1 = 0 ∧ bit w 17 = false ∧ bv w 18 4 = n ∧ bv w 10 6 = pos ∧ tgt w 0 = t := by
    rw [encTM_eq_iff (by decide) n.isLt (by omega) t.isLt]
    simp only [bits, tgt, bv_eq_iff, bit_eq_iff, Bool.toNat_false] at *
    omega
  have hblr (p : Pr) (t : Target) : encTM 0x0A p 0 128 t.toNat = w ↔
      bits w 22 2 = p.code ∧ bits w 16 1 = 0 ∧ bit w 17 = true ∧ bits w 18 4 = 0 ∧ bits w 10 6 = 0 ∧ tgt w 0 = t := by
    rw [encTM_eq_iff (by decide) (by decide) (by decide) t.isLt]
    simp only [bits, tgt, bv_eq_iff, bit_eq_iff, Bool.toNat_true] at *
    omega
  have hn : (bv w 18 4).toNat = bits w 18 4 := (bv_eq_iff.1 rfl).symm
  simp only [decGetx, withPr_eq_ok, zero_eq_ok, henc, hblr]
  cases bit w 17 <;> simp [guard_eq_ok, hn, and_assoc]
theorem readsTM_decStatw : ReadsTM decStatw
    (fun a => a.1.toNat * 128 + a.2.1.toNat * 64 + a.2.2.1.toNat * 32 + a.2.2.2.1.toNat * 8 + a.2.2.2.2.toNat * 4)
    (fun _ : Bool × Bool × Bool × BitVec 2 × Bool => 1023) (fun p a => .statw p a.1 a.2.1 a.2.2.1 a.2.2.2.1 a.2.2.2.2) where
  reads w i := by
    have hf (x y z u : Bool) (v : BitVec 2) :
        bits w 10 8 = x.toNat * 128 + y.toNat * 64 + z.toNat * 32 + v.toNat * 8 + u.toNat * 4 ↔
          bits w 10 2 = 0 ∧ bit w 17 = x ∧ bit w 16 = y ∧ bit w 15 = z ∧ bv w 13 2 = v ∧ bit w 12 = u := by
      have hx := x.toNat_lt
      have hy := y.toNat_lt
      have hz := z.toNat_lt
      have hu := u.toNat_lt
      simp only [bv_eq_iff, bit_eq_iff, bits]
      omega
    simp [-Bool.exists_bool, decStatw, withPr_eq_ok, zero_eq_ok, noTarget_eq_ok, hf]
  f8_lt a := by
    have hx := a.1.toNat_lt
    have hy := a.2.1.toNat_lt
    have hz := a.2.2.1.toNat_lt
    have hu := a.2.2.2.2.toNat_lt
    omega
  t_lt _ := by decide
theorem readsTM_decLea : ReadsTM decLea (fun a => a.1.1.toNat) (fun a : {sc : BitVec 3 // sc ≠ 7} × Target => a.2.toNat)
    (fun p a => .lea p a.1 a.2) where
  reads w i := by
    have hf (x : BitVec 3) : bits w 10 8 = x.toNat ↔ bits w 13 5 = 0 ∧ bv w 10 3 = x := by
      simp only [bv_eq_iff, bits]
      omega
    have ho : bits w 10 3 = 7 ↔ bv w 10 3 = 7 := (bv_eq_iff (b := 7)).symm
    simp [decLea, withPr_eq_ok, zero_eq_ok, guardNot_eq_ok, ho, hf, ← tgt_eq_iff]
  f8_lt a := by omega
  t_lt a := a.2.isLt

end Sys2Proof
end

section
/-! SUPPORT. O54 and O55: the decoder answers an instruction exactly for the word that encodes it. -/

namespace Sys2Proof

variable {w maj mn : Nat} {i : Instr} {d : Nat → Dec}

/-! ## From an accepted word back to it (R204) -/

/-- A slot's word is the encoding of an instruction, which is well formed. -/
def Codes (i : Instr) (w : Nat) : Prop := encode i = some (32, w) ∧ i.wellFormed = true
/-- What a decoder answers for a slot's word is encoded by it. -/
def Faithful (w : Nat) (r : Dec) : Prop := ∀ i, r = .ok i → Codes i w

theorem faithful_error {e : Reject} : Faithful w (.error e) := nofun
theorem faithful_guard {c : Prop} [Decidable c] {r : Dec} {e : Reject} (h : c → Faithful w r) : Faithful w (if c then r else .error e) :=
  fun i hi => by
    obtain ⟨hc, hi⟩ := guard_eq_ok.1 hi
    exact h hc i hi
theorem faithful_t2 {f : Pr → Bool → Target → Target → Instr} (hw : w < 2 ^ 31) (hm : bits w 24 7 = maj)
    (h : ∀ p v t u, Codes (f p v t u) (encT2 maj p v t u)) : Faithful w (t2 w f) := fun i hi => by
  obtain ⟨p, v, t, u, rfl, rfl⟩ := (t2_eq_ok hw hm).1 hi
  exact h p v t u

section
variable {α : Type} {t imm f8 : α → Nat} {make : Pr → α → Instr}

theorem ReadsTI.faithful (hr : ReadsTI d t imm make) (hw : w < 2 ^ 31) (hm : bits w 24 7 = maj)
    (h : ∀ p a, Codes (make p a) (encTI maj p (t a) (imm a))) : Faithful w (d w) := fun i hi => by
  obtain ⟨p, a, rfl, rfl⟩ := (hr.eq_ok hw hm).1 hi
  exact h p a
theorem ReadsTM.faithful (hr : ReadsTM d f8 t make) (hw : w < 2 ^ 31) (hm : bits w 24 7 = maj) (hn : bits w 18 4 = mn)
    (h : ∀ p a, Codes (make p a) (encTM maj p mn (f8 a) (t a))) : Faithful w (d w) := fun i hi => by
  obtain ⟨p, a, rfl, rfl⟩ := (hr.eq_ok hw hm hn).1 hi
  exact h p a

end

theorem faithful_tmAmo {f : Pr → BitVec 5 → Bool → BitVec 2 → Target → Instr} (hw : w < 2 ^ 31) (hm : bits w 24 7 = maj)
    (hn : bits w 18 4 = mn) (h : ∀ p l x o t, encode (f p l x o t) =
      some (32, encTM maj p mn (l.toNat * 8 + x.toNat * 4 + o.toNat) t.toNat) ∧ (f p l x o t).wellFormed = decide (o ≠ 3)) :
    Faithful w (tmAmo w f) :=
  readsTM_tmAmo.faithful hw hm hn fun p a => by
    obtain ⟨he, hwf⟩ := h p a.1 a.2.1 a.2.2.1 a.2.2.2
    exact ⟨he, hwf.trans (decide_eq_true a.2.2.1.2)⟩
theorem faithful_tmF {f g : Pr → Target → Instr} (hw : w < 2 ^ 31) (hm : bits w 24 7 = maj) (hn : bits w 18 4 = mn)
    (hf : ∀ p t, Codes (f p t) (encTM maj p mn 0 t.toNat)) (hg : ∀ p t, Codes (g p t) (encTM maj p mn 1 t.toNat)) :
    Faithful w (tmF w f g) :=
  readsTM_tmF.faithful hw hm hn fun p ⟨b, t⟩ => by
    cases b with
    | false => exact hf p t
    | true => exact hg p t
theorem faithful_decLea (hw : w < 2 ^ 31) (hm : bits w 24 7 = 0x26) (hn : bits w 18 4 = 0) : Faithful w (decLea w) :=
  readsTM_decLea.faithful hw hm hn fun _ a => ⟨rfl, decide_eq_true a.1.2⟩
theorem faithful_read (hw : w < 2 ^ 31) (hm : bits w 24 7 = 0x01) : Faithful w (tr w fun r => .ok (.read r (tgt w 0))) := fun i hi => by
  obtain ⟨r, t, rfl, rfl⟩ := (read_eq_ok hw hm).1 hi
  exact ⟨rfl, rfl⟩
theorem faithful_write (hw : w < 2 ^ 31) (hm : bits w 24 7 = 0x02) :
    Faithful w (tr w fun r => if bits w 0 10 = 0 then .ok (.write r) else .error .target) := fun i hi => by
  obtain ⟨r, rfl, rfl⟩ := (write_eq_ok hw hm).1 hi
  exact ⟨rfl, rfl⟩
theorem faithful_tb (hw : w < 2 ^ 31) (hm : bits w 24 7 = 0x30) : Faithful w (tb w) := fun i hi => by
  obtain ⟨p, o, rfl, rfl⟩ | ⟨p, o, rfl, rfl⟩ := (tb_eq_ok hw hm).1 hi
  · exact ⟨rfl, rfl⟩
  · exact ⟨rfl, rfl⟩
theorem faithful_decSetx (hw : w < 2 ^ 31) (hm : bits w 24 7 = 0x09) : Faithful w (decSetx w) := fun i hi => by
  obtain ⟨p, n, pos, t, rfl, hn, rfl⟩ := (decSetx_eq_ok hw hm).1 hi
  exact ⟨rfl, decide_eq_true hn⟩
theorem faithful_decGetx (hw : w < 2 ^ 31) (hm : bits w 24 7 = 0x0A) : Faithful w (decGetx w) := fun i hi => by
  obtain ⟨p, n, pos, t, rfl, hn, rfl⟩ | ⟨p, t, rfl, rfl⟩ := (decGetx_eq_ok hw hm).1 hi
  · exact ⟨rfl, decide_eq_true hn⟩
  · exact ⟨rfl, rfl⟩

/-- The map of R204, row by row: what a row's decoder accepts is the encoding of the row's instruction. -/
theorem faithful_decode32 (hw : w < 2 ^ 31) : Faithful w (decode32 w) := by
  unfold decode32
  split
  · exact faithful_error
  split
  any_goals with_reducible exact faithful_error
  -- The minors of the majors that have one, and of those that have several.
  any_goals with_reducible refine faithful_guard fun hn => ?_
  any_goals
    simp only [decStat, decMul, decDiv, decShift, decShifti, decBits, decMinmax, decCmp, decExt, decCrd, decBri, decExit, decFminmax, decFun,
      decFcmp, decFcvt, decFrnd, decVred, decVscan, decVmask, decLd, decSt, decLdr, decStr, decAmo, decFence, decBind, decLwait, decTcwait,
      decSctl, decCopy, decMctl, decMbx, decSteal, decSys, decDbg]
    split
  any_goals with_reducible exact faithful_error
  -- The formats, and the decoders of single instructions.
  any_goals with_reducible refine readsTM_tmZ.faithful hw ‹_› ‹_› fun _ _ => ?_
  any_goals with_reducible refine readsTM_tmL.faithful hw ‹_› ‹_› fun _ _ => ?_
  any_goals with_reducible refine faithful_t2 hw ‹_› fun _ _ _ _ => ?_
  any_goals with_reducible refine readsTI_ti.faithful hw ‹_› fun _ _ => ?_
  any_goals with_reducible refine readsTI_tiPW.faithful hw ‹_› fun _ _ => ?_
  any_goals with_reducible refine readsTI_tiK.faithful hw ‹_› fun _ _ => ?_
  any_goals with_reducible refine readsTI_tiX.faithful hw ‹_› fun _ _ => ?_
  any_goals with_reducible refine readsTM_tmX.faithful hw ‹_› ‹_› fun _ _ => ?_
  any_goals with_reducible refine (readsTM_tmN (by decide)).faithful hw ‹_› ‹_› fun _ _ => ?_
  any_goals with_reducible refine readsTM_tmB.faithful hw ‹_› ‹_› fun _ _ => ?_
  any_goals with_reducible refine readsTM_tmCvt.faithful hw ‹_› ‹_› fun _ _ => ?_
  any_goals with_reducible refine readsTM_tmAcc.faithful hw ‹_› ‹_› fun _ _ => ?_
  any_goals with_reducible refine readsTM_decStatw.faithful hw ‹_› ‹_› fun _ _ => ?_
  any_goals with_reducible refine faithful_tmF hw ‹_› ‹_› (fun _ _ => ?_) fun _ _ => ?_
  any_goals with_reducible refine faithful_tmAmo hw ‹_› ‹_› fun _ _ _ _ _ => ?_
  any_goals with_reducible exact faithful_read hw ‹_›
  any_goals with_reducible exact faithful_write hw ‹_›
  any_goals with_reducible exact faithful_decSetx hw ‹_›
  any_goals with_reducible exact faithful_decGetx hw ‹_›
  any_goals with_reducible exact faithful_decLea hw ‹_› ‹_›
  any_goals with_reducible exact faithful_tb hw ‹_›
  all_goals exact ⟨rfl, rfl⟩

end Sys2Proof
end

section
/-! SUPPORT. Compact halves (R193, R201), the decoder of table words, and O54 and O55. -/

namespace Sys2Proof

variable {w : Nat} {i : Instr}

/-! ## Compact halves -/

theorem enc16_eq_iff {cop : Nat} (hc : cop < 16) {t : Target} : enc16 cop t = w ↔
    w < 2 ^ 16 ∧ bit w 15 = true ∧ bits w 10 1 = 0 ∧ bits w 11 4 = cop ∧ tgt w 0 = t := by
  simp only [tgt_eq_iff, bit_eq_iff, Bool.toNat_true, bits, enc16]
  omega
theorem encode_of_decode16 (hw : w < 2 ^ 16) (h : decode16 w = .ok i) : encode i = some (16, w) ∧ i.wellFormed = true := by
  have henc (h15 : bit w 15 = true) (h10 : bits w 10 1 = 0) {cop : Nat} (hc : bits w 11 4 = cop) {t : Target} (ht : tgt w 0 = t) :
      some (16, enc16 cop t) = some (16, w) := by rw [(enc16_eq_iff (hc ▸ bits_lt w 11 4)).2 ⟨hw, h15, h10, hc, ht⟩]
  simp only [decode16, guard_eq_ok, zero_eq_ok] at h
  obtain ⟨h15, h10, h⟩ := h
  split at h
  case h_1 hc =>
    obtain ⟨ht, h⟩ := guard_eq_ok.1 h
    cases h
    exact ⟨henc h15 h10 hc (tgt_eq_iff.2 ht : tgt w 0 = 1023), rfl⟩
  case h_16 => cases h
  all_goals
    rename_i hc
    cases h
    exact ⟨henc h15 h10 hc rfl, rfl⟩

/-! ## Table words (R192) -/

theorem decodeTableWord_slot (hw : w < 2 ^ 32) : decodeTableWord 32 w = some i ↔ w < 2 ^ 31 ∧ decode32 w = .ok i := by
  simp only [decodeTableWord, decodeSlot, BitVec.toNat_ofNat, Nat.mod_eq_of_lt hw, if_true]
  by_cases h : w < 2 ^ 31
  · simp only [h, if_true, true_and]
    cases decode32 w <;> simp
  · simp only [h, if_false, false_and]
    cases decode16 (w % 65536) <;> cases decode16 (w / 65536) <;> simp
theorem decodeTableWord_half (hw : w < 2 ^ 16) : decodeTableWord 16 w = some i ↔ decode16 w = .ok i := by
  simp only [decodeTableWord, Nat.mod_eq_of_lt (show w < 65536 from hw)]
  cases decode16 w <;> simp

/-- Settles O55: the map row by row (`faithful_decode32`), and the compact operations. -/
theorem decodeThenEncode : Obligations.DecodeThenEncode := by
  refine ⟨fun w i hw h => ?_, fun w i hw h => encode_of_decode16 hw ((decodeTableWord_half hw).1 h)⟩
  obtain ⟨hlt, h⟩ := (decodeTableWord_slot hw).1 h
  exact faithful_decode32 hlt i h

end Sys2Proof
end

section
/-! SUPPORT. O54: where the map of R204 leads to, and the words that the encoder writes. -/

namespace Sys2Proof

variable {w maj mn : Nat} {i : Instr} {d : Nat → Dec}

/-! ## Rows of the map -/

/-- The map of R204 leads from a major to the decoder `d`. -/
def AtMajor (maj : Nat) (d : Nat → Dec) : Prop := ∀ w, bit w 31 = false → bits w 24 7 = maj → decode32 w = d w
/-- The tables of R204 lead from a major and a minor to the decoder `d`. -/
def AtMinor (maj mn : Nat) (d : Nat → Dec) : Prop :=
  ∀ w, bit w 31 = false → bits w 24 7 = maj → bits w 18 4 = mn → decode32 w = d w

theorem bit31_of_lt (hw : w < 2 ^ 31) : bit w 31 = false := by
  simp only [bit_eq_iff, bits, Bool.toNat_false]
  omega

theorem atMajor_read : AtMajor 0x01 fun w => tr w fun r => .ok (.read r (tgt w 0)) := fun w hb hm => by
  rw [decode32, hb, hm]
  rfl
theorem atMajor_write : AtMajor 0x02 fun w => tr w fun r => if bits w 0 10 = 0 then .ok (.write r) else .error .target :=
  fun w hb hm => by
    rw [decode32, hb, hm]
    rfl
theorem atMajor_setx : AtMajor 0x09 decSetx := fun w hb hm => by
  rw [decode32, hb, hm]
  rfl
theorem atMajor_getx : AtMajor 0x0A decGetx := fun w hb hm => by
  rw [decode32, hb, hm]
  rfl
theorem atMajor_tb : AtMajor 0x30 tb := fun w hb hm => by
  rw [decode32, hb, hm]
  rfl

theorem AtMajor.decodes (h : AtMajor maj d) (hw : w < 2 ^ 31) (hm : bits w 24 7 = maj) (hd : d w = .ok i) :
    decodeTableWord 32 w = some i :=
  (decodeTableWord_slot (by omega)).2 ⟨hw, (h w (bit31_of_lt hw) hm).trans hd⟩
theorem AtMinor.decodes (h : AtMinor maj mn d) (hw : w < 2 ^ 31) (hm : bits w 24 7 = maj) (hn : bits w 18 4 = mn) (hd : d w = .ok i) :
    decodeTableWord 32 w = some i :=
  (decodeTableWord_slot (by omega)).2 ⟨hw, (h w (bit31_of_lt hw) hm hn).trans hd⟩

theorem decodes_encT2 {f : Pr → Bool → Target → Target → Instr} (hmaj : maj < 128) (h : AtMajor maj (t2 · f)) {p : Pr} {v : Bool}
    {t u : Target} : decodeTableWord 32 (encT2 maj p v t u) = some (f p v t u) := by
  obtain ⟨hw, hm, -⟩ := (encT2_eq_iff hmaj).1 (rfl : encT2 maj p v t u = _)
  exact h.decodes hw hm ((t2_eq_ok hw hm).2 ⟨p, v, t, u, rfl, rfl⟩)

section
variable {α : Type} {t imm f8 : α → Nat} {make : Pr → α → Instr} {p : Pr}

theorem ReadsTI.decodes (hr : ReadsTI d t imm make) (hmaj : maj < 128) (a : α) (h : AtMajor maj d) :
    decodeTableWord 32 (encTI maj p (t a) (imm a)) = some (make p a) := by
  obtain ⟨hw, hm, -⟩ := (encTI_eq_iff hmaj (hr.t_lt a) (hr.imm_lt a)).1 (rfl : encTI maj p (t a) (imm a) = _)
  exact h.decodes hw hm ((hr.eq_ok hw hm).2 ⟨p, a, rfl, rfl⟩)
theorem ReadsTM.decodes (hr : ReadsTM d f8 t make) (hmaj : maj < 128) (hmn : mn < 16) (a : α) (h : AtMinor maj mn d) :
    decodeTableWord 32 (encTM maj p mn (f8 a) (t a)) = some (make p a) := by
  obtain ⟨hw, hm, -, hn, -⟩ := (encTM_eq_iff hmaj hmn (hr.f8_lt a) (hr.t_lt a)).1 (rfl : encTM maj p mn (f8 a) (t a) = _)
  exact h.decodes hw hm hn ((hr.eq_ok hw hm hn).2 ⟨p, a, rfl, rfl⟩)

end

theorem decodes_read {r : Reg} {t : Target} : decodeTableWord 32 (encTR 0x01 r t.toNat) = some (.read r t) := by
  obtain ⟨hw, hm, -⟩ := (encTR_eq_iff (by decide) t.isLt).1 (rfl : encTR 0x01 r t.toNat = _)
  exact atMajor_read.decodes hw hm ((read_eq_ok hw hm).2 ⟨r, t, rfl, rfl⟩)
theorem decodes_write {r : Reg} : decodeTableWord 32 (encTR 0x02 r 0) = some (.write r) := by
  obtain ⟨hw, hm, -⟩ := (encTR_eq_iff (by decide) (by decide)).1 (rfl : encTR 0x02 r 0 = _)
  exact atMajor_write.decodes hw hm ((write_eq_ok hw hm).2 ⟨r, rfl, rfl⟩)

theorem decodes_setx {p : Pr} {n : BitVec 4} {pos : BitVec 6} {t : Target} (hn : n.toNat < 4) :
    decodeTableWord 32 (encTM 0x09 p n.toNat pos.toNat t.toNat) = some (.setx p n pos t) := by
  obtain ⟨hw, hm, -⟩ := (encTM_eq_iff (by decide) n.isLt (by omega) t.isLt).1 (rfl : encTM 0x09 p n.toNat pos.toNat t.toNat = _)
  exact atMajor_setx.decodes hw hm ((decSetx_eq_ok hw hm).2 ⟨p, n, pos, t, rfl, hn, rfl⟩)
theorem decodes_getx {p : Pr} {n : BitVec 4} {pos : BitVec 6} {t : Target} (hn : n.toNat < 4) :
    decodeTableWord 32 (encTM 0x0A p n.toNat pos.toNat t.toNat) = some (.getx p n pos t) := by
  obtain ⟨hw, hm, -⟩ := (encTM_eq_iff (by decide) n.isLt (by omega) t.isLt).1 (rfl : encTM 0x0A p n.toNat pos.toNat t.toNat = _)
  exact atMajor_getx.decodes hw hm ((decGetx_eq_ok hw hm).2 (.inl ⟨p, n, pos, t, rfl, hn, rfl⟩))
theorem decodes_getxBlr {p : Pr} {t : Target} : decodeTableWord 32 (encTM 0x0A p 0 128 t.toNat) = some (.getxBlr p t) := by
  obtain ⟨hw, hm, -⟩ := (encTM_eq_iff (by decide) (by decide) (by decide) t.isLt).1 (rfl : encTM 0x0A p 0 128 t.toNat = _)
  exact atMajor_getx.decodes hw hm ((decGetx_eq_ok hw hm).2 (.inr ⟨p, t, rfl, rfl⟩))
theorem decodes_br {p : Pr} {o : BitVec 20} :
    decodeTableWord 32 (0x30 * 2 ^ 24 + p.code * 2 ^ 22 + 0 * 2 ^ 20 + o.toNat) = some (.br p o) := by
  have hw := encTB_lt p o (show 0 < 4 by decide)
  have hm := bits_encTB p o (show 0 < 4 by decide)
  exact atMajor_tb.decodes hw hm ((tb_eq_ok hw hm).2 (.inl ⟨p, o, rfl, rfl⟩))
theorem decodes_call {p : Pr} {o : BitVec 20} :
    decodeTableWord 32 (0x30 * 2 ^ 24 + p.code * 2 ^ 22 + 1 * 2 ^ 20 + o.toNat) = some (.call p o) := by
  have hw := encTB_lt p o (show 1 < 4 by decide)
  have hm := bits_encTB p o (show 1 < 4 by decide)
  exact atMajor_tb.decodes hw hm ((tb_eq_ok hw hm).2 (.inr ⟨p, o, rfl, rfl⟩))

theorem decodes_enc16 {f : Target → Instr} {cop : Nat} {t : Target} (hc : cop < 16)
    (h : ∀ w, bit w 15 = true → bits w 10 1 = 0 → bits w 11 4 = cop → decode16 w = .ok (f (tgt w 0))) :
    decodeTableWord 16 (enc16 cop t) = some (f t) := by
  obtain ⟨hw, h15, h10, hcop, ht⟩ := (enc16_eq_iff hc).1 (rfl : enc16 cop t = _)
  rw [decodeTableWord_half hw, h _ h15 h10 hcop, ht]

/-- Settles O54: the word of an instruction leads to its row of the map, and the row's format reads its fields back. -/
theorem roundTrip : Obligations.RoundTrip := by
  intro i n w hwf he
  cases i
  all_goals cases he
  -- Instructions that share their row with another one, or their format with none.
  case read => exact decodes_read
  case write => exact decodes_write
  case setx => exact decodes_setx (of_decide_eq_true hwf)
  case getx => exact decodes_getx (of_decide_eq_true hwf)
  case getxBlr => exact decodes_getxBlr
  case br => exact decodes_br
  case call => exact decodes_call
  case' lea => refine readsTM_decLea.decodes (by decide) (by decide) (⟨_, of_decide_eq_true hwf⟩, _) ?_
  case' resume => refine (readsTM_tmF (f1 := .resumeVal)).decodes (by decide) (by decide) (false, _) ?_
  case' resumeVal => refine (readsTM_tmF (f0 := .resume)).decodes (by decide) (by decide) (true, _) ?_
  case' halt => refine (readsTM_tmF (f1 := .haltRegion)).decodes (by decide) (by decide) (false, _) ?_
  case' haltRegion => refine (readsTM_tmF (f0 := .halt)).decodes (by decide) (by decide) (true, _) ?_
  case' pwrq => refine (readsTM_tmF (f1 := .pwrqSet)).decodes (by decide) (by decide) (false, _) ?_
  case' pwrqSet => refine (readsTM_tmF (f0 := .pwrq)).decodes (by decide) (by decide) (true, _) ?_
  case' amoAadd | amoAand | amoAor | amoAxor | amoAmin | amoAmax | amoAminn | amoAmaxn | amoAxchg | amoAcas =>
    refine readsTM_tmAmo.decodes (by decide) (by decide) (_, _, ⟨_, of_decide_eq_true hwf⟩, _) ?_
  -- The formats.
  any_goals with_reducible refine readsTM_tmZ.decodes (by decide) (by decide) _ ?_
  any_goals with_reducible refine readsTM_tmL.decodes (by decide) (by decide) (_, _) ?_
  any_goals with_reducible refine decodes_encT2 (by decide) ?_
  any_goals with_reducible refine readsTI_ti.decodes (by decide) (_, _) ?_
  any_goals with_reducible refine readsTI_tiPW.decodes (by decide) (_, _, _) ?_
  any_goals with_reducible refine readsTI_tiK.decodes (by decide) (_, _) ?_
  any_goals with_reducible refine readsTI_tiX.decodes (by decide) _ ?_
  any_goals with_reducible refine readsTM_tmX.decodes (by decide) (by decide) () ?_
  any_goals with_reducible refine (readsTM_tmN (by decide)).decodes (by decide) (by decide) (_, _) ?_
  any_goals with_reducible refine readsTM_tmB.decodes (by decide) (by decide) (_, _) ?_
  any_goals with_reducible refine readsTM_tmCvt.decodes (by decide) (by decide) (_, _, _) ?_
  any_goals with_reducible refine readsTM_tmAcc.decodes (by decide) (by decide) (_, _, _) ?_
  any_goals with_reducible refine readsTM_decStatw.decodes (by decide) (by decide) (_, _, _, _, _) ?_
  case compactNop => decide
  any_goals with_reducible refine decodes_enc16 (by decide) fun h h15 h10 hc => ?_
  any_goals
    rw [decode16, h15, h10, hc]
    rfl
  -- The rows of the tables.
  all_goals
    intro w hb hm
    unfold decode32
    generalize bit w 31 = b, bits w 24 7 = m at hb hm ⊢
    subst hb hm
  any_goals rfl
  all_goals
    intro hn
    conv_lhs => whnf
    rw [hn]
    rfl

end Sys2Proof
end

section
/-! SUPPORT. O56 and O57: words from the encoding tables, and what is no instruction (R205). -/

namespace Sys2Proof

open Sys2Proof.Claims

variable {w : Nat}

/-- A decoder's answer is no instruction. -/
def Refuses (r : Dec) : Prop := ∀ i, r ≠ .ok i

theorem refuses_error {e : Reject} : Refuses (.error e) := nofun
theorem refuses_guard {c : Prop} [Decidable c] {r : Dec} {e : Reject} (h : c → Refuses r) : Refuses (if c then r else .error e) :=
  fun i hi => by
    obtain ⟨hc, hi⟩ := guard_eq_ok.1 hi
    exact h hc i hi
theorem refuses_zero {n : Nat} {r : Dec} (h : n ≠ 0) : Refuses (zero n r) := refuses_guard fun hn => absurd hn h
/-- PR = 11 is no predication. -/
theorem refuses_withPr {f : Pr → Dec} (h : bits w 22 2 = 3) : Refuses (withPr w f) := fun i hi => by
  obtain ⟨p, hp, -⟩ := withPr_eq_ok.1 hi
  have hlt := p.code_lt
  omega
theorem refuses_t2 {f : Pr → Bool → Target → Target → Instr} (h : bits w 20 1 = 1) : Refuses (t2 w f) := fun i hi => by
  obtain ⟨p, -, hi⟩ := withPr_eq_ok.1 hi
  exact refuses_zero (by omega) i hi
theorem refuses_tr {f : Reg → Dec} (h : bits w 22 2 = 3 ∨ (bits w 22 2 = 2 ∧ 4 ≤ bits w 17 5) ∨ bits w 10 7 ≠ 0) : Refuses (tr w f) :=
  fun i hi => by
    obtain ⟨r, hr, hz, -⟩ := tr_eq_ok.1 hi
    have hreg := trReg_eq_some.1 hr
    cases r <;> simp only at hreg <;> omega

/-! ## The map of majors -/

theorem refuses_reserved (h : bits w 24 7 ∈ reservedMajors) : Refuses (decode32 w) := by
  unfold decode32
  split
  · exact refuses_error
  split
  any_goals with_reducible exact refuses_error
  all_goals
    rename_i hm
    rw [hm] at h
    exact absurd h (by decide)
theorem refuses_t2Majors (h : bits w 24 7 ∈ t2Majors) (hM : bits w 20 1 = 1) : Refuses (decode32 w) := by
  unfold decode32
  split
  · exact refuses_error
  split
  any_goals with_reducible exact refuses_t2 hM
  any_goals with_reducible exact refuses_error
  all_goals
    rename_i hm
    rw [hm] at h
    exact absurd h (by decide)
theorem refuses_pr (h1 : bits w 24 7 ≠ 1) (h2 : bits w 24 7 ≠ 2) (h : bits w 22 2 = 3) : Refuses (decode32 w) := by
  unfold decode32
  split
  · exact refuses_error
  split
  case h_1 => contradiction
  case h_2 => contradiction
  any_goals with_reducible exact refuses_error
  any_goals
    simp only [decStat, decMul, decDiv, decShift, decShifti, decBits, decMinmax, decCmp, decExt, decCrd, decBri, decExit, decFminmax, decFun,
      decFcmp, decFcvt, decFrnd, decVred, decVscan, decVmask, decLd, decSt, decLdr, decStr, decAmo, decFence, decBind, decLwait, decTcwait,
      decSctl, decCopy, decMctl, decMbx, decSteal, decSys, decDbg]
    split
  any_goals with_reducible exact refuses_error
  any_goals with_reducible refine refuses_guard fun _ => ?_
  all_goals exact refuses_withPr h

/-! ## The statements -/

theorem slot_refused (hw : w < 2 ^ 31) (h : Refuses (decode32 w)) : decodeTableWord 32 w = none :=
  Option.eq_none_iff_forall_ne_some.2 fun i hi => h i ((decodeTableWord_slot (by omega)).1 hi).2
theorem AtMajor.refused {maj : Nat} {d : Nat → Dec} (hd : AtMajor maj d) (hw : w < 2 ^ 31) (hm : bits w 24 7 = maj) (h : Refuses (d w)) :
    decodeTableWord 32 w = none := slot_refused hw (by rwa [hd w (bit31_of_lt hw) hm])
theorem half_refused (hw : w < 2 ^ 16)
    (h : w < 2 ^ 15 ∨ w / 2 ^ 10 % 2 = 1 ∨ w / 2 ^ 11 % 16 = 15 ∨ (w / 2 ^ 11 % 16 = 0 ∧ w % 1024 ≠ 1023)) : decodeTableWord 16 w = none := by
  refine Option.eq_none_iff_forall_ne_some.2 fun i hi => ?_
  have hd := (decodeTableWord_half hw).1 hi
  simp only [decode16, guard_eq_ok, zero_eq_ok] at hd
  obtain ⟨h15, h10, hd⟩ := hd
  rw [bit_eq_iff, bits, Bool.toNat_true] at h15
  rw [bits] at h10
  obtain h | h | h | ⟨hc, ht⟩ := h
  · omega
  · omega
  · rw [show bits w 11 4 = 15 from h] at hd
    cases hd
  · rw [show bits w 11 4 = 0 from hc] at hd
    obtain ⟨hn, -⟩ := guard_eq_ok.1 hd
    rw [bits] at hn
    omega

/-- Settles O56: the sixteen words are decoded. -/
theorem specWords : Obligations.SpecWords := by
  unfold Obligations.SpecWords
  decide

/-- Settles O57: the map and the formats refuse each of them. -/
theorem reservedEncodings : Obligations.ReservedEncodings := by
  have hslot {m : Nat} (hlt : m < 128) {w : Nat} (hm : w / 2 ^ 24 = m) : w < 2 ^ 31 ∧ bits w 24 7 = m := by
    rw [bits]
    omega
  refine ⟨fun m hmem w hm => ?_, fun w hw h1 h2 hp => ?_, fun m hmem w hm hM => ?_, fun w hm h => ?_, fun w hm h => ?_, fun w hm h => ?_,
    fun w => half_refused⟩
  · obtain ⟨hw, rfl⟩ := hslot ((by decide : ∀ m ∈ reservedMajors, m < 128) m hmem) hm
    exact slot_refused hw (refuses_reserved hmem)
  · have hm : bits w 24 7 = w / 2 ^ 24 := Nat.mod_eq_of_lt (by omega)
    exact slot_refused hw (refuses_pr (hm ▸ h1) (hm ▸ h2) hp)
  · obtain ⟨hw, rfl⟩ := hslot ((by decide : ∀ m ∈ t2Majors, m < 128) m hmem) hm
    exact slot_refused hw (refuses_t2Majors hmem hM)
  · obtain hm | hm := hm
    · obtain ⟨hw, hm⟩ := hslot (by decide) hm
      exact atMajor_read.refused hw hm (refuses_tr h)
    · obtain ⟨hw, hm⟩ := hslot (by decide) hm
      exact atMajor_write.refused hw hm (refuses_tr h)
  · obtain ⟨hw, hm⟩ := hslot (by decide) hm
    refine atMajor_write.refused hw hm fun i hi => ?_
    obtain ⟨r, -, -, hi⟩ := tr_eq_ok.1 hi
    obtain ⟨ht, -⟩ := guard_eq_ok.1 hi
    rw [bits] at ht
    omega
  · obtain ⟨hw, hm⟩ := hslot (by decide) hm
    refine atMajor_tb.refused hw hm fun i hi => ?_
    obtain ⟨p, -, hi⟩ := withPr_eq_ok.1 hi
    split at hi
    · rw [bits] at *
      omega
    · rw [bits] at *
      omega
    · cases hi

end Sys2Proof
end

section
/-! SUPPORT. O5 and O12: compact arithmetic, and MOV, NULL and MOVI in both widths (R202, R222). -/

namespace Sys2Proof.Machine

open Sys2Proof Sys2Proof.Claims

/-! ## Compact arithmetic (R201, R202) -/

/-- A row of `compactPairs` is the form of two operands that takes scalars only. -/
def IsCompactLane2 (r : Target → Instr × Nat × (Word → Word → Word × BitVec 7)) : Prop :=
  ∃ g : Grp, ∀ t, g.charges (r t).2.1 ∧ ∀ s, exec (r t).1 s = s.lane2 g .scalars .always [t] (r t).2.2

theorem isCompactLane2_of {r : Target → Instr × Nat × (Word → Word → Word × BitVec 7)} {g : Grp} {cls : Nat} (hg : g.charges cls)
    (hcls : ∀ t, (r t).2.1 = cls) (he : ∀ t s, exec (r t).1 s = s.lane2 g .scalars .always [t] (r t).2.2) : IsCompactLane2 r :=
  ⟨g, fun t => ⟨hcls t ▸ hg, he t⟩⟩

theorem compactPairs_isCompactLane2 : ∀ r ∈ compactPairs, IsCompactLane2 r := by
  simp only [compactPairs, List.forall_mem_cons, List.not_mem_nil, false_implies, implies_true, and_true]
  have int {r} := @isCompactLane2_of r _ _ Grp.charges_int
  have float {r} := @isCompactLane2_of r _ _ Grp.charges_float
  refine ⟨int ?_ ?_, int ?_ ?_, int ?_ ?_, int ?_ ?_, int ?_ ?_, int ?_ ?_, int ?_ ?_, float ?_ ?_, float ?_ ?_⟩ <;> intros <;> rfl

theorem Token.isNull_eq_false_iff {t : Token} : t.isNull = false ↔ t ≠ .null := by cases t <;> simp [Token.isNull]

/-- An operand that is no scalar does not meet what a compact instruction asserts. -/
theorem Assert.scalars_fails {mask : Bool} {os : List Token} (h : ∃ x ∈ os, x.isScalar = false) :
    Assert.scalars.holds mask os = false := by
  obtain ⟨x, hx, hs⟩ := h
  cases hd : x.isData with
  | false =>
    have hall : os.all Token.isData = false := List.all_eq_false.2 ⟨x, hx, by rw [hd]; decide⟩
    simp [Assert.holds, hall]
  | true =>
    have hany : os.any Token.isVector = true := List.any_eq_true.2 ⟨x, hx, by simpa [Token.isData, hs] using hd⟩
    simp [Assert.holds, hany]

theorem Grp.cls_scalar (g : Grp) (w : Word) : g.cls (.scalar w) = g.cls .null := by cases g <;> rfl

/-- Settles O5: each row of `compactPairs` is `State.lane2` with the assertion of scalars, NOT and NEG are `State.lane1` with it, and
an operand that is no scalar breaks the assertion. -/
theorem compactArithmetic : Obligations.CompactArithmetic := by
  refine ⟨fun r hr t s c a b hv hl hrt => ?_, fun t s c a hv hl => ⟨?_, ?_⟩, fun r hr t s c hv hl hrt h => ?_,
    fun t s c hv hl h => ⟨?_, ?_⟩, fun s f ix hf hix => ?_⟩
  · obtain ⟨g, hg⟩ := compactPairs_isCompactLane2 r hr
    obtain ⟨⟨hcls, -⟩, he⟩ := hg t
    rw [he, State.lane2_scalar hv (mask_of_always hv) hl hrt (by decide), g.cls_scalar, hcls]
  · exact State.lane1_scalar hv (mask_of_always hv) hl (by decide)
  · exact (State.lane1_scalar hv (mask_of_always hv) hl (by decide)).trans rfl
  · obtain ⟨g, hg⟩ := compactPairs_isCompactLane2 r hr
    obtain ⟨⟨hcls, -⟩, he⟩ := hg t
    rw [he, State.lane2_rejects hv (Token.isNull_eq_false_iff.2 hl) (Token.isNull_eq_false_iff.2 hrt)
      (Assert.scalars_fails (by simpa using h)), hcls]
  · exact State.lane1_rejects hv (Token.isNull_eq_false_iff.2 hl) (Assert.scalars_fails ⟨_, List.mem_singleton_self _, h⟩)
  · exact State.lane1_rejects hv (Token.isNull_eq_false_iff.2 hl) (Assert.scalars_fails ⟨_, List.mem_singleton_self _, h⟩)
  · rw [show exec .compactNop s = execCompactNop s from rfl, execCompactNop, hf]
    simp only [hix]
    rfl

/-! ## MOV, NULL and MOVI (R222) -/

/-- A predicate that is no lane mask lets every lane through. -/
theorem enabled_of_unmasked {s : State} {p : Pr} {c : Fire} (h : s.view p = some c) (hm : c.mask = false) : c.en = 255 := by
  obtain ⟨-, -, -, -, hp, -⟩ := State.view_cases h
  revert hp
  rw [hm]
  unfold predicate
  split
  case h_1 => exact fun hp => (Pred.go.inj hp).1.symm
  case h_2 => exact nofun
  case h_3 =>
    split
    · exact nofun
    · exact fun hp => (Pred.go.inj hp).1.symm
  case h_4 =>
    split
    · exact fun hp => (Pred.go.inj hp).1.symm
    · exact nofun
  case h_5 => exact fun hp => absurd (Pred.go.inj hp).2 (by decide)
  case h_6 => exact nofun

/-- With every lane enabled, `disable` leaves a token as it is. -/
theorem Token.disable_all (t : Token) : t.disable 255 = t := by
  cases t <;> simp [Token.disable]

section
variable {s : State} {p : Pr} {c : Fire} {ts : List Target} {v : Option Bool} {f : Fire → Token}
  (hv : s.view p = some c) (hl : c.left ≠ .null)
include hv hl

/-- What a form passes on whose V the operand meets, or that asserts nothing, arrives unchanged at every target. -/
theorem passOn_delivers (hm : c.mask = false) (ha : v = none ∨ v = some c.left.isVector) :
    s.fire (mkShape p true false .none ts .plain) .plumb true false (fun c => passOn v c (f c)) = .next (c.after 0 ts (f c)) := by
  have hagree : agrees v c.mask c.left = true := by obtain rfl | rfl := ha <;> simp [agrees, hm]
  refine State.fire_delivers (t := f c) (fl := 0) (e := none) (ld := none) hv (by simp) ?_ ?_
  · simp [Fire.filled, mkShape, Token.isNull_eq_false_iff.2 hl]
  · simp only [passOn, hagree, if_true, enabled_of_unmasked hv hm, Token.disable_all]
    rfl

/-- A V that the operand does not meet is the operand-type fault. -/
theorem passOn_faults (ha : v = some (!c.left.isVector)) :
    s.fire (mkShape p true false .none ts .plain) .plumb true false (fun c => passOn v c (f c)) = .next (c.faulted 0 .operandType 0 0) := by
  have hagree : agrees v c.mask c.left = false := by simp [agrees, ha]
  refine State.fire_faults hv (by simp) ?_ ?_
  · simp [Fire.filled, mkShape, Token.isNull_eq_false_iff.2 hl]
  · simp only [passOn, hagree, Bool.false_eq_true, if_false]
    rfl
end

/-- Settles O12: MOV, NULL and their compact forms are `passOn`, which delivers or faults by V alone; MOVI needs no operand. -/
theorem movNullMovi : Obligations.MovNullMovi := by
  refine ⟨fun p t u s c hv hm hl => ⟨?_, ?_, ?_, ?_⟩, fun t s c hv hl => ⟨?_, ?_⟩, fun p i t s c hv hm => ?_⟩
  · exact passOn_delivers (f := Fire.left) hv hl hm (.inr rfl)
  · exact passOn_delivers (f := fun _ => .null) hv hl hm (.inr rfl)
  · exact passOn_faults (f := Fire.left) hv hl rfl
  · exact passOn_faults (f := fun _ => .null) hv hl rfl
  · exact passOn_delivers (f := Fire.left) hv hl (mask_of_always hv) (.inl rfl)
  · exact passOn_delivers (f := fun _ => .null) hv hl (mask_of_always hv) (.inl rfl)
  · exact State.fire_delivers (t := .scalar (sext12 i)) (fl := 0) (e := none) (ld := none) hv (by simp [hm]) rfl rfl

end Sys2Proof.Machine
end
